-- ==== Sys2Proof/Word.lean ====
section
/-! DEFINITION. The word types of the manual and their plainest arithmetic. -/

namespace Sys2Proof

/-- One byte. -/
abbrev Byte := BitVec 8
/-- A 16-bit quantity. -/
abbrev W16 := BitVec 16
/-- A 32-bit quantity. -/
abbrev W32 := BitVec 32
/-- A 48-bit quantity: the seconds of a W80 stamp, an A48 stamp (R7). -/
abbrev W48 := BitVec 48
/-- A 64-bit quantity: a W64 stamp (R7), a host tag, a core register. -/
abbrev W64 := BitVec 64

end Sys2Proof
end

