-- ==== Sys2Proof/Syntax.lean ====
section
/-! DEFINITION. The commands and events of the block, with their operands. -/

namespace Sys2Proof

/-- The source of a fetched command: its context, its command-ring index and its host tag (R471, R490). -/
structure CmdHdr where
  ctx : Fin 8
  index : W32
  tag : W64
  deriving DecidableEq, Repr, Inhabited

/-- How the DMA chain into an output buffer ends: done, unconfirmed, or with a bad descriptor after so many bytes were
delivered (R512, R517). -/
inductive ChainFate where
  | done
  | unconfirmed
  | bad (sent : W32)
  deriving DecidableEq, Repr, Inhabited

/-- The output buffer of a command that returns more than 32 bytes (R488), with how the write into it ends, which the
host's port decides. -/
structure Out where
  addr : W64
  len : W32
  fate : ChainFate := .done
  deriving DecidableEq, Repr, Inhabited

/-- A host command with its arguments, as the command table lists them (R500). Journal entries hold one (R492). -/
inductive HostOp where
  | nop
  | select (obj hold : W16)
  | deselect (obj : W16)
  | cancel (target : W64)
  | moduleStatus
  | readTime (out : Out) (clear : Byte)
  | forceTime (mode : Byte) (ns : W32) (value : W64)
  | adjustRate (incr : W64) (lock : Byte)
  | stepTime (offset : W64)
  | readAngle (out : Out) (bay clear : Byte)
  | writeSettings (group : Byte) (first count : W16) (desc : List Byte)
  | selectGroup (bay group : Byte)
  | setCurve (body : List Byte)
  | readSettings (out : Out) (group : Byte) (first count : W16)
  | selfCal
  | auxStart (seq : Byte) (slot : W32)
  | readAux (out : Out) (seq : Byte)
  | breakerClose (bay mode : Byte) (target : W16)
  | breakerOpen (bay mode : Byte) (target : W16)
  | clearTripFault (channel : Byte)
  | armCapture (slot arm : Byte)
  | fireCapture (slot : Byte)
  | cutTwRecord (bay : Byte) (at_ : W64)
  | readTwRecord (out : Out) (seq : W32)
  | readSnapshot (out : Out)
  | cisternRequest (out : Out) (req : Byte) (count : W16) (first : W32)
  | loadImage (slot : Byte) (size : W32) (src : W64)
  | verifyImage (slot : Byte)
  | eraseSlot (slot : Byte)
  | startProgram (slot warm : Byte)
  | stopProgram
  | holdProgram (hold : Byte)
  | writePoint (quality : W16) (point : W32) (value : W64)
  | readPoints (out : Out) (first count : W32)
  | flagSet (task flag : Byte)
  | flagCancel (task : Byte) (mask : W32)
  | skimPrepare (len : W32) (map : W64)
  | skimSwitch (earliest : W64)
  | skimAbort
  | skimRollback
  | skimConfirm
  | forceSet (quality : W16) (point : W32) (value : W64) (tag : W32)
  | forceClear (orphan : Byte) (point : W32)
  | readForces (out : Out)
  | fieldRearm (supply : Byte)
  | lifecycleSet (target : Byte) (confirm : W32)
  | resetModule (kind : Byte)
  | loadFirmware (slot : Byte) (size : W32) (src : W64)
  | requestRemoval
  deriving DecidableEq, Repr, Inhabited

/-- What an Announce message says of its grandmaster (R43, R56), with the sender's port identity. -/
structure Announce where
  src : W64
  identity : W64
  prio1 : Byte
  cls : Byte
  acc : Byte
  var : W16
  prio2 : Byte
  steps : W16
  utcOffset : W16
  utcValid : Bool
  leap61 : Bool
  leap59 : Bool
  deriving DecidableEq, Repr, Inhabited

/-- The content of a received PTP message (R52, R55): `corr` is the correctionField in ns × 2^16; `req` and `port` name the port
whose request a peer-delay response answers. -/
inductive PtpMsg where
  | announce (domain : Byte) (a : Announce)
  | sync (domain : Byte) (src : W64) (seq : W16) (twoStep : Bool) (sec : W48) (ns : W32) (corr : W64)
  | followUp (domain : Byte) (src : W64) (seq : W16) (sec : W48) (ns : W32) (corr : W64)
  | pdelayReq (domain : Byte) (src : W64) (port seq : W16) (corr : W64)
  | pdelayResp (domain : Byte) (twoStep : Bool) (req : W64) (port seq : W16) (sec : W48) (ns : W32) (corr : W64)
  | pdelayRespFollowUp (domain : Byte) (req : W64) (port seq : W16) (sec : W48) (ns : W32) (corr : W64)
  deriving DecidableEq, Repr, Inhabited

/-- The UTC offset and the pending-leap flags of IRIG-B control bits (R43, R62). -/
structure IrigBits where
  offset : W16
  leap61 : Bool
  leap59 : Bool
  deriving DecidableEq, Repr, Inhabited

/-- What the timing input shows: an edge of the 1PPS signal, or an IRIG-B frame with its UTC seconds and, where it has the
extension bits, what they carry (R62, R63). -/
inductive RefSignal where
  | pps (falling : Bool)
  | irig (valid : Bool) (utcSec : W48) (bits : Option IrigBits)
  deriving DecidableEq, Repr, Inhabited

/-- A sample as a filter delivers it: the 24-bit value, whether a word of its span carried OVR, and whether one was at
full-scale code. -/
structure RawSample where
  value : BitVec 24
  ovr : Bool
  full : Bool
  deriving DecidableEq, Repr, Inhabited



/-- The three points of a slice calibration, as raw codes of zero, +0.9 and −0.9 of range (R121). -/
structure CalPoints where
  zero : Int
  plus : Int
  minus : Int
  deriving DecidableEq, Repr, Inhabited

/-- A stream descriptor as the module reads it (R482, R483): its buffer, whether the read succeeded, and whether the
DMA transfer of a block into it ends done (R517). -/
structure StreamDesc where
  addr : W64
  len : W32
  readable : Bool
  done : Bool
  deriving DecidableEq, Repr, Inhabited

/-- What the converters of the Cistern give at one sample instant: the channels CI1 to CI4 and CU1 to CU4 (R312, R315). -/
abbrev CisInput := Vector RawSample 8

/-- A change of one legally relevant setting through the optical port (R319 to R321, R327, R329): ratios × 100, meter
constants × 1,000, intervals in minutes, and switching times as minute of the day and tariff. -/
inductive CisSetting where
  | ctRatio (v : W32)
  | vtRatio (v : W32)
  | kAct (v : W32)
  | kReact (v : W32)
  | tariffs (weekday weekend : List (W16 × Byte)) (mask : BitVec 7)
  | demInt (min : Byte)
  | profInt (ch : Fin 2) (min : Byte)
  | localTime (offset : W16) (dst : W32)
  | accessCode (code : W32)
  deriving DecidableEq, Repr, Inhabited

/-- The first sample of a new debounced level: its wall time with the time quality and step count there (R431). -/
structure EdgeStamp where
  w64 : W64
  tq : Byte
  tsc : Byte
  deriving DecidableEq, Repr, Inhabited

/-- What an output island measures: terminal voltage in % of the supply, output current in mA, current limit and
thermal shutdown (R444). -/
structure OutMeas where
  vTerm : Nat
  iOut : Nat
  limit : Bool
  thermal : Bool
  deriving DecidableEq, Repr, Inhabited
/-- What the reads of one command-ring slot and of its chain return: a failed slot read at an address, or the 64 bytes of
the slot and, in chain order, of each extension, none where that read fails (R471 to R474). -/
inductive SlotRead where
  | bad (addr : W64)
  | slot (bytes : List Byte) (exts : List (Option (List Byte)))
  deriving DecidableEq, Repr, Inhabited


/-- What the module meets while a burst runs: the bytes that the source returned, and the errors (R513, R514): a failed read,
an uncorrectable error at a module address, an error response to a write beat, and one to the last beat. -/
structure BurstIo where
  data : List Byte
  readFails : Bool := false
  ecc : Option W64 := none
  writeFails : Bool := false
  lastFails : Bool := false
  deriving DecidableEq, Repr, Inhabited
/-- What every received Ethernet frame has: its port, whether its FCS and its length are right, destination, VLAN
identifier, source and sequence number of a PRP trailer or HSR tag, and the instant, W64, at which it crossed
the port, before the port's receive latency is taken off (R520, R524, R526, R60). -/
structure RxHead where
  port : Fin 8
  good : Bool
  dst : W48
  vid : BitVec 12
  red : Option (W48 × W16)
  ingress : W64
  deriving DecidableEq, Repr, Inhabited

/-- A flattened element of a GOOSE frame's allData (R534, R535): a bit-string's first bit comes first; a time is utc-time as
seconds since 1970 in bits 63:32 and a fraction of a second in bits 31:8. -/
inductive GooseVal where
  | bool (b : Bool)
  | int (x : Int)
  | uint (x : Nat)
  | real (x : W32)
  | lreal (x : W64)
  | bits (l : List Bool)
  | time (t : W64)
  deriving DecidableEq, Repr, Inhabited

/-- The fields of a GOOSE frame (R534): its strings without padding, and timeAllowedToLive in ms. -/
structure GooseRx where
  head : RxHead
  appid : W16
  gocbRef : List Byte
  datSet : List Byte
  tal : W32
  stNum : W32
  sqNum : W32
  test : Bool
  sim : Bool
  confRev : W32
  ndsCom : Bool
  allData : List GooseVal
  deriving DecidableEq, Repr, Inhabited

/-- One ASDU of a sampled-value frame with its dataset's pairs of a value and a quality (R536 to R538). -/
structure SvRx where
  head : RxHead
  appid : W16
  svId : List Byte
  sim : Bool
  confRev : W32
  smpCnt : W16
  smpSynch : Byte
  pairs : List (W32 × W32)
  deriving DecidableEq, Repr, Inhabited

/-- A frame that a CAN controller received: its SOF stamp, identifier and format, and its payload (R556, R558, R561). -/
structure CanRx where
  ts : W32
  id : BitVec 29
  ide : Bool
  rtr : Bool
  fdf : Bool
  brs : Bool
  esi : Bool
  dlc : BitVec 4
  payload : List Byte
  deriving DecidableEq, Repr, Inhabited

/-- How a transmission attempt ends: sent, arbitration lost, or an error with its code (1 bit, 2 stuff, 3 form, 4 ack, 5 CRC),
in the data phase or not (R548, R561). -/
inductive CanEnd where
  | sent
  | lost
  | error (code : BitVec 3) (data : Bool)
  deriving DecidableEq, Repr, Inhabited


/-- What a partner heartbeat carries (R567), with the partner's block reason, its partner_node, and the one-way delay in ns
that it measured of this module's last heartbeat (R570). -/
structure PeerBeat where
  role : BitVec 3
  phase : BitVec 3
  reason : BitVec 4
  node : BitVec 14
  partnerNode : BitVec 14
  lcy : BitVec 3
  fw : W32
  cfgFp : W64
  progFp : W64
  window : Bool
  commitSeq : W64
  leftAt : W64
  delay : Option W64
  flags : List W32
  goose : List (W32 × W32)
  groups : List W32
  arrivals : List W32
  deriving DecidableEq, Repr, Inhabited

/-- A release as the link carries it: scan timestamp, its quality and step count, angle and its quality, and the cycle
number (R343, R354). -/
structure PeerRelease where
  ts : W64
  tq : Byte
  tsc : Byte
  a48 : BitVec 48
  aq : Byte
  cycle : W64
  deriving DecidableEq, Repr, Inhabited

/-- A point's value, stamp and quality as the link carries them (R346). -/
structure PeerPoint where
  value : W64
  stamp : W64
  quality : W16
  tq : Byte
  tsc : Byte
  deriving DecidableEq, Repr, Inhabited

/-- A deferred action of a commit record (R361, R386). -/
structure PeerAction where
  svc : W16
  args : List W32
  deriving DecidableEq, Repr, Inhabited

/-- A commit record (R361). -/
structure PeerCommitRec where
  task : Fin 64
  rel : PeerRelease
  seq : W64
  snapCrc : W32
  outCrc : W32
  ranges : List (W32 × List Byte)
  acts : List PeerAction
  deriving DecidableEq, Repr, Inhabited

/-- What an effect notice names: a command, with the switch instant for SKIM_SWITCH and SKIM_ROLLBACK, or a deferred
action of a task (R565, R576). -/
inductive PeerNotice where
  | command (ctx : Fin 8) (tag : W64) (tsw : Option W64)
  | action (task : Fin 64) (svc : W16)
  deriving DecidableEq, Repr, Inhabited

/-- The outcome in a tag record (R490). -/
structure PeerFinal where
  status : W16
  step : W32
  result : List Byte
  replayed : Bool
  deriving DecidableEq, Repr, Inhabited

/-- What the pages of a state copy hold (R573). -/
inductive CopyItem where
  /-- A 4 KiB page of instance data. -/
  | page (n : W32) (bytes : List Byte)
  /-- The newest complete retained copy. -/
  | retained (fpRetain : W32) (seq : W64) (bytes : List Byte)
  /-- A journal record that follows it. -/
  | commit (c : PeerCommitRec)
  | point (index : W32) (v : PeerPoint) (shadow : Option PeerPoint)
  | force (point : W32) (orphan : Bool) (reason origin tq : Byte) (value setAt : W64) (quality : W16) (typ : Byte) (tag : W32)
  | tag (ctx : Fin 8) (tag : W64) (opcode : W16) (crc index : W32) (final : Option PeerFinal)
  | entry (h : CmdHdr) (op : HostOp) (effect : Bool)
  | owner (object : Fin 9) (ctx : Fin 8) (expiry : W64) (hold : W16)
  | flags (task : Fin 64) (flags : W32)
  deriving DecidableEq, Repr, Inhabited

/-- What an image transfer brings: the image of the free slot, or the migration map of a change to it (R408). -/
inductive Transfer where
  | image (bytes : List Byte)
  | map (bytes : List Byte)
  deriving DecidableEq, Repr, Inhabited

/-- A compare unit that the image assigns, with the Primary's target and period (R574): a wall unit, or an angle unit of a
bay; its destination and index. -/
structure PeerUnit where
  bay : Option (Fin 4)
  target : W64
  period : W64
  dest : BitVec 4
  index : BitVec 6
  deriving DecidableEq, Repr, Inhabited

/-- An entry in the MRAM whose word or CRC fails (R28, R32). -/
inductive MramEntry where
  | record (slot : W32)
  | tag (ctx : Fin 8) (tag : W64)
  | command (ctx : Fin 8) (tag : W64)
  /-- A retained copy, 0 the newest; and a record of the task journal, 0 the newest. -/
  | copy (n : Nat)
  | commit (n : Nat)
  | descriptor (group : Fin 8) (slot : Fin 1024)
  | curve (n : Fin 8)
  | force (point : W32)
  /-- The stored image of a setup register, the factors of a slice, and a learned operating time. -/
  | setup (offset : W32)
  | calibration (slice : Fin 36)
  | learned (bay : Fin 4) (opens : Bool)
  deriving DecidableEq, Repr, Inhabited

/-- The memories that the scrubber reads at one interval (R30). -/
inductive ScrubOf where
  | sram | dram | mram
  deriving DecidableEq, Repr, Inhabited

/-- Where a scrub pass finds an uncorrectable error (R30, R32): a core is named where it executes a scan that read the
word. -/
inductive EccHit where
  | coreSram (core : Fin 8)
  | descriptor (group : Fin 8) (slot : Fin 1024)
  | element (bay : Fin 4) (slot : Fin 1024)
  | point (index : W32)
  | image (core : Option (Fin 8))
  | instanceData (core : Option (Fin 8))
  /-- A word of a frame that waits in the block of a capture subscription: frame and word by position. -/
  | staging (sub : Fin 8) (frame word : Nat)
  | jetRing (slot : BitVec 25)
  | mram (e : MramEntry)
  deriving DecidableEq, Repr, Inhabited

/-- A register of a compare unit (R74, R107); a wall unit's target is two registers, seconds and nanoseconds. -/
inductive CmpReg where
  | target
  | targetNs
  | period
  | control
  deriving DecidableEq, Repr, Inhabited

/-- The commands and events of the block: one constructor for each row of the opcode table. -/
inductive Instr where
  /-- NOP (R500): Host command that does nothing and completes OK. -/
  | nop (h : CmdHdr)
  /-- SELECT (R494): Grants a shared object (breaker, settings, program) to the issuing context or refuses with OWNED. -/
  | select (h : CmdHdr) (obj hold : W16)
  /-- DESELECT (R495): Releases the issuing context's ownership of a shared object. -/
  | deselect (h : CmdHdr) (obj : W16)
  /-- CANCEL (R498): Ends a running long operation of the context at its next step boundary. -/
  | cancel (h : CmdHdr) (target : W64)
  /-- MODULE_STATUS (R501): Returns the module status block with mode codes, wear, temperature, OT32, PC32 and fingerprint. -/
  | moduleStatus (h : CmdHdr)
  /-- READ_TIME (R73): Returns the 64-byte time status block and optionally clears its flags. -/
  | readTime (h : CmdHdr) (out : Out) (clear : Byte)
  /-- FORCE_TIME (R50): Applies a step of any size or sets absolute wall time in Commissioning or Maintenance, and sets tq to Holdover. -/
  | forceTime (h : CmdHdr) (mode : Byte) (ns : W32) (value : W64)
  /-- ADJUST_RATE (R53): Host servo sets the wall-clock increment and optionally brings the clock to Traceable. -/
  | adjustRate (h : CmdHdr) (incr : W64) (lock : Byte)
  /-- STEP_TIME (R53): Host servo requests a step of wall time, subject to the step limits. -/
  | stepTime (h : CmdHdr) (offset : W64)
  /-- READ_ANGLE (R106): Returns the angle status block of one bay and optionally clears its flags. -/
  | readAngle (h : CmdHdr) (out : Out) (bay clear : Byte)
  /-- WRITE_SETTINGS (R192): Checks and writes the descriptors of one group for a contiguous range of slots. -/
  | writeSettings (h : CmdHdr) (group : Byte) (first count : W16) (desc : List Byte)
  /-- SELECT_GROUP (R202): Requests a settings-group switch for one bay, applied from the next tick. -/
  | selectGroup (h : CmdHdr) (bay group : Byte)
  /-- SET_CURVE (R223): Writes one user curve table after checking its body and its use. -/
  | setCurve (h : CmdHdr) (body : List Byte)
  /-- READ_SETTINGS (R500): Returns descriptors of one group to a host buffer. -/
  | readSettings (h : CmdHdr) (out : Out) (group : Byte) (first count : W16)
  /-- SELF_CAL (R123): Starts recalibration of all slices of all bays on demand. -/
  | selfCal (h : CmdHdr)
  /-- AUX_START (R144): Starts an auxiliary-converter sequence or queues one single conversion. -/
  | auxStart (h : CmdHdr) (seq : Byte) (slot : W32)
  /-- READ_AUX (R148): Returns the 16 result records of one auxiliary sequence. -/
  | readAux (h : CmdHdr) (out : Out) (seq : Byte)
  /-- BREAKER_CLOSE (R260): Checks and schedules an immediate or point-on-wave close of a bay's breaker. -/
  | breakerClose (h : CmdHdr) (bay mode : Byte) (target : W16)
  /-- BREAKER_OPEN (R260): Checks and schedules an immediate or point-on-wave open of a bay's breaker. -/
  | breakerOpen (h : CmdHdr) (bay mode : Byte) (target : W16)
  /-- CLEAR_TRIP_FAULT (R252): Clears the overload latch of a trip channel. -/
  | clearTripFault (h : CmdHdr) (channel : Byte)
  /-- ARM_CAPTURE (R290): Arms or disarms a capture-group slot and sends the arm or disarm message. -/
  | armCapture (h : CmdHdr) (slot arm : Byte)
  /-- FIRE_CAPTURE (R291): Inserts a manual mark and optionally sends a group fire. -/
  | fireCapture (h : CmdHdr) (slot : Byte)
  /-- CUT_TW_RECORD (R301): Cuts a travelling-wave record around the frame nearest a given instant. -/
  | cutTwRecord (h : CmdHdr) (bay : Byte) (at_ : W64)
  /-- READ_TW_RECORD (R304): Returns a travelling-wave record by sequence number. -/
  | readTwRecord (h : CmdHdr) (out : Out) (seq : W32)
  /-- READ_SNAPSHOT (R336): Returns a copy of the latest Cistern snapshot. -/
  | readSnapshot (h : CmdHdr) (out : Out)
  /-- CISTERN_REQUEST (R334): Sends a read-request frame to the Cistern and returns its reply. -/
  | cisternRequest (h : CmdHdr) (out : Out) (req : Byte) (count : W16) (first : W32)
  /-- LOAD_IMAGE (R339): Long operation that writes a program image into a non-running slot. -/
  | loadImage (h : CmdHdr) (slot : Byte) (size : W32) (src : W64)
  /-- VERIFY_IMAGE (R341): Long operation that checks an image and sets its slot Verified or Invalid. -/
  | verifyImage (h : CmdHdr) (slot : Byte)
  /-- ERASE_SLOT (R339): Long operation that erases a program-image slot. -/
  | eraseSlot (h : CmdHdr) (slot : Byte)
  /-- START_PROGRAM (R359): Starts the image of a Verified slot warm or cold, running initialisation routines before first releases. -/
  | startProgram (h : CmdHdr) (slot warm : Byte)
  /-- STOP_PROGRAM (R339): Stops the program and returns the Running slot to Verified. -/
  | stopProgram (h : CmdHdr)
  /-- HOLD_PROGRAM (R364): Moves the control state between Hold and Run. -/
  | holdProgram (h : CmdHdr) (hold : Byte)
  /-- WRITE_POINT (R345): Host writes value and quality of a point whose writer kind is host. -/
  | writePoint (h : CmdHdr) (quality : W16) (point : W32) (value : W64)
  /-- READ_POINTS (R346): Returns a range of point records. -/
  | readPoints (h : CmdHdr) (out : Out) (first count : W32)
  /-- FLAG_SET (R395): Host sets a Cascade event flag of a task. -/
  | flagSet (h : CmdHdr) (task flag : Byte)
  /-- FLAG_CANCEL (R398): Host cancels Cascade event flags of a task by mask. -/
  | flagCancel (h : CmdHdr) (task : Byte) (mask : W32)
  /-- SKIM_PREPARE (R410): Checks a migration map and builds the new instance data for an on-line change. -/
  | skimPrepare (h : CmdHdr) (len : W32) (map : W64)
  /-- SKIM_SWITCH (R416): Chooses the switch instant of a prepared on-line change. -/
  | skimSwitch (h : CmdHdr) (earliest : W64)
  /-- SKIM_ABORT (R408): Abandons an on-line change that has not switched. -/
  | skimAbort (h : CmdHdr)
  /-- SKIM_ROLLBACK (R419): Starts a reverse change within the rollback window. -/
  | skimRollback (h : CmdHdr)
  /-- SKIM_CONFIRM (R419): Makes an on-line change final within the rollback window. -/
  | skimConfirm (h : CmdHdr)
  /-- FORCE_SET (R421): Sets a force holding a point's value and quality. -/
  | forceSet (h : CmdHdr) (quality : W16) (point : W32) (value : W64) (tag : W32)
  /-- FORCE_CLEAR (R422): Clears a force or orphan; the point takes its shadow. -/
  | forceClear (h : CmdHdr) (orphan : Byte) (point : W32)
  /-- READ_FORCES (R425): Returns every force record, orphans included. -/
  | readForces (h : CmdHdr) (out : Out)
  /-- FIELD_REARM (R450): Re-enables the outputs of a field supply whose latch has been released under manual rearm. -/
  | fieldRearm (h : CmdHdr) (supply : Byte)
  /-- LIFECYCLE_SET (R586): Changes the life-cycle state with a session or full wipe. -/
  | lifecycleSet (h : CmdHdr) (target : Byte) (confirm : W32)
  /-- RESET_MODULE (R591): Resets the module with the requested program-start kind. -/
  | resetModule (h : CmdHdr) (kind : Byte)
  /-- LOAD_FIRMWARE (R594): Long operation that writes supervisor firmware into a firmware slot. -/
  | loadFirmware (h : CmdHdr) (slot : Byte) (size : W32) (src : W64)
  /-- REQUEST_REMOVAL (R581): Moves the module toward Leaving, with handover when Primary. -/
  | requestRemoval (h : CmdHdr)
  /-- NOP_INSTRUCTION (R377): Core instruction that does nothing. -/
  | nopInstruction (core : Fin 8)
  /-- MOV (R377): Copies a register with its tag. -/
  | mov (core : Fin 8)
  /-- LDI (R377): Loads a sign-extended immediate as INT. -/
  | ldi (core : Fin 8)
  /-- LDC (R377): Loads 8 bytes of the code section with a given tag. -/
  | ldc (core : Fin 8)
  /-- TAG (R374): Changes a register's tag without changing its bits. -/
  | tag (core : Fin 8)
  /-- CVT (R374): Converts a value to another tag with defined saturation and rounding. -/
  | cvt (core : Fin 8)
  /-- SEL (R377): Selects one of two registers by a BOOL. -/
  | sel (core : Fin 8)
  /-- ADD (R374): Wrapping integer or time addition. -/
  | add (core : Fin 8)
  /-- SUB (R374): Wrapping integer or time subtraction. -/
  | sub (core : Fin 8)
  /-- MUL (R374): Wrapping integer multiplication. -/
  | mul (core : Fin 8)
  /-- DIV (R374): Integer division truncating toward zero, defined for zero divisors. -/
  | div (core : Fin 8)
  /-- MOD (R374): Integer remainder with the sign of the dividend. -/
  | mod (core : Fin 8)
  /-- NEG (R377): Integer or time negation. -/
  | neg (core : Fin 8)
  /-- ABS (R377): Integer or time absolute value. -/
  | abs (core : Fin 8)
  /-- MIN (R377): Minimum of two integers or times. -/
  | min (core : Fin 8)
  /-- MAX (R377): Maximum of two integers or times. -/
  | max (core : Fin 8)
  /-- ADDI (R377): Adds a signed immediate. -/
  | addi (core : Fin 8)
  /-- AND (R377): Bitwise or Boolean AND. -/
  | and (core : Fin 8)
  /-- OR (R377): Bitwise or Boolean OR. -/
  | or (core : Fin 8)
  /-- XOR (R377): Bitwise or Boolean XOR. -/
  | xor (core : Fin 8)
  /-- NOT (R377): Bitwise or Boolean NOT. -/
  | not (core : Fin 8)
  /-- SHL (R377): Left shift by b mod 64. -/
  | shl (core : Fin 8)
  /-- SHR (R377): Logical right shift. -/
  | shr (core : Fin 8)
  /-- SAR (R377): Arithmetic right shift. -/
  | sar (core : Fin 8)
  /-- ROL (R377): Rotate left. -/
  | rol (core : Fin 8)
  /-- ROR (R377): Rotate right. -/
  | ror (core : Fin 8)
  /-- FADD (R374): IEEE 754 addition. -/
  | fadd (core : Fin 8)
  /-- FSUB (R374): IEEE 754 subtraction. -/
  | fsub (core : Fin 8)
  /-- FMUL (R374): IEEE 754 multiplication. -/
  | fmul (core : Fin 8)
  /-- FDIV (R374): IEEE 754 division. -/
  | fdiv (core : Fin 8)
  /-- FSQRT (R374): IEEE 754 square root. -/
  | fsqrt (core : Fin 8)
  /-- FABS (R377): Floating absolute value. -/
  | fabs (core : Fin 8)
  /-- FNEG (R377): Floating negation. -/
  | fneg (core : Fin 8)
  /-- FMIN (R377): Floating minimum, NaN if either is NaN. -/
  | fmin (core : Fin 8)
  /-- FMAX (R377): Floating maximum, NaN if either is NaN. -/
  | fmax (core : Fin 8)
  /-- CEQ (R377): Compares for equality giving BOOL. -/
  | ceq (core : Fin 8)
  /-- CNE (R377): Compares for inequality giving BOOL. -/
  | cne (core : Fin 8)
  /-- CLT (R377): Compares less-than giving BOOL. -/
  | clt (core : Fin 8)
  /-- CLE (R377): Compares less-or-equal giving BOOL. -/
  | cle (core : Fin 8)
  /-- LDK (R379): Bounds-checked instance load of kind k, reading the write log first. -/
  | ldk (core : Fin 8)
  /-- STK (R381): Bounds-checked instance store of kind k into the write log. -/
  | stk (core : Fin 8)
  /-- LDF (R383): Loads a frame slot. -/
  | ldf (core : Fin 8)
  /-- STF (R383): Stores a register into a frame slot. -/
  | stf (core : Fin 8)
  /-- LDP (R382): Loads the value of an input-list position from the snapshot. -/
  | ldp (core : Fin 8)
  /-- LDPQ (R382): Loads quality, tq and tsc of an input position. -/
  | ldpq (core : Fin 8)
  /-- LDPS (R382): Loads the W64 stamp of an input position. -/
  | ldps (core : Fin 8)
  /-- STP (R382): Writes the value of an output position into the write log. -/
  | stp (core : Fin 8)
  /-- STPQ (R382): Writes quality bits of an output position into the write log. -/
  | stpq (core : Fin 8)
  /-- BR (R383): Unconditional forward branch. -/
  | br (core : Fin 8)
  /-- BT (R383): Forward branch if TRUE. -/
  | bt (core : Fin 8)
  /-- BF (R383): Forward branch if FALSE. -/
  | bf (core : Fin 8)
  /-- LPC (R383): Produces a bounded loop count tagged LCNT. -/
  | lpc (core : Fin 8)
  /-- LOOP (R383): Decrements a loop count and branches backward while positive. -/
  | loop (core : Fin 8)
  /-- CALL (R383): Calls a function within the depth limit. -/
  | call (core : Fin 8)
  /-- CALLB (R380): Calls an owned function-block instance, rebinding IB and IL. -/
  | callb (core : Fin 8)
  /-- RET (R380): Returns from a call, restoring PC, FP, IB and IL. -/
  | ret (core : Fin 8)
  /-- FRAME (R383): Sizes the current frame within the stack area. -/
  | frame (core : Fin 8)
  /-- WAIT_WORK (R389): Blocks the core Idle until the Cascade hands it a work item. -/
  | waitWork (core : Fin 8)
  /-- END (R390): Ends the scan and hands the write log to the commit once the checker confirms. -/
  | endScan (core : Fin 8)
  /-- SCAN_TIME (R386): Service call returning the scan timestamp. -/
  | scanTime (core : Fin 8)
  /-- SCAN_QUAL (R386): Service call returning tq, tsc and aq of the release. -/
  | scanQual (core : Fin 8)
  /-- SCAN_ANGLE (R386): Service call returning the A48 of an angle release. -/
  | scanAngle (core : Fin 8)
  /-- SCAN_CYCLE (R386): Service call returning the task's cycle_no. -/
  | scanCycle (core : Fin 8)
  /-- BREAKER (R387): Service call queuing a deferred breaker command. -/
  | breaker (core : Fin 8)
  /-- GROUP (R387): Service call queuing a deferred settings-group switch. -/
  | group (core : Fin 8)
  /-- CAPTURE_ARM (R387): Service call queuing a deferred capture arm or disarm. -/
  | captureArm (core : Fin 8)
  /-- CAPTURE_FIRE (R387): Service call queuing a deferred capture fire or mark. -/
  | captureFire (core : Fin 8)
  /-- AUX_SEQ (R387): Service call queuing a deferred auxiliary sequence start. -/
  | auxSeq (core : Fin 8)
  /-- SVC_FLAG_SET (R387): Service call queuing a deferred event-flag set. -/
  | svcFlagSet (core : Fin 8)
  /-- SVC_FLAG_CANCEL (R387): Service call queuing a deferred event-flag cancel. -/
  | svcFlagCancel (core : Fin 8)
  /-- COMMIT (R355): Completion of a scan's commit applying outputs, instance writes, trip requests and queued actions. -/
  | commit (core : Fin 8)
  /-- DEFERRED_ACTION (R387): Applies one deferred action of a commit as the matching host command, in call order. -/
  | deferredAction
  /-- LOCKSTEP_MISMATCH (R369): Checker mismatch or local-SRAM error discards the scan and queues a replay. -/
  | lockstepMismatch (core : Fin 8) (sram : Option W32)
  /-- SELF_TEST_END (R370): End of a core's 2 ms self-test; the core returns to Idle or goes Offline. -/
  | selfTestEnd (core : Fin 8) (pass : Bool)
  /-- SCAN_BUDGET_EXPIRY (R385): A scan still running at twice its wcet is stopped with a budget fault. -/
  | scanBudgetExpiry (core : Fin 8)
  /-- INIT_BUDGET_EXPIRY (R351): An initialisation routine still running 1 ms after hand-over is stopped with a budget fault. -/
  | initBudgetExpiry (core : Fin 8)
  /-- DISPATCHER_CYCLE (R393): Cascade cycle taking releases, applying flag sets and cancels, evaluating event tasks and selecting items. -/
  | dispatcherCycle
  /-- RETAINED_COPY (R360): Periodic copy of retained variables into the oldest copy area. -/
  | retainedCopy
  /-- WALL_COMPARE_FIRE (R68): A wall-time compare unit reaches its target and signals its destination. -/
  | wallCompareFire (unit : Fin 16)
  /-- ANGLE_COMPARE_FIRE (R100): An angle compare unit becomes due and signals its destination, including the Sluice tick. -/
  | angleCompareFire (bay : Fin 4) (unit : Fin 8) (target : BitVec 48)
  /-- WALL_COMPARE_WRITE (R70): Write of a wall compare unit's target, period or control, firing late if already reached. -/
  | wallCompareWrite (ctx : Fin 8) (unit : Fin 16) (reg : CmpReg) (value : W64)
  /-- ANGLE_COMPARE_WRITE (R103): Write of an angle compare unit's target, period or control, firing late if already due. -/
  | angleCompareWrite (ctx : Fin 8) (bay : Fin 4) (unit : Fin 8) (reg : CmpReg) (value : W64)
  /-- ANGLE_CLOCK_ENABLE (R95): Setting or clearing en of an angle clock starts it in Free-run or puts it Off. -/
  | angleClockEnable (ctx : Fin 8) (bay : Fin 4) (value : W32)
  /-- LOCK_CRITERION (R90): Phase error within lock_window for lock_cycles cycles locks the clock. -/
  | lockCriterion (bay : Fin 4)
  /-- VOLTAGE_VALID_COUNT (R97): Voltage reference valid for lock_cycles cycles moves tracking from current to voltage. -/
  | voltageValidCount (bay : Fin 4)
  /-- FREEZE_MAX (R93): Frozen lasting freeze_max ends in Holdover. -/
  | freezeMax (bay : Fin 4)
  /-- SETTLE_COMPLETE (R93): Triggers clear for settle_cycles end Frozen in Acquiring or Holdover. -/
  | settleComplete (bay : Fin 4)
  /-- HOLD_MAX (R97): Holdover lasting hold_max moves the clock to Free-run. -/
  | holdMax (bay : Fin 4)
  /-- PTP_MESSAGE_RX (R52): A received PTP message is stamped and used by the servo or delivered to the host-servo context. -/
  | ptpMessageRx (port : Fin 6) (msg : PtpMsg) (raw : List Byte)
  /-- PDELAY_INTERVAL (R58): Peer-delay exchange on each PTP port at the Pdelay interval. -/
  | pdelayInterval (pair : Fin 3) (side : Fin 2)
  /-- ANNOUNCE_TIMEOUT (R54): No Sync for ann_timeout intervals moves Traceable to Fallback or Holdover. -/
  | announceTimeout
  /-- HOST_SERVO_SILENCE (R53): No ADJUST_RATE for 4 s sets host_servo_silent and treats the reference as lost. -/
  | hostServoSilence
  /-- HOLD_LIMIT_REACHED (R54): hold_elapsed reaching TIM_HOLD_LIMIT moves Holdover to Drifting. -/
  | holdLimitReached
  /-- REFERENCE_EDGE (R63): A 1PPS edge or IRIG-B frame at the timing input is evaluated by the servo. -/
  | referenceEdge (signal : RefSignal)
  /-- REFERENCE_LOST (R54): No edge for 1.5 s or an invalid IRIG-B frame moves Fallback to Holdover. -/
  | referenceLost
  /-- BACKUP_WRITE (R64): Once per second wall time is written into the backup counters. -/
  | backupWrite
  /-- OT_MIRROR (R66): OT32 and PC32 mirrored into MRAM every 3,600 s of operating time. -/
  | otMirror
  /-- ANCHOR_PERIODIC (R599): Anchor record written every 3,600 s of operating time. -/
  | anchorPeriodic
  /-- SELF_CAL_COMPLETE (R124): End of SELF_CAL; slice failures handled and rotation started. -/
  | selfCalComplete (points : Vector CalPoints 36)
  /-- HANDOVER_START (R125): Every float_period the Float slice connects to the next channel's buffer. -/
  | handoverStart (bay : Fin 4)
  /-- HANDOVER_SETTLE_END (R125): After 231 CIC samples the comparison window opens. -/
  | handoverSettleEnd (bay : Fin 4)
  /-- COMPARISON_WINDOW_END (R126): Fit over the comparison window, trim checked and applied or hand-over abandoned. -/
  | comparisonWindowEnd (bay : Fin 4)
  /-- VERIFY_WINDOW_END (R126): Predicted step checked over the verify window and take-over decided. -/
  | verifyWindowEnd (bay : Fin 4)
  /-- TAKE_OVER (R127): At sample kt the channel's Pool and Jet paths switch to the Float slice. -/
  | takeOver (bay : Fin 4)
  /-- SLICE_CALIBRATION_END (R121): Calibration of the released slice ends and it becomes the Float slice. -/
  | sliceCalibrationEnd (bay : Fin 4) (points : CalPoints)
  /-- HANDOVER_RETRY (R130): A deferred hand-over is retried at the next whole second. -/
  | handoverRetry (bay : Fin 4)
  /-- CAL_OVERDUE (R133): Slice age beyond 90 s sets cal_overdue, beyond 600 s makes samples questionable. -/
  | calOverdue (bay : Fin 4)
  /-- SLICE_LOOP_RESET (R116): Input beyond 1.3 × range for 4 periods resets the slice loop filter. -/
  | sliceLoopReset (bay : Fin 4) (slice : Fin 9)
  /-- RANGE_CHANGE (R138): A range change applies at the next CIC sample boundary with new front-end factors. -/
  | rangeChange (bay : Fin 4) (ch : Fin 8)
  /-- REFERENCE_SOURCE_CHANGE (R118): A change of a group's reference source makes its samples invalid until SELF_CAL. -/
  | referenceSourceChange (bay : Fin 4)
  /-- HOUSEKEEPING_DUE (R145): Housekeeping sequence becomes due each whole second. -/
  | housekeepingDue
  /-- AUX_CONVERSION_END (R141): An auxiliary conversion ends and its result record is written. -/
  | auxConversionEnd (samples : List (BitVec 24))
  /-- REF_SETTLED (R142): Auxiliary reference settles and the held conversion proceeds. -/
  | refSettled
  /-- DEC_CHANGE_EDGE (R171): A pending DEC_ change takes effect at edge 0 of a second. -/
  | decChangeEdge
  /-- DEC_WRITE (R172): An accepted DEC_ write becomes pending, replacing any earlier pending change. -/
  | decWrite (ctx : Fin 8) (reg : Fin 5) (value : W32)
  /-- INTEGRATOR_SETTLE_END (R156): 0.2 s after restart the integrator returns to its set leak. -/
  | integratorSettleEnd (bay : Fin 4) (ch : Fin 8)
  /-- TICK_EVALUATION (R177): An engine updates a ready tick's quantities and evaluates the bay's instances. -/
  | tickEvaluation (engine : Fin 2)
  /-- PAIR_DISAGREE (R207): Paired copies differing for more than 4 ticks report a disagree transition. -/
  | pairDisagree (slot : Fin 512)
  /-- ENGINE_FAULTED (R206): Missed heartbeat or internal fault declares a Sluice engine Faulted and starts its reload. -/
  | engineFaulted (engine : Fin 2) (internal : Bool)
  /-- ENGINE_RELOAD_END (R206): Reload of a faulted engine completes with instances dropped out. -/
  | engineReloadEnd (engine : Fin 2)
  /-- SUBSTITUTION_CHANGE (R210): Substitution switched on or off applies at the bay's next tick. -/
  | substitutionChange (bay : Fin 4)
  /-- SV_FALLBACK (R210): No stream frame for sv_wait returns the bay to its own converters or leaves it invalid. -/
  | svFallback (bay : Fin 4)
  /-- INSTANTANEOUS_PICKUP (R188): n_conf words at or above threshold pick up an instantaneous function. -/
  | instantaneousPickup (bay : Fin 4) (ch : Fin 4)
  /-- INSTANTANEOUS_DROPOUT (R188): dd words below threshold drop out an instantaneous function. -/
  | instantaneousDropout (bay : Fin 4) (ch : Fin 4)
  /-- DISTURBANCE_PICKUP (R189): n_conf cycle-delta words beyond threshold pick up the disturbance function. -/
  | disturbancePickup (bay : Fin 4)
  /-- DISTURBANCE_DROPOUT (R189): dd valid words below thresholds drop out the disturbance function. -/
  | disturbanceDropout (bay : Fin 4)
  /-- MATRIX_SCAN (R249): Every 1 µs all matrix rows are evaluated from the inputs as they stood. -/
  | matrixScan
  /-- TRIP_OVERLOAD (R252): Current above 4.4 A for 200 ms opens the channel and latches overload. -/
  | tripOverload (ch : Fin 8)
  /-- SEAL_IN_RELEASE (R253): Row deasserted, t_min elapsed and current low for 1 ms end conduction. -/
  | sealInRelease (ch : Fin 8)
  /-- SEAL_TIMEOUT (R253): Seal-in lasting seal_max opens the channel and sets seal_timeout. -/
  | sealTimeout (ch : Fin 8)
  /-- TRIP_LOGIC_SILENT (R255): No coupler heartbeat for 50 µs makes a trip island treat the logic side as silent. -/
  | tripLogicSilent (ch : Fin 8)
  /-- TCS_MEASUREMENT (R258): Once per ms the island measures i_out and v_sw for supervision. -/
  | tcsMeasurement (ch : Fin 8) (iOut tsp : W32) (vSw : W16)
  /-- TCS_DIAGNOSIS (R258): A supervision condition persisting for tcs_time is reported and alarmed. -/
  | tcsDiagnosis (ch : Fin 8)
  /-- BREAKER_EXECUTION (R263): After the compare firing and fine_ns the breaker output asserts, or lock loss cancels. -/
  | breakerExecution (bay : Fin 4)
  /-- BREAKER_OUTPUT_END (R261): Pulse end or 20 ms after position shown ends the operation as done. -/
  | breakerOutputEnd (bay : Fin 4)
  /-- OP_TIMEOUT (R261): Position not shown by op_timeout fails the operation. -/
  | opTimeout (bay : Fin 4)
  /-- ONSET_SEARCH_END (R267): Onset search ends and the learned operating time is updated or rejected. -/
  | onsetSearchEnd (bay : Fin 4)
  /-- FRAME_RELEASE (R276): A capture frame is released at t_f + H and written in blocks to subscriptions. -/
  | frameRelease (number : W64) (descs : Vector (List StreamDesc) 8)
  /-- TRIGGER_FIRE (R281): A trigger unit's condition completes and it inserts a mark and may send a group fire. -/
  | triggerFire (unit : Fin 32)
  /-- GROUP_MESSAGE_RX (R289): A capture-group message is checked and applied as arm, disarm or fire. -/
  | groupMessageRx (data : List Byte)
  /-- GROUP_MESSAGE_REPEAT (R289): Repeat of a group message at 1 ms and 3 ms. -/
  | groupMessageRepeat
  /-- WAVEFRONT_PICKUP (R299): Modal delta beyond tw_thr picks up and the arrival instant is computed. -/
  | wavefrontPickup (bay : Fin 4)
  /-- QUALIFICATION (R300): Qualification of a detection is decided and the arrival message sent. -/
  | qualification (bay : Fin 4)
  /-- TW_RECORD_CUT (R301): A travelling-wave record is cut once its window is complete. -/
  | twRecordCut (bay : Fin 4)
  /-- ARRIVAL_MESSAGE_RX (R306): A remote arrival message is checked, kept and paired for location. -/
  | arrivalMessageRx (data : List Byte)
  /-- ARRIVAL_MESSAGE_REPEAT (R305): Repeat of an arrival message at 1 ms and 3 ms. -/
  | arrivalMessageRepeat
  /-- REM_WAIT_EXPIRY (R307): No fitting remote arrival by rem_wait gives location status no_peer. -/
  | remWaitExpiry (bay : Fin 4)
  /-- SNAPSHOT_RX (R331): A Cistern snapshot is received, CRC-checked and made available with stamped mirror samples. -/
  | snapshotRx (data : List Byte) (start : W64)
  /-- CISTERN_SILENT (R23): No snapshot for three intervals reports the Cistern silent. -/
  | cisternSilent
  /-- CIS_REQUEST_TIMEOUT (R499): A Cistern request unanswered within 2 s completes with CIS_LOST. -/
  | cisRequestTimeout
  /-- READ_REQUEST (R334): The Cistern decoder takes a return-lane frame, queues, counts or discards it. -/
  | readRequest (data : List Byte)
  /-- CISTERN_PERIOD_END (R315): End of a 100 ms integration period: energies registered, snapshot sent, one request served. -/
  | cisternPeriodEnd (samples : List CisInput) (freq : W32) (delay : Fin 6291457)
  /-- CISTERN_STORE (R318): Once per second registers, demand and profiles are written to Cistern MRAM. -/
  | cisternStore
  /-- CISTERN_SUPPLY_LOSS (R318): Cistern supply falls below its limit and state is stored. -/
  | cisternSupplyLoss
  /-- CISTERN_POWER_UP (R314): Cistern calibrates its slices and computes its software identification. -/
  | cisternPowerUp (points : Vector CalPoints 9) (outage : W64) (kept : Bool)
  /-- CISTERN_WATCHDOG_RESTART (R325): The Cistern watchdog restarts the Cistern core. -/
  | cisternWatchdogRestart
  /-- SPARE_CHECK (R314): Every 60 s the spare slice checks the reference and sets or clears meas_warn. -/
  | spareCheck (zero plus : Int)
  /-- DEMAND_INTERVAL_END (R320): End of a demand interval updates demand and maxima. -/
  | demandIntervalEnd
  /-- PROFILE_INTERVAL_END (R321): End of a profile interval writes a load-profile entry. -/
  | profileIntervalEnd (ch : Fin 2)
  /-- SERVICE_SWITCH_HOLD (R326): Service switch held 3 s toggles Open and Sealed. -/
  | serviceSwitchHold
  /-- OPTICAL_READOUT (R330): Optical port data readout of the readout list. -/
  | opticalReadout
  /-- PROGRAMMING_MODE (R330): Optical programming mode opened with the access code. -/
  | programmingMode (code : W32)
  /-- PROGRAMMING_TIMEOUT (R330): Programming mode closes after 120 s without a command. -/
  | programmingTimeout
  /-- CALIBRATION (R327): Optical calibration change of a channel, Open state only. -/
  | calibration (ch : Fin 8) (gain phase offset : W32)
  /-- LEGAL_SETTING_CHANGE (R327): Optical change of a legally relevant setting, Open state only. -/
  | legalSettingChange (setting : CisSetting)
  /-- REGISTER_RESET (R318): Optical calibration-reset clearing the energy registers in Open state. -/
  | registerReset
  /-- FIRMWARE_REPLACEMENT (R323): Optical replacement of signed Cistern firmware in Open state. -/
  | firmwareReplacement (part : List Byte) (signed : Bool)
  /-- CLOCK_SETTING (R322): Optical setting of the Cistern clock within the seal limits. -/
  | clockSetting (sec : W32)
  /-- DEMAND_RESET (R327): Optical reset of maximum demand. -/
  | demandReset
  /-- LONG_OPERATION_STEP (R407): One step of at most 2 ms of a long operation, followed by serving fetched commands. -/
  | longOperationStep (ctx : Fin 8) (data : Option (List Byte)) (more : Bool)
  /-- MIGRATION_PASS (R411): A migration pass re-applies dirty pages; completes SKIM_PREPARE when small enough. -/
  | migrationPass
  /-- SWITCH_INSTANT (R417): At t_sw selection stops and the switch waits for items in service to end. -/
  | switchInstant
  /-- SWITCH_DRAIN_END (R417): After the drain the final pass, locks, units and dispatch states switch and the Cascade resumes. -/
  | switchDrainEnd
  /-- DIRTY_TIMEOUT (R416): 10 s without a switch completes SKIM_SWITCH with DIRTY. -/
  | dirtyTimeout
  /-- ROLLBACK_WINDOW_END (R419): End of the 30 s window makes the change final. -/
  | rollbackWindowEnd
  /-- DEBOUNCE_COMPLETE (R430): The raw level held for the debounce window changes the debounced level. -/
  | debounceComplete (ch : Fin 32) (level : Bool) (t : EdgeStamp)
  /-- SUPERVISION_DIAGNOSIS (R434): Loop current outside the window for diag_time sets or clears wire_break or loop_high. -/
  | supervisionDiagnosis (ch : Fin 32) (current : Nat)
  /-- HELD_CHANGE_TIMEOUT (R435): A held-back change to low is accepted or turned into wire_break after diag_time. -/
  | heldChangeTimeout (ch : Fin 32)
  /-- CHATTER_SETTLED (R437): No change for settle ends chatter and reports the level difference. -/
  | chatterSettled (ch : Fin 32)
  /-- STUCK_TIME (R438): A high level lasting stuck_time sets oldData and questionable. -/
  | stuckTime (ch : Fin 32)
  /-- OUTPUT_DIAGNOSIS (R444): Output readback and current condition persisting diag_time sets or clears a diagnosis. -/
  | outputDiagnosis (ch : Fin 32) (meas : OutMeas)
  /-- OVERLOAD_RETRY (R445): After the retry interval an overloaded output closes again. -/
  | overloadRetry (ch : Fin 32)
  /-- ISLAND_SILENT (R439): No valid island frame for 50 µs makes the channel's point invalid. -/
  | islandSilent (ch : Fin 32)
  /-- FIELD_SILENCE (R447): No valid logic frame for the silence time drives the island's safe state. -/
  | fieldSilence (ch : Fin 32)
  /-- FIELD_SUPPLY_RISE (R448): An island's field supply rises and it holds its output off until first permitted. -/
  | fieldSupplyRise (ch : Fin 32)
  /-- FS_LOW (R449): A field supply crosses the fs_low threshold. -/
  | fsLow (supply : Fin 2) (low : Bool)
  /-- FS_DEAD (R450): A field supply falls below 11 V and is latched off. -/
  | fsDead (supply : Fin 2)
  /-- OUTPUT_SHUTDOWN_SLOT (R450): An output switches off in its timed slot after fs_dead. -/
  | outputShutdownSlot (ch : Fin 32)
  /-- LATCH_RELEASE (R450): fs_low clear for recover releases the supply latch. -/
  | latchRelease (supply : Fin 2)
  /-- CHANNEL_REENABLE (R450): An output is re-enabled in its slot after release or FIELD_REARM. -/
  | channelReenable (ch : Fin 32)
  /-- FIO_CFG_WRITE (R428): A configuration change of a field channel interrupts and restarts it. -/
  | fioCfgWrite (ctx : Fin 8) (channel : Fin 32) (value : W32)
  /-- DOORBELL_FETCH (R466): A doorbell page fetch checks positions and fetches commands within the hop budget. -/
  | doorbellFetch (ctx : Fin 8) (page : Option (List Byte)) (slots : List SlotRead)
  /-- CONTEXT_ENABLE (R469): Writing en 1 makes a context Running with its configured role, or is refused. -/
  | contextEnable (ctx : Fin 8) (holdoff : W16)
  /-- CONTEXT_DISABLE (R469): Writing en 0 takes a context Off and stops fetching. -/
  | contextDisable (ctx : Fin 8) (holdoff : W16)
  /-- FUNCTION_LEVEL_RESET (R469): PCI Express FLR takes the context Off. -/
  | functionLevelReset (ctx : Fin 8)
  /-- LINK_DOWN (R469): Host link loss takes contexts of the port Down. -/
  | linkDown (port : Fin 2)
  /-- LINK_UP (R469): Host link return takes Down contexts Off. -/
  | linkUp (port : Fin 2) (speed width : BitVec 2)
  /-- INTERRUPT_HOLDOFF_END (R484): Causes combined during holdoff raise one MSI-X interrupt. -/
  | interruptHoldoffEnd (ctx : Fin 8) (vector : Fin 4)
  /-- OWNERSHIP_EXPIRY (R495): An ownership window ends and the object is released. -/
  | ownershipExpiry (object : Fin 9)
  /-- SETUP_WRITE (R16): Write to a setup register without behaviour of its own, applied or refused as a whole. -/
  | setupWrite (ctx : Fin 8) (offset : W32) (width : Byte) (value : W64)
  /-- LATCHED_READ (R459): A low-half read of a 64-bit register loads the function's read latch. -/
  | latchedRead (ctx : Fin 8) (offset : W32) (width : Byte)
  /-- ETH_TBLDATA_WRITE (R529): Writes one table word at the address and advances it, checking entries on en. -/
  | ethTbldataWrite (ctx : Fin 8) (value : W32)
  /-- ETH_TBLDATA_READ (R528): Reads one table word and advances the address. -/
  | ethTbldataRead (ctx : Fin 8)
  /-- CAN_TBLDATA_WRITE (R557): Writes one CAN table word, checking objects on en, and advances the address. -/
  | canTbldataWrite (ctx : Fin 8) (value : W32)
  /-- CAN_TBLDATA_READ (R563): Reads one CAN table word and advances the address. -/
  | canTbldataRead (ctx : Fin 8)
  /-- EVR_RDIDX_WRITE (R601): Latches a named event-recorder slot into the read data registers. -/
  | evrRdidxWrite (ctx : Fin 8) (value : W32)
  /-- TRP_BKINIT_WRITE (R267): Sets the learned operating time and clears learn_alarm. -/
  | trpBkinitWrite (ctx : Fin 8) (bay : Fin 4) (opens : Bool) (value : W32)
  /-- TRP_BKLIM_WRITE (R267): Sets new limits and clamps learned and initial times into them. -/
  | trpBklimWrite (ctx : Fin 8) (bay : Fin 4) (value : W32)
  /-- PROTECTION_STATE_WRITE (R607): A prot write changes bays' protection states at the next matrix scan. -/
  | protectionStateWrite (ctx : Fin 8) (value : W32)
  /-- OUTPUT_ENABLE_WRITE (R609): An outen write sets the module's output enable Safe or Enabled. -/
  | outputEnableWrite (ctx : Fin 8) (value : W32)
  /-- HCX_ROLE_WRITE (R457): Writes a context's role and setup bit, clearing setup at once. -/
  | hcxRoleWrite (ctx : Fin 8) (target : Fin 8) (value : W32)
  /-- PAR_UPG_WRITE (R572): Opens an upgrade window until upg_end. -/
  | parUpgWrite (ctx : Fin 8) (value : W64)
  /-- DMA_TAIL_ADVANCE (R506): A producer advances a channel's tail, giving the engine descriptors. -/
  | dmaTailAdvance (channel : Fin 16) (slots : List (List Byte)) (forCtx : Option (Fin 8))
  /-- DMA_BURST (R505): One arbitrated burst of a descriptor moves data through the funnel. -/
  | dmaBurst (io : BurstIo)
  /-- DMA_CONFIRMATION_READ (R514): The confirmation read returns and the descriptor is written back done or unconfirmed. -/
  | dmaConfirmationRead (channel : Fin 16) (ok : Bool)
  /-- DMA_ABORT (R515): Producer aborts a channel; the channel halts at the next burst boundary. -/
  | dmaAbort (channel : Fin 16)
  /-- DMA_RESTART (R515): Producer restarts a Halted channel. -/
  | dmaRestart (channel : Fin 16)
  /-- GOOSE_RETRANSMISSION (R532): A GOOSE dataset is retransmitted at the next interval. -/
  | gooseRetransmission (dataset : Fin 128)
  /-- GOOSE_FRAME_RX (R534): A GOOSE frame is matched, checked and its entries updated. -/
  | gooseFrameRx (frame : GooseRx)
  /-- GOOSE_EXPIRY (R534): No accepted frame before timeAllowedToLive expires the control block. -/
  | gooseExpiry (cb : Fin 32)
  /-- SV_ASDU_RX (R536): A sampled-value ASDU is decoded once and delivered to its consumers. -/
  | svAsduRx (asdu : SvRx)
  /-- SV_STREAM_LOST (R538): No ASDU for 10 ms marks a subscribed stream lost. -/
  | svStreamLost (stream : Fin 16)
  /-- SV_PUBLICATION (R537): A sampled-value frame of a bay is sent after its last sample instant. -/
  | svPublication (bay : Fin 4) (frame : W64)
  /-- SUPERVISION_FRAME (R522): A PRP or HSR supervision frame is sent every life_check. -/
  | supervisionFrame (pair : Fin 3)
  /-- HSR_FRAME_RX (R523): A ring frame is forwarded, corrected for residence time and duplicates discarded. -/
  | hsrFrameRx (port : Fin 4) (good : Bool) (src : W48) (seq : W16) (data : List Byte) (ptp : Option Nat) (resid : W32)
  /-- CAN_WINDOW_START (R551): A schedule window opens and its exclusive or arbitrating object is attempted. -/
  | canWindowStart (bus : Fin 10) (idle : Bool)
  /-- CAN_WINDOW_END (R553): A receive window closes without a frame and counts a miss. -/
  | canWindowEnd (bus : Fin 10)
  /-- CAN_FRAME_RECEIVED (R556): A received frame updates its matching receive object and points. -/
  | canFrameReceived (bus : Fin 12) (frame : CanRx)
  /-- CAN_FRAME_SENT (R548): A transmission attempt ends, counting success or retrying. -/
  | canFrameSent (bus : Fin 12) (ts : W32) (result : CanEnd)
  /-- CAN_MESSAGE_TRANSMIT (R554): The next pending message-memory object starts transmission on C10 or C11. -/
  | canMessageTransmit (bus : Fin 2) (idle : Bool)
  /-- CAN_RX_TIMEOUT (R555): A C10 or C11 receive object silent for rx_to × 10 ms makes its points invalid. -/
  | canRxTimeout (bus : Fin 2) (obj : Fin 100)
  /-- BUS_OFF_RECOVERY (R546): 128 occurrences of 11 recessive bits return the controller from bus-off. -/
  | busOffRecovery (bus : Fin 12)
  /-- CAN_CORRELATION (R559): A timebase-to-wall-time correlation pair is latched at least once per second. -/
  | canCorrelation
  /-- CAN_BLOCK_FLUSH (R561): A CAN subscription block ends after flush ms and is written. -/
  | canBlockFlush (sub : Fin 4) (descs : List StreamDesc)
  /-- HEARTBEAT_INTERVAL (R567): A heartbeat is sent to the partner every 250 µs. -/
  | heartbeatInterval
  /-- HEARTBEAT (R569): A partner heartbeat is received and role changes evaluated. -/
  | heartbeat (beat : PeerBeat)
  /-- TASK_SNAPSHOT (R575): A streamed task snapshot is received for execution by the partner. -/
  | taskSnapshot (task : Fin 64) (rel : PeerRelease) (snap : List PeerPoint)
  /-- COMMIT_RECORD (R577): A streamed commit record is received, acknowledged and compared. -/
  | commitRecord (c : PeerCommitRec)
  /-- COMMAND_JOURNAL_ENTRY (R576): A command journal entry and tag record are received and acknowledged. -/
  | commandJournalEntry (h : CmdHdr) (op : HostOp)
  /-- FINAL_TAG_RECORD (R565): A final tag record is received from the Primary. -/
  | finalTagRecord (ctx : Fin 8) (tag : W64) (final : PeerFinal)
  /-- MIRRORED_SETUP_WRITE (R571): A mirrored setup write is applied by the partner and acknowledged. -/
  | mirroredSetupWrite (offset : W32) (tblAddr : W32) (value : W64)
  /-- EFFECT_NOTICE (R576): Notice that a class-X effect or deferred action was applied. -/
  | effectNotice (n : PeerNotice)
  /-- STATE_COPY_PAGE (R573): A state copy page is staged by the joining module. -/
  | stateCopyPage (item : CopyItem)
  /-- IMAGE_TRANSFER (R408): An image or migration map is received from the Primary. -/
  | imageTransfer (t : Transfer)
  /-- COPY_POINT_RECEIVED (R574): The joining module writes its compare units and enters tracking. -/
  | copyPointReceived (commitSeq : W64) (pending : List (Fin 64 × PeerRelease)) (units : List PeerUnit)
  /-- HANDOVER (R581): Handover frame makes the Standby take over and become Solo. -/
  | handover
  /-- DROP (R576): Drop frame sends the partner back to state copy. -/
  | drop (backlog : Bool)
  /-- ACKNOWLEDGEMENT (R565): A cumulative acknowledgement releases acknowledged frames. -/
  | acknowledgement (n : W32)
  /-- STATE_COPY_PASS (R573): A copy pass of dirty pages completes. -/
  | stateCopyPass
  /-- COPY_POINT (R574): After draining, the Primary sends the final pass and copy point and resumes. -/
  | copyPoint
  /-- TRACKING_CRITERION (R577): Matching comparisons for sync_time make the joining module Standby. -/
  | trackingCriterion
  /-- ACK_TIMEOUT (R576): Missing acknowledgement after ack_to drops the partner and makes the Primary Solo. -/
  | ackTimeout
  /-- PARTNER_LOST (R578): Alive line and link silence declare the partner lost. -/
  | partnerLost (off : Bool)
  /-- LINK_LOST (R578): No frames for hb_miss intervals with PALV_I asserted blocks joining with reason link. -/
  | linkLost
  /-- ALIVE_LINE_FAULT (R578): PALV_I deasserted for 20 µs with frames continuing sets alv_fault. -/
  | aliveLineFault
  /-- ALV_FAULT_CLEAR (R578): PALV_I asserted for 1 s clears alv_fault. -/
  | alvFaultClear
  /-- PAIR_WAIT_EXPIRY (R569): No partner heartbeat for pair_wait makes a joining module Solo. -/
  | pairWaitExpiry
  /-- JOINING_RETRY (R570): The retry event of a block reason returns Joining-Blocked to compare. -/
  | joiningRetry
  /-- UPGRADE_WINDOW_CLOSE (R572): The upgrade window ends; differing firmware blocks the Standby. -/
  | upgradeWindowClose
  /-- POWER_ON_RESET (R591): Feed becomes valid and the module resets and boots. -/
  | powerOnReset (unpowered : W64) (lost : Bool)
  /-- CARRIER_RESET (R591): The carrier reset input resets the module. -/
  | carrierReset (asserted : Bool)
  /-- WATCHDOG_EXPIRY (R566): Supervisor watchdog expires, deasserting PALV_O and resetting the module. -/
  | watchdogExpiry
  /-- DRAM_WIPE_END (R594): DRAM wipe ends and the image, retained copy and journal are restored before the program starts. -/
  | dramWipeEnd (bad : Option W64)
  /-- BACKGROUND_ERASE_STEP (R590): A step of background NAND erase after a full wipe. -/
  | backgroundEraseStep
  /-- POWER_FAIL (R38): Bus below 16 V starts the timed power-fail sequence. -/
  | powerFail (feeds : W16 × W16) (bus : W16)
  /-- FEED_LOW (R617): A feed crosses 17.5 V and triggers an urgent conversion. -/
  | feedLow (feed : Fin 2) (low : Bool) (bus : W16)
  /-- HOT_SWAP_DISABLE (R619): HS_EN_N opens and the feed switch opens within 10 µs. -/
  | hotSwapDisable
  /-- SCRUB_PASS (R30): Background scrubber pass over a memory at its interval. -/
  | scrubPass (pass : ScrubOf × Option (EccHit × W64))
  /-- FS_DEAD_CLEAR (R449): A field supply rising to 12.0 V or more clears fs_dead, and its inputs restart debouncing toward validity. -/
  | fsDeadClear (supply : Fin 2)
  /-- LANE_FAILURE (R564): One Lorras lane fails and the link runs on the other at 4 Gb/s with link_degraded set. -/
  | laneFailure
  /-- LANE_RESTORED (R570): The failed Lorras lane returns, link_degraded clears, and the tracking-load block may retry. -/
  | laneRestored
  /-- ETH_LINK_CHANGE (R520): An Ethernet port's link or auto-negotiation state goes down or up, changing link and an_done. -/
  | ethLinkChange (port : Fin 8) (link an : Bool)
  /-- CAN_ERROR_DETECTED (R546): A controller detects a bus error while receiving, updating its error counters, bus state and an error record. -/
  | canErrorDetected (bus : Fin 12) (ts : W32) (code : BitVec 3) (data heavy : Bool)
  /-- HOT_RESET (R591): A PCI Express hot reset takes the affected host contexts Off without resetting the module. -/
  | hotReset (port : Fin 2)
  /-- FIELD_SILENCE_END (R447): A valid logic-side frame reaches a silent field island, ending silence so the island follows the frame's permit bit. -/
  | fieldSilenceEnd (ch : Fin 32)
  /-- TRIP_LOGIC_RETURN (R255): The coupler heartbeat returns to a trip island whose logic side was silent, so the channel may conduct again once permitted. -/
  | tripLogicReturn (ch : Fin 8)
  /-- ISLAND_FRAMES_RESUMED (R439): Valid frames from a silent field island reach the logic side again, and the channel's point leaves invalid. -/
  | islandFramesResumed (ch : Fin 32)
  deriving DecidableEq, Repr

end Sys2Proof
end

