-- ==== Sys2Proof/Decode.lean ====
section
/-! DEFINITION. The commands that a word of the opcode table's bits spells. -/

namespace Sys2Proof

/-- No row of the opcode table gives bits: a command reaches the block as an entry of a host ring, a register access, a
frame or an event, so no word spells one. -/
def decodeTableWord (_nbits _w : Nat) : Option Instr := none

end Sys2Proof
end

