-- ==== Sys2Proof/Machine/RegNames.lean ====
section
/-! DEFINITION. The names of the register fields: for each field of the register tables its bit address in BAR0
(8 for each byte of R636's offset, plus the field's low bit) and its width. -/

namespace Sys2Proof.Machine

/-- A register field: its bit address in BAR0 and its width. -/
structure Fld where
  bit : Nat
  w : Nat
  deriving DecidableEq, Repr

/-- TIM_CTL.ptp_en (R74). -/
def Reg.TIM_CTL_ptp_en : Fld := ⟨8 * (0x2000) + 0, 1⟩
/-- TIM_CTL.ptp_pair (R74). -/
def Reg.TIM_CTL_ptp_pair : Fld := ⟨8 * (0x2000) + 1, 2⟩
/-- TIM_CTL.servo_sel (R74). -/
def Reg.TIM_CTL_servo_sel : Fld := ⟨8 * (0x2000) + 3, 1⟩
/-- TIM_CTL.servo_port (R74). -/
def Reg.TIM_CTL_servo_port : Fld := ⟨8 * (0x2000) + 4, 1⟩
/-- TIM_CTL.servo_ctx (R74). -/
def Reg.TIM_CTL_servo_ctx : Fld := ⟨8 * (0x2000) + 5, 2⟩
/-- TIM_CTL.ref_in (R74). -/
def Reg.TIM_CTL_ref_in : Fld := ⟨8 * (0x2000) + 7, 2⟩
/-- TIM_CTL.first_free (R74). -/
def Reg.TIM_CTL_first_free : Fld := ⟨8 * (0x2000) + 9, 1⟩
/-- TIM_STEP_LIMIT.limit_ns (R74). -/
def Reg.TIM_STEP_LIMIT_limit_ns : Fld := ⟨8 * (0x2004) + 0, 32⟩
/-- TIM_HOLD_LIMIT.hold_s (R74). -/
def Reg.TIM_HOLD_LIMIT_hold_s : Fld := ⟨8 * (0x2008) + 0, 12⟩
/-- TIM_PTP_CFG.domain (R74). -/
def Reg.TIM_PTP_CFG_domain : Fld := ⟨8 * (0x200C) + 0, 8⟩
/-- TIM_PTP_CFG.ann_timeout (R74). -/
def Reg.TIM_PTP_CFG_ann_timeout : Fld := ⟨8 * (0x200C) + 8, 4⟩
/-- TIM_PTP_CFG.accept_class (R74). -/
def Reg.TIM_PTP_CFG_accept_class : Fld := ⟨8 * (0x200C) + 12, 8⟩
/-- TIM_UTC_DEFAULT.utc_offset (R74). -/
def Reg.TIM_UTC_DEFAULT_utc_offset : Fld := ⟨8 * (0x2010) + 0, 16⟩
/-- TIM_REF_CFG.polarity (R74). -/
def Reg.TIM_REF_CFG_polarity : Fld := ⟨8 * (0x2014) + 0, 1⟩
/-- TIM_REF_CFG.cable_delay (R74). -/
def Reg.TIM_REF_CFG_cable_delay : Fld := ⟨8 * (0x2014) + 8, 24⟩
/-- TIM_PHY_LAT.rx_lat (R74). -/
def Reg.TIM_PHY_LAT_rx_lat (i : Nat) : Fld := ⟨8 * (0x2020 + 0x4 * i) + 0, 16⟩
/-- TIM_PHY_LAT.tx_lat (R74). -/
def Reg.TIM_PHY_LAT_tx_lat (i : Nat) : Fld := ⟨8 * (0x2020 + 0x4 * i) + 16, 16⟩
/-- TIM_CMP_TGT_S.tgt_s (R74). -/
def Reg.TIM_CMP_TGT_S_tgt_s (i : Nat) : Fld := ⟨8 * (0x2100 + 0x20 * i) + 0, 48⟩
/-- TIM_CMP_TGT_NS.tgt_ns (R74). -/
def Reg.TIM_CMP_TGT_NS_tgt_ns (i : Nat) : Fld := ⟨8 * (0x2108 + 0x20 * i) + 0, 30⟩
/-- TIM_CMP_PER.period_ns (R74). -/
def Reg.TIM_CMP_PER_period_ns (i : Nat) : Fld := ⟨8 * (0x2110 + 0x20 * i) + 0, 48⟩
/-- TIM_CMP_CTL.en (R74). -/
def Reg.TIM_CMP_CTL_en (i : Nat) : Fld := ⟨8 * (0x2118 + 0x20 * i) + 0, 1⟩
/-- TIM_CMP_CTL.dest (R74). -/
def Reg.TIM_CMP_CTL_dest (i : Nat) : Fld := ⟨8 * (0x2118 + 0x20 * i) + 1, 4⟩
/-- TIM_CMP_CTL.dest_index (R74). -/
def Reg.TIM_CMP_CTL_dest_index (i : Nat) : Fld := ⟨8 * (0x2118 + 0x20 * i) + 8, 6⟩
/-- TIM_CMP_CTL.own (R74). -/
def Reg.TIM_CMP_CTL_own (i : Nat) : Fld := ⟨8 * (0x2118 + 0x20 * i) + 14, 1⟩
/-- TIM_CMP_CTL.late (R74). -/
def Reg.TIM_CMP_CTL_late (i : Nat) : Fld := ⟨8 * (0x2118 + 0x20 * i) + 15, 1⟩
/-- TIM_CMP_CTL.skipped (R74). -/
def Reg.TIM_CMP_CTL_skipped (i : Nat) : Fld := ⟨8 * (0x2118 + 0x20 * i) + 16, 16⟩
/-- ANG_CFG.en (R107). -/
def Reg.ANG_CFG_en (i : Nat) : Fld := ⟨8 * (0x3000 + 0x100 * i) + 0, 1⟩
/-- ANG_CFG.fnom (R107). -/
def Reg.ANG_CFG_fnom (i : Nat) : Fld := ⟨8 * (0x3000 + 0x100 * i) + 1, 1⟩
/-- ANG_CFG.ref_v (R107). -/
def Reg.ANG_CFG_ref_v (i : Nat) : Fld := ⟨8 * (0x3000 + 0x100 * i) + 2, 3⟩
/-- ANG_CFG.ref_i (R107). -/
def Reg.ANG_CFG_ref_i (i : Nat) : Fld := ⟨8 * (0x3000 + 0x100 * i) + 5, 3⟩
/-- ANG_CFG.bw (R107). -/
def Reg.ANG_CFG_bw (i : Nat) : Fld := ⟨8 * (0x3000 + 0x100 * i) + 8, 2⟩
/-- ANG_LIM.vmin (R107). -/
def Reg.ANG_LIM_vmin (i : Nat) : Fld := ⟨8 * (0x3004 + 0x100 * i) + 0, 7⟩
/-- ANG_LIM.imin (R107). -/
def Reg.ANG_LIM_imin (i : Nat) : Fld := ⟨8 * (0x3004 + 0x100 * i) + 8, 7⟩
/-- ANG_LOCK.lock_window (R107). -/
def Reg.ANG_LOCK_lock_window (i : Nat) : Fld := ⟨8 * (0x3008 + 0x100 * i) + 0, 11⟩
/-- ANG_LOCK.lock_cycles (R107). -/
def Reg.ANG_LOCK_lock_cycles (i : Nat) : Fld := ⟨8 * (0x3008 + 0x100 * i) + 16, 5⟩
/-- ANG_FRZ.freeze_mag (R107). -/
def Reg.ANG_FRZ_freeze_mag (i : Nat) : Fld := ⟨8 * (0x300C + 0x100 * i) + 0, 6⟩
/-- ANG_FRZ.settle_cycles (R107). -/
def Reg.ANG_FRZ_settle_cycles (i : Nat) : Fld := ⟨8 * (0x300C + 0x100 * i) + 8, 5⟩
/-- ANG_FRZ.freeze_max (R107). -/
def Reg.ANG_FRZ_freeze_max (i : Nat) : Fld := ⟨8 * (0x300C + 0x100 * i) + 16, 7⟩
/-- ANG_FPH.freeze_phase (R107). -/
def Reg.ANG_FPH_freeze_phase (i : Nat) : Fld := ⟨8 * (0x3010 + 0x100 * i) + 0, 14⟩
/-- ANG_SLEW.slew_au (R107). -/
def Reg.ANG_SLEW_slew_au (i : Nat) : Fld := ⟨8 * (0x3014 + 0x100 * i) + 0, 14⟩
/-- ANG_SLEW.slew_hz (R107). -/
def Reg.ANG_SLEW_slew_hz (i : Nat) : Fld := ⟨8 * (0x3014 + 0x100 * i) + 16, 7⟩
/-- ANG_HOLD.hold_max (R107). -/
def Reg.ANG_HOLD_hold_max (i : Nat) : Fld := ⟨8 * (0x3018 + 0x100 * i) + 0, 10⟩
/-- ANG_CMP_TGT.tgt (R107). -/
def Reg.ANG_CMP_TGT_tgt (i : Nat) (j : Nat) : Fld := ⟨8 * (0x3040 + 0x100 * i + 0x10 * j) + 0, 48⟩
/-- ANG_CMP_PER.period_au (R107). -/
def Reg.ANG_CMP_PER_period_au (i : Nat) (j : Nat) : Fld := ⟨8 * (0x3048 + 0x100 * i + 0x10 * j) + 0, 32⟩
/-- ANG_CMP_CTL.en (R107). -/
def Reg.ANG_CMP_CTL_en (i : Nat) (j : Nat) : Fld := ⟨8 * (0x304C + 0x100 * i + 0x10 * j) + 0, 1⟩
/-- ANG_CMP_CTL.dest (R107). -/
def Reg.ANG_CMP_CTL_dest (i : Nat) (j : Nat) : Fld := ⟨8 * (0x304C + 0x100 * i + 0x10 * j) + 1, 4⟩
/-- ANG_CMP_CTL.next (R107). -/
def Reg.ANG_CMP_CTL_next (i : Nat) (j : Nat) : Fld := ⟨8 * (0x304C + 0x100 * i + 0x10 * j) + 5, 1⟩
/-- ANG_CMP_CTL.dest_index (R107). -/
def Reg.ANG_CMP_CTL_dest_index (i : Nat) (j : Nat) : Fld := ⟨8 * (0x304C + 0x100 * i + 0x10 * j) + 8, 6⟩
/-- ANG_CMP_CTL.own (R107). -/
def Reg.ANG_CMP_CTL_own (i : Nat) (j : Nat) : Fld := ⟨8 * (0x304C + 0x100 * i + 0x10 * j) + 14, 1⟩
/-- ANG_CMP_CTL.late (R107). -/
def Reg.ANG_CMP_CTL_late (i : Nat) (j : Nat) : Fld := ⟨8 * (0x304C + 0x100 * i + 0x10 * j) + 15, 1⟩
/-- ANG_CMP_CTL.skipped (R107). -/
def Reg.ANG_CMP_CTL_skipped (i : Nat) (j : Nat) : Fld := ⟨8 * (0x304C + 0x100 * i + 0x10 * j) + 16, 16⟩
/-- ANA_REFCFG.src (R149). -/
def Reg.ANA_REFCFG_src : Fld := ⟨8 * (0x4000) + 0, 8⟩
/-- ANA_REFSTAT.ref_warn (R149). -/
def Reg.ANA_REFSTAT_ref_warn : Fld := ⟨8 * (0x4004) + 0, 4⟩
/-- ANA_REFSTAT.ref_fault (R149). -/
def Reg.ANA_REFSTAT_ref_fault : Fld := ⟨8 * (0x4004) + 4, 4⟩
/-- ANA_REFSTAT.refx_absent (R149). -/
def Reg.ANA_REFSTAT_refx_absent : Fld := ⟨8 * (0x4004) + 8, 1⟩
/-- ANA_CHCFG.ch (R149). -/
def Reg.ANA_CHCFG_ch (i : Nat) : Fld := ⟨8 * (0x4010 + 0x4 * i) + 0, 16⟩
/-- ANA_FLOAT.float_en (R149). -/
def Reg.ANA_FLOAT_float_en (i : Nat) : Fld := ⟨8 * (0x4020 + 0x10 * i) + 0, 1⟩
/-- ANA_FLOAT.float_period (R149). -/
def Reg.ANA_FLOAT_float_period (i : Nat) : Fld := ⟨8 * (0x4020 + 0x10 * i) + 4, 4⟩
/-- ANA_FSTAT.float_slice (R149). -/
def Reg.ANA_FSTAT_float_slice (i : Nat) : Fld := ⟨8 * (0x4024 + 0x10 * i) + 0, 4⟩
/-- ANA_FSTAT.phase (R149). -/
def Reg.ANA_FSTAT_phase (i : Nat) : Fld := ⟨8 * (0x4024 + 0x10 * i) + 4, 3⟩
/-- ANA_FSTAT.next_ch (R149). -/
def Reg.ANA_FSTAT_next_ch (i : Nat) : Fld := ⟨8 * (0x4024 + 0x10 * i) + 7, 3⟩
/-- ANA_FSTAT.cal_overdue (R149). -/
def Reg.ANA_FSTAT_cal_overdue (i : Nat) : Fld := ⟨8 * (0x4024 + 0x10 * i) + 10, 1⟩
/-- ANA_FSTAT.float_mismatch (R149). -/
def Reg.ANA_FSTAT_float_mismatch (i : Nat) : Fld := ⟨8 * (0x4024 + 0x10 * i) + 11, 1⟩
/-- ANA_FSTAT.loop_resets (R149). -/
def Reg.ANA_FSTAT_loop_resets (i : Nat) : Fld := ⟨8 * (0x4024 + 0x10 * i) + 12, 4⟩
/-- ANA_FSTAT.abandoned (R149). -/
def Reg.ANA_FSTAT_abandoned (i : Nat) : Fld := ⟨8 * (0x4024 + 0x10 * i) + 16, 8⟩
/-- ANA_SLICEMAP.map (R149). -/
def Reg.ANA_SLICEMAP_map (i : Nat) : Fld := ⟨8 * (0x4028 + 0x10 * i) + 0, 32⟩
/-- ANA_FCNT.handovers (R149). -/
def Reg.ANA_FCNT_handovers (i : Nat) : Fld := ⟨8 * (0x402C + 0x10 * i) + 0, 32⟩
/-- ANA_CAL_GAIN.gain (R149). -/
def Reg.ANA_CAL_GAIN_gain (i : Nat) : Fld := ⟨8 * (0x4100 + 0x8 * i) + 0, 24⟩
/-- ANA_CAL_GAIN.status (R149). -/
def Reg.ANA_CAL_GAIN_status (i : Nat) : Fld := ⟨8 * (0x4100 + 0x8 * i) + 24, 2⟩
/-- ANA_CAL_OFS.offset (R149). -/
def Reg.ANA_CAL_OFS_offset (i : Nat) : Fld := ⟨8 * (0x4104 + 0x8 * i) + 0, 24⟩
/-- ANA_CAL_OFS.age (R149). -/
def Reg.ANA_CAL_OFS_age (i : Nat) : Fld := ⟨8 * (0x4104 + 0x8 * i) + 24, 8⟩
/-- ANA_AUXCFG.mode (R149). -/
def Reg.ANA_AUXCFG_mode : Fld := ⟨8 * (0x4300) + 0, 8⟩
/-- ANA_AUXSTAT.REF_SETTLED (R149). -/
def Reg.ANA_AUXSTAT_REF_SETTLED : Fld := ⟨8 * (0x4304) + 0, 1⟩
/-- ANA_AUXSTAT.ref_now (R149). -/
def Reg.ANA_AUXSTAT_ref_now : Fld := ⟨8 * (0x4304) + 1, 2⟩
/-- ANA_AUXSTAT.busy (R149). -/
def Reg.ANA_AUXSTAT_busy : Fld := ⟨8 * (0x4304) + 3, 1⟩
/-- ANA_AUXSTAT.input_now (R149). -/
def Reg.ANA_AUXSTAT_input_now : Fld := ⟨8 * (0x4304) + 4, 4⟩
/-- ANA_AUXSTAT.seq_now (R149). -/
def Reg.ANA_AUXSTAT_seq_now : Fld := ⟨8 * (0x4304) + 8, 5⟩
/-- ANA_AUXSTAT.pending (R149). -/
def Reg.ANA_AUXSTAT_pending : Fld := ⟨8 * (0x4304) + 16, 16⟩
/-- ANA_AUXCNT.restarts (R149). -/
def Reg.ANA_AUXCNT_restarts : Fld := ⟨8 * (0x4308) + 0, 16⟩
/-- ANA_AUXCNT.overruns (R149). -/
def Reg.ANA_AUXCNT_overruns : Fld := ⟨8 * (0x4308) + 16, 16⟩
/-- ANA_AUXQ.input (R149). -/
def Reg.ANA_AUXQ_input (i : Nat) (j : Nat) : Fld := ⟨8 * (0x4400 + 0x40 * i + 0x4 * j) + 0, 4⟩
/-- ANA_AUXQ.navg (R149). -/
def Reg.ANA_AUXQ_navg (i : Nat) (j : Nat) : Fld := ⟨8 * (0x4400 + 0x40 * i + 0x4 * j) + 4, 8⟩
/-- ANA_AUXQ.shift (R149). -/
def Reg.ANA_AUXQ_shift (i : Nat) (j : Nat) : Fld := ⟨8 * (0x4400 + 0x40 * i + 0x4 * j) + 12, 4⟩
/-- ANA_AUXQ.ref (R149). -/
def Reg.ANA_AUXQ_ref (i : Nat) (j : Nat) : Fld := ⟨8 * (0x4400 + 0x40 * i + 0x4 * j) + 16, 2⟩
/-- ANA_AUXQ.last (R149). -/
def Reg.ANA_AUXQ_last (i : Nat) (j : Nat) : Fld := ⟨8 * (0x4400 + 0x40 * i + 0x4 * j) + 18, 1⟩
/-- DEC_AVG.navg (R174). -/
def Reg.DEC_AVG_navg : Fld := ⟨8 * (0x5000) + 0, 8⟩
/-- DEC_AVG.shift (R174). -/
def Reg.DEC_AVG_shift : Fld := ⟨8 * (0x5000) + 8, 4⟩
/-- DEC_AVG.trim (R174). -/
def Reg.DEC_AVG_trim : Fld := ⟨8 * (0x5000) + 12, 18⟩
/-- DEC_STAT.pending (R174). -/
def Reg.DEC_STAT_pending : Fld := ⟨8 * (0x5004) + 0, 1⟩
/-- DEC_STAT.applied (R174). -/
def Reg.DEC_STAT_applied : Fld := ⟨8 * (0x5004) + 8, 8⟩
/-- DEC_RS.rs_delay (R174). -/
def Reg.DEC_RS_rs_delay : Fld := ⟨8 * (0x5008) + 0, 32⟩
/-- DEC_SETTLE.int_settle (R174). -/
def Reg.DEC_SETTLE_int_settle : Fld := ⟨8 * (0x500C) + 0, 32⟩
/-- DEC_CFG.pool_k (R174). -/
def Reg.DEC_CFG_pool_k (i : Nat) : Fld := ⟨8 * (0x5010 + 0x4 * i) + 0, 2⟩
/-- DEC_CFG.jet_k (R174). -/
def Reg.DEC_CFG_jet_k (i : Nat) : Fld := ⟨8 * (0x5010 + 0x4 * i) + 2, 2⟩
/-- DEC_CFG.int_en (R174). -/
def Reg.DEC_CFG_int_en (i : Nat) : Fld := ⟨8 * (0x5010 + 0x4 * i) + 4, 8⟩
/-- DEC_CFG.int_f (R174). -/
def Reg.DEC_CFG_int_f (i : Nat) : Fld := ⟨8 * (0x5010 + 0x4 * i) + 12, 1⟩
/-- DEC_CFG.leak (R174). -/
def Reg.DEC_CFG_leak (i : Nat) : Fld := ⟨8 * (0x5010 + 0x4 * i) + 13, 3⟩
/-- DEC_PDLY.dp (R174). -/
def Reg.DEC_PDLY_dp (i : Nat) (j : Nat) : Fld := ⟨8 * (0x5100 + 0x40 * i + 0x8 * j) + 0, 32⟩
/-- DEC_JDLY.dj (R174). -/
def Reg.DEC_JDLY_dj (i : Nat) (j : Nat) : Fld := ⟨8 * (0x5104 + 0x40 * i + 0x8 * j) + 0, 32⟩
/-- SLU_CTL.pair_fail (R214). -/
def Reg.SLU_CTL_pair_fail : Fld := ⟨8 * (0x6000) + 0, 1⟩
/-- SLU_CTL.rocof_cycles (R214). -/
def Reg.SLU_CTL_rocof_cycles : Fld := ⟨8 * (0x6000) + 8, 6⟩
/-- SLU_STAT.state (R214). -/
def Reg.SLU_STAT_state (i : Nat) : Fld := ⟨8 * (0x6010 + 0x4 * i) + 0, 2⟩
/-- SLU_STAT.load_k (R214). -/
def Reg.SLU_STAT_load_k (i : Nat) : Fld := ⟨8 * (0x6010 + 0x4 * i) + 8, 10⟩
/-- SLU_STAT.reloads (R214). -/
def Reg.SLU_STAT_reloads (i : Nat) : Fld := ⟨8 * (0x6010 + 0x4 * i) + 18, 14⟩
/-- SLU_OVR.overruns (R214). -/
def Reg.SLU_OVR_overruns (i : Nat) : Fld := ⟨8 * (0x6018 + 0x4 * i) + 0, 32⟩
/-- SLU_PEAK.peak_ns (R214). -/
def Reg.SLU_PEAK_peak_ns (i : Nat) : Fld := ⟨8 * (0x6020 + 0x4 * i) + 0, 32⟩
/-- SLU_BAY.default_group (R214). -/
def Reg.SLU_BAY_default_group (i : Nat) : Fld := ⟨8 * (0x6040 + 0x4 * i) + 0, 3⟩
/-- SLU_BAY.active_group (R214). -/
def Reg.SLU_BAY_active_group (i : Nat) : Fld := ⟨8 * (0x6040 + 0x4 * i) + 4, 3⟩
/-- SLU_BAY.sub_en (R214). -/
def Reg.SLU_BAY_sub_en (i : Nat) : Fld := ⟨8 * (0x6040 + 0x4 * i) + 8, 1⟩
/-- SLU_BAY.sub_stream (R214). -/
def Reg.SLU_BAY_sub_stream (i : Nat) : Fld := ⟨8 * (0x6040 + 0x4 * i) + 9, 4⟩
/-- SLU_BAY.sub_fallback (R214). -/
def Reg.SLU_BAY_sub_fallback (i : Nat) : Fld := ⟨8 * (0x6040 + 0x4 * i) + 13, 1⟩
/-- SLU_BAY.sub_active (R214). -/
def Reg.SLU_BAY_sub_active (i : Nat) : Fld := ⟨8 * (0x6040 + 0x4 * i) + 14, 1⟩
/-- SLU_BAY.sv_lost (R214). -/
def Reg.SLU_BAY_sv_lost (i : Nat) : Fld := ⟨8 * (0x6040 + 0x4 * i) + 15, 1⟩
/-- SLU_SVCFG.sv_wait (R214). -/
def Reg.SLU_SVCFG_sv_wait (i : Nat) : Fld := ⟨8 * (0x6050 + 0x4 * i) + 0, 8⟩
/-- SLU_SVMAP.map (R214). -/
def Reg.SLU_SVMAP_map (i : Nat) : Fld := ⟨8 * (0x6060 + 0x4 * i) + 0, 32⟩
/-- SLU_SVSCALE.scale (R214). -/
def Reg.SLU_SVSCALE_scale (i : Nat) (j : Nat) : Fld := ⟨8 * (0x6080 + 0x20 * i + 0x4 * j) + 0, 32⟩
/-- SLU_FDCTL.inst_en (R214). -/
def Reg.SLU_FDCTL_inst_en (i : Nat) : Fld := ⟨8 * (0x6100 + 0x20 * i) + 0, 4⟩
/-- SLU_FDCTL.dist_en (R214). -/
def Reg.SLU_FDCTL_dist_en (i : Nat) : Fld := ⟨8 * (0x6100 + 0x20 * i) + 4, 1⟩
/-- SLU_FDCTL.n_conf (R214). -/
def Reg.SLU_FDCTL_n_conf (i : Nat) : Fld := ⟨8 * (0x6100 + 0x20 * i) + 5, 3⟩
/-- SLU_FDCTL.dd (R214). -/
def Reg.SLU_FDCTL_dd (i : Nat) : Fld := ⟨8 * (0x6100 + 0x20 * i) + 8, 8⟩
/-- SLU_FDTHR.thr (R214). -/
def Reg.SLU_FDTHR_thr (i : Nat) (j : Nat) : Fld := ⟨8 * (0x6104 + 0x20 * i + 0x4 * j) + 0, 24⟩
/-- SLU_FDDI.delta_i (R214). -/
def Reg.SLU_FDDI_delta_i (i : Nat) : Fld := ⟨8 * (0x6114 + 0x20 * i) + 0, 24⟩
/-- SLU_FDDV.delta_v (R214). -/
def Reg.SLU_FDDV_delta_v (i : Nat) : Fld := ⟨8 * (0x6118 + 0x20 * i) + 0, 24⟩
/-- TRP_CHCFG.en (R270). -/
def Reg.TRP_CHCFG_en (i : Nat) : Fld := ⟨8 * (0x7010 + 0x4 * i) + 0, 1⟩
/-- TRP_CHCFG.wiring (R270). -/
def Reg.TRP_CHCFG_wiring (i : Nat) : Fld := ⟨8 * (0x7010 + 0x4 * i) + 1, 2⟩
/-- TRP_CHCFG.tcs_en (R270). -/
def Reg.TRP_CHCFG_tcs_en (i : Nat) : Fld := ⟨8 * (0x7010 + 0x4 * i) + 3, 1⟩
/-- TRP_CHCFG.tcs_role (R270). -/
def Reg.TRP_CHCFG_tcs_role (i : Nat) : Fld := ⟨8 * (0x7010 + 0x4 * i) + 4, 1⟩
/-- TRP_CHCFG.seal_en (R270). -/
def Reg.TRP_CHCFG_seal_en (i : Nat) : Fld := ⟨8 * (0x7010 + 0x4 * i) + 5, 1⟩
/-- TRP_CHCFG.tcs_blk (R270). -/
def Reg.TRP_CHCFG_tcs_blk (i : Nat) : Fld := ⟨8 * (0x7010 + 0x4 * i) + 8, 12⟩
/-- TRP_CHTIM.t_min (R270). -/
def Reg.TRP_CHTIM_t_min (i : Nat) : Fld := ⟨8 * (0x7040 + 0x4 * i) + 0, 10⟩
/-- TRP_CHTIM.seal_max (R270). -/
def Reg.TRP_CHTIM_seal_max (i : Nat) : Fld := ⟨8 * (0x7040 + 0x4 * i) + 16, 8⟩
/-- TRP_CHTIM.tcs_time (R270). -/
def Reg.TRP_CHTIM_tcs_time (i : Nat) : Fld := ⟨8 * (0x7040 + 0x4 * i) + 24, 7⟩
/-- TRP_CHSTAT.on (R270). -/
def Reg.TRP_CHSTAT_on (i : Nat) : Fld := ⟨8 * (0x7080 + 0x4 * i) + 0, 1⟩
/-- TRP_CHSTAT.current (R270). -/
def Reg.TRP_CHSTAT_current (i : Nat) : Fld := ⟨8 * (0x7080 + 0x4 * i) + 1, 1⟩
/-- TRP_CHSTAT.diag (R270). -/
def Reg.TRP_CHSTAT_diag (i : Nat) : Fld := ⟨8 * (0x7080 + 0x4 * i) + 2, 4⟩
/-- TRP_CHSTAT.seal_timeout (R270). -/
def Reg.TRP_CHSTAT_seal_timeout (i : Nat) : Fld := ⟨8 * (0x7080 + 0x4 * i) + 6, 1⟩
/-- TRP_CHSTAT.silent (R270). -/
def Reg.TRP_CHSTAT_silent (i : Nat) : Fld := ⟨8 * (0x7080 + 0x4 * i) + 7, 1⟩
/-- TRP_CHSTAT.v_sw (R270). -/
def Reg.TRP_CHSTAT_v_sw (i : Nat) : Fld := ⟨8 * (0x7080 + 0x4 * i) + 8, 8⟩
/-- TRP_CHSTAT.i_out (R270). -/
def Reg.TRP_CHSTAT_i_out (i : Nat) : Fld := ⟨8 * (0x7080 + 0x4 * i) + 16, 16⟩
/-- TRP_CHCNT.ops (R270). -/
def Reg.TRP_CHCNT_ops (i : Nat) : Fld := ⟨8 * (0x70C0 + 0x4 * i) + 0, 32⟩
/-- TRP_BKCFG.en (R270). -/
def Reg.TRP_BKCFG_en (i : Nat) : Fld := ⟨8 * (0x7200 + 0x40 * i) + 0, 1⟩
/-- TRP_BKCFG.ref_ch (R270). -/
def Reg.TRP_BKCFG_ref_ch (i : Nat) : Fld := ⟨8 * (0x7200 + 0x40 * i) + 1, 3⟩
/-- TRP_BKCFG.close_row (R270). -/
def Reg.TRP_BKCFG_close_row (i : Nat) : Fld := ⟨8 * (0x7200 + 0x40 * i) + 4, 3⟩
/-- TRP_BKCFG.open_row (R270). -/
def Reg.TRP_BKCFG_open_row (i : Nat) : Fld := ⟨8 * (0x7200 + 0x40 * i) + 7, 3⟩
/-- TRP_BKCFG.pow_fallback (R270). -/
def Reg.TRP_BKCFG_pow_fallback (i : Nat) : Fld := ⟨8 * (0x7200 + 0x40 * i) + 10, 1⟩
/-- TRP_BKCFG.learn_en_c (R270). -/
def Reg.TRP_BKCFG_learn_en_c (i : Nat) : Fld := ⟨8 * (0x7200 + 0x40 * i) + 11, 1⟩
/-- TRP_BKCFG.learn_en_o (R270). -/
def Reg.TRP_BKCFG_learn_en_o (i : Nat) : Fld := ⟨8 * (0x7200 + 0x40 * i) + 12, 1⟩
/-- TRP_BKCFG.trip_rows (R270). -/
def Reg.TRP_BKCFG_trip_rows (i : Nat) : Fld := ⟨8 * (0x7200 + 0x40 * i) + 16, 8⟩
/-- TRP_BKCFG.learn_mask (R270). -/
def Reg.TRP_BKCFG_learn_mask (i : Nat) : Fld := ⟨8 * (0x7200 + 0x40 * i) + 24, 8⟩
/-- TRP_BKTIM.pos_idx (R270). -/
def Reg.TRP_BKTIM_pos_idx (i : Nat) : Fld := ⟨8 * (0x7204 + 0x40 * i) + 0, 12⟩
/-- TRP_BKTIM.pulse_ms (R270). -/
def Reg.TRP_BKTIM_pulse_ms (i : Nat) : Fld := ⟨8 * (0x7204 + 0x40 * i) + 12, 8⟩
/-- TRP_BKTIM.op_timeout (R270). -/
def Reg.TRP_BKTIM_op_timeout (i : Nat) : Fld := ⟨8 * (0x7204 + 0x40 * i) + 20, 10⟩
/-- TRP_BKLRN.learn_thr (R270). -/
def Reg.TRP_BKLRN_learn_thr (i : Nat) : Fld := ⟨8 * (0x7208 + 0x40 * i) + 0, 14⟩
/-- TRP_BKLRN.learn_step (R270). -/
def Reg.TRP_BKLRN_learn_step (i : Nat) : Fld := ⟨8 * (0x7208 + 0x40 * i) + 16, 8⟩
/-- TRP_BKLRN.learn_reject (R270). -/
def Reg.TRP_BKLRN_learn_reject (i : Nat) : Fld := ⟨8 * (0x7208 + 0x40 * i) + 24, 8⟩
/-- TRP_BKLIM.t_op_min (R270). -/
def Reg.TRP_BKLIM_t_op_min (i : Nat) : Fld := ⟨8 * (0x720C + 0x40 * i) + 0, 16⟩
/-- TRP_BKLIM.t_op_max (R270). -/
def Reg.TRP_BKLIM_t_op_max (i : Nat) : Fld := ⟨8 * (0x720C + 0x40 * i) + 16, 16⟩
/-- TRP_BKINIT.init_us (R270). -/
def Reg.TRP_BKINIT_init_us (i : Nat) (j : Nat) : Fld := ⟨8 * (0x7210 + 0x40 * i + 0x4 * j) + 0, 18⟩
/-- TRP_BKTOP.t_op (R270). -/
def Reg.TRP_BKTOP_t_op (i : Nat) (j : Nat) : Fld := ⟨8 * (0x7218 + 0x40 * i + 0x4 * j) + 0, 22⟩
/-- TRP_BKTOP.rejects (R270). -/
def Reg.TRP_BKTOP_rejects (i : Nat) (j : Nat) : Fld := ⟨8 * (0x7218 + 0x40 * i + 0x4 * j) + 22, 2⟩
/-- TRP_BKTOP.learn_alarm (R270). -/
def Reg.TRP_BKTOP_learn_alarm (i : Nat) (j : Nat) : Fld := ⟨8 * (0x7218 + 0x40 * i + 0x4 * j) + 24, 1⟩
/-- index of term j of row i (R270). -/
def Reg.TRP_ROW_index (i j : Nat) : Fld := ⟨8 * (0x7800 + 0x10 * i) + 16 * j + 0, 12⟩
/-- inv of term j of row i (R270). -/
def Reg.TRP_ROW_inv (i j : Nat) : Fld := ⟨8 * (0x7800 + 0x10 * i) + 16 * j + 12, 1⟩
/-- use of term j of row i (R270). -/
def Reg.TRP_ROW_use (i j : Nat) : Fld := ⟨8 * (0x7800 + 0x10 * i) + 16 * j + 13, 1⟩
/-- op of row i (R270). -/
def Reg.TRP_ROW_op (i : Nat) : Fld := ⟨8 * (0x7800 + 0x10 * i) + 14, 1⟩
/-- CAP_CTL.en (R293). -/
def Reg.CAP_CTL_en : Fld := ⟨8 * (0x8000) + 0, 1⟩
/-- CAP_CTL.cis_mirror (R293). -/
def Reg.CAP_CTL_cis_mirror : Fld := ⟨8 * (0x8000) + 1, 1⟩
/-- CAP_STAT.running (R293). -/
def Reg.CAP_STAT_running : Fld := ⟨8 * (0x8004) + 0, 1⟩
/-- CAP_STAT.cis_silent (R293). -/
def Reg.CAP_STAT_cis_silent : Fld := ⟨8 * (0x8004) + 1, 1⟩
/-- CAP_STAT.late_marks (R293). -/
def Reg.CAP_STAT_late_marks : Fld := ⟨8 * (0x8004) + 16, 16⟩
/-- sel of digital word i (R293). -/
def Reg.CAP_DSEL_sel (i : Nat) : Fld := ⟨8 * 0x8010 + 8 * i, 7⟩
/-- CAP_SUB.en (R293). -/
def Reg.CAP_SUB_en (i : Nat) : Fld := ⟨8 * (0x8080 + 0x8 * i) + 0, 1⟩
/-- CAP_SUB.port (R293). -/
def Reg.CAP_SUB_port (i : Nat) : Fld := ⟨8 * (0x8080 + 0x8 * i) + 1, 1⟩
/-- CAP_SUB.ctx (R293). -/
def Reg.CAP_SUB_ctx (i : Nat) : Fld := ⟨8 * (0x8080 + 0x8 * i) + 2, 2⟩
/-- CAP_SUB.ring (R293). -/
def Reg.CAP_SUB_ring (i : Nat) : Fld := ⟨8 * (0x8080 + 0x8 * i) + 4, 3⟩
/-- CAP_SUB.hi (R293). -/
def Reg.CAP_SUB_hi (i : Nat) : Fld := ⟨8 * (0x8080 + 0x8 * i) + 8, 7⟩
/-- CAP_SUB.lo (R293). -/
def Reg.CAP_SUB_lo (i : Nat) : Fld := ⟨8 * (0x8080 + 0x8 * i) + 16, 7⟩
/-- CAP_SUBSTAT.div (R293). -/
def Reg.CAP_SUBSTAT_div (i : Nat) : Fld := ⟨8 * (0x8084 + 0x8 * i) + 0, 3⟩
/-- CAP_SUBSTAT.dropped (R293). -/
def Reg.CAP_SUBSTAT_dropped (i : Nat) : Fld := ⟨8 * (0x8084 + 0x8 * i) + 8, 24⟩
/-- CAP_GRP.en (R293). -/
def Reg.CAP_GRP_en (i : Nat) : Fld := ⟨8 * (0x8100 + 0x8 * i) + 0, 1⟩
/-- CAP_GRP.port (R293). -/
def Reg.CAP_GRP_port (i : Nat) : Fld := ⟨8 * (0x8100 + 0x8 * i) + 1, 2⟩
/-- CAP_GRP.one_shot (R293). -/
def Reg.CAP_GRP_one_shot (i : Nat) : Fld := ⟨8 * (0x8100 + 0x8 * i) + 3, 1⟩
/-- CAP_GRP.group_id (R293). -/
def Reg.CAP_GRP_group_id (i : Nat) : Fld := ⟨8 * (0x8100 + 0x8 * i) + 16, 16⟩
/-- CAP_GRPSTAT.armed (R293). -/
def Reg.CAP_GRPSTAT_armed (i : Nat) : Fld := ⟨8 * (0x8104 + 0x8 * i) + 0, 1⟩
/-- CAP_GRPSTAT.grp_oversize (R293). -/
def Reg.CAP_GRPSTAT_grp_oversize (i : Nat) : Fld := ⟨8 * (0x8104 + 0x8 * i) + 1, 1⟩
/-- CAP_GRPSTAT.fire_limited (R293). -/
def Reg.CAP_GRPSTAT_fire_limited (i : Nat) : Fld := ⟨8 * (0x8104 + 0x8 * i) + 2, 6⟩
/-- CAP_GRPSTAT.discarded (R293). -/
def Reg.CAP_GRPSTAT_discarded (i : Nat) : Fld := ⟨8 * (0x8104 + 0x8 * i) + 8, 12⟩
/-- CAP_GRPSTAT.fires_rx (R293). -/
def Reg.CAP_GRPSTAT_fires_rx (i : Nat) : Fld := ⟨8 * (0x8104 + 0x8 * i) + 20, 12⟩
/-- CAP_TRG_CFG.en (R293). -/
def Reg.CAP_TRG_CFG_en (i : Nat) : Fld := ⟨8 * (0x8400 + 0x40 * i) + 0, 1⟩
/-- CAP_TRG_CFG.type (R293). -/
def Reg.CAP_TRG_CFG_type (i : Nat) : Fld := ⟨8 * (0x8400 + 0x40 * i) + 1, 3⟩
/-- CAP_TRG_CFG.pol (R293). -/
def Reg.CAP_TRG_CFG_pol (i : Nat) : Fld := ⟨8 * (0x8400 + 0x40 * i) + 4, 1⟩
/-- CAP_TRG_CFG.dig (R293). -/
def Reg.CAP_TRG_CFG_dig (i : Nat) : Fld := ⟨8 * (0x8400 + 0x40 * i) + 5, 1⟩
/-- CAP_TRG_CFG.src (R293). -/
def Reg.CAP_TRG_CFG_src (i : Nat) : Fld := ⟨8 * (0x8400 + 0x40 * i) + 6, 12⟩
/-- CAP_TRG_CFG.gate (R293). -/
def Reg.CAP_TRG_CFG_gate (i : Nat) : Fld := ⟨8 * (0x8400 + 0x40 * i) + 18, 1⟩
/-- CAP_TRG_CFG.grp_en (R293). -/
def Reg.CAP_TRG_CFG_grp_en (i : Nat) : Fld := ⟨8 * (0x8400 + 0x40 * i) + 19, 1⟩
/-- CAP_TRG_CFG.grp (R293). -/
def Reg.CAP_TRG_CFG_grp (i : Nat) : Fld := ⟨8 * (0x8400 + 0x40 * i) + 20, 2⟩
/-- CAP_TRG_CFG.holdoff (R293). -/
def Reg.CAP_TRG_CFG_holdoff (i : Nat) : Fld := ⟨8 * (0x8400 + 0x40 * i) + 22, 10⟩
/-- CAP_TRG_HI.level (R293). -/
def Reg.CAP_TRG_HI_level (i : Nat) : Fld := ⟨8 * (0x8404 + 0x40 * i) + 0, 24⟩
/-- CAP_TRG_HI.hyst (R293). -/
def Reg.CAP_TRG_HI_hyst (i : Nat) : Fld := ⟨8 * (0x8404 + 0x40 * i) + 24, 8⟩
/-- CAP_TRG_LO.level (R293). -/
def Reg.CAP_TRG_LO_level (i : Nat) : Fld := ⟨8 * (0x8408 + 0x40 * i) + 0, 24⟩
/-- CAP_TRG_LO.hyst (R293). -/
def Reg.CAP_TRG_LO_hyst (i : Nat) : Fld := ⟨8 * (0x8408 + 0x40 * i) + 24, 8⟩
/-- CAP_TRG_T1.t (R293). -/
def Reg.CAP_TRG_T1_t (i : Nat) : Fld := ⟨8 * (0x840C + 0x40 * i) + 0, 32⟩
/-- CAP_TRG_T2.t (R293). -/
def Reg.CAP_TRG_T2_t (i : Nat) : Fld := ⟨8 * (0x8410 + 0x40 * i) + 0, 32⟩
/-- CAP_TRG_WIN.win_len (R293). -/
def Reg.CAP_TRG_WIN_win_len (i : Nat) : Fld := ⟨8 * (0x8414 + 0x40 * i) + 0, 32⟩
/-- CAP_TRG_STAT.fires (R293). -/
def Reg.CAP_TRG_STAT_fires (i : Nat) : Fld := ⟨8 * (0x8418 + 0x40 * i) + 0, 16⟩
/-- CAP_TRG_STAT.suppressed (R293). -/
def Reg.CAP_TRG_STAT_suppressed (i : Nat) : Fld := ⟨8 * (0x8418 + 0x40 * i) + 16, 15⟩
/-- CAP_TRG_STAT.suspended (R293). -/
def Reg.CAP_TRG_STAT_suspended (i : Nat) : Fld := ⟨8 * (0x8418 + 0x40 * i) + 31, 1⟩
/-- src of pattern term j of trigger unit i (R293). -/
def Reg.CAP_TRG_PAT_src (i j : Nat) : Fld := ⟨8 * (0x8420 + 0x40 * i) + 16 * j + 0, 12⟩
/-- analog of pattern term j of trigger unit i (R293). -/
def Reg.CAP_TRG_PAT_analog (i j : Nat) : Fld := ⟨8 * (0x8420 + 0x40 * i) + 16 * j + 12, 1⟩
/-- want of pattern term j of trigger unit i (R293). -/
def Reg.CAP_TRG_PAT_want (i j : Nat) : Fld := ⟨8 * (0x8420 + 0x40 * i) + 16 * j + 13, 2⟩
/-- CAP_TWCTL.port (R310). -/
def Reg.CAP_TWCTL_port : Fld := ⟨8 * (0x8C00) + 0, 2⟩
/-- CAP_TWCTL.rem_wait (R310). -/
def Reg.CAP_TWCTL_rem_wait : Fld := ⟨8 * (0x8C00) + 8, 8⟩
/-- CAP_TWCTL.rec_lost (R310). -/
def Reg.CAP_TWCTL_rec_lost : Fld := ⟨8 * (0x8C00) + 16, 16⟩
/-- CAP_TWCFG.en (R310). -/
def Reg.CAP_TWCFG_en (i : Nat) : Fld := ⟨8 * (0x8C10 + 0x20 * i) + 0, 1⟩
/-- CAP_TWCFG.src (R310). -/
def Reg.CAP_TWCFG_src (i : Nat) : Fld := ⟨8 * (0x8C10 + 0x20 * i) + 1, 1⟩
/-- CAP_TWCFG.mode (R310). -/
def Reg.CAP_TWCFG_mode (i : Nat) : Fld := ⟨8 * (0x8C10 + 0x20 * i) + 2, 2⟩
/-- CAP_TWCFG.peer_en (R310). -/
def Reg.CAP_TWCFG_peer_en (i : Nat) : Fld := ⟨8 * (0x8C10 + 0x20 * i) + 4, 1⟩
/-- CAP_TWCFG.tw_dead (R310). -/
def Reg.CAP_TWCFG_tw_dead (i : Nat) : Fld := ⟨8 * (0x8C10 + 0x20 * i) + 8, 10⟩
/-- CAP_TWCFG.confirm (R310). -/
def Reg.CAP_TWCFG_confirm (i : Nat) : Fld := ⟨8 * (0x8C10 + 0x20 * i) + 18, 7⟩
/-- CAP_TWTHR.tw_thr (R310). -/
def Reg.CAP_TWTHR_tw_thr (i : Nat) : Fld := ⟨8 * (0x8C14 + 0x20 * i) + 0, 16⟩
/-- CAP_TWPEER.peer_node (R310). -/
def Reg.CAP_TWPEER_peer_node (i : Nat) : Fld := ⟨8 * (0x8C18 + 0x20 * i) + 0, 14⟩
/-- CAP_TWPEER.peer_bay (R310). -/
def Reg.CAP_TWPEER_peer_bay (i : Nat) : Fld := ⟨8 * (0x8C18 + 0x20 * i) + 14, 2⟩
/-- CAP_TWLEN.length (R310). -/
def Reg.CAP_TWLEN_length (i : Nat) : Fld := ⟨8 * (0x8C1C + 0x20 * i) + 0, 32⟩
/-- CAP_TWVEL.velocity (R310). -/
def Reg.CAP_TWVEL_velocity (i : Nat) : Fld := ⟨8 * (0x8C20 + 0x20 * i) + 0, 32⟩
/-- CAP_TWOFS.tw_ofs (R310). -/
def Reg.CAP_TWOFS_tw_ofs (i : Nat) : Fld := ⟨8 * (0x8C24 + 0x20 * i) + 0, 16⟩
/-- CAP_TWSTAT.detections (R310). -/
def Reg.CAP_TWSTAT_detections (i : Nat) : Fld := ⟨8 * (0x8C28 + 0x20 * i) + 0, 16⟩
/-- CAP_TWSTAT.located (R310). -/
def Reg.CAP_TWSTAT_located (i : Nat) : Fld := ⟨8 * (0x8C28 + 0x20 * i) + 16, 8⟩
/-- CAP_TWSTAT.discarded (R310). -/
def Reg.CAP_TWSTAT_discarded (i : Nat) : Fld := ⟨8 * (0x8C28 + 0x20 * i) + 24, 8⟩
/-- CIS_STAT.silent (R337). -/
def Reg.CIS_STAT_silent : Fld := ⟨8 * (0x9000) + 0, 1⟩
/-- CIS_STAT.sealed (R337). -/
def Reg.CIS_STAT_sealed : Fld := ⟨8 * (0x9000) + 1, 1⟩
/-- CIS_STAT.fit_ok (R337). -/
def Reg.CIS_STAT_fit_ok : Fld := ⟨8 * (0x9000) + 2, 1⟩
/-- CIS_STAT.clock_invalid (R337). -/
def Reg.CIS_STAT_clock_invalid : Fld := ⟨8 * (0x9000) + 3, 1⟩
/-- CIS_STAT.meas_warn (R337). -/
def Reg.CIS_STAT_meas_warn : Fld := ⟨8 * (0x9000) + 4, 1⟩
/-- CIS_STAT.meas_fault (R337). -/
def Reg.CIS_STAT_meas_fault : Fld := ⟨8 * (0x9000) + 5, 1⟩
/-- CIS_STAT.pending (R337). -/
def Reg.CIS_STAT_pending : Fld := ⟨8 * (0x9000) + 8, 4⟩
/-- CIS_RXCNT.received (R337). -/
def Reg.CIS_RXCNT_received : Fld := ⟨8 * (0x9004) + 0, 16⟩
/-- CIS_RXCNT.crc_errors (R337). -/
def Reg.CIS_RXCNT_crc_errors : Fld := ⟨8 * (0x9004) + 16, 16⟩
/-- CIS_SEQ.seq (R337). -/
def Reg.CIS_SEQ_seq : Fld := ⟨8 * (0x9008) + 0, 32⟩
/-- CIS_SWID.sw_id (R337). -/
def Reg.CIS_SWID_sw_id : Fld := ⟨8 * (0x900C) + 0, 32⟩
/-- CIS_AUDIT.audit (R337). -/
def Reg.CIS_AUDIT_audit : Fld := ⟨8 * (0x9010) + 0, 32⟩
/-- CIS_LAT.lane_lat (R337). -/
def Reg.CIS_LAT_lane_lat : Fld := ⟨8 * (0x9014) + 0, 16⟩
/-- CIS_REQCNT.sent (R337). -/
def Reg.CIS_REQCNT_sent : Fld := ⟨8 * (0x9018) + 0, 16⟩
/-- CIS_REQCNT.dropped (R337). -/
def Reg.CIS_REQCNT_dropped : Fld := ⟨8 * (0x9018) + 16, 16⟩
/-- CIS_REJECT.rejects (R337). -/
def Reg.CIS_REJECT_rejects : Fld := ⟨8 * (0x901C) + 0, 32⟩
/-- CSC_PCTL.autostart (R366). -/
def Reg.CSC_PCTL_autostart : Fld := ⟨8 * (0xA000) + 0, 1⟩
/-- CSC_PCTL.retain_period (R366). -/
def Reg.CSC_PCTL_retain_period : Fld := ⟨8 * (0xA000) + 8, 16⟩
/-- CSC_PSTAT.cstate (R366). -/
def Reg.CSC_PSTAT_cstate : Fld := ⟨8 * (0xA004) + 0, 2⟩
/-- CSC_PSTAT.slot (R366). -/
def Reg.CSC_PSTAT_slot : Fld := ⟨8 * (0xA004) + 2, 1⟩
/-- CSC_PSTAT.slot_a (R366). -/
def Reg.CSC_PSTAT_slot_a : Fld := ⟨8 * (0xA004) + 3, 3⟩
/-- CSC_PSTAT.slot_b (R366). -/
def Reg.CSC_PSTAT_slot_b : Fld := ⟨8 * (0xA004) + 6, 3⟩
/-- CSC_PSTAT.warm (R366). -/
def Reg.CSC_PSTAT_warm : Fld := ⟨8 * (0xA004) + 9, 1⟩
/-- CSC_PSTAT.ret_valid (R366). -/
def Reg.CSC_PSTAT_ret_valid : Fld := ⟨8 * (0xA004) + 10, 1⟩
/-- CSC_FPRINT.fingerprint (R366). -/
def Reg.CSC_FPRINT_fingerprint : Fld := ⟨8 * (0xA008) + 0, 64⟩
/-- CSC_COMMIT.commit_seq (R366). -/
def Reg.CSC_COMMIT_commit_seq : Fld := ⟨8 * (0xA010) + 0, 64⟩
/-- CSC_TSTAT.tstate (R366). -/
def Reg.CSC_TSTAT_tstate (i : Nat) : Fld := ⟨8 * (0xA100 + 0x4 * i) + 0, 2⟩
/-- CSC_TSTAT.fault (R366). -/
def Reg.CSC_TSTAT_fault (i : Nat) : Fld := ⟨8 * (0xA100 + 0x4 * i) + 2, 3⟩
/-- CSC_TSTAT.replays (R366). -/
def Reg.CSC_TSTAT_replays (i : Nat) : Fld := ⟨8 * (0xA100 + 0x4 * i) + 8, 8⟩
/-- CSC_TSTAT.overruns (R366). -/
def Reg.CSC_TSTAT_overruns (i : Nat) : Fld := ⟨8 * (0xA100 + 0x4 * i) + 16, 16⟩
/-- CSC_CSTAT.cores (R405). -/
def Reg.CSC_CSTAT_cores : Fld := ⟨8 * (0xA200) + 0, 16⟩
/-- CSC_CSTAT.pending (R405). -/
def Reg.CSC_CSTAT_pending : Fld := ⟨8 * (0xA200) + 16, 7⟩
/-- CSC_CSTAT.in_service (R405). -/
def Reg.CSC_CSTAT_in_service : Fld := ⟨8 * (0xA200) + 23, 4⟩
/-- CSC_CLAT.peak_lat (R405). -/
def Reg.CSC_CLAT_peak_lat : Fld := ⟨8 * (0xA204) + 0, 16⟩
/-- CSC_CIGN.ignored (R405). -/
def Reg.CSC_CIGN_ignored : Fld := ⟨8 * (0xA208) + 0, 32⟩
/-- CSC_FLAG.flags (R405). -/
def Reg.CSC_FLAG_flags (i : Nat) : Fld := ⟨8 * (0xA300 + 0x4 * i) + 0, 32⟩
/-- flow of flow entry j of task i (R405). -/
def Reg.CSC_FLOW_flow (i j : Nat) : Fld := ⟨8 * (0xA400 + 8 * i) + 16 * j + 0, 10⟩
/-- en of flow entry j of task i (R405). -/
def Reg.CSC_FLOW_en (i j : Nat) : Fld := ⟨8 * (0xA400 + 8 * i) + 16 * j + 15, 1⟩
/-- CSC_TDSP.dstate (R405). -/
def Reg.CSC_TDSP_dstate (i : Nat) : Fld := ⟨8 * (0xA600 + 0x4 * i) + 0, 3⟩
/-- CSC_TDSP.core (R405). -/
def Reg.CSC_TDSP_core (i : Nat) : Fld := ⟨8 * (0xA600 + 0x4 * i) + 3, 3⟩
/-- CSC_TDSP.peak_wait (R405). -/
def Reg.CSC_TDSP_peak_wait (i : Nat) : Fld := ⟨8 * (0xA600 + 0x4 * i) + 16, 16⟩
/-- CSC_TCNT.suppressed (R405). -/
def Reg.CSC_TCNT_suppressed (i : Nat) : Fld := ⟨8 * (0xA700 + 0x4 * i) + 0, 16⟩
/-- CSC_TCNT.merged (R405). -/
def Reg.CSC_TCNT_merged (i : Nat) : Fld := ⟨8 * (0xA700 + 0x4 * i) + 16, 16⟩
/-- CSC_ROUTE.en (R405). -/
def Reg.CSC_ROUTE_en (i : Nat) : Fld := ⟨8 * (0xA800 + 0x4 * i) + 0, 1⟩
/-- CSC_ROUTE.edge (R405). -/
def Reg.CSC_ROUTE_edge (i : Nat) : Fld := ⟨8 * (0xA800 + 0x4 * i) + 1, 2⟩
/-- CSC_ROUTE.task (R405). -/
def Reg.CSC_ROUTE_task (i : Nat) : Fld := ⟨8 * (0xA800 + 0x4 * i) + 8, 6⟩
/-- CSC_ROUTE.flag (R405). -/
def Reg.CSC_ROUTE_flag (i : Nat) : Fld := ⟨8 * (0xA800 + 0x4 * i) + 16, 5⟩
/-- CSC_SKSTAT.phase (R426). -/
def Reg.CSC_SKSTAT_phase : Fld := ⟨8 * (0xA020) + 0, 3⟩
/-- CSC_SKSTAT.reverse (R426). -/
def Reg.CSC_SKSTAT_reverse : Fld := ⟨8 * (0xA020) + 3, 1⟩
/-- CSC_SKSTAT.last (R426). -/
def Reg.CSC_SKSTAT_last : Fld := ⟨8 * (0xA020) + 4, 4⟩
/-- CSC_SKSTAT.passes (R426). -/
def Reg.CSC_SKSTAT_passes : Fld := ⟨8 * (0xA020) + 8, 8⟩
/-- CSC_SKSTAT.dirty_kib (R426). -/
def Reg.CSC_SKSTAT_dirty_kib : Fld := ⟨8 * (0xA020) + 16, 16⟩
/-- CSC_SKTSW.t_sw (R426). -/
def Reg.CSC_SKTSW_t_sw : Fld := ⟨8 * (0xA028) + 0, 64⟩
/-- CSC_SKPAUSE.peak_pause (R426). -/
def Reg.CSC_SKPAUSE_peak_pause : Fld := ⟨8 * (0xA030) + 0, 32⟩
/-- CSC_FSTAT.active (R426). -/
def Reg.CSC_FSTAT_active : Fld := ⟨8 * (0xA034) + 0, 13⟩
/-- CSC_FSTAT.orphans (R426). -/
def Reg.CSC_FSTAT_orphans : Fld := ⟨8 * (0xA034) + 16, 13⟩
/-- CSC_FSTAT.table_ignored (R426). -/
def Reg.CSC_FSTAT_table_ignored : Fld := ⟨8 * (0xA034) + 31, 1⟩
/-- FIO_CTL.rearm_a (R452). -/
def Reg.FIO_CTL_rearm_a : Fld := ⟨8 * (0xB000) + 0, 1⟩
/-- FIO_CTL.rearm_b (R452). -/
def Reg.FIO_CTL_rearm_b : Fld := ⟨8 * (0xB000) + 1, 1⟩
/-- FIO_CTL.recover (R452). -/
def Reg.FIO_CTL_recover : Fld := ⟨8 * (0xB000) + 8, 8⟩
/-- FIO_FSSTAT.fs_low_a (R452). -/
def Reg.FIO_FSSTAT_fs_low_a : Fld := ⟨8 * (0xB004) + 0, 1⟩
/-- FIO_FSSTAT.fs_dead_a (R452). -/
def Reg.FIO_FSSTAT_fs_dead_a : Fld := ⟨8 * (0xB004) + 1, 1⟩
/-- FIO_FSSTAT.latched_a (R452). -/
def Reg.FIO_FSSTAT_latched_a : Fld := ⟨8 * (0xB004) + 2, 1⟩
/-- FIO_FSSTAT.fs_low_b (R452). -/
def Reg.FIO_FSSTAT_fs_low_b : Fld := ⟨8 * (0xB004) + 4, 1⟩
/-- FIO_FSSTAT.fs_dead_b (R452). -/
def Reg.FIO_FSSTAT_fs_dead_b : Fld := ⟨8 * (0xB004) + 5, 1⟩
/-- FIO_FSSTAT.latched_b (R452). -/
def Reg.FIO_FSSTAT_latched_b : Fld := ⟨8 * (0xB004) + 6, 1⟩
/-- FIO_FSVAL.fsa (R452). -/
def Reg.FIO_FSVAL_fsa : Fld := ⟨8 * (0xB008) + 0, 16⟩
/-- FIO_FSVAL.fsb (R452). -/
def Reg.FIO_FSVAL_fsb : Fld := ⟨8 * (0xB008) + 16, 16⟩
/-- FIO_FSCNT.dead_a (R452). -/
def Reg.FIO_FSCNT_dead_a : Fld := ⟨8 * (0xB00C) + 0, 16⟩
/-- FIO_FSCNT.dead_b (R452). -/
def Reg.FIO_FSCNT_dead_b : Fld := ⟨8 * (0xB00C) + 16, 16⟩
/-- FIO_CFG.en (R452). -/
def Reg.FIO_CFG_en (i : Nat) : Fld := ⟨8 * (0xB100 + 0x20 * i) + 0, 1⟩
/-- FIO_CFG.dir (R452). -/
def Reg.FIO_CFG_dir (i : Nat) : Fld := ⟨8 * (0xB100 + 0x20 * i) + 1, 1⟩
/-- FIO_CFG.class (R452). -/
def Reg.FIO_CFG_class (i : Nat) : Fld := ⟨8 * (0xB100 + 0x20 * i) + 2, 1⟩
/-- FIO_CFG.src (R452). -/
def Reg.FIO_CFG_src (i : Nat) : Fld := ⟨8 * (0xB100 + 0x20 * i) + 3, 1⟩
/-- FIO_CFG.safe (R452). -/
def Reg.FIO_CFG_safe (i : Nat) : Fld := ⟨8 * (0xB100 + 0x20 * i) + 4, 2⟩
/-- FIO_CFG.par (R452). -/
def Reg.FIO_CFG_par (i : Nat) : Fld := ⟨8 * (0xB100 + 0x20 * i) + 6, 2⟩
/-- FIO_CFG.shared (R452). -/
def Reg.FIO_CFG_shared (i : Nat) : Fld := ⟨8 * (0xB100 + 0x20 * i) + 8, 1⟩
/-- FIO_CFG.open_det (R452). -/
def Reg.FIO_CFG_open_det (i : Nat) : Fld := ⟨8 * (0xB100 + 0x20 * i) + 9, 1⟩
/-- FIO_DEB.debounce (R452). -/
def Reg.FIO_DEB_debounce (i : Nat) : Fld := ⟨8 * (0xB104 + 0x20 * i) + 0, 16⟩
/-- FIO_DEB.chatter_max (R452). -/
def Reg.FIO_DEB_chatter_max (i : Nat) : Fld := ⟨8 * (0xB104 + 0x20 * i) + 16, 8⟩
/-- FIO_DEB.settle (R452). -/
def Reg.FIO_DEB_settle (i : Nat) : Fld := ⟨8 * (0xB104 + 0x20 * i) + 24, 8⟩
/-- FIO_SUP.win_lo (R452). -/
def Reg.FIO_SUP_win_lo (i : Nat) : Fld := ⟨8 * (0xB108 + 0x20 * i) + 0, 8⟩
/-- FIO_SUP.win_hi (R452). -/
def Reg.FIO_SUP_win_hi (i : Nat) : Fld := ⟨8 * (0xB108 + 0x20 * i) + 8, 8⟩
/-- FIO_SUP.diag_time (R452). -/
def Reg.FIO_SUP_diag_time (i : Nat) : Fld := ⟨8 * (0xB108 + 0x20 * i) + 16, 8⟩
/-- FIO_STUCK.stuck_time (R452). -/
def Reg.FIO_STUCK_stuck_time (i : Nat) : Fld := ⟨8 * (0xB10C + 0x20 * i) + 0, 16⟩
/-- FIO_OUT.out_pt (R452). -/
def Reg.FIO_OUT_out_pt (i : Nat) : Fld := ⟨8 * (0xB110 + 0x20 * i) + 0, 16⟩
/-- FIO_OUT.silence (R452). -/
def Reg.FIO_OUT_silence (i : Nat) : Fld := ⟨8 * (0xB110 + 0x20 * i) + 16, 10⟩
/-- FIO_OUT.retry (R452). -/
def Reg.FIO_OUT_retry (i : Nat) : Fld := ⟨8 * (0xB110 + 0x20 * i) + 26, 6⟩
/-- FIO_STAT.level (R452). -/
def Reg.FIO_STAT_level (i : Nat) : Fld := ⟨8 * (0xB114 + 0x20 * i) + 0, 1⟩
/-- FIO_STAT.cmd (R452). -/
def Reg.FIO_STAT_cmd (i : Nat) : Fld := ⟨8 * (0xB114 + 0x20 * i) + 1, 1⟩
/-- FIO_STAT.on (R452). -/
def Reg.FIO_STAT_on (i : Nat) : Fld := ⟨8 * (0xB114 + 0x20 * i) + 2, 1⟩
/-- FIO_STAT.permitted (R452). -/
def Reg.FIO_STAT_permitted (i : Nat) : Fld := ⟨8 * (0xB114 + 0x20 * i) + 3, 1⟩
/-- FIO_STAT.safe_active (R452). -/
def Reg.FIO_STAT_safe_active (i : Nat) : Fld := ⟨8 * (0xB114 + 0x20 * i) + 4, 1⟩
/-- FIO_STAT.chatter (R452). -/
def Reg.FIO_STAT_chatter (i : Nat) : Fld := ⟨8 * (0xB114 + 0x20 * i) + 5, 1⟩
/-- FIO_STAT.validity (R452). -/
def Reg.FIO_STAT_validity (i : Nat) : Fld := ⟨8 * (0xB114 + 0x20 * i) + 8, 2⟩
/-- FIO_STAT.oscillatory (R452). -/
def Reg.FIO_STAT_oscillatory (i : Nat) : Fld := ⟨8 * (0xB114 + 0x20 * i) + 10, 1⟩
/-- FIO_STAT.failure (R452). -/
def Reg.FIO_STAT_failure (i : Nat) : Fld := ⟨8 * (0xB114 + 0x20 * i) + 11, 1⟩
/-- FIO_STAT.oldData (R452). -/
def Reg.FIO_STAT_oldData (i : Nat) : Fld := ⟨8 * (0xB114 + 0x20 * i) + 12, 1⟩
/-- FIO_STAT.diag (R452). -/
def Reg.FIO_STAT_diag (i : Nat) : Fld := ⟨8 * (0xB114 + 0x20 * i) + 16, 4⟩
/-- FIO_CNT.changes (R452). -/
def Reg.FIO_CNT_changes (i : Nat) : Fld := ⟨8 * (0xB118 + 0x20 * i) + 0, 16⟩
/-- FIO_CNT.suppressed (R452). -/
def Reg.FIO_CNT_suppressed (i : Nat) : Fld := ⟨8 * (0xB118 + 0x20 * i) + 16, 16⟩
/-- FIO_MEAS.i_loop (R452). -/
def Reg.FIO_MEAS_i_loop (i : Nat) : Fld := ⟨8 * (0xB11C + 0x20 * i) + 0, 8⟩
/-- FIO_MEAS.v_term (R452). -/
def Reg.FIO_MEAS_v_term (i : Nat) : Fld := ⟨8 * (0xB11C + 0x20 * i) + 8, 8⟩
/-- FIO_MEAS.i_out (R452). -/
def Reg.FIO_MEAS_i_out (i : Nat) : Fld := ⟨8 * (0xB11C + 0x20 * i) + 16, 16⟩
/-- HCX_ROLE.role (R485). -/
def Reg.HCX_ROLE_role (i : Nat) : Fld := ⟨8 * (0xC000 + 0x4 * i) + 0, 3⟩
/-- HCX_ROLE.setup (R485). -/
def Reg.HCX_ROLE_setup (i : Nat) : Fld := ⟨8 * (0xC000 + 0x4 * i) + 3, 1⟩
/-- HCX_ROLE.active_role (R485). -/
def Reg.HCX_ROLE_active_role (i : Nat) : Fld := ⟨8 * (0xC000 + 0x4 * i) + 4, 3⟩
/-- HCX_ROLE.active_setup (R485). -/
def Reg.HCX_ROLE_active_setup (i : Nat) : Fld := ⟨8 * (0xC000 + 0x4 * i) + 7, 1⟩
/-- HCX_PORT.link_up (R485). -/
def Reg.HCX_PORT_link_up (i : Nat) : Fld := ⟨8 * (0xC020 + 0x4 * i) + 0, 1⟩
/-- HCX_PORT.speed (R485). -/
def Reg.HCX_PORT_speed (i : Nat) : Fld := ⟨8 * (0xC020 + 0x4 * i) + 1, 2⟩
/-- HCX_PORT.width (R485). -/
def Reg.HCX_PORT_width (i : Nat) : Fld := ⟨8 * (0xC020 + 0x4 * i) + 3, 2⟩
/-- HCX_PORT.link_downs (R485). -/
def Reg.HCX_PORT_link_downs (i : Nat) : Fld := ⟨8 * (0xC020 + 0x4 * i) + 16, 16⟩
/-- HCX_CTL.en (R485). -/
def Reg.HCX_CTL_en (i : Nat) : Fld := ⟨8 * (0x20000 + 0x4000 * i) + 0, 1⟩
/-- HCX_CTL.holdoff (R485). -/
def Reg.HCX_CTL_holdoff (i : Nat) : Fld := ⟨8 * (0x20000 + 0x4000 * i) + 16, 10⟩
/-- HCX_STAT.state (R485). -/
def Reg.HCX_STAT_state (i : Nat) : Fld := ⟨8 * (0x20004 + 0x4000 * i) + 0, 2⟩
/-- HCX_STAT.db_bad (R485). -/
def Reg.HCX_STAT_db_bad (i : Nat) : Fld := ⟨8 * (0x20004 + 0x4000 * i) + 2, 1⟩
/-- HCX_STAT.db_early (R485). -/
def Reg.HCX_STAT_db_early (i : Nat) : Fld := ⟨8 * (0x20004 + 0x4000 * i) + 3, 1⟩
/-- HCX_STAT.db_fail (R485). -/
def Reg.HCX_STAT_db_fail (i : Nat) : Fld := ⟨8 * (0x20004 + 0x4000 * i) + 16, 16⟩
/-- HCX_DBADDR.db_addr (R485). -/
def Reg.HCX_DBADDR_db_addr (i : Nat) : Fld := ⟨8 * (0x20008 + 0x4000 * i) + 12, 52⟩
/-- HCX_WBADDR.wb_addr (R485). -/
def Reg.HCX_WBADDR_wb_addr (i : Nat) : Fld := ⟨8 * (0x20010 + 0x4000 * i) + 6, 58⟩
/-- HCX_POLL.poll_us (R485). -/
def Reg.HCX_POLL_poll_us (i : Nat) : Fld := ⟨8 * (0x20018 + 0x4000 * i) + 0, 7⟩
/-- HCX_POLL.hop_budget (R485). -/
def Reg.HCX_POLL_hop_budget (i : Nat) : Fld := ⟨8 * (0x20018 + 0x4000 * i) + 16, 12⟩
/-- HCX_EVMASK.mask (R485). -/
def Reg.HCX_EVMASK_mask (i : Nat) : Fld := ⟨8 * (0x2001C + 0x4000 * i) + 0, 25⟩
/-- HCX_RFSD.offset (R485). -/
def Reg.HCX_RFSD_offset (i : Nat) : Fld := ⟨8 * (0x20020 + 0x4000 * i) + 0, 18⟩
/-- HCX_RFSD.reason (R485). -/
def Reg.HCX_RFSD_reason (i : Nat) : Fld := ⟨8 * (0x20020 + 0x4000 * i) + 20, 4⟩
/-- HCX_RFSD.valid (R485). -/
def Reg.HCX_RFSD_valid (i : Nat) : Fld := ⟨8 * (0x20020 + 0x4000 * i) + 31, 1⟩
/-- HCX_CNT.refused (R485). -/
def Reg.HCX_CNT_refused (i : Nat) : Fld := ⟨8 * (0x20024 + 0x4000 * i) + 0, 16⟩
/-- HCX_CNT.prog_skipped (R485). -/
def Reg.HCX_CNT_prog_skipped (i : Nat) : Fld := ⟨8 * (0x20024 + 0x4000 * i) + 16, 16⟩
/-- HCX_RBASE.ring_base (R485). -/
def Reg.HCX_RBASE_ring_base (i : Nat) (j : Nat) : Fld := ⟨8 * (0x20100 + 0x4000 * i + 0x10 * j) + 12, 52⟩
/-- HCX_RCFG.log2size (R485). -/
def Reg.HCX_RCFG_log2size (i : Nat) (j : Nat) : Fld := ⟨8 * (0x20108 + 0x4000 * i + 0x10 * j) + 0, 5⟩
/-- HCX_RCFG.buf_kib (R485). -/
def Reg.HCX_RCFG_buf_kib (i : Nat) (j : Nat) : Fld := ⟨8 * (0x20108 + 0x4000 * i + 0x10 * j) + 8, 8⟩
/-- HCX_RSTAT.bad (R485). -/
def Reg.HCX_RSTAT_bad (i : Nat) (j : Nat) : Fld := ⟨8 * (0x2010C + 0x4000 * i + 0x10 * j) + 0, 16⟩
/-- DMA_CHCFG.prio (R518). -/
def Reg.DMA_CHCFG_prio (i : Nat) : Fld := ⟨8 * (0xD000 + 0x10 * i) + 0, 2⟩
/-- DMA_CHSTAT.state (R518). -/
def Reg.DMA_CHSTAT_state (i : Nat) : Fld := ⟨8 * (0xD004 + 0x10 * i) + 0, 2⟩
/-- DMA_CHSTAT.last_status (R518). -/
def Reg.DMA_CHSTAT_last_status (i : Nat) : Fld := ⟨8 * (0xD004 + 0x10 * i) + 2, 3⟩
/-- DMA_CHSTAT.index (R518). -/
def Reg.DMA_CHSTAT_index (i : Nat) : Fld := ⟨8 * (0xD004 + 0x10 * i) + 16, 12⟩
/-- DMA_CHERR.bad (R518). -/
def Reg.DMA_CHERR_bad (i : Nat) : Fld := ⟨8 * (0xD008 + 0x10 * i) + 0, 8⟩
/-- DMA_CHERR.unconfirmed (R518). -/
def Reg.DMA_CHERR_unconfirmed (i : Nat) : Fld := ⟨8 * (0xD008 + 0x10 * i) + 8, 8⟩
/-- DMA_CHERR.aborted (R518). -/
def Reg.DMA_CHERR_aborted (i : Nat) : Fld := ⟨8 * (0xD008 + 0x10 * i) + 16, 8⟩
/-- DMA_CHERR.malformed (R518). -/
def Reg.DMA_CHERR_malformed (i : Nat) : Fld := ⟨8 * (0xD008 + 0x10 * i) + 24, 8⟩
/-- DMA_CHCRC.chain_crc (R518). -/
def Reg.DMA_CHCRC_chain_crc (i : Nat) : Fld := ⟨8 * (0xD00C + 0x10 * i) + 0, 32⟩
/-- ETH_PORT.en (R540). -/
def Reg.ETH_PORT_en (i : Nat) : Fld := ⟨8 * (0xE000 + 0x4 * i) + 0, 1⟩
/-- ETH_PORT.mode (R540). -/
def Reg.ETH_PORT_mode (i : Nat) : Fld := ⟨8 * (0xE000 + 0x4 * i) + 1, 1⟩
/-- ETH_PORT.link (R540). -/
def Reg.ETH_PORT_link (i : Nat) : Fld := ⟨8 * (0xE000 + 0x4 * i) + 8, 1⟩
/-- ETH_PORT.an_done (R540). -/
def Reg.ETH_PORT_an_done (i : Nat) : Fld := ⟨8 * (0xE000 + 0x4 * i) + 9, 1⟩
/-- ETH_PORT.fcs_err (R540). -/
def Reg.ETH_PORT_fcs_err (i : Nat) : Fld := ⟨8 * (0xE000 + 0x4 * i) + 16, 16⟩
/-- ETH_RXDROP.unmatched (R540). -/
def Reg.ETH_RXDROP_unmatched (i : Nat) : Fld := ⟨8 * (0xE020 + 0x4 * i) + 0, 24⟩
/-- ETH_RXDROP.limited (R540). -/
def Reg.ETH_RXDROP_limited (i : Nat) : Fld := ⟨8 * (0xE020 + 0x4 * i) + 24, 8⟩
/-- ETH_PAIR.life_check (R540). -/
def Reg.ETH_PAIR_life_check (i : Nat) : Fld := ⟨8 * (0xE040 + 0x4 * i) + 0, 6⟩
/-- ETH_PAIR.entry_forget (R540). -/
def Reg.ETH_PAIR_entry_forget (i : Nat) : Fld := ⟨8 * (0xE040 + 0x4 * i) + 6, 10⟩
/-- ETH_PAIR.dd_overflow (R540). -/
def Reg.ETH_PAIR_dd_overflow (i : Nat) : Fld := ⟨8 * (0xE040 + 0x4 * i) + 16, 16⟩
/-- ETH_MAC.base (R540). -/
def Reg.ETH_MAC_base : Fld := ⟨8 * (0xE050) + 0, 48⟩
/-- ETH_OWN.vid (R540). -/
def Reg.ETH_OWN_vid : Fld := ⟨8 * (0xE058) + 0, 12⟩
/-- ETH_OWN.tagged (R540). -/
def Reg.ETH_OWN_tagged : Fld := ⟨8 * (0xE058) + 12, 1⟩
/-- ETH_OWN.pcp (R540). -/
def Reg.ETH_OWN_pcp : Fld := ⟨8 * (0xE058) + 13, 3⟩
/-- ETH_TBLADDR.addr (R540). -/
def Reg.ETH_TBLADDR_addr : Fld := ⟨8 * (0xE080) + 2, 15⟩
/-- ETH_TBLDATA.data (R540). -/
def Reg.ETH_TBLDATA_data : Fld := ⟨8 * (0xE084) + 0, 32⟩
/-- CAN_CFG.en (R563). -/
def Reg.CAN_CFG_en (i : Nat) : Fld := ⟨8 * (0xF000 + 0x40 * i) + 0, 1⟩
/-- CAN_CFG.fd_en (R563). -/
def Reg.CAN_CFG_fd_en (i : Nat) : Fld := ⟨8 * (0xF000 + 0x40 * i) + 1, 1⟩
/-- CAN_CFG.restricted (R563). -/
def Reg.CAN_CFG_restricted (i : Nat) : Fld := ⟨8 * (0xF000 + 0x40 * i) + 2, 1⟩
/-- CAN_CFG.mon (R563). -/
def Reg.CAN_CFG_mon (i : Nat) : Fld := ⟨8 * (0xF000 + 0x40 * i) + 3, 1⟩
/-- CAN_CFG.term (R563). -/
def Reg.CAN_CFG_term (i : Nat) : Fld := ⟨8 * (0xF000 + 0x40 * i) + 4, 1⟩
/-- CAN_CFG.tdc_en (R563). -/
def Reg.CAN_CFG_tdc_en (i : Nat) : Fld := ⟨8 * (0xF000 + 0x40 * i) + 5, 1⟩
/-- CAN_CFG.sched_en (R563). -/
def Reg.CAN_CFG_sched_en (i : Nat) : Fld := ⟨8 * (0xF000 + 0x40 * i) + 6, 1⟩
/-- CAN_CFG.ncyc (R563). -/
def Reg.CAN_CFG_ncyc (i : Nat) : Fld := ⟨8 * (0xF000 + 0x40 * i) + 8, 3⟩
/-- CAN_CFG.retry_lim (R563). -/
def Reg.CAN_CFG_retry_lim (i : Nat) : Fld := ⟨8 * (0xF000 + 0x40 * i) + 12, 4⟩
/-- CAN_NBT.brp (R563). -/
def Reg.CAN_NBT_brp (i : Nat) : Fld := ⟨8 * (0xF004 + 0x40 * i) + 0, 5⟩
/-- CAN_NBT.tseg1 (R563). -/
def Reg.CAN_NBT_tseg1 (i : Nat) : Fld := ⟨8 * (0xF004 + 0x40 * i) + 5, 8⟩
/-- CAN_NBT.tseg2 (R563). -/
def Reg.CAN_NBT_tseg2 (i : Nat) : Fld := ⟨8 * (0xF004 + 0x40 * i) + 13, 7⟩
/-- CAN_NBT.sjw (R563). -/
def Reg.CAN_NBT_sjw (i : Nat) : Fld := ⟨8 * (0xF004 + 0x40 * i) + 20, 7⟩
/-- CAN_DBT.brp (R563). -/
def Reg.CAN_DBT_brp (i : Nat) : Fld := ⟨8 * (0xF008 + 0x40 * i) + 0, 5⟩
/-- CAN_DBT.tseg1 (R563). -/
def Reg.CAN_DBT_tseg1 (i : Nat) : Fld := ⟨8 * (0xF008 + 0x40 * i) + 5, 5⟩
/-- CAN_DBT.tseg2 (R563). -/
def Reg.CAN_DBT_tseg2 (i : Nat) : Fld := ⟨8 * (0xF008 + 0x40 * i) + 10, 4⟩
/-- CAN_DBT.sjw (R563). -/
def Reg.CAN_DBT_sjw (i : Nat) : Fld := ⟨8 * (0xF008 + 0x40 * i) + 14, 4⟩
/-- CAN_DBT.tdco (R563). -/
def Reg.CAN_DBT_tdco (i : Nat) : Fld := ⟨8 * (0xF008 + 0x40 * i) + 18, 7⟩
/-- CAN_STAT.state (R563). -/
def Reg.CAN_STAT_state (i : Nat) : Fld := ⟨8 * (0xF00C + 0x40 * i) + 0, 2⟩
/-- CAN_STAT.limited (R563). -/
def Reg.CAN_STAT_limited (i : Nat) : Fld := ⟨8 * (0xF00C + 0x40 * i) + 2, 1⟩
/-- CAN_STAT.tec (R563). -/
def Reg.CAN_STAT_tec (i : Nat) : Fld := ⟨8 * (0xF00C + 0x40 * i) + 8, 8⟩
/-- CAN_STAT.rec (R563). -/
def Reg.CAN_STAT_rec (i : Nat) : Fld := ⟨8 * (0xF00C + 0x40 * i) + 16, 8⟩
/-- CAN_STAT.blocked (R563). -/
def Reg.CAN_STAT_blocked (i : Nat) : Fld := ⟨8 * (0xF00C + 0x40 * i) + 24, 8⟩
/-- CAN_ERR.bit_err (R563). -/
def Reg.CAN_ERR_bit_err (i : Nat) : Fld := ⟨8 * (0xF010 + 0x40 * i) + 0, 6⟩
/-- CAN_ERR.stuff_err (R563). -/
def Reg.CAN_ERR_stuff_err (i : Nat) : Fld := ⟨8 * (0xF010 + 0x40 * i) + 6, 6⟩
/-- CAN_ERR.form_err (R563). -/
def Reg.CAN_ERR_form_err (i : Nat) : Fld := ⟨8 * (0xF010 + 0x40 * i) + 12, 6⟩
/-- CAN_ERR.ack_err (R563). -/
def Reg.CAN_ERR_ack_err (i : Nat) : Fld := ⟨8 * (0xF010 + 0x40 * i) + 18, 6⟩
/-- CAN_ERR.crc_err (R563). -/
def Reg.CAN_ERR_crc_err (i : Nat) : Fld := ⟨8 * (0xF010 + 0x40 * i) + 24, 6⟩
/-- CAN_CNT.rx (R563). -/
def Reg.CAN_CNT_rx (i : Nat) : Fld := ⟨8 * (0xF014 + 0x40 * i) + 0, 16⟩
/-- CAN_CNT.tx (R563). -/
def Reg.CAN_CNT_tx (i : Nat) : Fld := ⟨8 * (0xF014 + 0x40 * i) + 16, 16⟩
/-- CAN_SCH.cycle (R563). -/
def Reg.CAN_SCH_cycle (i : Nat) : Fld := ⟨8 * (0xF018 + 0x40 * i) + 0, 4⟩
/-- CAN_SCH.window (R563). -/
def Reg.CAN_SCH_window (i : Nat) : Fld := ⟨8 * (0xF018 + 0x40 * i) + 4, 6⟩
/-- CAN_SCH.overruns (R563). -/
def Reg.CAN_SCH_overruns (i : Nat) : Fld := ⟨8 * (0xF018 + 0x40 * i) + 16, 8⟩
/-- CAN_SCH.win_skip (R563). -/
def Reg.CAN_SCH_win_skip (i : Nat) : Fld := ⟨8 * (0xF018 + 0x40 * i) + 24, 8⟩
/-- CAN_MISC.recoveries (R563). -/
def Reg.CAN_MISC_recoveries (i : Nat) : Fld := ⟨8 * (0xF01C + 0x40 * i) + 0, 16⟩
/-- CAN_MISC.overwritten (R563). -/
def Reg.CAN_MISC_overwritten (i : Nat) : Fld := ⟨8 * (0xF01C + 0x40 * i) + 16, 16⟩
/-- CAN_SUB.en (R563). -/
def Reg.CAN_SUB_en (i : Nat) : Fld := ⟨8 * (0xF300 + 0x8 * i) + 0, 1⟩
/-- CAN_SUB.port (R563). -/
def Reg.CAN_SUB_port (i : Nat) : Fld := ⟨8 * (0xF300 + 0x8 * i) + 1, 1⟩
/-- CAN_SUB.ctx (R563). -/
def Reg.CAN_SUB_ctx (i : Nat) : Fld := ⟨8 * (0xF300 + 0x8 * i) + 2, 2⟩
/-- CAN_SUB.ring (R563). -/
def Reg.CAN_SUB_ring (i : Nat) : Fld := ⟨8 * (0xF300 + 0x8 * i) + 4, 3⟩
/-- CAN_SUB.flush (R563). -/
def Reg.CAN_SUB_flush (i : Nat) : Fld := ⟨8 * (0xF300 + 0x8 * i) + 7, 7⟩
/-- CAN_SUB.bus_mask (R563). -/
def Reg.CAN_SUB_bus_mask (i : Nat) : Fld := ⟨8 * (0xF300 + 0x8 * i) + 16, 12⟩
/-- CAN_SUBSTAT.dropped (R563). -/
def Reg.CAN_SUBSTAT_dropped (i : Nat) : Fld := ⟨8 * (0xF304 + 0x8 * i) + 0, 32⟩
/-- CAN_TBLADDR.addr (R563). -/
def Reg.CAN_TBLADDR_addr : Fld := ⟨8 * (0xF380) + 2, 15⟩
/-- CAN_TBLDATA.data (R563). -/
def Reg.CAN_TBLDATA_data : Fld := ⟨8 * (0xF384) + 0, 32⟩
/-- PAR_CFG.pair_en (R584). -/
def Reg.PAR_CFG_pair_en : Fld := ⟨8 * (0x10000) + 0, 1⟩
/-- PAR_CFG.partner_node (R584). -/
def Reg.PAR_CFG_partner_node : Fld := ⟨8 * (0x10000) + 8, 14⟩
/-- PAR_TIM.hb_miss (R584). -/
def Reg.PAR_TIM_hb_miss : Fld := ⟨8 * (0x10004) + 0, 3⟩
/-- PAR_TIM.pair_wait (R584). -/
def Reg.PAR_TIM_pair_wait : Fld := ⟨8 * (0x10004) + 8, 8⟩
/-- PAR_TIM.time_thr (R584). -/
def Reg.PAR_TIM_time_thr : Fld := ⟨8 * (0x10004) + 16, 10⟩
/-- PAR_SYNC.sync_time (R584). -/
def Reg.PAR_SYNC_sync_time : Fld := ⟨8 * (0x10008) + 0, 8⟩
/-- PAR_SYNC.ack_to (R584). -/
def Reg.PAR_SYNC_ack_to : Fld := ⟨8 * (0x10008) + 8, 8⟩
/-- PAR_UPG.upg_end (R584). -/
def Reg.PAR_UPG_upg_end : Fld := ⟨8 * (0x10010) + 0, 48⟩
/-- PAR_STAT.role (R584). -/
def Reg.PAR_STAT_role : Fld := ⟨8 * (0x10018) + 0, 3⟩
/-- PAR_STAT.phase (R584). -/
def Reg.PAR_STAT_phase : Fld := ⟨8 * (0x10018) + 3, 3⟩
/-- PAR_STAT.reason (R584). -/
def Reg.PAR_STAT_reason : Fld := ⟨8 * (0x10018) + 6, 4⟩
/-- PAR_STAT.alv_fault (R584). -/
def Reg.PAR_STAT_alv_fault : Fld := ⟨8 * (0x10018) + 10, 1⟩
/-- PAR_STAT.link_degraded (R584). -/
def Reg.PAR_STAT_link_degraded : Fld := ⟨8 * (0x10018) + 11, 1⟩
/-- PAR_STAT.partner_seen (R584). -/
def Reg.PAR_STAT_partner_seen : Fld := ⟨8 * (0x10018) + 12, 1⟩
/-- PAR_STAT.ready (R584). -/
def Reg.PAR_STAT_ready : Fld := ⟨8 * (0x10018) + 13, 1⟩
/-- PAR_STAT.window_open (R584). -/
def Reg.PAR_STAT_window_open : Fld := ⟨8 * (0x10018) + 14, 1⟩
/-- PAR_STAT.partner_role (R584). -/
def Reg.PAR_STAT_partner_role : Fld := ⟨8 * (0x10018) + 16, 3⟩
/-- PAR_FP.cfg_fp (R584). -/
def Reg.PAR_FP_cfg_fp : Fld := ⟨8 * (0x10020) + 0, 64⟩
/-- PAR_OFS.offset (R584). -/
def Reg.PAR_OFS_offset : Fld := ⟨8 * (0x10028) + 0, 32⟩
/-- PAR_CNT.takeovers (R584). -/
def Reg.PAR_CNT_takeovers : Fld := ⟨8 * (0x1002C) + 0, 8⟩
/-- PAR_CNT.resyncs (R584). -/
def Reg.PAR_CNT_resyncs : Fld := ⟨8 * (0x1002C) + 8, 8⟩
/-- PAR_CNT.link_losses (R584). -/
def Reg.PAR_CNT_link_losses : Fld := ⟨8 * (0x1002C) + 16, 8⟩
/-- PAR_CNT.acks_late (R584). -/
def Reg.PAR_CNT_acks_late : Fld := ⟨8 * (0x1002C) + 24, 8⟩
/-- PAR_PFW.partner_fw (R584). -/
def Reg.PAR_PFW_partner_fw : Fld := ⟨8 * (0x10030) + 0, 32⟩
/-- LCY_STAT.state (R601). -/
def Reg.LCY_STAT_state : Fld := ⟨8 * (0x1000) + 0, 3⟩
/-- LCY_STAT.erasing (R601). -/
def Reg.LCY_STAT_erasing : Fld := ⟨8 * (0x1000) + 3, 1⟩
/-- LCY_STAT.cause (R601). -/
def Reg.LCY_STAT_cause : Fld := ⟨8 * (0x1000) + 4, 3⟩
/-- LCY_STAT.fw_slot (R601). -/
def Reg.LCY_STAT_fw_slot : Fld := ⟨8 * (0x1000) + 7, 1⟩
/-- LCY_STAT.recovery (R601). -/
def Reg.LCY_STAT_recovery : Fld := ⟨8 * (0x1000) + 8, 1⟩
/-- LCY_BOOT.prot_ms (R601). -/
def Reg.LCY_BOOT_prot_ms : Fld := ⟨8 * (0x1004) + 0, 16⟩
/-- LCY_BOOT.ctl_ms (R601). -/
def Reg.LCY_BOOT_ctl_ms : Fld := ⟨8 * (0x1004) + 16, 16⟩
/-- LCY_RSTCNT.carrier (R601). -/
def Reg.LCY_RSTCNT_carrier : Fld := ⟨8 * (0x1008) + 0, 8⟩
/-- LCY_RSTCNT.watchdog (R601). -/
def Reg.LCY_RSTCNT_watchdog : Fld := ⟨8 * (0x1008) + 8, 8⟩
/-- LCY_RSTCNT.command (R601). -/
def Reg.LCY_RSTCNT_command : Fld := ⟨8 * (0x1008) + 16, 8⟩
/-- LCY_RSTCNT.lifecycle (R601). -/
def Reg.LCY_RSTCNT_lifecycle : Fld := ⟨8 * (0x1008) + 24, 8⟩
/-- LCY_ERASE.done (R601). -/
def Reg.LCY_ERASE_done : Fld := ⟨8 * (0x100C) + 0, 7⟩
/-- EVR_TOTAL.n (R601). -/
def Reg.EVR_TOTAL_n : Fld := ⟨8 * (0x11000) + 0, 64⟩
/-- EVR_OVW.overwritten (R601). -/
def Reg.EVR_OVW_overwritten : Fld := ⟨8 * (0x11008) + 0, 32⟩
/-- EVR_RDIDX.slot (R601). -/
def Reg.EVR_RDIDX_slot : Fld := ⟨8 * (0x1100C) + 0, 17⟩
/-- EVR_RDIDX.empty (R601). -/
def Reg.EVR_RDIDX_empty : Fld := ⟨8 * (0x1100C) + 30, 1⟩
/-- EVR_RDIDX.crc_ok (R601). -/
def Reg.EVR_RDIDX_crc_ok : Fld := ⟨8 * (0x1100C) + 31, 1⟩
/-- EVR_RDDATA.data (R601). -/
def Reg.EVR_RDDATA_data (i : Nat) : Fld := ⟨8 * (0x11010 + 0x4 * i) + 0, 32⟩
/-- GLB_MODE.prot (R613). -/
def Reg.GLB_MODE_prot : Fld := ⟨8 * (0x40) + 0, 8⟩
/-- GLB_MODE.outen (R613). -/
def Reg.GLB_MODE_outen : Fld := ⟨8 * (0x40) + 8, 1⟩
/-- GLB_MODE.test_f (R613). -/
def Reg.GLB_MODE_test_f : Fld := ⟨8 * (0x40) + 9, 1⟩
/-- GLB_MODE.test_trip (R613). -/
def Reg.GLB_MODE_test_trip : Fld := ⟨8 * (0x40) + 16, 8⟩
/-- GLB_MODE.sim_rx (R613). -/
def Reg.GLB_MODE_sim_rx : Fld := ⟨8 * (0x40) + 24, 1⟩
/-- GLB_TLINK.linked (R613). -/
def Reg.GLB_TLINK_linked (i : Nat) : Fld := ⟨8 * (0x50 + 0x4 * i) + 0, 32⟩
/-- GLB_PWR.feed_a_low (R634). -/
def Reg.GLB_PWR_feed_a_low : Fld := ⟨8 * (0x60) + 0, 1⟩
/-- GLB_PWR.feed_b_low (R634). -/
def Reg.GLB_PWR_feed_b_low : Fld := ⟨8 * (0x60) + 1, 1⟩
/-- GLB_PWR.bus_min (R634). -/
def Reg.GLB_PWR_bus_min : Fld := ⟨8 * (0x60) + 16, 16⟩
/-- GLB_FEEDVAL.feed_a (R634). -/
def Reg.GLB_FEEDVAL_feed_a : Fld := ⟨8 * (0x64) + 0, 16⟩
/-- GLB_FEEDVAL.feed_b (R634). -/
def Reg.GLB_FEEDVAL_feed_b : Fld := ⟨8 * (0x64) + 16, 16⟩
/-- GLB_ID.serial (R634). -/
def Reg.GLB_ID_serial : Fld := ⟨8 * (0x68) + 0, 32⟩
/-- GLB_ID.hw_issue (R634). -/
def Reg.GLB_ID_hw_issue : Fld := ⟨8 * (0x68) + 32, 8⟩
/-- GLB_MAPID.map_rev (R638). -/
def Reg.GLB_MAPID_map_rev : Fld := ⟨8 * (0x0) + 0, 16⟩
/-- GLB_MAPID.blocks (R638). -/
def Reg.GLB_MAPID_blocks : Fld := ⟨8 * (0x0) + 16, 8⟩

end Sys2Proof.Machine
end

