-- ==== Sys2Proof/Config.lean ====
section
/-! DEFINITION. What an implementation fixes and the free values: constants without a body, of which nothing is
known. -/

namespace Sys2Proof

/-- The increment that the supervisor servo's controller writes: its gains are not given (R52). -/
opaque Config.servoIncr : Nat → W64

/-- The clock identity under which the module's own PTP messages leave: it is not given (R55). -/
opaque Config.clockIdentity : W64

/-- The gains of the tracker's PI loop at a code of bw: frequency-word units per au of phase error and tick, and 2^-16 au per cycle
for each au: of the loop only its bandwidth is given (R88). -/
opaque Config.loopKi : Nat → BitVec 48
opaque Config.loopKp : Nat → BitVec 48

/-- The coefficients of the resampler's FIR by branch and tap, s2.30, and whether it rounds a value between two codes up: neither is
given (R166, R167). -/
opaque Config.firTap : Nat → Nat → W32
opaque Config.firUp : Int → Bool

/-- The bit of a modulator slice at an edge, and whether the window comparator at its input is active there: what the sensors
and the slices' loops give (R114, R116, R134, R150). -/
opaque Config.modBit : Nat → Nat → Bool
opaque Config.overRange : Nat → Nat → Bool

/-- Whether the integrator rounds a value between two codes up: its rounding is not given (R154). -/
opaque Config.integUp : Int → Bool

/-- The value that the interpolator of a stream gives at one of its phases from the samples around it, latest first: its
coefficients are not given (R208, R239). -/
opaque Config.svInterp : Nat → List Int → Int

/-- The value in Pool LSB that the filter of a published stream gives at a rate and a part of a CIC period, in 10^-9, from the CIC words
around it, latest first, in 1/64 LSB: its coefficients are not given (R537). -/
opaque Config.svFir : Nat → Nat → List Int → Int

/-- A phase voltage of the Cistern shifted by 90° at the latest of its samples, given latest first: the coefficients of the Hilbert
filter are not given (R315). -/
opaque Config.hilbert : List Int → Int

/-- The quantity, in µV at the input or 0.001 °C, that a code of an auxiliary-converter input stands for: the
converter's scale is not given (R139, R141). -/
opaque Config.auxScale : Nat → W32 → W32

/-- The error of the engine's arithmetic at a curve and a per-unit quantity, in 2^-40 of the operate time, of which
only its bound of 2^-20 is given (R219). -/
opaque Config.curveErr : Nat → Nat → W32

/-- The correction of an arrival, ns, where the fitted line is parallel to the baseline and meets it nowhere: the
manual states no arrival there (R299). -/
opaque Config.flatArrival : Nat → W32

/-- The minutes that a daylight-saving rule other than 0 adds to local time at a UTC second: the rule's content is not
given (R322). -/
opaque Config.dstShift : W32 → Nat → W16

/-- The digest of the Cistern's settings or calibration: the layout over which its CRC-32C runs is not given (R332). -/
opaque Config.cisDigest : List Int → W32

/-- The CRC-32C of a snapshot or of a write log: the layout over which it runs is not given (R361). -/
opaque Config.scanCrc : List Nat → W32

/-- Whether the CRC-32C and the signature of a firmware image are valid, and its version: the image's format is not
given (R594). -/
opaque Config.fwValid : List Byte → Bool
opaque Config.fwVersion : List Byte → W32

/-- The CRC-32C over the MRAM configuration region and over the protection-settings region: the layout of either region
is not given (R571). -/
opaque Config.cfgCrc : List Nat → W32
opaque Config.settingsCrc : List (List Byte) → W32

/-- The words of an event-recorder slot that has never been written: its contents are not given (R601). -/
opaque Config.blankSlot : Nat → Nat → W32

/-- The first module address of each region of the memories: the module's address map is not given (R27, R507). -/
opaque Config.regionBase : Nat → BitVec 36

/-- How long a crossbar transfer takes at the DRAM, the MRAM and the NAND, ns, of which only a bound at the DRAM is given
(R34). -/
opaque Config.transferNs : Nat → Nat → BitVec 16

/-- How many bytes of worn or failed blocks a write to the NAND has replaced: what fails is not given (R29). -/
opaque Config.replaced : Nat → BitVec 32

/-- Where in its slot an image fails its CRC-32C: the manual names no address (R32, R600). -/
opaque Config.badWord : Nat → BitVec 30

/-- How far the threshold of the power-fail comparator lies above 15.7 V, in mV up to 600 (R618). -/
opaque Config.failLevel : BitVec 10

/-- The frequency error of the backup crystal over an interval, in 20 ppm / 2^31 of the nominal frequency, of which only its
bound is given (R64). -/
opaque Config.crystalErr : Nat → W32

/-- How long the MRAM part of a full wipe takes, ms, of which only the bound of 300 ms is given (R590). -/
opaque Config.wipeMs : Nat → BitVec 16

end Sys2Proof
end

