-- ==== Sys2Proof/Machine/RegMap.lean ====
section
/-! DEFINITION. The setup register map of BAR0 (R635, R636) as a table: one row per register, with the fields,
access codes, reset values and value limits that the register tables of the chapters give. -/

namespace Sys2Proof.Machine

/-- The access codes of R15 that the register tables use. -/
inductive Access where
  | ro | rw | rw1c | wo | rwc
  deriving DecidableEq, Repr

/-- The values of a field that a write may carry (R6): a value outside is refused with reason 3. -/
inductive Limit where
  | any
  | range (lo hi : Nat)
  /-- 0, or a value in the range. -/
  | zeroOr (lo hi : Nat)
  /-- A signed value of the given width whose magnitude is at most `m`. -/
  | signed (w m : Nat)
  /-- Every two-bit subfield is below 3. -/
  | pairsBelow3
  deriving DecidableEq, Repr

/-- One field of a register table: its low bit, width, access code, reset value, whether the value is stored
configuration (kept across a reset in the MRAM configuration region, R28), and the values a write may carry. -/
structure FieldDef where
  lo : Nat
  w : Nat
  acc : Access
  reset : Nat
  stored : Bool
  lim : Limit
  deriving DecidableEq, Repr

/-- One row of the map: a register, or a family of registers at `off + s1 * i + s2 * j` for `i < n1`, `j < n2`;
`wide` marks a 64-bit register. -/
structure RegDef where
  name : String
  off : Nat
  n1 : Nat
  s1 : Nat
  n2 : Nat
  s2 : Nat
  wide : Bool
  fields : List FieldDef
  deriving DecidableEq, Repr

/-- Rows 0 to 23 of the register map (R636 and the chapters named there). -/
def regRows0 : List RegDef := [
  ⟨"TIM_CTL", 0x2000, 1, 0x0, 1, 0x0, false,
    [⟨0, 1, .rwc, 0, true, .any⟩, ⟨1, 2, .rwc, 0, true, .range 0 2⟩, ⟨3, 1, .rwc, 0, true, .any⟩, ⟨4, 1, .rwc, 0, true, .any⟩, ⟨5, 2, .rwc, 0, true, .any⟩, ⟨7, 2, .rwc, 0, true, .range 0 2⟩, ⟨9, 1, .rwc, 1, true, .any⟩]⟩,
  ⟨"TIM_STEP_LIMIT", 0x2004, 1, 0x0, 1, 0x0, false,
    [⟨0, 32, .rwc, 1000000, true, .range 1000 1000000000⟩]⟩,
  ⟨"TIM_HOLD_LIMIT", 0x2008, 1, 0x0, 1, 0x0, false,
    [⟨0, 12, .rwc, 60, true, .range 1 3600⟩]⟩,
  ⟨"TIM_PTP_CFG", 0x200C, 1, 0x0, 1, 0x0, false,
    [⟨0, 8, .rwc, 0, true, .any⟩, ⟨8, 4, .rwc, 3, true, .range 2 10⟩, ⟨12, 8, .rwc, 7, true, .any⟩]⟩,
  ⟨"TIM_UTC_DEFAULT", 0x2010, 1, 0x0, 1, 0x0, false,
    [⟨0, 16, .rwc, 37, true, .any⟩]⟩,
  ⟨"TIM_REF_CFG", 0x2014, 1, 0x0, 1, 0x0, false,
    [⟨0, 1, .rwc, 0, true, .any⟩, ⟨8, 24, .rwc, 0, true, .any⟩]⟩,
  ⟨"TIM_PHY_LAT", 0x2020, 8, 0x4, 1, 0x0, false,
    [⟨0, 16, .ro, 0, true, .any⟩, ⟨16, 16, .ro, 0, true, .any⟩]⟩,
  ⟨"TIM_CMP_TGT_S", 0x2100, 16, 0x20, 1, 0x0, true,
    [⟨0, 48, .rwc, 0, false, .any⟩]⟩,
  ⟨"TIM_CMP_TGT_NS", 0x2108, 16, 0x20, 1, 0x0, false,
    [⟨0, 30, .rwc, 0, false, .range 0 999999999⟩]⟩,
  ⟨"TIM_CMP_PER", 0x2110, 16, 0x20, 1, 0x0, true,
    [⟨0, 48, .rwc, 0, false, .zeroOr 1000 281474976710655⟩]⟩,
  ⟨"TIM_CMP_CTL", 0x2118, 16, 0x20, 1, 0x0, false,
    [⟨0, 1, .rwc, 0, false, .any⟩, ⟨1, 4, .rwc, 0, false, .range 0 5⟩, ⟨8, 6, .rwc, 0, false, .any⟩, ⟨14, 1, .ro, 0, false, .any⟩, ⟨15, 1, .rw1c, 0, false, .any⟩, ⟨16, 16, .ro, 0, false, .any⟩]⟩,
  ⟨"ANG_CFG", 0x3000, 4, 0x100, 1, 0x0, false,
    [⟨0, 1, .rwc, 0, true, .any⟩, ⟨1, 1, .rwc, 0, true, .any⟩, ⟨2, 3, .rwc, 0, true, .range 0 6⟩, ⟨5, 3, .rwc, 0, true, .range 0 4⟩, ⟨8, 2, .rwc, 2, true, .any⟩]⟩,
  ⟨"ANG_LIM", 0x3004, 4, 0x100, 1, 0x0, false,
    [⟨0, 7, .rwc, 20, true, .range 1 100⟩, ⟨8, 7, .rwc, 5, true, .range 1 100⟩]⟩,
  ⟨"ANG_LOCK", 0x3008, 4, 0x100, 1, 0x0, false,
    [⟨0, 11, .rwc, 182, true, .range 16 1820⟩, ⟨16, 5, .rwc, 4, true, .range 1 16⟩]⟩,
  ⟨"ANG_FRZ", 0x300C, 4, 0x100, 1, 0x0, false,
    [⟨0, 6, .rwc, 10, true, .range 5 50⟩, ⟨8, 5, .rwc, 3, true, .range 1 16⟩, ⟨16, 7, .rwc, 20, true, .range 1 100⟩]⟩,
  ⟨"ANG_FPH", 0x3010, 4, 0x100, 1, 0x0, false,
    [⟨0, 14, .rwc, 1820, true, .range 364 8192⟩]⟩,
  ⟨"ANG_SLEW", 0x3014, 4, 0x100, 1, 0x0, false,
    [⟨0, 14, .rwc, 1024, true, .range 64 8192⟩, ⟨16, 7, .rwc, 20, true, .range 1 100⟩]⟩,
  ⟨"ANG_HOLD", 0x3018, 4, 0x100, 1, 0x0, false,
    [⟨0, 10, .rwc, 10, true, .range 1 600⟩]⟩,
  ⟨"ANG_CMP_TGT", 0x3040, 4, 0x100, 8, 0x10, true,
    [⟨0, 48, .rwc, 0, false, .any⟩]⟩,
  ⟨"ANG_CMP_PER", 0x3048, 4, 0x100, 8, 0x10, false,
    [⟨0, 32, .rwc, 0, false, .zeroOr 256 4294967295⟩]⟩,
  ⟨"ANG_CMP_CTL", 0x304C, 4, 0x100, 8, 0x10, false,
    [⟨0, 1, .rwc, 0, false, .any⟩, ⟨1, 4, .rwc, 0, false, .range 0 5⟩, ⟨5, 1, .rwc, 0, false, .any⟩, ⟨8, 6, .rwc, 0, false, .any⟩, ⟨14, 1, .ro, 0, false, .any⟩, ⟨15, 1, .rw1c, 0, false, .any⟩, ⟨16, 16, .ro, 0, false, .any⟩]⟩,
  ⟨"ANA_REFCFG", 0x4000, 1, 0x0, 1, 0x0, false,
    [⟨0, 8, .rwc, 0, true, .pairsBelow3⟩]⟩,
  ⟨"ANA_REFSTAT", 0x4004, 1, 0x0, 1, 0x0, false,
    [⟨0, 4, .ro, 0, false, .any⟩, ⟨4, 4, .ro, 0, false, .any⟩, ⟨8, 1, .ro, 0, false, .any⟩]⟩,
  ⟨"ANA_CHCFG", 0x4010, 4, 0x4, 1, 0x0, false,
    [⟨0, 16, .rwc, 65535, true, .any⟩]⟩]

/-- Rows 24 to 47 of the register map (R636 and the chapters named there). -/
def regRows1 : List RegDef := [
  ⟨"ANA_FLOAT", 0x4020, 4, 0x10, 1, 0x0, false,
    [⟨0, 1, .rwc, 1, true, .any⟩, ⟨4, 4, .rwc, 8, true, .range 2 10⟩]⟩,
  ⟨"ANA_FSTAT", 0x4024, 4, 0x10, 1, 0x0, false,
    [⟨0, 4, .ro, 8, false, .any⟩, ⟨4, 3, .ro, 5, false, .any⟩, ⟨7, 3, .ro, 0, false, .any⟩, ⟨10, 1, .ro, 0, false, .any⟩, ⟨11, 1, .ro, 0, false, .any⟩, ⟨12, 4, .ro, 0, false, .any⟩, ⟨16, 8, .ro, 0, false, .any⟩]⟩,
  ⟨"ANA_SLICEMAP", 0x4028, 4, 0x10, 1, 0x0, false,
    [⟨0, 32, .ro, 1985229328, false, .any⟩]⟩,
  ⟨"ANA_FCNT", 0x402C, 4, 0x10, 1, 0x0, false,
    [⟨0, 32, .ro, 0, false, .any⟩]⟩,
  ⟨"ANA_CAL_GAIN", 0x4100, 36, 0x8, 1, 0x0, false,
    [⟨0, 24, .ro, 4194304, false, .any⟩, ⟨24, 2, .ro, 2, false, .any⟩]⟩,
  ⟨"ANA_CAL_OFS", 0x4104, 36, 0x8, 1, 0x0, false,
    [⟨0, 24, .ro, 0, false, .any⟩, ⟨24, 8, .ro, 0, false, .any⟩]⟩,
  ⟨"ANA_AUXCFG", 0x4300, 1, 0x0, 1, 0x0, false,
    [⟨0, 8, .rwc, 0, true, .pairsBelow3⟩]⟩,
  ⟨"ANA_AUXSTAT", 0x4304, 1, 0x0, 1, 0x0, false,
    [⟨0, 1, .ro, 0, false, .any⟩, ⟨1, 2, .ro, 0, false, .any⟩, ⟨3, 1, .ro, 0, false, .any⟩, ⟨4, 4, .ro, 0, false, .any⟩, ⟨8, 5, .ro, 0, false, .any⟩, ⟨16, 16, .ro, 0, false, .any⟩]⟩,
  ⟨"ANA_AUXCNT", 0x4308, 1, 0x0, 1, 0x0, false,
    [⟨0, 16, .ro, 0, false, .any⟩, ⟨16, 16, .ro, 0, false, .any⟩]⟩,
  ⟨"ANA_AUXQ", 0x4400, 16, 0x40, 16, 0x4, false,
    [⟨0, 4, .rwc, 0, true, .any⟩, ⟨4, 8, .rwc, 15, true, .range 1 255⟩, ⟨12, 4, .rwc, 4, true, .range 0 8⟩, ⟨16, 2, .rwc, 0, true, .range 0 2⟩, ⟨18, 1, .rwc, 1, true, .any⟩]⟩,
  ⟨"DEC_AVG", 0x5000, 1, 0x0, 1, 0x0, false,
    [⟨0, 8, .rwc, 15, true, .range 1 255⟩, ⟨8, 4, .rwc, 4, true, .range 0 8⟩, ⟨12, 18, .rwc, 65536, true, .any⟩]⟩,
  ⟨"DEC_STAT", 0x5004, 1, 0x0, 1, 0x0, false,
    [⟨0, 1, .ro, 0, false, .any⟩, ⟨8, 8, .ro, 0, false, .any⟩]⟩,
  ⟨"DEC_RS", 0x5008, 1, 0x0, 1, 0x0, false,
    [⟨0, 32, .ro, 12083333, false, .any⟩]⟩,
  ⟨"DEC_SETTLE", 0x500C, 1, 0x0, 1, 0x0, false,
    [⟨0, 32, .ro, 0, false, .any⟩]⟩,
  ⟨"DEC_CFG", 0x5010, 4, 0x4, 1, 0x0, false,
    [⟨0, 2, .rwc, 2, true, .range 0 2⟩, ⟨2, 2, .rwc, 2, true, .range 0 2⟩, ⟨4, 8, .rwc, 0, true, .any⟩, ⟨12, 1, .rwc, 0, true, .any⟩, ⟨13, 3, .rwc, 2, true, .range 0 4⟩]⟩,
  ⟨"DEC_PDLY", 0x5100, 4, 0x40, 8, 0x8, false,
    [⟨0, 32, .ro, 697617, false, .any⟩]⟩,
  ⟨"DEC_JDLY", 0x5104, 4, 0x40, 8, 0x8, false,
    [⟨0, 32, .ro, 24874, false, .any⟩]⟩,
  ⟨"SLU_CTL", 0x6000, 1, 0x0, 1, 0x0, false,
    [⟨0, 1, .rwc, 0, true, .any⟩, ⟨8, 6, .rwc, 5, true, .range 1 50⟩]⟩,
  ⟨"SLU_STAT", 0x6010, 2, 0x4, 1, 0x0, false,
    [⟨0, 2, .ro, 1, false, .any⟩, ⟨8, 10, .ro, 0, false, .any⟩, ⟨18, 14, .ro, 0, false, .any⟩]⟩,
  ⟨"SLU_OVR", 0x6018, 2, 0x4, 1, 0x0, false,
    [⟨0, 32, .ro, 0, false, .any⟩]⟩,
  ⟨"SLU_PEAK", 0x6020, 2, 0x4, 1, 0x0, false,
    [⟨0, 32, .ro, 0, false, .any⟩]⟩,
  ⟨"SLU_BAY", 0x6040, 4, 0x4, 1, 0x0, false,
    [⟨0, 3, .rwc, 0, true, .any⟩, ⟨4, 3, .ro, 0, false, .any⟩, ⟨8, 1, .rwc, 0, true, .any⟩, ⟨9, 4, .rwc, 0, true, .any⟩, ⟨13, 1, .rwc, 1, true, .any⟩, ⟨14, 1, .ro, 0, false, .any⟩, ⟨15, 1, .ro, 0, false, .any⟩]⟩,
  ⟨"SLU_SVCFG", 0x6050, 4, 0x4, 1, 0x0, false,
    [⟨0, 8, .rwc, 8, true, .range 1 40⟩]⟩,
  ⟨"SLU_SVMAP", 0x6060, 4, 0x4, 1, 0x0, false,
    [⟨0, 32, .rwc, 1985229328, true, .any⟩]⟩]

/-- Rows 48 to 71 of the register map (R636 and the chapters named there). -/
def regRows2 : List RegDef := [
  ⟨"SLU_SVSCALE", 0x6080, 4, 0x20, 8, 0x4, false,
    [⟨0, 32, .rwc, 65536, true, .range 1 4294967295⟩]⟩,
  ⟨"SLU_FDCTL", 0x6100, 4, 0x20, 1, 0x0, false,
    [⟨0, 4, .rwc, 0, true, .any⟩, ⟨4, 1, .rwc, 1, true, .any⟩, ⟨5, 3, .rwc, 3, true, .range 1 7⟩, ⟨8, 8, .rwc, 144, true, .range 1 255⟩]⟩,
  ⟨"SLU_FDTHR", 0x6104, 4, 0x20, 4, 0x4, false,
    [⟨0, 24, .rwc, 8388607, true, .range 1 8388607⟩]⟩,
  ⟨"SLU_FDDI", 0x6114, 4, 0x20, 1, 0x0, false,
    [⟨0, 24, .rwc, 671089, true, .range 1 16777215⟩]⟩,
  ⟨"SLU_FDDV", 0x6118, 4, 0x20, 1, 0x0, false,
    [⟨0, 24, .rwc, 1342177, true, .range 1 16777215⟩]⟩,
  ⟨"TRP_CHCFG", 0x7010, 8, 0x4, 1, 0x0, false,
    [⟨0, 1, .rwc, 0, true, .any⟩, ⟨1, 2, .rwc, 0, true, .range 0 2⟩, ⟨3, 1, .rwc, 1, true, .any⟩, ⟨4, 1, .rwc, 0, true, .any⟩, ⟨5, 1, .rwc, 1, true, .any⟩, ⟨8, 12, .rwc, 4095, true, .any⟩]⟩,
  ⟨"TRP_CHTIM", 0x7040, 8, 0x4, 1, 0x0, false,
    [⟨0, 10, .rwc, 100, true, .range 10 1000⟩, ⟨16, 8, .rwc, 20, true, .range 1 100⟩, ⟨24, 7, .rwc, 20, true, .range 1 100⟩]⟩,
  ⟨"TRP_CHSTAT", 0x7080, 8, 0x4, 1, 0x0, false,
    [⟨0, 1, .ro, 0, false, .any⟩, ⟨1, 1, .ro, 0, false, .any⟩, ⟨2, 4, .ro, 0, false, .any⟩, ⟨6, 1, .rw1c, 0, false, .any⟩, ⟨7, 1, .ro, 0, false, .any⟩, ⟨8, 8, .ro, 0, false, .any⟩, ⟨16, 16, .ro, 0, false, .any⟩]⟩,
  ⟨"TRP_CHCNT", 0x70C0, 8, 0x4, 1, 0x0, false,
    [⟨0, 32, .ro, 0, false, .any⟩]⟩,
  ⟨"TRP_BKCFG", 0x7200, 4, 0x40, 1, 0x0, false,
    [⟨0, 1, .rwc, 0, true, .any⟩, ⟨1, 3, .rwc, 4, true, .any⟩, ⟨4, 3, .rwc, 0, true, .any⟩, ⟨7, 3, .rwc, 0, true, .any⟩, ⟨10, 1, .rwc, 0, true, .any⟩, ⟨11, 1, .rwc, 1, true, .any⟩, ⟨12, 1, .rwc, 1, true, .any⟩, ⟨16, 8, .rwc, 0, true, .any⟩, ⟨24, 8, .rwc, 7, true, .any⟩]⟩,
  ⟨"TRP_BKTIM", 0x7204, 4, 0x40, 1, 0x0, false,
    [⟨0, 12, .rwc, 4095, true, .any⟩, ⟨12, 8, .rwc, 100, true, .range 10 255⟩, ⟨20, 10, .rwc, 250, true, .range 20 1000⟩]⟩,
  ⟨"TRP_BKLRN", 0x7208, 4, 0x40, 1, 0x0, false,
    [⟨0, 14, .rwc, 410, true, .range 1 8191⟩, ⟨16, 8, .rwc, 50, true, .range 1 200⟩, ⟨24, 8, .rwc, 50, true, .range 5 200⟩]⟩,
  ⟨"TRP_BKLIM", 0x720C, 4, 0x40, 1, 0x0, false,
    [⟨0, 16, .rwc, 100, true, .range 100 20000⟩, ⟨16, 16, .rwc, 20000, true, .range 100 20000⟩]⟩,
  ⟨"TRP_BKINIT", 0x7210, 4, 0x40, 2, 0x4, false,
    [⟨0, 18, .rwc, 50000, true, .any⟩]⟩,
  ⟨"TRP_BKTOP", 0x7218, 4, 0x40, 2, 0x4, false,
    [⟨0, 22, .ro, 800000, true, .any⟩, ⟨22, 2, .ro, 0, true, .any⟩, ⟨24, 1, .ro, 0, true, .any⟩]⟩,
  ⟨"TRP_ROW_0", 0x7800, 128, 0x10, 1, 0x0, false,
    [⟨0, 12, .rwc, 0, true, .any⟩, ⟨12, 1, .rwc, 0, true, .any⟩, ⟨13, 1, .rwc, 0, true, .any⟩, ⟨16, 12, .rwc, 0, true, .any⟩, ⟨28, 1, .rwc, 0, true, .any⟩, ⟨29, 1, .rwc, 0, true, .any⟩, ⟨14, 1, .rwc, 0, true, .any⟩]⟩,
  ⟨"TRP_ROW_j", 0x7804, 128, 0x10, 3, 0x4, false,
    [⟨0, 12, .rwc, 0, true, .any⟩, ⟨12, 1, .rwc, 0, true, .any⟩, ⟨13, 1, .rwc, 0, true, .any⟩, ⟨16, 12, .rwc, 0, true, .any⟩, ⟨28, 1, .rwc, 0, true, .any⟩, ⟨29, 1, .rwc, 0, true, .any⟩]⟩,
  ⟨"CAP_CTL", 0x8000, 1, 0x0, 1, 0x0, false,
    [⟨0, 1, .rwc, 1, true, .any⟩, ⟨1, 1, .rwc, 1, true, .any⟩]⟩,
  ⟨"CAP_STAT", 0x8004, 1, 0x0, 1, 0x0, false,
    [⟨0, 1, .ro, 0, false, .any⟩, ⟨1, 1, .ro, 0, false, .any⟩, ⟨16, 16, .ro, 0, false, .any⟩]⟩,
  ⟨"CAP_DSEL0", 0x8010, 1, 0x0, 1, 0x0, false,
    [⟨0, 7, .rwc, 32, true, .any⟩, ⟨8, 7, .rwc, 33, true, .any⟩, ⟨16, 7, .rwc, 34, true, .any⟩, ⟨24, 7, .rwc, 35, true, .any⟩]⟩,
  ⟨"CAP_DSEL1", 0x8014, 1, 0x0, 1, 0x0, false,
    [⟨0, 7, .rwc, 36, true, .any⟩, ⟨8, 7, .rwc, 37, true, .any⟩, ⟨16, 7, .rwc, 38, true, .any⟩, ⟨24, 7, .rwc, 39, true, .any⟩]⟩,
  ⟨"CAP_DSEL2", 0x8018, 1, 0x0, 1, 0x0, false,
    [⟨0, 7, .rwc, 40, true, .any⟩, ⟨8, 7, .rwc, 41, true, .any⟩, ⟨16, 7, .rwc, 42, true, .any⟩, ⟨24, 7, .rwc, 43, true, .any⟩]⟩,
  ⟨"CAP_DSEL3", 0x801C, 1, 0x0, 1, 0x0, false,
    [⟨0, 7, .rwc, 44, true, .any⟩, ⟨8, 7, .rwc, 45, true, .any⟩, ⟨16, 7, .rwc, 46, true, .any⟩, ⟨24, 7, .rwc, 47, true, .any⟩]⟩,
  ⟨"CAP_DSEL4", 0x8020, 1, 0x0, 1, 0x0, false,
    [⟨0, 7, .rwc, 48, true, .any⟩, ⟨8, 7, .rwc, 49, true, .any⟩, ⟨16, 7, .rwc, 50, true, .any⟩, ⟨24, 7, .rwc, 51, true, .any⟩]⟩]

/-- Rows 72 to 95 of the register map (R636 and the chapters named there). -/
def regRows3 : List RegDef := [
  ⟨"CAP_DSEL5", 0x8024, 1, 0x0, 1, 0x0, false,
    [⟨0, 7, .rwc, 52, true, .any⟩, ⟨8, 7, .rwc, 53, true, .any⟩, ⟨16, 7, .rwc, 54, true, .any⟩, ⟨24, 7, .rwc, 55, true, .any⟩]⟩,
  ⟨"CAP_DSEL6", 0x8028, 1, 0x0, 1, 0x0, false,
    [⟨0, 7, .rwc, 56, true, .any⟩, ⟨8, 7, .rwc, 57, true, .any⟩, ⟨16, 7, .rwc, 58, true, .any⟩, ⟨24, 7, .rwc, 59, true, .any⟩]⟩,
  ⟨"CAP_DSEL7", 0x802C, 1, 0x0, 1, 0x0, false,
    [⟨0, 7, .rwc, 60, true, .any⟩, ⟨8, 7, .rwc, 61, true, .any⟩, ⟨16, 7, .rwc, 62, true, .any⟩, ⟨24, 7, .rwc, 63, true, .any⟩]⟩,
  ⟨"CAP_DSEL8", 0x8030, 1, 0x0, 1, 0x0, false,
    [⟨0, 7, .rwc, 64, true, .any⟩, ⟨8, 7, .rwc, 65, true, .any⟩, ⟨16, 7, .rwc, 66, true, .any⟩, ⟨24, 7, .rwc, 67, true, .any⟩]⟩,
  ⟨"CAP_DSEL9", 0x8034, 1, 0x0, 1, 0x0, false,
    [⟨0, 7, .rwc, 68, true, .any⟩, ⟨8, 7, .rwc, 72, true, .any⟩, ⟨16, 7, .rwc, 73, true, .any⟩, ⟨24, 7, .rwc, 74, true, .any⟩]⟩,
  ⟨"CAP_DSEL10", 0x8038, 1, 0x0, 1, 0x0, false,
    [⟨0, 7, .rwc, 75, true, .any⟩, ⟨8, 7, .rwc, 80, true, .any⟩, ⟨16, 7, .rwc, 81, true, .any⟩, ⟨24, 7, .rwc, 82, true, .any⟩]⟩,
  ⟨"CAP_DSEL11", 0x803C, 1, 0x0, 1, 0x0, false,
    [⟨0, 7, .rwc, 83, true, .any⟩, ⟨8, 7, .rwc, 84, true, .any⟩, ⟨16, 7, .rwc, 85, true, .any⟩, ⟨24, 7, .rwc, 86, true, .any⟩]⟩,
  ⟨"CAP_DSEL12", 0x8040, 1, 0x0, 1, 0x0, false,
    [⟨0, 7, .rwc, 87, true, .any⟩, ⟨8, 7, .rwc, 88, true, .any⟩, ⟨16, 7, .rwc, 89, true, .any⟩, ⟨24, 7, .rwc, 90, true, .any⟩]⟩,
  ⟨"CAP_DSEL13", 0x8044, 1, 0x0, 1, 0x0, false,
    [⟨0, 7, .rwc, 91, true, .any⟩, ⟨8, 7, .rwc, 92, true, .any⟩, ⟨16, 7, .rwc, 93, true, .any⟩, ⟨24, 7, .rwc, 94, true, .any⟩]⟩,
  ⟨"CAP_DSEL14", 0x8048, 1, 0x0, 1, 0x0, false,
    [⟨0, 7, .rwc, 95, true, .any⟩, ⟨8, 7, .rwc, 96, true, .any⟩, ⟨16, 7, .rwc, 97, true, .any⟩, ⟨24, 7, .rwc, 98, true, .any⟩]⟩,
  ⟨"CAP_DSEL15", 0x804C, 1, 0x0, 1, 0x0, false,
    [⟨0, 7, .rwc, 99, true, .any⟩, ⟨8, 7, .rwc, 100, true, .any⟩, ⟨16, 7, .rwc, 101, true, .any⟩, ⟨24, 7, .rwc, 102, true, .any⟩]⟩,
  ⟨"CAP_SUB", 0x8080, 8, 0x8, 1, 0x0, false,
    [⟨0, 1, .rwc, 0, true, .any⟩, ⟨1, 1, .rwc, 0, true, .any⟩, ⟨2, 2, .rwc, 0, true, .any⟩, ⟨4, 3, .rwc, 0, true, .any⟩, ⟨8, 7, .rwc, 75, true, .range 0 100⟩, ⟨16, 7, .rwc, 25, true, .range 0 100⟩]⟩,
  ⟨"CAP_SUBSTAT", 0x8084, 8, 0x8, 1, 0x0, false,
    [⟨0, 3, .ro, 0, false, .any⟩, ⟨8, 24, .ro, 0, false, .any⟩]⟩,
  ⟨"CAP_GRP", 0x8100, 4, 0x8, 1, 0x0, false,
    [⟨0, 1, .rwc, 0, true, .any⟩, ⟨1, 2, .rwc, 0, true, .range 0 2⟩, ⟨3, 1, .rwc, 0, true, .any⟩, ⟨16, 16, .rwc, 0, true, .any⟩]⟩,
  ⟨"CAP_GRPSTAT", 0x8104, 4, 0x8, 1, 0x0, false,
    [⟨0, 1, .ro, 0, false, .any⟩, ⟨1, 1, .ro, 0, false, .any⟩, ⟨2, 6, .ro, 0, false, .any⟩, ⟨8, 12, .ro, 0, false, .any⟩, ⟨20, 12, .ro, 0, false, .any⟩]⟩,
  ⟨"CAP_TRG_CFG", 0x8400, 32, 0x40, 1, 0x0, false,
    [⟨0, 1, .rwc, 0, true, .any⟩, ⟨1, 3, .rwc, 0, true, .range 0 5⟩, ⟨4, 1, .rwc, 0, true, .any⟩, ⟨5, 1, .rwc, 0, true, .any⟩, ⟨6, 12, .rwc, 0, true, .any⟩, ⟨18, 1, .rwc, 0, true, .any⟩, ⟨19, 1, .rwc, 0, true, .any⟩, ⟨20, 2, .rwc, 0, true, .any⟩, ⟨22, 10, .rwc, 0, true, .range 0 1000⟩]⟩,
  ⟨"CAP_TRG_HI", 0x8404, 32, 0x40, 1, 0x0, false,
    [⟨0, 24, .rwc, 0, true, .any⟩, ⟨24, 8, .rwc, 1, true, .any⟩]⟩,
  ⟨"CAP_TRG_LO", 0x8408, 32, 0x40, 1, 0x0, false,
    [⟨0, 24, .rwc, 0, true, .any⟩, ⟨24, 8, .rwc, 1, true, .any⟩]⟩,
  ⟨"CAP_TRG_T1", 0x840C, 32, 0x40, 1, 0x0, false,
    [⟨0, 32, .rwc, 0, true, .any⟩]⟩,
  ⟨"CAP_TRG_T2", 0x8410, 32, 0x40, 1, 0x0, false,
    [⟨0, 32, .rwc, 4294967295, true, .any⟩]⟩,
  ⟨"CAP_TRG_WIN", 0x8414, 32, 0x40, 1, 0x0, false,
    [⟨0, 32, .rwc, 0, true, .any⟩]⟩,
  ⟨"CAP_TRG_STAT", 0x8418, 32, 0x40, 1, 0x0, false,
    [⟨0, 16, .ro, 0, false, .any⟩, ⟨16, 15, .ro, 0, false, .any⟩, ⟨31, 1, .ro, 0, false, .any⟩]⟩,
  ⟨"CAP_TRG_PAT", 0x8420, 32, 0x40, 8, 0x4, false,
    [⟨0, 12, .rwc, 0, true, .any⟩, ⟨12, 1, .rwc, 0, true, .any⟩, ⟨13, 2, .rwc, 2, true, .any⟩, ⟨16, 12, .rwc, 0, true, .any⟩, ⟨28, 1, .rwc, 0, true, .any⟩, ⟨29, 2, .rwc, 2, true, .any⟩]⟩,
  ⟨"CAP_TWCTL", 0x8C00, 1, 0x0, 1, 0x0, false,
    [⟨0, 2, .rwc, 0, true, .range 0 2⟩, ⟨8, 8, .rwc, 100, true, .range 10 200⟩, ⟨16, 16, .ro, 0, false, .any⟩]⟩]

/-- Rows 96 to 119 of the register map (R636 and the chapters named there). -/
def regRows4 : List RegDef := [
  ⟨"CAP_TWCFG", 0x8C10, 4, 0x20, 1, 0x0, false,
    [⟨0, 1, .rwc, 0, true, .any⟩, ⟨1, 1, .rwc, 0, true, .any⟩, ⟨2, 2, .rwc, 2, true, .range 0 2⟩, ⟨4, 1, .rwc, 0, true, .any⟩, ⟨8, 10, .rwc, 20, true, .range 1 1000⟩, ⟨18, 7, .rwc, 20, true, .range 1 100⟩]⟩,
  ⟨"CAP_TWTHR", 0x8C14, 4, 0x20, 1, 0x0, false,
    [⟨0, 16, .rwc, 1000, true, .range 1 65535⟩]⟩,
  ⟨"CAP_TWPEER", 0x8C18, 4, 0x20, 1, 0x0, false,
    [⟨0, 14, .rwc, 0, true, .any⟩, ⟨14, 2, .rwc, 0, true, .any⟩]⟩,
  ⟨"CAP_TWLEN", 0x8C1C, 4, 0x20, 1, 0x0, false,
    [⟨0, 32, .rwc, 0, true, .zeroOr 10 2000000⟩]⟩,
  ⟨"CAP_TWVEL", 0x8C20, 4, 0x20, 1, 0x0, false,
    [⟨0, 32, .rwc, 172000000, true, .range 100000000 299792458⟩]⟩,
  ⟨"CAP_TWOFS", 0x8C24, 4, 0x20, 1, 0x0, false,
    [⟨0, 16, .rwc, 0, true, .signed 16 10000⟩]⟩,
  ⟨"CAP_TWSTAT", 0x8C28, 4, 0x20, 1, 0x0, false,
    [⟨0, 16, .ro, 0, false, .any⟩, ⟨16, 8, .ro, 0, false, .any⟩, ⟨24, 8, .ro, 0, false, .any⟩]⟩,
  ⟨"CIS_STAT", 0x9000, 1, 0x0, 1, 0x0, false,
    [⟨0, 1, .ro, 1, false, .any⟩, ⟨1, 1, .ro, 0, false, .any⟩, ⟨2, 1, .ro, 0, false, .any⟩, ⟨3, 1, .ro, 0, false, .any⟩, ⟨4, 1, .ro, 0, false, .any⟩, ⟨5, 1, .ro, 0, false, .any⟩, ⟨8, 4, .ro, 0, false, .any⟩]⟩,
  ⟨"CIS_RXCNT", 0x9004, 1, 0x0, 1, 0x0, false,
    [⟨0, 16, .ro, 0, false, .any⟩, ⟨16, 16, .ro, 0, false, .any⟩]⟩,
  ⟨"CIS_SEQ", 0x9008, 1, 0x0, 1, 0x0, false,
    [⟨0, 32, .ro, 0, false, .any⟩]⟩,
  ⟨"CIS_SWID", 0x900C, 1, 0x0, 1, 0x0, false,
    [⟨0, 32, .ro, 0, false, .any⟩]⟩,
  ⟨"CIS_AUDIT", 0x9010, 1, 0x0, 1, 0x0, false,
    [⟨0, 32, .ro, 0, false, .any⟩]⟩,
  ⟨"CIS_LAT", 0x9014, 1, 0x0, 1, 0x0, false,
    [⟨0, 16, .ro, 0, true, .any⟩]⟩,
  ⟨"CIS_REQCNT", 0x9018, 1, 0x0, 1, 0x0, false,
    [⟨0, 16, .ro, 0, false, .any⟩, ⟨16, 16, .ro, 0, false, .any⟩]⟩,
  ⟨"CIS_REJECT", 0x901C, 1, 0x0, 1, 0x0, false,
    [⟨0, 32, .ro, 0, false, .any⟩]⟩,
  ⟨"CSC_PCTL", 0xA000, 1, 0x0, 1, 0x0, false,
    [⟨0, 1, .rwc, 0, true, .any⟩, ⟨8, 16, .rwc, 10, true, .range 1 600⟩]⟩,
  ⟨"CSC_PSTAT", 0xA004, 1, 0x0, 1, 0x0, false,
    [⟨0, 2, .ro, 0, false, .any⟩, ⟨2, 1, .ro, 0, false, .any⟩, ⟨3, 3, .ro, 0, true, .any⟩, ⟨6, 3, .ro, 0, true, .any⟩, ⟨9, 1, .ro, 0, false, .any⟩, ⟨10, 1, .ro, 0, false, .any⟩]⟩,
  ⟨"CSC_FPRINT", 0xA008, 1, 0x0, 1, 0x0, true,
    [⟨0, 64, .ro, 0, false, .any⟩]⟩,
  ⟨"CSC_COMMIT", 0xA010, 1, 0x0, 1, 0x0, true,
    [⟨0, 64, .ro, 0, false, .any⟩]⟩,
  ⟨"CSC_TSTAT", 0xA100, 64, 0x4, 1, 0x0, false,
    [⟨0, 2, .ro, 0, false, .any⟩, ⟨2, 3, .ro, 0, false, .any⟩, ⟨8, 8, .ro, 0, false, .any⟩, ⟨16, 16, .ro, 0, false, .any⟩]⟩,
  ⟨"CSC_CSTAT", 0xA200, 1, 0x0, 1, 0x0, false,
    [⟨0, 16, .ro, 0, false, .any⟩, ⟨16, 7, .ro, 0, false, .any⟩, ⟨23, 4, .ro, 0, false, .any⟩]⟩,
  ⟨"CSC_CLAT", 0xA204, 1, 0x0, 1, 0x0, false,
    [⟨0, 16, .ro, 0, false, .any⟩]⟩,
  ⟨"CSC_CIGN", 0xA208, 1, 0x0, 1, 0x0, false,
    [⟨0, 32, .ro, 0, false, .any⟩]⟩,
  ⟨"CSC_FLAG", 0xA300, 64, 0x4, 1, 0x0, false,
    [⟨0, 32, .ro, 0, false, .any⟩]⟩]

/-- Rows 120 to 143 of the register map (R636 and the chapters named there). -/
def regRows5 : List RegDef := [
  ⟨"CSC_FLOW", 0xA400, 64, 0x8, 1, 0x0, true,
    [⟨0, 10, .rwc, 0, true, .any⟩, ⟨15, 1, .rwc, 0, true, .any⟩, ⟨16, 10, .rwc, 0, true, .any⟩, ⟨31, 1, .rwc, 0, true, .any⟩, ⟨32, 10, .rwc, 0, true, .any⟩, ⟨47, 1, .rwc, 0, true, .any⟩, ⟨48, 10, .rwc, 0, true, .any⟩, ⟨63, 1, .rwc, 0, true, .any⟩]⟩,
  ⟨"CSC_TDSP", 0xA600, 64, 0x4, 1, 0x0, false,
    [⟨0, 3, .ro, 0, false, .any⟩, ⟨3, 3, .ro, 0, false, .any⟩, ⟨16, 16, .ro, 0, false, .any⟩]⟩,
  ⟨"CSC_TCNT", 0xA700, 64, 0x4, 1, 0x0, false,
    [⟨0, 16, .ro, 0, false, .any⟩, ⟨16, 16, .ro, 0, false, .any⟩]⟩,
  ⟨"CSC_ROUTE", 0xA800, 56, 0x4, 1, 0x0, false,
    [⟨0, 1, .rwc, 0, true, .any⟩, ⟨1, 2, .rwc, 0, true, .range 0 2⟩, ⟨8, 6, .rwc, 0, true, .any⟩, ⟨16, 5, .rwc, 0, true, .any⟩]⟩,
  ⟨"CSC_SKSTAT", 0xA020, 1, 0x0, 1, 0x0, false,
    [⟨0, 3, .ro, 0, false, .any⟩, ⟨3, 1, .ro, 0, false, .any⟩, ⟨4, 4, .ro, 0, false, .any⟩, ⟨8, 8, .ro, 0, false, .any⟩, ⟨16, 16, .ro, 0, false, .any⟩]⟩,
  ⟨"CSC_SKTSW", 0xA028, 1, 0x0, 1, 0x0, true,
    [⟨0, 64, .ro, 0, false, .any⟩]⟩,
  ⟨"CSC_SKPAUSE", 0xA030, 1, 0x0, 1, 0x0, false,
    [⟨0, 32, .ro, 0, false, .any⟩]⟩,
  ⟨"CSC_FSTAT", 0xA034, 1, 0x0, 1, 0x0, false,
    [⟨0, 13, .ro, 0, true, .any⟩, ⟨16, 13, .ro, 0, true, .any⟩, ⟨31, 1, .rw1c, 0, false, .any⟩]⟩,
  ⟨"FIO_CTL", 0xB000, 1, 0x0, 1, 0x0, false,
    [⟨0, 1, .rwc, 0, true, .any⟩, ⟨1, 1, .rwc, 0, true, .any⟩, ⟨8, 8, .rwc, 10, true, .range 1 255⟩]⟩,
  ⟨"FIO_FSSTAT", 0xB004, 1, 0x0, 1, 0x0, false,
    [⟨0, 1, .ro, 0, false, .any⟩, ⟨1, 1, .ro, 0, false, .any⟩, ⟨2, 1, .ro, 0, false, .any⟩, ⟨4, 1, .ro, 0, false, .any⟩, ⟨5, 1, .ro, 0, false, .any⟩, ⟨6, 1, .ro, 0, false, .any⟩]⟩,
  ⟨"FIO_FSVAL", 0xB008, 1, 0x0, 1, 0x0, false,
    [⟨0, 16, .ro, 0, false, .any⟩, ⟨16, 16, .ro, 0, false, .any⟩]⟩,
  ⟨"FIO_FSCNT", 0xB00C, 1, 0x0, 1, 0x0, false,
    [⟨0, 16, .ro, 0, false, .any⟩, ⟨16, 16, .ro, 0, false, .any⟩]⟩,
  ⟨"FIO_CFG", 0xB100, 32, 0x20, 1, 0x0, false,
    [⟨0, 1, .rwc, 0, true, .any⟩, ⟨1, 1, .rwc, 0, true, .any⟩, ⟨2, 1, .rwc, 0, true, .any⟩, ⟨3, 1, .rwc, 0, true, .any⟩, ⟨4, 2, .rwc, 0, true, .range 0 2⟩, ⟨6, 2, .rwc, 0, true, .any⟩, ⟨8, 1, .rwc, 0, true, .any⟩, ⟨9, 1, .rwc, 0, true, .any⟩]⟩,
  ⟨"FIO_DEB", 0xB104, 32, 0x20, 1, 0x0, false,
    [⟨0, 16, .rwc, 3000, true, .range 5 65535⟩, ⟨16, 8, .rwc, 20, true, .any⟩, ⟨24, 8, .rwc, 100, true, .range 1 255⟩]⟩,
  ⟨"FIO_SUP", 0xB108, 32, 0x20, 1, 0x0, false,
    [⟨0, 8, .rwc, 40, true, .range 0 254⟩, ⟨8, 8, .rwc, 160, true, .any⟩, ⟨16, 8, .rwc, 10, true, .range 1 255⟩]⟩,
  ⟨"FIO_STUCK", 0xB10C, 32, 0x20, 1, 0x0, false,
    [⟨0, 16, .rwc, 0, true, .any⟩]⟩,
  ⟨"FIO_OUT", 0xB110, 32, 0x20, 1, 0x0, false,
    [⟨0, 16, .rwc, 0, true, .any⟩, ⟨16, 10, .rwc, 100, true, .range 1 1000⟩, ⟨26, 6, .rwc, 10, true, .range 1 63⟩]⟩,
  ⟨"FIO_STAT", 0xB114, 32, 0x20, 1, 0x0, false,
    [⟨0, 1, .ro, 0, false, .any⟩, ⟨1, 1, .ro, 0, false, .any⟩, ⟨2, 1, .ro, 0, false, .any⟩, ⟨3, 1, .ro, 0, false, .any⟩, ⟨4, 1, .ro, 0, false, .any⟩, ⟨5, 1, .ro, 0, false, .any⟩, ⟨8, 2, .ro, 1, false, .any⟩, ⟨10, 1, .ro, 0, false, .any⟩, ⟨11, 1, .ro, 0, false, .any⟩, ⟨12, 1, .ro, 0, false, .any⟩, ⟨16, 4, .ro, 0, false, .any⟩]⟩,
  ⟨"FIO_CNT", 0xB118, 32, 0x20, 1, 0x0, false,
    [⟨0, 16, .ro, 0, false, .any⟩, ⟨16, 16, .ro, 0, false, .any⟩]⟩,
  ⟨"FIO_MEAS", 0xB11C, 32, 0x20, 1, 0x0, false,
    [⟨0, 8, .ro, 0, false, .any⟩, ⟨8, 8, .ro, 0, false, .any⟩, ⟨16, 16, .ro, 0, false, .any⟩]⟩,
  ⟨"HCX_ROLE_0_4", 0xC000, 2, 0x10, 1, 0x0, false,
    [⟨0, 3, .rwc, 1, true, .range 0 4⟩, ⟨3, 1, .rwc, 1, true, .any⟩, ⟨4, 3, .ro, 0, false, .any⟩, ⟨7, 1, .ro, 0, false, .any⟩]⟩,
  ⟨"HCX_ROLE_other", 0xC004, 2, 0x10, 3, 0x4, false,
    [⟨0, 3, .rwc, 0, true, .range 0 4⟩, ⟨3, 1, .rwc, 0, true, .any⟩, ⟨4, 3, .ro, 0, false, .any⟩, ⟨7, 1, .ro, 0, false, .any⟩]⟩,
  ⟨"HCX_PORT", 0xC020, 2, 0x4, 1, 0x0, false,
    [⟨0, 1, .ro, 0, false, .any⟩, ⟨1, 2, .ro, 0, false, .any⟩, ⟨3, 2, .ro, 0, false, .any⟩, ⟨16, 16, .ro, 0, false, .any⟩]⟩,
  ⟨"HCX_CTL", 0x20000, 8, 0x4000, 1, 0x0, false,
    [⟨0, 1, .rw, 0, false, .any⟩, ⟨16, 10, .rw, 0, false, .range 0 1000⟩]⟩]

/-- Rows 144 to 167 of the register map (R636 and the chapters named there). -/
def regRows6 : List RegDef := [
  ⟨"HCX_STAT", 0x20004, 8, 0x4000, 1, 0x0, false,
    [⟨0, 2, .ro, 0, false, .any⟩, ⟨2, 1, .rw1c, 0, false, .any⟩, ⟨3, 1, .rw1c, 0, false, .any⟩, ⟨16, 16, .ro, 0, false, .any⟩]⟩,
  ⟨"HCX_DBADDR", 0x20008, 8, 0x4000, 1, 0x0, true,
    [⟨12, 52, .rw, 0, false, .any⟩]⟩,
  ⟨"HCX_WBADDR", 0x20010, 8, 0x4000, 1, 0x0, true,
    [⟨6, 58, .rw, 0, false, .any⟩]⟩,
  ⟨"HCX_POLL", 0x20018, 8, 0x4000, 1, 0x0, false,
    [⟨0, 7, .rw, 10, false, .range 1 100⟩, ⟨16, 12, .rw, 256, false, .range 16 4095⟩]⟩,
  ⟨"HCX_EVMASK", 0x2001C, 8, 0x4000, 1, 0x0, false,
    [⟨0, 25, .rw, 33489342, false, .any⟩]⟩,
  ⟨"HCX_RFSD", 0x20020, 8, 0x4000, 1, 0x0, false,
    [⟨0, 18, .ro, 0, false, .any⟩, ⟨20, 4, .ro, 0, false, .any⟩, ⟨31, 1, .rw1c, 0, false, .any⟩]⟩,
  ⟨"HCX_CNT", 0x20024, 8, 0x4000, 1, 0x0, false,
    [⟨0, 16, .ro, 0, false, .any⟩, ⟨16, 16, .ro, 0, false, .any⟩]⟩,
  ⟨"HCX_RBASE", 0x20100, 8, 0x4000, 11, 0x10, true,
    [⟨12, 52, .rw, 0, false, .any⟩]⟩,
  ⟨"HCX_RCFG_low", 0x20108, 8, 0x4000, 3, 0x10, false,
    [⟨0, 5, .rw, 4, false, .range 4 16⟩]⟩,
  ⟨"HCX_RCFG_stream", 0x20138, 8, 0x4000, 8, 0x10, false,
    [⟨0, 5, .rw, 4, false, .range 4 16⟩, ⟨8, 8, .rw, 16, false, .range 16 255⟩]⟩,
  ⟨"HCX_RSTAT", 0x2010C, 8, 0x4000, 11, 0x10, false,
    [⟨0, 16, .ro, 0, false, .any⟩]⟩,
  ⟨"DMA_CHCFG_0", 0xD000, 4, 0x10, 1, 0x0, false,
    [⟨0, 2, .rwc, 1, true, .any⟩]⟩,
  ⟨"DMA_CHCFG_4", 0xD040, 8, 0x10, 1, 0x0, false,
    [⟨0, 2, .rwc, 2, true, .any⟩]⟩,
  ⟨"DMA_CHCFG_12", 0xD0C0, 1, 0x10, 1, 0x0, false,
    [⟨0, 2, .rwc, 3, true, .any⟩]⟩,
  ⟨"DMA_CHCFG_13", 0xD0D0, 3, 0x10, 1, 0x0, false,
    [⟨0, 2, .rwc, 0, true, .any⟩]⟩,
  ⟨"DMA_CHSTAT", 0xD004, 16, 0x10, 1, 0x0, false,
    [⟨0, 2, .ro, 0, false, .any⟩, ⟨2, 3, .ro, 0, false, .any⟩, ⟨16, 12, .ro, 0, false, .any⟩]⟩,
  ⟨"DMA_CHERR", 0xD008, 16, 0x10, 1, 0x0, false,
    [⟨0, 8, .ro, 0, false, .any⟩, ⟨8, 8, .ro, 0, false, .any⟩, ⟨16, 8, .ro, 0, false, .any⟩, ⟨24, 8, .ro, 0, false, .any⟩]⟩,
  ⟨"DMA_CHCRC", 0xD00C, 16, 0x10, 1, 0x0, false,
    [⟨0, 32, .ro, 0, false, .any⟩]⟩,
  ⟨"ETH_PORT", 0xE000, 8, 0x4, 1, 0x0, false,
    [⟨0, 1, .rwc, 1, true, .any⟩, ⟨1, 1, .rwc, 0, true, .any⟩, ⟨8, 1, .ro, 0, false, .any⟩, ⟨9, 1, .ro, 0, false, .any⟩, ⟨16, 16, .ro, 0, false, .any⟩]⟩,
  ⟨"ETH_RXDROP", 0xE020, 8, 0x4, 1, 0x0, false,
    [⟨0, 24, .ro, 0, false, .any⟩, ⟨24, 8, .ro, 0, false, .any⟩]⟩,
  ⟨"ETH_PAIR", 0xE040, 3, 0x4, 1, 0x0, false,
    [⟨0, 6, .rwc, 20, true, .range 1 63⟩, ⟨6, 10, .rwc, 400, true, .range 10 1000⟩, ⟨16, 16, .ro, 0, false, .any⟩]⟩,
  ⟨"ETH_MAC", 0xE050, 1, 0x0, 1, 0x0, true,
    [⟨0, 48, .ro, 0, true, .any⟩]⟩,
  ⟨"ETH_OWN", 0xE058, 1, 0x0, 1, 0x0, false,
    [⟨0, 12, .rwc, 0, true, .any⟩, ⟨12, 1, .rwc, 1, true, .any⟩, ⟨13, 3, .rwc, 6, true, .any⟩]⟩,
  ⟨"ETH_TBLADDR", 0xE080, 1, 0x0, 1, 0x0, false,
    [⟨2, 15, .rw, 0, false, .range 0 23807⟩]⟩]

/-- Rows 168 to 191 of the register map (R636 and the chapters named there). -/
def regRows7 : List RegDef := [
  ⟨"ETH_TBLDATA", 0xE084, 1, 0x0, 1, 0x0, false,
    [⟨0, 32, .rwc, 0, true, .any⟩]⟩,
  ⟨"CAN_CFG_sched", 0xF000, 10, 0x40, 1, 0x0, false,
    [⟨0, 1, .rwc, 0, true, .any⟩, ⟨1, 1, .rwc, 1, true, .any⟩, ⟨2, 1, .rwc, 0, true, .any⟩, ⟨3, 1, .rwc, 0, true, .any⟩, ⟨4, 1, .rwc, 0, true, .any⟩, ⟨5, 1, .rwc, 1, true, .any⟩, ⟨6, 1, .rwc, 0, true, .any⟩, ⟨8, 3, .rwc, 0, true, .range 0 4⟩, ⟨12, 4, .rwc, 3, true, .any⟩]⟩,
  ⟨"CAN_CFG_mem", 0xF280, 2, 0x40, 1, 0x0, false,
    [⟨0, 1, .rwc, 0, true, .any⟩, ⟨1, 1, .rwc, 1, true, .any⟩, ⟨2, 1, .rwc, 0, true, .any⟩, ⟨3, 1, .rwc, 0, true, .any⟩, ⟨4, 1, .rwc, 0, true, .any⟩, ⟨5, 1, .rwc, 1, true, .any⟩, ⟨12, 4, .rwc, 3, true, .any⟩]⟩,
  ⟨"CAN_NBT", 0xF004, 12, 0x40, 1, 0x0, false,
    [⟨0, 5, .rwc, 0, true, .any⟩, ⟨5, 8, .rwc, 62, true, .range 1 255⟩, ⟨13, 7, .rwc, 15, true, .range 1 127⟩, ⟨20, 7, .rwc, 15, true, .any⟩]⟩,
  ⟨"CAN_DBT", 0xF008, 12, 0x40, 1, 0x0, false,
    [⟨0, 5, .rwc, 0, true, .any⟩, ⟨5, 5, .rwc, 6, true, .any⟩, ⟨10, 4, .rwc, 1, true, .any⟩, ⟨14, 4, .rwc, 1, true, .any⟩, ⟨18, 7, .rwc, 8, true, .any⟩]⟩,
  ⟨"CAN_STAT", 0xF00C, 12, 0x40, 1, 0x0, false,
    [⟨0, 2, .ro, 0, false, .any⟩, ⟨2, 1, .ro, 0, false, .any⟩, ⟨8, 8, .ro, 0, false, .any⟩, ⟨16, 8, .ro, 0, false, .any⟩, ⟨24, 8, .ro, 0, false, .any⟩]⟩,
  ⟨"CAN_ERR", 0xF010, 12, 0x40, 1, 0x0, false,
    [⟨0, 6, .ro, 0, false, .any⟩, ⟨6, 6, .ro, 0, false, .any⟩, ⟨12, 6, .ro, 0, false, .any⟩, ⟨18, 6, .ro, 0, false, .any⟩, ⟨24, 6, .ro, 0, false, .any⟩]⟩,
  ⟨"CAN_CNT", 0xF014, 12, 0x40, 1, 0x0, false,
    [⟨0, 16, .ro, 0, false, .any⟩, ⟨16, 16, .ro, 0, false, .any⟩]⟩,
  ⟨"CAN_SCH_sched", 0xF018, 10, 0x40, 1, 0x0, false,
    [⟨0, 4, .ro, 0, false, .any⟩, ⟨4, 6, .ro, 0, false, .any⟩, ⟨16, 8, .ro, 0, false, .any⟩, ⟨24, 8, .ro, 0, false, .any⟩]⟩,
  ⟨"CAN_SCH_mem", 0xF298, 2, 0x40, 1, 0x0, false,
    []⟩,
  ⟨"CAN_MISC_sched", 0xF01C, 10, 0x40, 1, 0x0, false,
    [⟨0, 16, .ro, 0, false, .any⟩]⟩,
  ⟨"CAN_MISC_mem", 0xF29C, 2, 0x40, 1, 0x0, false,
    [⟨0, 16, .ro, 0, false, .any⟩, ⟨16, 16, .ro, 0, false, .any⟩]⟩,
  ⟨"CAN_SUB", 0xF300, 4, 0x8, 1, 0x0, false,
    [⟨0, 1, .rwc, 0, true, .any⟩, ⟨1, 1, .rwc, 0, true, .any⟩, ⟨2, 2, .rwc, 0, true, .any⟩, ⟨4, 3, .rwc, 0, true, .any⟩, ⟨7, 7, .rwc, 10, true, .range 1 100⟩, ⟨16, 12, .rwc, 0, true, .any⟩]⟩,
  ⟨"CAN_SUBSTAT", 0xF304, 4, 0x8, 1, 0x0, false,
    [⟨0, 32, .ro, 0, false, .any⟩]⟩,
  ⟨"CAN_TBLADDR", 0xF380, 1, 0x0, 1, 0x0, false,
    [⟨2, 15, .rw, 0, false, .range 0 24575⟩]⟩,
  ⟨"CAN_TBLDATA", 0xF384, 1, 0x0, 1, 0x0, false,
    [⟨0, 32, .rwc, 0, true, .any⟩]⟩,
  ⟨"PAR_CFG", 0x10000, 1, 0x0, 1, 0x0, false,
    [⟨0, 1, .rwc, 0, true, .any⟩, ⟨8, 14, .rwc, 0, true, .any⟩]⟩,
  ⟨"PAR_TIM", 0x10004, 1, 0x0, 1, 0x0, false,
    [⟨0, 3, .rwc, 6, true, .range 2 7⟩, ⟨8, 8, .rwc, 20, true, .range 1 100⟩, ⟨16, 10, .rwc, 20, true, .range 1 1000⟩]⟩,
  ⟨"PAR_SYNC", 0x10008, 1, 0x0, 1, 0x0, false,
    [⟨0, 8, .rwc, 10, true, .range 1 100⟩, ⟨8, 8, .rwc, 20, true, .range 5 100⟩]⟩,
  ⟨"PAR_UPG", 0x10010, 1, 0x0, 1, 0x0, true,
    [⟨0, 48, .rwc, 0, false, .any⟩]⟩,
  ⟨"PAR_STAT", 0x10018, 1, 0x0, 1, 0x0, false,
    [⟨0, 3, .ro, 0, false, .any⟩, ⟨3, 3, .ro, 0, false, .any⟩, ⟨6, 4, .ro, 0, false, .any⟩, ⟨10, 1, .ro, 0, false, .any⟩, ⟨11, 1, .ro, 0, false, .any⟩, ⟨12, 1, .ro, 0, false, .any⟩, ⟨13, 1, .ro, 0, false, .any⟩, ⟨14, 1, .ro, 0, false, .any⟩, ⟨16, 3, .ro, 0, false, .any⟩]⟩,
  ⟨"PAR_FP", 0x10020, 1, 0x0, 1, 0x0, true,
    [⟨0, 64, .ro, 0, false, .any⟩]⟩,
  ⟨"PAR_OFS", 0x10028, 1, 0x0, 1, 0x0, false,
    [⟨0, 32, .ro, 0, false, .any⟩]⟩,
  ⟨"PAR_CNT", 0x1002C, 1, 0x0, 1, 0x0, false,
    [⟨0, 8, .ro, 0, false, .any⟩, ⟨8, 8, .ro, 0, false, .any⟩, ⟨16, 8, .ro, 0, false, .any⟩, ⟨24, 8, .ro, 0, false, .any⟩]⟩]

/-- Rows 192 to 206 of the register map (R636 and the chapters named there). -/
def regRows8 : List RegDef := [
  ⟨"PAR_PFW", 0x10030, 1, 0x0, 1, 0x0, false,
    [⟨0, 32, .ro, 0, false, .any⟩]⟩,
  ⟨"LCY_STAT", 0x1000, 1, 0x0, 1, 0x0, false,
    [⟨0, 3, .ro, 0, true, .any⟩, ⟨3, 1, .ro, 0, false, .any⟩, ⟨4, 3, .ro, 0, false, .any⟩, ⟨7, 1, .ro, 0, false, .any⟩, ⟨8, 1, .ro, 0, false, .any⟩]⟩,
  ⟨"LCY_BOOT", 0x1004, 1, 0x0, 1, 0x0, false,
    [⟨0, 16, .ro, 65535, false, .any⟩, ⟨16, 16, .ro, 65535, false, .any⟩]⟩,
  ⟨"LCY_RSTCNT", 0x1008, 1, 0x0, 1, 0x0, false,
    [⟨0, 8, .ro, 0, true, .any⟩, ⟨8, 8, .ro, 0, true, .any⟩, ⟨16, 8, .ro, 0, true, .any⟩, ⟨24, 8, .ro, 0, true, .any⟩]⟩,
  ⟨"LCY_ERASE", 0x100C, 1, 0x0, 1, 0x0, false,
    [⟨0, 7, .ro, 100, false, .any⟩]⟩,
  ⟨"EVR_TOTAL", 0x11000, 1, 0x0, 1, 0x0, true,
    [⟨0, 64, .ro, 0, true, .any⟩]⟩,
  ⟨"EVR_OVW", 0x11008, 1, 0x0, 1, 0x0, false,
    [⟨0, 32, .ro, 0, true, .any⟩]⟩,
  ⟨"EVR_RDIDX", 0x1100C, 1, 0x0, 1, 0x0, false,
    [⟨0, 17, .rw, 0, false, .range 0 69631⟩, ⟨30, 1, .ro, 0, false, .any⟩, ⟨31, 1, .ro, 0, false, .any⟩]⟩,
  ⟨"EVR_RDDATA", 0x11010, 8, 0x4, 1, 0x0, false,
    [⟨0, 32, .ro, 0, false, .any⟩]⟩,
  ⟨"GLB_MODE", 0x40, 1, 0x0, 1, 0x0, false,
    [⟨0, 8, .rwc, 85, true, .any⟩, ⟨8, 1, .rwc, 0, true, .any⟩, ⟨9, 1, .rwc, 0, true, .any⟩, ⟨16, 8, .rwc, 0, true, .any⟩, ⟨24, 1, .ro, 0, false, .any⟩]⟩,
  ⟨"GLB_TLINK", 0x50, 4, 0x4, 1, 0x0, false,
    [⟨0, 32, .ro, 0, false, .any⟩]⟩,
  ⟨"GLB_PWR", 0x60, 1, 0x0, 1, 0x0, false,
    [⟨0, 1, .ro, 0, false, .any⟩, ⟨1, 1, .ro, 0, false, .any⟩, ⟨16, 16, .ro, 65535, false, .any⟩]⟩,
  ⟨"GLB_FEEDVAL", 0x64, 1, 0x0, 1, 0x0, false,
    [⟨0, 16, .ro, 0, false, .any⟩, ⟨16, 16, .ro, 0, false, .any⟩]⟩,
  ⟨"GLB_ID", 0x68, 1, 0x0, 1, 0x0, true,
    [⟨0, 32, .ro, 0, true, .any⟩, ⟨32, 8, .ro, 1, true, .any⟩]⟩,
  ⟨"GLB_MAPID", 0x0, 1, 0x0, 1, 0x0, false,
    [⟨0, 16, .ro, 1, false, .any⟩, ⟨16, 8, .ro, 18, false, .any⟩]⟩]

/-- The whole register map: every register of R636 with its fields, access codes, reset values and limits. -/
def regMap : List RegDef := regRows0 ++ regRows1 ++ regRows2 ++ regRows3 ++ regRows4 ++ regRows5 ++ regRows6 ++ regRows7 ++ regRows8

/-- Whether the byte offset `o` is one of a row's registers. -/
def RegDef.covers (r : RegDef) (o : Nat) : Bool :=
  decide (r.off ≤ o) &&
    (let d := o - r.off
     let i := if r.s1 = 0 then 0 else min (d / r.s1) (r.n1 - 1)
     let e := d - r.s1 * i
     let j := if r.s2 = 0 then 0 else min (e / r.s2) (r.n2 - 1)
     e == r.s2 * j)

/-- The register at a BAR0 byte offset, if one lies there (R637). -/
def regAt (o : Nat) : Option RegDef :=
  regMap.find? (fun r => r.covers o)

/-- The register that holds a bit address, and its offset: bit addresses count 8 for each byte of BAR0. -/
def regOfBit (b : Nat) : Option (Nat × RegDef) :=
  let o := b / 32 * 4
  match regAt o with
  | some r => some (o, r)
  | none =>
    match regAt (o - 4) with
    | some r => if r.wide then some (o - 4, r) else none
    | none => none

/-- The field that starts at a bit address. -/
def fieldOfBit (b : Nat) : Option FieldDef :=
  match regOfBit b with
  | some (o, r) => r.fields.find? (fun f => 8 * o + f.lo == b)
  | none => none

/-- The value that a field reads as when nothing has changed it: its reset value of the register tables. -/
def fieldReset (b : Nat) : Nat :=
  match fieldOfBit b with
  | some f => f.reset
  | none => 0

/-- Whether a field is stored configuration, which a reset keeps. -/
def fieldStored (b : Nat) : Bool :=
  match fieldOfBit b with
  | some f => f.stored
  | none => false

end Sys2Proof.Machine
end

