-- ==== Sys2Proof/Machine/State.lean ====
section
/-! DEFINITION. The state of the block as plain data: the register file, the structured state of every unit the
manual describes, and the queue of the commands that are waiting. -/

namespace Sys2Proof.Machine

/-- Why a step stops with a fault: no command or event of this block ends in one, since the manual gives each its effect
or says that it is refused, and a refusal is an effect. -/
inductive Fault where
  deriving DecidableEq, Repr

/-- Why a step refuses a command. -/
inductive Refusal where
  /-- The command has no meaning in this model yet. Raised by the dispatch only; stopping is safe. -/
  | notModelled (mnemonic : String)
  deriving DecidableEq, Repr

/-- Setup registers: the fields whose value differs from the reset value, keyed by the field's bit address in BAR0
(8 for each byte of its offset), rising; a field not listed reads as its reset value. -/
abbrev RegFile := List (Nat × Nat)

/-- The masters of the crossbar (R33). -/
inductive Master where
  | sluice (engine : Fin 2) | fast | matrix
  | decimation | resampler | capture | jet | wavefront | gooseSv
  | core (k : Fin 8) | cascade
  | supervisor | link | ethernet | can (bus : Fin 12) | scrubber
  | host (port : Fin 2) | dma (channel : Fin 16)
  deriving DecidableEq, Repr, Inhabited

/-- A request that waits at a target port: its master, the transfers of at most 64 B that are left, and the tick from which it
waits (R34, R35). -/
structure XReq where
  master : Master
  left : Nat
  since : Nat
  deriving DecidableEq, Repr, Inhabited

/-- A target port of the crossbar: what waits at it, the ns until the transfer in progress ends and its master, and the master
served last in each class (R34). -/
structure XPort where
  queue : List XReq := []
  busy : Nat := 0
  serving : Option Master := none
  last : Vector Nat 5 := Vector.replicate 5 0
  deriving DecidableEq, Repr, Inhabited

/-- Time-quality states of the wall clock (R44). -/
inductive TimeQ where
  | traceable | fallback | holdover | drifting | restored | invalid
  deriving DecidableEq, Repr, Inhabited

/-- The wall clock: 48-bit seconds, nanoseconds, and the 32-bit fraction accumulator (R40). -/
structure Wall where
  sec : W48 := 0
  ns : Nat := 0
  frac : W32 := 0
  deriving DecidableEq, Repr, Inhabited

/-- Wall time, its servo and its reference (R40 to R73). Instants named `…At` count timebase ticks. -/
structure TimeSt where
  wall : Wall := {}
  incr : W64 := 0x0000000400000000#64
  /-- Increments of the last 60 s with the tick at which each took effect, newest first (R54). -/
  incrHist : List (Nat × W64) := [(0, 0x0000000400000000#64)]
  /-- How far the modulator clock lies behind wall time, in 2^-32 × 10^-5 ns: what a step leaves for the divider to slew
  (R72, R152). -/
  modErr : Int := 0
  tq : TimeQ := .invalid
  tsc : Byte := 0
  utcOffset : W16 := 37#16
  leap61 : Bool := false
  leap59 : Bool := false
  utcValid : Bool := false
  source : Byte := 0
  offsetNs : Int := 0
  /-- The last eight peer link delays of each port, newest first, ns (R58). -/
  pdelay : Vector (List Nat) 8 := Vector.replicate 8 []
  gm : Option Announce := none
  /-- The selected grandmaster's first offset is still to be judged (R54). -/
  gmNew : Bool := false
  /-- The selected grandmaster no longer qualifies, and no other has been selected since (R54, R56). -/
  gmGone : Bool := false
  stepRefused : Bool := false
  gmConflict : Bool := false
  bkpLost : Bool := true
  refLost : Bool := false
  hostServoSilent : Bool := false
  /-- Start of Holdover, from which hold_elapsed counts. -/
  holdAt : Nat := 0
  refusedSteps : W32 := 0
  /-- A refused offset is pending (R53). -/
  refusedPending : Bool := false
  /-- A step was applied or refused since reset (R49). -/
  steppedOnce : Bool := false
  /-- Last accepted ADJUST_RATE. -/
  adjustAt : Nat := 0
  /-- Last Sync from the selected grandmaster. -/
  syncAt : Nat := 0
  /-- Consecutive Syncs with an offset of at most 1 µs. -/
  syncGood : Nat := 0
  /-- A two-step Sync waiting for its Follow_Up: its sequence number, ingress ns, correction, port. -/
  syncWait : Option (Nat × Nat × Int × Nat) := none
  /-- Last Pdelay exchange of each port; of the request in progress its sequence number, its number with its egress stamp once it
  has left, and of a two-step response the number, ingress and receipt stamps and correction, ns; and the correctionField of the
  request last answered (R55, R58). -/
  pdelayAt : Vector Nat 8 := Vector.replicate 8 0
  pdSeq : Vector Nat 8 := Vector.replicate 8 0
  pdSent : Vector (Option (Nat × Nat)) 8 := Vector.replicate 8 none
  pdResp : Vector (Option (Nat × Nat × Nat × Int)) 8 := Vector.replicate 8 none
  pdCorr : Vector Nat 8 := Vector.replicate 8 0
  /-- Last reference edge or frame, and the count of consecutive ones within 1 µs. -/
  refAt : Nat := 0
  refGood : Nat := 0
  /-- A step toward the reference input was refused, and its offset persists (R48, R63). -/
  refAsked : Bool := false
  /-- The held UTC offset comes from IRIG-B control bits (R43). -/
  irigUtc : Bool := false
  /-- Tick at which each wall compare unit is to fire late, when a write asks for it (R70). -/
  lateReq : Vector Bool 16 := Vector.replicate 16 false
  /-- A one-shot unit that has served its target (R70). -/
  served : Vector Bool 16 := Vector.replicate 16 false
  /-- The supervisor interrupt of each unit with dest 5: the target that its last firing served (R68). -/
  irq : Vector (Option Nat) 16 := Vector.replicate 16 none
  deriving DecidableEq, Repr, Inhabited

/-- The backup domain (R64 to R66), and the MRAM mirror of OT32 and PC32. -/
structure Backup where
  valid : Bool := false
  sec : W48 := 0
  sub : BitVec 15 := 0
  pc : W32 := 0
  /-- OT32 as the power-fail sequence left it (R38). -/
  ot : Option W32 := none
  mirrorOt : W32 := 0
  mirrorPc : W32 := 0
  wroteAt : Nat := 0
  mirrorAt : Nat := 0
  anchorAt : Nat := 0
  deriving DecidableEq, Repr, Inhabited

/-- States of an angle clock (R80). -/
inductive ClkState where
  | off | freeRun | acquiring | lockedV | lockedI | frozen | holdover
  deriving DecidableEq, Repr, Inhabited

/-- A window of resampled samples of the eight channels, newest first: the sample word (R9) and its angle index, its
angle over 256 au modulo 256. -/
abbrev Window := Vector (List (W32 × Nat)) 8

/-- The passage of a multiple of 256 au (R78): the multiple, its place on the axis of the CIC periods in 10^-9 period, its wall
instant in 1/16 ns, and tq, tsc and aq there. -/
structure AngInst where
  m : Nat
  pos : Nat
  w16 : Nat
  tq : Nat
  tsc : Nat
  st : ClkState
  /-- By how many multiples of 256 au a coarse alignment has since turned the clock's own windows (R96). -/
  turn : Nat := 0
  deriving DecidableEq, Repr, Inhabited

/-- The resampled samples of the eight channels of a bay at one instant (R167). -/
structure ResSample where
  inst : AngInst
  words : Vector W32 8
  deriving DecidableEq, Repr, Inhabited

/-- An angle clock (R75 to R106). -/
structure Clock where
  /-- The 80-bit accumulator: cycle count, angle in au, and a 32-bit sub-au fraction (R75). -/
  acc : Nat := 0
  /-- The frequency word, u8.32 au per CIC period, and the phase correction added with it (R76). -/
  word : Nat := 0
  corr : Int := 0
  /-- The increment in force in the CIC period in progress (R77, R100). -/
  inc : Nat := 0
  /-- The integral part of the loop, a frequency word (R88). -/
  want : Int := 0
  /-- The wall instants, in 1/16 ns, at which the last CIC periods began, with the accumulator there, latest first (R83). -/
  trace : List (Nat × Nat) := []
  /-- The multiples of 256 au that the angle has reached and that still wait for the resampler's span (R78), oldest first, and
  the resampled samples whose tick has not been evaluated. -/
  insts : List AngInst := []
  got : List ResSample := []
  /-- The next Sluice tick to become ready (R102, R177). -/
  evalNo : Nat := 0
  st : ClkState := .off
  refUsed : Nat := 0
  phaseErr : Int := 0
  refMag : Nat := 0
  freezes : W32 := 0
  holdovers : W32 := 0
  stAt : Nat := 0
  freezeMaxHit : Bool := false
  refSwitched : Bool := false
  coarseAligned : Bool := false
  freqLimit : Bool := false
  /-- A coarse alignment was made since the last reset (R96). -/
  coarseDone : Bool := false
  /-- The clock's own sample window, and the samples taken since it left Off (R86, R187). -/
  win : Window := Vector.replicate 8 []
  taken : Nat := 0
  /-- Frequency words at the ticks since the clock last left Free-run, newest first (R92). -/
  words : List Nat := []
  /-- Ticks since the clock entered its present state. -/
  ticksIn : Nat := 0
  /-- Consecutive ticks within the lock window, counted from a cycle boundary (R90). -/
  lockTicks : Nat := 0
  lockArmed : Bool := false
  /-- Consecutive ticks at which the voltage reference was valid. -/
  vTicks : Nat := 0
  /-- Whole-cycle count of ticks with triggers 1 and 2 clear, from a cycle boundary (R93). -/
  clearTicks : Nat := 0
  clearArmed : Bool := false
  trig2 : Bool := false
  /-- The fast detector has been picked up since the last tick (R91, R93). -/
  trig1 : Bool := false
  vValid : Bool := false
  iValid : Bool := false
  /-- The angle difference between the current and the voltage reference at the last tick with both valid since the
  clock left Free-run, Frozen or Holdover (R87). -/
  bothDiff : Option Int := none
  /-- What is left of a bridge (R87). -/
  bridge : Int := 0
  /-- The timebase tick at which the tracker last worked. -/
  tickAt : Nat := 0
  /-- The angle count of the last Sluice tick, in multiples of 2,048 au. -/
  tickNo : Nat := 0
  /-- A unit that fires late, with the CIC period from which on it does (R103, R104). -/
  lateReq : Vector (Option Nat) 8 := Vector.replicate 8 none
  served : Vector Bool 8 := Vector.replicate 8 false
  /-- Armed by a write, a unit with next set waits for the next passage of its target angle (R100): the A48 value from
  which it waits. -/
  nextFrom : Vector (Option Nat) 8 := Vector.replicate 8 none
  /-- The supervisor interrupt of a unit: the target that was served, and aq at the firing (R101). -/
  irq : Vector (Option (Nat × Nat)) 8 := Vector.replicate 8 none
  /-- Writes of a unit in the CIC period in which it fires, which take effect after the firing: context, offset and value
  (R103). -/
  defer : Vector (List (Nat × Nat × Nat)) 8 := Vector.replicate 8 []
  deriving DecidableEq, Repr, Inhabited

/-- The phases of a Float slice hand-over, with the CIC samples at which they begin (R125). -/
inductive Handover where
  | idle
  | connect (kc : Nat)
  | compare (k0 : Nat)
  | verify (k1 : Nat)
  | decided (kt : Nat)
  | calibrate (at_ slice : Nat)
  deriving DecidableEq, Repr, Inhabited

/-- The converters of one bay beside their registers (R114 to R133, R154 to R157). Indices are within the bay. -/
structure AnaBay where
  hand : Handover := .idle
  /-- When SELF_CAL last ended and the next hand-over is due, and the wall second in which a deferred one waits for the next
  (R125, R130). -/
  calEnd : Nat := 0
  dueAt : Nat := 0
  deferred : Option Nat := none
  /-- Rotation stopped by a failed slice (R124). -/
  stopped : Bool := false
  /-- When each slice was last calibrated. -/
  calAt : Vector Nat 9 := Vector.replicate 9 0
  /-- Consecutive hand-overs of each channel abandoned with MISMATCH, and the channels left questionable (R132). -/
  misses : Vector Nat 8 := Vector.replicate 8 0
  mismatch : Vector Bool 8 := Vector.replicate 8 false
  /-- Channels on a failed slice with no replacement (R124). -/
  dead : Vector Bool 8 := Vector.replicate 8 false
  /-- When each channel's range was last changed, and when each slice last reset its loop (R116, R137). -/
  rangeAt : Vector (Option Nat) 8 := Vector.replicate 8 none
  loopAt : Vector (Option Nat) 9 := Vector.replicate 9 none
  /-- The range bits and the reference source in force, which follow the registers at the next CIC boundary (R117, R138). -/
  rangeNow : Vector Bool 8 := Vector.replicate 8 true
  srcNow : Nat := 0
  /-- The reference source changed and SELF_CAL has not completed since (R118). -/
  refStale : Bool := false
  /-- When the integrator of each channel last restarted (R156). -/
  intAt : Vector Nat 8 := Vector.replicate 8 0
  /-- The next Pool word of a channel carries FLT, and the first resampled sample at or after a place on the axis of the CIC
  periods, the stamp of the take-over sample (R129, R170). -/
  fltPool : Vector Bool 8 := Vector.replicate 8 false
  fltRes : Vector (Option Nat) 8 := Vector.replicate 8 none
  /-- When a DEC_ change last took effect: samples spanning it are invalid (R171). -/
  decAt : Option Nat := none
  deriving DecidableEq, Repr, Inhabited

/-- A slot of a sequence, or a single conversion (R141, R143): input, N, shift and reference. -/
structure AuxSlot where
  input : Nat
  n : Nat
  shift : Nat
  ref : Nat
  deriving DecidableEq, Repr, Inhabited

/-- What asked for a conversion (R145). -/
inductive AuxSource where
  | urgent
  | housekeeping (j : Nat)
  | single
  | seq (s j : Nat)
  deriving DecidableEq, Repr, Inhabited

/-- A conversion that runs, is held for its reference, or waits to be restarted (R142, R147). -/
structure AuxConv where
  src : AuxSource
  slot : AuxSlot
  startAt : Nat
  restarted : Bool := false
  deriving DecidableEq, Repr, Inhabited

/-- A result record of the auxiliary converter (R148). -/
structure AuxRec where
  value : W32 := 0
  stamp : W64 := 0
  tq : Byte := 0
  flags : Byte := 0
  input : Byte := 0
  count : Byte := 0
  /-- The step count that goes with the stamp (R45). -/
  tsc : Byte := 0
  deriving DecidableEq, Repr, Inhabited

/-- The auxiliary converter (R139 to R148). -/
structure AuxSt where
  running : Option AuxConv := none
  /-- The running conversion is held until the reference has settled; the tick at which it has. -/
  heldTo : Option Nat := none
  /-- When the reference in use has settled, while it has not (R142). -/
  refAt : Nat := 0
  aborted : List AuxConv := []
  urgent : List Nat := []
  hkDue : Bool := false
  singles : List AuxSlot := []
  /-- The next slot of the sequence in progress (16: housekeeping). -/
  cont : Option (Nat × Nat) := none
  singleRec : AuxRec := {}
  seqs : List Nat := []
  recs : List (Nat × AuxRec) := []
  hk : Vector AuxRec 12 := Vector.replicate 12 {}
  /-- The last whole second for which housekeeping was made due. -/
  hkSec : Nat := 0
  deriving DecidableEq, Repr, Inhabited

/-- The analog part: the bays, SELF_CAL, the pending DEC_ change, and the auxiliary converter. -/
structure AnaSt where
  bays : Vector AnaBay 4 := Vector.replicate 4 {}
  /-- Start of a running SELF_CAL, and the command that asked for it. -/
  calRun : Option Nat := some 10000000
  calCmd : Option CmdHdr := none
  /-- The pending DEC_ change: the register fields with their new values and the instant of acceptance (R171). -/
  decPend : Option (List (Nat × Nat) × Nat) := none
  /-- DEC_ changes that have taken effect since reset. -/
  decGen : Nat := 0
  aux : AuxSt := {}
  deriving DecidableEq, Repr, Inhabited

/-- The registers of a CIC filter that are `w` bits wide: five integrators and five combs, of which the order in force uses
the first K (R150). -/
structure Cic (w : Nat) where
  integ : Vector (BitVec w) 5 := Vector.replicate 5 0
  comb : Vector (BitVec w) 5 := Vector.replicate 5 0
  deriving DecidableEq, Repr, Inhabited

/-- The filters of a slice, and the last modulator edge with its comparator active (R134, R150). -/
structure SliceSig where
  pool : Cic 32 := {}
  jet : Cic 18 := {}
  overAt : Option Nat := none
  deriving DecidableEq, Repr, Inhabited

/-- A CIC word behind the integrator (R154, R166): its value in 1/64 LSB, OVR, whether it is at full scale, and its quality. -/
structure CicWord where
  v : Int := 0
  ovr : Bool := false
  full : Bool := false
  qual : Nat := 2
  deriving DecidableEq, Repr, Inhabited

/-- The CIC words of the eight channels of a bay in one CIC period. -/
structure CicRow where
  per : Nat
  ch : Vector CicWord 8
  deriving DecidableEq, Repr, Inhabited

/-- The Pool path of a channel behind calibration (R154 to R161): the last word into the integrator in 1/64 LSB, the state of
the integrator in 2^-16 LSB, and of the averager window in progress the sum in 1/64 LSB, OVR, whether a word was at full
scale, and the worst quality. -/
structure PoolSig where
  x : Int := 0
  y : Int := 0
  /-- The last word was invalid (R156). -/
  bad : Bool := false
  acc : Int := 0
  ovr : Bool := false
  full : Bool := false
  qual : Nat := 0
  /-- The word that the last sample gave. -/
  out : CicWord := {}
  deriving DecidableEq, Repr, Inhabited

/-- The Pool words of one averager window, channel c of bay b in place 8b + c: the window's number, its averager length, the CIC
period of its last sample, the number of DEC_ changes that had taken effect, whether the capture engine makes a frame of it, and
the wall time of its newest edge in 1/16 ns with tq and tsc there (R160, R164, R165, R271, R272). -/
structure PoolRow where
  no : Nat
  navg : Nat
  per : Nat
  gen : Nat
  cap : Bool
  edge : Nat
  tq : Nat
  tsc : Nat
  words : Vector W32 32
  deriving DecidableEq, Repr, Inhabited

/-- A Jet frame (R294), with the wall time of its newest edge in 1/16 ns, tq and tsc there (R165), and the states and angles of the
four clocks. -/
structure JetFrame where
  edge : Nat
  tq : Nat
  tsc : Nat
  aq : Vector Nat 4
  ang : Vector Nat 4
  words : Vector W16 32
  deriving DecidableEq, Repr, Inhabited

/-- The words of three channels of a Jet frame (R297). -/
abbrev JetTriple := Vector W16 3

/-- An anchor of the Jet ring (R295). -/
structure JetAnchor where
  n : Nat
  edge : Nat
  tq : Nat
  tsc : Nat
  jetK : List Nat
  damaged : Bool := false
  /-- It marks the first frame after a DEC_ change. -/
  dec : Bool := false
  deriving DecidableEq, Repr, Inhabited

/-- The Pool word that completed a run of the fast detector (R190): the word, the wall time of its newest edge in 1/16 ns, and
tq, tsc and aq there. -/
structure FastWord where
  w : W32 := 2
  edge : Nat := 0
  tq : Nat := 0
  tsc : Nat := 0
  aq : Nat := 0
  deriving DecidableEq, Repr, Inhabited

/-- How many consecutive Pool words the functions of the fast detector of a bay have had on either side, and the words that
completed those runs (R188 to R190). -/
structure FastRun where
  up : Vector Nat 4 := Vector.replicate 4 0
  down : Vector Nat 4 := Vector.replicate 4 0
  distUp : Nat := 0
  distDown : Nat := 0
  upBy : Vector FastWord 4 := Vector.replicate 4 {}
  downBy : Vector FastWord 4 := Vector.replicate 4 {}
  distUpBy : FastWord := {}
  distDownBy : FastWord := {}
  deriving DecidableEq, Repr, Inhabited

/-- A condition that a trigger unit has completed (R281): its instant and measured time in ns, with tq and tsc at the instant. -/
structure TrigDone where
  t : Nat
  m : Nat
  tq : Nat
  tsc : Nat
  deriving DecidableEq, Repr, Inhabited

/-- What a trigger unit has measured of its source (R280 to R282), under the settings `cfg`. -/
structure TrigTrack where
  cfg : List Nat := []
  /-- A valid word or scan has been seen; it was high, it was low. -/
  seen : Bool := false
  high : Bool := false
  low : Bool := false
  /-- The first high word of the excursion, and whether its timeout has been reached. -/
  since : Option Nat := none
  told : Bool := false
  /-- The first word no longer low, with none high since. -/
  left : Option Nat := none
  /-- The last low word, with none high since. -/
  lastLow : Option Nat := none
  /-- Pattern: whether the frame before matched, and the first frame of the match in progress. -/
  hit : Bool := false
  /-- Conditions that were completed and have not fired yet. -/
  done : List TrigDone := []
  deriving DecidableEq, Repr, Inhabited

/-- The wavefront detector of a bay: the Jet count of the last pickup, and the pickups still to be served with their frames (R298). -/
structure TwTrack where
  lastPick : Option Nat := none
  picks : List Nat := []
  deriving DecidableEq, Repr, Inhabited

/-- The words of a window of a hand-over, latest first, in 1/64 LSB, and whether one carried OVR or FS (R125, R130). -/
structure HandWin where
  at_ : Nat := 0
  pairs : List (Int × Int) := []
  spoiled : Bool := false
  deriving DecidableEq, Repr, Inhabited

/-- The signal paths of the bay inputs (R114, R150 to R165, R294, R295). -/
structure SigSt where
  /-- Modulator edges since the first power-on. -/
  edges : Nat := 0
  /-- CIC periods since the first power-on (R75, R152). -/
  periods : Nat := 0
  /-- The CIC words of each bay, latest first, as far back as the resampler looks (R166). -/
  hist : Vector (List CicRow) 4 := Vector.replicate 4 []
  /-- The paths of the bays' own converters, substituted or not, the tick of each integrator's last restart, and their CIC words,
  latest first (R208, R537). -/
  own : Vector PoolSig 32 := Vector.replicate 32 {}
  ownAt : Vector (Option Nat) 32 := Vector.replicate 32 none
  pubHist : Vector (List CicRow) 4 := Vector.replicate 4 []
  slices : Vector SliceSig 36 := Vector.replicate 36 {}
  chans : Vector PoolSig 32 := Vector.replicate 32 {}
  /-- Pool words, latest first. -/
  rows : List PoolRow := []
  /-- The Jet count and the Jet ring, latest frame first; its anchors, and the frames in it that are damaged. -/
  jetCount : Nat := 0
  ring : List JetFrame := []
  anchors : List JetAnchor := []
  damaged : List Nat := []
  fast : Vector FastRun 4 := Vector.replicate 4 {}
  trig : Vector TrigTrack 32 := Vector.replicate 32 {}
  tw : Vector TwTrack 4 := Vector.replicate 4 {}
  hand : Vector HandWin 4 := Vector.replicate 4 {}
  deriving DecidableEq, Repr, Inhabited

/-- A phasor: real and imaginary part in 2^-16 Pool LSB RMS (R184), with the magnitude in u24.8 and the angle in au
that R181 delivers. -/
structure Phasor where
  re : Int := 0
  im : Int := 0
  mag : Nat := 0
  ang : Nat := 0
  deriving DecidableEq, Repr, Inhabited

/-- Quality and flags of a quantity (R186). -/
structure QFlags where
  qual : Nat := 0
  hold : Bool := false
  sub : Bool := false
  ovr : Bool := false
  deriving DecidableEq, Repr, Inhabited

/-- A remote current of 87L at an instant t_a (R239): its value in stream LSB, its quality by R209, that quality with smpSynch 1
taken as questionable (R241), and its angle over 256 au modulo 256. -/
structure FarSample where
  v : Int
  qual : Nat
  lax : Nat
  idx : Nat
  deriving DecidableEq, Repr, Inhabited

/-- The remote currents IA, IB and IC at the instants of a tick, once they are complete (R241). -/
structure FarTick where
  no : Nat
  samples : Vector (List FarSample) 3
  deriving DecidableEq, Repr, Inhabited

/-- A ready tick of a bay (R177, R178): its stamp, the clock's data at it, and the eight samples of each channel. -/
structure ReadyTick where
  no : Nat
  /-- The timebase tick at which it became ready. -/
  at_ : Nat
  w64 : Nat
  a48 : Nat
  tq : Nat
  tsc : Nat
  aq : Nat
  refUsed : Nat
  word : Nat
  samples : Vector (List (W32 × Nat)) 8
  /-- Remote samples that had become complete when it became ready, oldest first. -/
  remote : List FarTick
  deriving DecidableEq, Repr, Inhabited

/-- The currents of one tick kept for 87L: the local ones with their flags and, once its remote samples are complete, the windows
of the remote ones (R183, R241). -/
structure TickPhasors where
  no : Nat
  near : Vector Phasor 3
  flags : Vector QFlags 3
  far : Option (Vector (List FarSample) 3) := none
  deriving DecidableEq, Repr, Inhabited

/-- What an engine holds of a bay (R176 to R187). -/
structure EngBay where
  ready : List ReadyTick := []
  win : Window := Vector.replicate 8 []
  rwin : Vector (List FarSample) 3 := Vector.replicate 3 []
  taken : Nat := 0
  /-- Stamp, and angle and flags of the voltage and of the current reference at the last 33 ticks, newest first (R185). -/
  refs : List (Nat × (Nat × QFlags) × (Nat × QFlags)) := []
  /-- Stamp, frequency and its flags at the last ticks, newest first. -/
  freqs : List (Nat × Int × QFlags) := []
  past : List TickPhasors := []
  deriving DecidableEq, Repr, Inhabited

/-- The state of one phase of an element (R196, R221, R230, R236). -/
structure PhaseSt where
  start : Bool := false
  op : Bool := false
  puCnt : Nat := 0
  doCnt : Nat := 0
  prog : Nat := 0
  /-- Definite time run, ns: prog of curve 0x00 before its scaling by t_def (R197). -/
  run : Nat := 0
  resid : Nat := 0
  /-- Set by a start with a residual: the first advance returns it (R221). -/
  residDue : Bool := false
  theta : Nat := 0
  /-- What θ carries below its 30 fraction bits from tick to tick, in 2^-62 (R236, R245). -/
  thetaLow : Nat := 0
  /-- Memorised polarising angle and its stamp, while the clock has stayed 3, 4 or 5 (R230). -/
  mem : Option (Nat × Nat) := none
  deriving DecidableEq, Repr, Inhabited

/-- The state of one element slot. -/
structure ElemSt where
  ph : Vector PhaseSt 3 := Vector.replicate 3 {}
  lastStamp : Option Nat := none
  lastNo : Nat := 0
  blocked : Bool := false
  /-- Whether θ has been set from theta0 (R238). -/
  warm : Bool := false
  /-- The operating quantity had quality 0b011 in some phase at the last tick (R605). -/
  testQ : Bool := false
  /-- init was read asserted at the last evaluated tick (R244). -/
  initSeen : Bool := false
  deriving DecidableEq, Repr, Inhabited

/-- A Sluice engine (R175, R206): a reload runs from `reloadAt`. -/
structure Engine where
  bays : Vector EngBay 4 := Vector.replicate 4 {}
  reloadAt : Option Nat := none
  deriving DecidableEq, Repr, Inhabited

/-- The fast detector of a bay (R188, R189). -/
structure FastDet where
  inst : Vector Bool 4 := Vector.replicate 4 false
  dist : Bool := false
  /-- Stamp of the last pickup of the disturbance function, W64 (R190, R300). -/
  distAt : Option Nat := none
  /-- The Pool word that set an instantaneous operate carried quality 0b011 (R605). -/
  testQ : Vector Bool 4 := Vector.replicate 4 false
  deriving DecidableEq, Repr, Inhabited

/-- Substitution of a bay by a subscribed stream (R208 to R210). -/
structure SubBay where
  /-- A switch of substitution that waits for the bay's next tick, whether the stream was lost, and the number of the tick in
  progress when it was asked for. -/
  pending : Option (Bool × Bool × Nat) := none
  /-- The first multiple of 256 au after a change: its cycle of resampled samples carries quality 0b010. -/
  badFrom : Option Nat := none
  lastAt : Nat := 0
  /-- The CIC period whose sample of the bay is to be taken next. -/
  next : Nat := 0
  /-- The instants of the ticks whose remote samples of 87L are not complete yet, oldest first: the tick and its eight
  instants (R241). -/
  far : List (Nat × List AngInst) := []
  deriving DecidableEq, Repr, Inhabited

/-- What a Sluice event record says of its instant (R212). -/
structure EvStamp where
  w64 : Nat := 0
  tq : Nat := 0
  tsc : Nat := 0
  a48 : Nat := 0
  aq : Nat := 0
  deriving DecidableEq, Repr, Inhabited

/-- The combined output of a pair by phase (R204), and for how many ticks its copies differ, with the stamp of the last tick that
both have completed (R207, R212). -/
structure PairSt where
  stamp : EvStamp := {}
  start : Vector Bool 3 := Vector.replicate 3 false
  op : Vector Bool 3 := Vector.replicate 3 false
  ticks : Nat := 0
  told : Bool := false
  deriving DecidableEq, Repr, Inhabited

/-- The Sluice side: descriptors by group × 1,024 + slot in rising order (a slot not listed is empty, all zero), the
master copy in MRAM and the copy that the engines evaluate; element states by slot, user curves, engines and detectors. -/
structure SluSt where
  descs : List (Nat × List Byte) := []
  live : List (Nat × List Byte) := []
  elems : List (Nat × ElemSt) := []
  curves : Vector (Option (List Byte)) 8 := Vector.replicate 8 none
  /-- The user tables as each bay's instances use them: an accepted one from the bay's next tick (R223). -/
  liveCurves : Vector (Vector (Option (List Byte)) 8) 4 := Vector.replicate 4 (Vector.replicate 8 none)
  /-- Slots whose descriptor was found bad: at the next tick their instances keep their outputs (R32). -/
  heldSlots : List Nat := []
  eng : Vector Engine 2 := Vector.replicate 2 {}
  fast : Vector FastDet 4 := Vector.replicate 4 {}
  sub : Vector SubBay 4 := Vector.replicate 4 {}
  pairs : List (Nat × PairSt) := []
  /-- Group requests accepted before the next tick of a bay, in order of acceptance (R202). -/
  groupReq : Vector (List Nat) 4 := Vector.replicate 4 []
  /-- The number of the last tick of each bay at which requests were applied. -/
  appliedNo : Vector Nat 4 := Vector.replicate 4 0
  /-- Asserted trip-matrix inputs, rising (R211, R246). -/
  inputs : List Nat := []
  seq : W32 := 0
  deriving DecidableEq, Repr, Inhabited

/-- A trip channel beside its registers (R251 to R259): times are ticks. -/
structure TripCh where
  /-- The row as the channel takes it: gated by the permits of R606 and R609. -/
  row : Bool := false
  onAt : Nat := 0
  /-- The row has been deasserted since. -/
  offAt : Nat := 0
  /-- The current has been below 0.1 A since. -/
  lowAt : Option Nat := some 0
  /-- The current has been above 4.4 A since. -/
  hotAt : Option Nat := none
  overload : Bool := false
  /-- Heartbeats of the logic side arrive (R255). -/
  logicUp : Bool := true
  measAt : Option Nat := none
  /-- No current at 2 ms after conduction began; tested once in each conduction (R258). -/
  noCurrent : Bool := false
  tested : Bool := false
  /-- TSP was below 16 V at the last measurement: the island cannot switch current (R23). -/
  tspLost : Bool := false
  /-- The row of R258 that governs, and since when. -/
  cond : Nat := 0
  condAt : Nat := 0
  deriving DecidableEq, Repr, Inhabited

/-- Where an operation of a breaker controller stands (R261 to R264). -/
inductive BrkPhase where
  /-- Immediate: executes at the next matrix scan. -/
  | due
  /-- Point-on-wave: waits for its compare unit. -/
  | sched (unit : Nat)
  /-- Its unit has fired at a tick; `lost` is the aq when the firing was late or the lock lost. -/
  | fired (at_ : Nat) (lost : Option Nat)
  /-- Executed at a tick. -/
  | done (at_ : Nat)
  deriving DecidableEq, Repr, Inhabited

/-- An operation of a breaker controller (R260 to R268): `cmd` is the host command it serves. -/
structure BrkOp where
  cmd : Option CmdHdr
  open_ : Bool
  pow : Bool
  target : Nat
  phase : BrkPhase
  /-- The wait after the firing, ns, a multiple of 4. -/
  fine : Nat := 0
  powLost : Bool := false
  /-- W64, tq and A48 of the execution instant. -/
  exec : Nat × Nat × Nat := (0, 0, 0)
  /-- The output is asserted. -/
  out : Bool := false
  shownAt : Option Nat := none
  failed : Bool := false
  /-- The onset search: not ended, ended without an onset, or the onset's W64. -/
  onset : Option (Option Nat) := none
  /-- The instant, W64, at which aq first left 3 or 4 since acceptance (R265). -/
  lostAt : Option Nat := none
  deriving DecidableEq, Repr, Inhabited

/-- Trip matrix, trip channels and breaker controllers (R246 to R270, R604 to R608). -/
structure TripSt where
  /-- The rows asserted at the last scan, and those test-linked, bit r for row r. -/
  rows : Nat := 0
  linked : Nat := 0
  scanAt : Nat := 0
  /-- The protection states in force, two bits a bay (R607). -/
  prot : Nat := 0x55
  /-- Inputs held deasserted after a return to In service, rising (R607). -/
  held : List Nat := []
  ch : Vector TripCh 8 := Vector.replicate 8 {}
  ops : Vector (Option BrkOp) 4 := Vector.replicate 4 none
  /-- W64 of the last eight executions of each controller, newest first (R300). -/
  execs : Vector (List Nat) 4 := Vector.replicate 4 []
  seq : W32 := 0
  deriving DecidableEq, Repr, Inhabited

/-- A frame that the module sends on a network, a bus or the mailbox: 1 group message, 2 arrival message, 3 GOOSE,
4 sampled values, 5 supervision, 6 forwarded ring frame, 7 CAN, 8 Cistern read request, 9 peer delay, 10 Lorras link. A network frame begins at its
destination address and leaves out its check sequence; a CAN frame is its identifier word, a format byte and its payload. -/
structure OutFrame where
  kind : Nat
  port : Nat
  data : List Byte
  deriving DecidableEq, Repr, Inhabited

/-- A mark record of the capture stream (R278), without its late and deferred flags, which belong to a subscription. -/
structure Mark where
  kind : Nat
  src : Nat := 0
  tq : Nat
  frame : Nat
  instant : Nat
  node : Nat
  group : Nat := 0
  param : Nat := 0
  aq : Nat := 0
  tsc : Nat
  late : Bool := false
  deferred : Bool := false
  deriving DecidableEq, Repr, Inhabited

/-- A base or reduced frame: its number, its instant in 1/16 ns with tq and tsc there, the averager length, and its 104 words
(R271, R286). -/
structure CapFrame where
  no : Nat
  t : Nat
  tq : Nat
  tsc : Nat
  navg : Nat
  bay : List W32
  cis : List W32
  dig : List W32
  deriving DecidableEq, Repr, Inhabited

/-- A subscription of the stream (R277, R285, R286): the block in progress, the reduced frame in progress, and the
marks it has not carried yet. -/
structure CapSub where
  on : Bool := false
  /-- The context and stream ring, and whether the subscription was disabled with a block in progress, which is still to be written. -/
  ctx : Nat := 0
  ring : Nat := 0
  closing : Bool := false
  first : Bool := true
  frames : List CapFrame := []
  group : List CapFrame := []
  marks : List Mark := []
  /-- The first and the latest base frame of the block in progress, and tsc and number of the last frame of an earlier block. -/
  frame0 : Nat := 0
  last : Nat := 0
  written : Option (Nat × Nat) := none
  seq : W32 := 0
  next : Option Nat := none
  since : Nat := 0
  lowSince : Option Nat := none
  /-- Base frames dropped since the previous block, and the mark of the first of them. -/
  dropped : Nat := 0
  gapAt : Option Mark := none
  deriving DecidableEq, Repr, Inhabited

/-- A trigger unit beside its registers: the openings of its capture window, latest first, with the aq of each, and its last
firing. -/
structure TrigSt where
  opens : List (Nat × Nat) := []
  firedAt : Option Nat := none
  deriving DecidableEq, Repr, Inhabited

/-- A capture-group slot beside its registers (R287 to R291): the last state change, the message count, the last
fire sent, and the last seq accepted from each node. -/
structure GrpSt where
  stateAt : Option Nat := none
  seq : W32 := 0
  firedAt : Option Nat := none
  heard : List (Nat × W32) := []
  deriving DecidableEq, Repr, Inhabited

/-- A message to be repeated at 1 ms and 3 ms after it was first sent (R289, R305). -/
structure Repeat where
  kind : Nat
  port : Nat
  data : List Byte
  at_ : Nat
  done : Nat := 1
  deriving DecidableEq, Repr, Inhabited

/-- A sample of the Cistern mirror as the capture engine holds it, with its stamp, and tq and tsc of the newest stamped snapshot
(R275, R333). -/
structure MirrorSample where
  t : Nat
  tq : Nat := 5
  tsc : Nat := 0
  words : List W32
  deriving DecidableEq, Repr, Inhabited

/-- A matrix scan: its instant in ns, its tick, and the inputs it read asserted (R249, R274). -/
structure ScanSet where
  at_ : Nat
  tick : Nat
  set : List Nat
  deriving DecidableEq, Repr, Inhabited

/-- The capture engine (R271 to R293). -/
structure CapSt where
  /-- The CIC period of the last window released as a frame, and tsc and the count of DEC_ changes at it (R277). -/
  last : Option Nat := none
  tsc : Nat := 0
  gen : Nat := 0
  subs : Vector CapSub 8 := Vector.replicate 8 {}
  trig : Vector TrigSt 32 := Vector.replicate 32 {}
  grp : Vector GrpSt 4 := Vector.replicate 4 {}
  repeats : List Repeat := []
  /-- The scans of the last 60 ms, newest first (R274). -/
  scans : List ScanSet := []
  mirror : List MirrorSample := []
  /-- The tick of the last mirror samples. -/
  mirrorAt : Option Nat := none
  deriving DecidableEq, Repr, Inhabited

/-- A detection of a wavefront detector (R298 to R300): its pickup frame, arrival, stamps and decision. -/
structure TwDet where
  /-- The wall instant of the newest edge of the pickup frame, ns. -/
  edge : Nat
  arrival : Nat
  arrivalA : Nat
  tq : Nat
  tsc : Nat
  aq : Nat
  peak : Int
  /-- 0 m_alpha, 1 m_beta. -/
  used : Nat
  /-- The source: 0 currents, 1 voltages. -/
  src : Nat
  ovr : Bool
  dj : List Nat
  ofs : Int
  recSeq : Nat
  deriving DecidableEq, Repr, Inhabited

/-- A record still to be cut (R301): about a detection, or by hand about an instant for a command. -/
structure TwCut where
  bay : Nat
  seq : Nat
  /-- The Jet count of frame n_p; for a record cut by hand, none, and the instant that the command names. -/
  np : Option Nat
  edge : Nat
  det : Option TwDet
  qualified : Bool := false
  own : Bool := false
  cmd : Option CmdHdr := none
  deriving DecidableEq, Repr, Inhabited

/-- A travelling-wave record (R303), and whether host software has read it. -/
structure TwRec where
  seq : Nat
  read : Bool := false
  data : List Byte
  deriving DecidableEq, Repr, Inhabited

/-- A remote arrival kept for 200 ms (R306). -/
structure Remote where
  t : Nat
  tq : Nat
  at_ : Nat
  deriving DecidableEq, Repr, Inhabited

/-- A local qualified arrival that waits for its remote one (R307). -/
structure LocalArr where
  t : Nat
  tq : Nat
  recSeq : Nat
  deriving DecidableEq, Repr, Inhabited

/-- The travelling-wave part of a bay. -/
structure TwBay where
  dets : List TwDet := []
  sent : W32 := 0
  heard : List (Nat × W32) := []
  remotes : List Remote := []
  locals : List LocalArr := []
  deriving DecidableEq, Repr, Inhabited

/-- Travelling-wave fault location (R294 to R310). -/
structure TwSt where
  bays : Vector TwBay 4 := Vector.replicate 4 {}
  cuts : List TwCut := []
  /-- The record store, oldest first. -/
  recs : List TwRec := []
  seq : W32 := 0
  locSeq : W32 := 0
  deriving DecidableEq, Repr, Inhabited

/-- The legally relevant settings of the Cistern (R319 to R322, R327, R329). -/
structure CisSettings where
  ct : Nat := 100
  vt : Nat := 100
  kAct : Nat := 1000
  kReact : Nat := 1000
  weekday : List (Nat × Nat) := []
  weekend : List (Nat × Nat) := []
  /-- Bits for Monday to Sunday; a set bit is a weekend day. -/
  mask : Nat := 0x60
  demInt : Nat := 15
  profInt : Vector Nat 2 := #v[15, 1]
  /-- Local-time offset in minutes, and the daylight-saving rule: 0 is none. -/
  offset : Int := 0
  dst : W32 := 0
  code : Nat := 0
  deriving DecidableEq, Repr, Inhabited

/-- The calibration of a channel: gain, phase and offset (R327). -/
structure CisCal where
  gain : W32 := 0
  phase : W32 := 0
  offset : W32 := 0
  deriving DecidableEq, Repr, Inhabited

/-- One sample instant of the Cistern: its channels, and the voltages of the three phases shifted by 90° (R315). -/
structure CisSample where
  ch : Vector RawSample 8
  quad : Vector Int 3
  deriving DecidableEq, Repr, Inhabited

/-- An event-log record (R325). -/
structure CisRec where
  code : Nat
  state : Nat
  ctime : Nat
  audit : W32
  param : W32
  deriving DecidableEq, Repr, Inhabited

/-- An entry of a load profile (R321). -/
structure ProfEntry where
  tEnd : Nat
  status : Nat
  index : Nat
  val : List Nat
  deriving DecidableEq, Repr, Inhabited

/-- A load profile: its entries, newest first, the number written, and the interval in progress: its status bits, the
clock at its start in ms, the registers at its start in Wh, and the sums of RMS values with their count. -/
structure ProfSt where
  entries : List ProfEntry := []
  count : Nat := 0
  flags : Nat := 0
  from_ : Nat := 946684800000
  base : List Nat := [0, 0, 0, 0]
  sums : List Nat := [0, 0, 0, 0, 0, 0]
  n : Nat := 0
  deriving DecidableEq, Repr, Inhabited

/-- Energy registers in 2^-32 mWh (R317), demand (R320) and load profiles (R321): what CISTERN_STORE keeps. -/
structure CisData where
  energy : Vector Nat 24 := Vector.replicate 24 0
  /-- Import and export of the demand interval in progress, its start on the clock, its length so far in ms, and
  whether it is shortened. -/
  demAcc : Nat × Nat := (0, 0)
  demFrom : Nat := 946684800000
  demMs : Nat := 0
  demPart : Bool := true
  /-- The largest demand of each direction, W, with the end of its interval in seconds since 2000. -/
  maxI : Nat × Nat := (0, 0)
  maxE : Nat × Nat := (0, 0)
  resets : W32 := 0
  prof : Vector ProfSt 2 := Vector.replicate 2 {}
  deriving DecidableEq, Repr, Inhabited

/-- A read request in the decoder's queue (R334). -/
structure CisReq where
  req : Nat
  tag : Nat
  first : Nat
  count : Nat
  deriving DecidableEq, Repr, Inhabited

/-- The Cistern partition (R19, R20, R311 to R335). Its clock is in ms since 1970; `up` counts ms of Cistern time since
power-up. -/
structure Cistern where
  on : Bool := true
  sealed : Bool := false
  clock : Nat := 946684800000
  clockBad : Bool := true
  /-- The last stored second of the clock, ms. -/
  clockSaved : Nat := 946684800000
  up : Nat := 0
  /-- Periods of the power-up calibration still to come. -/
  calLeft : Nat := 3
  set : CisSettings := {}
  cal : Vector CisCal 8 := Vector.replicate 8 {}
  /-- CRC-32C of the legally relevant firmware, and the identification computed at power-up (R323). -/
  fwCrc : W32 := 0
  swId : W32 := 0
  audit : W32 := 0
  rejects : W32 := 0
  reqDropped : W32 := 0
  /-- The last 1,024 records, newest first, and the number written. -/
  log : List CisRec := [⟨1, 2, 0, 0#32, 0#32⟩]
  logCount : W32 := 1
  work : CisData := {}
  stored : CisData := {}
  storedAt : Nat := 0
  /-- The slice that the spare replaces, the channels on a failed slice, the spare's zero point and +0.9 point at
  power-up, and the last check (R314). -/
  spareFor : Option Nat := none
  dead : Vector Bool 8 := Vector.replicate 8 false
  spare0 : Int × Int := (0, 6039797)
  spareAt : Nat := 0
  warn : Bool := false
  /-- The programming session and the time of its last command (R330). -/
  session : Option Nat := none
  /-- Clock adjustments of the last 24 h made in Sealed state: Cistern clock and seconds (R322). -/
  adjusts : List (Nat × Int) := []
  /-- What the optical port last sent, and whether it was a refusal. -/
  optical : List Byte := []
  refused : Bool := false
  queue : List CisReq := []
  /-- The reply that leaves in the next snapshot (R335). -/
  reply : List Byte := []
  seq : W32 := 0
  /-- Sample position, and the RMS values, powers and frequency of the last period. -/
  pos : Nat := 0
  /-- The latest values of CU1 to CU3, latest first, as far back as the Hilbert filter looks (R315). -/
  volts : Vector (List Int) 3 := Vector.replicate 3 []
  rms : List Nat := [0, 0, 0, 0, 0, 0, 0, 0]
  power : List Int := [0, 0, 0, 0, 0, 0]
  freq : Nat := 0
  tariff : Nat := 1
  /-- Pulses that the active and the reactive LED have emitted, and what is left toward the next (R329). -/
  pulses : Nat × Nat := (0, 0)
  pulseRest : Nat × Nat := (0, 0)
  /-- The last snapshot sent on the forward lane. -/
  snap : List Byte := []
  deriving DecidableEq, Repr, Inhabited

/-- Instance data of a region: bytes by offset, rising; an offset not listed holds 0, as the wipe left it. -/
abbrev Mem := List Host.Cell

/-- The value, stamp and quality of a point (R346, R347); 1 is validity invalid. -/
structure PointVal where
  value : W64 := 0
  stamp : W64 := 0
  quality : W16 := 1
  tq : Byte := 0
  tsc : Byte := 0
  deriving DecidableEq, Repr, Inhabited

/-- A point of the process image: its record, type and writer, and its trip-request number (R346, R352). -/
structure Point where
  v : PointVal := {}
  typ : Nat := 0
  kind : Nat := 0
  writer : Nat := 0
  trip : Option Nat := none
  deriving DecidableEq, Repr, Inhabited

/-- A force (R425) with its point's shadow record (R422): none until the writer first writes. -/
structure Force where
  point : Nat
  orphan : Bool := false
  reason : Nat := 0
  origin : Nat
  tq : Nat
  value : W64
  setAt : W64
  quality : W16
  typ : Nat
  tag : W32
  shadow : Option PointVal := none
  deriving DecidableEq, Repr, Inhabited

/-- A release of a task with its header values (R343, R354). -/
structure Release where
  ts : Nat
  tq : Nat
  tsc : Nat
  a48 : Nat := 0
  aq : Nat := 0
  cycle : Nat := 0
  deriving DecidableEq, Repr, Inhabited

/-- An item In service or Replay-pending: its header and snapshot with the commit_seq at it, the flows it holds, and,
once it has been discarded, the core whose fault caused that (R354, R400, R404). -/
structure Scan where
  rel : Release
  snap : List PointVal := []
  snapSeq : Nat := 0
  flows : List Nat := []
  replay : Bool := false
  badCore : Option Nat := none
  deriving DecidableEq, Repr, Inhabited

/-- A task beside its registers. -/
structure TaskSt where
  pend : Option Release := none
  pendAt : Nat := 0
  scan : Option Scan := none
  /-- Consecutive skipped releases (R344), and releases since program start (R361). -/
  skips : Nat := 0
  /-- The run of skipped releases before the accepted one. -/
  before : Nat := 0
  cycle : Nat := 0
  /-- The timers of its instances still take their restart policy at the first scan (R357). -/
  warmFix : Bool := false
  /-- Scans that the Primary streamed, oldest first: header and snapshot (R575). -/
  stream : List (Release × List PointVal) := []
  /-- On a module that follows: the releases of the task's own compare unit after the last streamed snapshot, newest
  first (R575, R579), and the pending release that a copy point named (R574). -/
  own : List Release := []
  named : Option Release := none
  deriving DecidableEq, Repr, Inhabited

/-- A general register: its value and its tag (R371). -/
structure CReg where
  v : W64 := 0
  tag : Nat := 0
  deriving DecidableEq, Repr, Inhabited

/-- What a call saves: the return address, IB and IL, and the caller's frame slots (R380, R383). -/
structure CFrame where
  pc : Nat
  ib : Nat
  il : Nat
  slots : List CReg
  deriving DecidableEq, Repr, Inhabited

/-- A deferred action (R387). -/
structure Action where
  svc : Nat
  task : Nat
  args : List Nat
  deriving DecidableEq, Repr, Inhabited

/-- The write log of a scan (R381): stores by 8-byte word with a byte mask, output positions, and deferred actions. -/
structure WriteLog where
  stores : List (Nat × Nat × W64) := []
  outs : List (Nat × Option W64 × Option W16) := []
  acts : List Action := []
  deriving DecidableEq, Repr, Inhabited

/-- A work item: a task's scan, or the initialisation routine of an instance (R351, R389). -/
inductive CoreItem where
  | task (t : Nat)
  | init (inst : Nat)
  deriving DecidableEq, Repr, Inhabited

/-- A control core beside its state in CSC_CSTAT (R367 to R372): `ended` once END is confirmed. -/
structure CtlCore where
  item : Option CoreItem := none
  regs : Vector CReg 64 := Vector.replicate 64 {}
  pc : Nat := 0
  ib : Nat := 0
  il : Nat := 0
  slots : List CReg := []
  calls : List CFrame := []
  log : WriteLog := {}
  handAt : Nat := 0
  startAt : Nat := 0
  testAt : Nat := 0
  ended : Bool := false
  /-- The run is a replay of an initialisation routine. -/
  replay : Bool := false
  deriving DecidableEq, Repr, Inhabited

/-- A record of the task journal (R361), or a Skim record (R414). -/
inductive JRec where
  | commit (task tq tsc seq cycle ts : Nat) (snapCrc outCrc : W32) (ranges : List (Nat × List Byte)) (acts : List Action)
  | skim (fpOld fpNew tsw seq : Nat)
  deriving DecidableEq, Repr, Inhabited

/-- A complete retained copy (R360): the retained layout's fp_retain, the last commit in it, and the bytes of its
ranges in layout order. -/
structure RetCopy where
  fpRetain : Nat
  seq : Nat
  data : List Byte
  deriving DecidableEq, Repr, Inhabited

/-- The initialisation routines of a program start (R351): the instances still to be handed over, with the core that
must not take a replay, the command, and whether the start is warm. -/
structure InitSt where
  queue : List (Nat × Option Nat)
  cmd : Option CmdHdr
  warm : Bool
  slot : Nat
  reason : Nat
  deriving DecidableEq, Repr, Inhabited

/-- An on-line change (R406 to R420): its map, once it is read and checked, and the slot of the image it leads to. As
the rollback window: the map, the slot of the image that was replaced, and nothing else. -/
structure SkimSt where
  map : List Byte := []
  slot : Nat
  /-- The new instance data has been built (R411). -/
  built : Bool := false
  /-- The dirty pages that the pass under way re-applies, and those that commits have marked since it began (R411). -/
  work : List Nat := []
  dirty : List Nat := []
  /-- A SKIM_SWITCH that waits for its instant, and the tick at which a due instant was first put off (R416). -/
  switchCmd : Option CmdHdr := none
  putOff : Option Nat := none
  /-- The tick at which selection stopped (R417). -/
  pauseAt : Nat := 0
  deriving DecidableEq, Repr, Inhabited

/-- The control program, its cores and the Cascade (R338 to R426). -/
structure CtlSt where
  /-- The image bytes of slots A and B in NAND, and the full-slot writes of each (R29). -/
  slots : Vector (List Byte) 2 := Vector.replicate 2 []
  writes : Vector Nat 2 := Vector.replicate 2 0
  points : List Point := []
  forces : List Force := []
  tasks : Vector TaskSt 64 := Vector.replicate 64 {}
  cores : Vector CtlCore 8 := Vector.replicate 8 {}
  /-- The two instance regions and the one that the running image uses (R27, R349). -/
  inst : Vector Mem 2 := Vector.replicate 2 []
  region : Nat := 0
  /-- The slot of the running image, until STOP_PROGRAM or a reset. -/
  running : Option Nat := none
  /-- The task journal, newest first, the retained copies, newest first, and the last copy's tick (R360, R361). -/
  journal : List JRec := []
  copies : List RetCopy := []
  copyAt : Nat := 0
  /-- Scan timestamp, tq and tsc of each task's last journalled commit (R357). -/
  lastScan : List (Nat × Nat × Nat × Nat) := []
  init : Option InitSt := none
  /-- Flag sets and cancels that land in the next dispatcher cycle (R393). -/
  sets : List (Nat × Nat) := []
  cancels : List (Nat × Nat) := []
  /-- Selection is stopped: a switch or a copy point drains the cores (R417, R574). -/
  stopSel : Bool := false
  /-- Deferred actions of commits still to be applied, with the link frame whose acknowledgement they wait for. -/
  actions : List (Action × Option Nat) := []
  /-- The tasks of whose commits a flag action lands in the next dispatcher cycle (R394). -/
  flagged : List Nat := []
  skim : Option SkimSt := none
  /-- After a switch: the map of the change, the slot of the old image, and the region that holds its data. -/
  window : Option SkimSt := none
  deriving DecidableEq, Repr, Inhabited
/-- A CISTERN_REQUEST that waits for its reply: its command, buffer, tag, request and the tick at which it was sent
(R334, R499). -/
structure MboxReq where
  hdr : CmdHdr
  out : Out
  tag : Nat
  req : Nat
  at_ : Nat
  deriving DecidableEq, Repr, Inhabited

/-- The application side of the Cistern mailbox (R331 to R337): the latest valid snapshot and the tick of its arrival, the
stamped snapshots of the fit, newest first, as sample position and wall instant in ns, and the requests in progress, oldest
first. -/
structure MboxSt where
  latest : List Byte := []
  rxAt : Nat := 0
  fit : List (Nat × Nat) := []
  reqs : List MboxReq := []
  tag : Nat := 0
  /-- req_dropped of the last snapshot, none before the first. -/
  dropped : Option Nat := none
  deriving DecidableEq, Repr, Inhabited


/-- A condition under observation: whether it held at the last measurement, and since when. -/
structure Watch where
  on : Bool := false
  at_ : Nat := 0
  deriving DecidableEq, Repr, Inhabited

/-- A field channel beside its registers (R427 to R451); times are ticks. -/
structure FioCh where
  /-- The configuration has changed and its debounce time has not passed (R428). -/
  settleAt : Option Nat := none
  /-- fs_dead has cleared and no debounce has completed since (R449). -/
  deadWait : Option Nat := none
  /-- No island frames reach the logic side (R439). -/
  islandOff : Bool := false
  /-- The level that the point and the matrix input show; it differs from the debounced level while a change to low
  is held back, or became a wire break (R435). -/
  shown : Bool := false
  /-- The stamp of the last debounced change, and its tick. -/
  last : EdgeStamp := default
  lastAt : Nat := 0
  /-- Stamps of the debounced changes of the last second, newest first. -/
  stamps : List Nat := []
  /-- A change to low held back since. -/
  held : Option Nat := none
  wireBreak : Bool := false
  loopHigh : Bool := false
  /-- The place of the loop current against the window, 0 below, 1 inside, 2 above, and since when. -/
  region : Nat := 3
  regionAt : Nat := 0
  stuck : Bool := false
  highAt : Nat := 0
  /-- The level of the last change record, and the changes suppressed since chatter began (R437). -/
  reported : Bool := false
  suppressed : Nat := 0
  /-- The island hears no logic frames (R447). -/
  silent : Bool := false
  /-- The island has been permitted since its supply rose (R448). -/
  once : Bool := false
  srcBad : Bool := false
  /-- The logic side commands the safe state: an invalid point, or a test-linked row (R441, R606). -/
  wantSafe : Bool := false
  /-- Latched off by its supply (R450). -/
  off : Bool := false
  /-- The output on entering the safe state, and the reasons recorded then (R446, R451). -/
  hold : Bool := false
  why : Nat := 0
  /-- Overload: the diagnosis, the end of the retry interval, the retries, and current limit and its absence (R445). -/
  overload : Bool := false
  retryAt : Option Nat := none
  retries : Nat := 0
  limit : Watch := {}
  ext : Watch := {}
  extDrive : Bool := false
  openW : Watch := {}
  openLoad : Bool := false
  deriving DecidableEq, Repr, Inhabited

/-- A field supply beside its flags (R449, R450). -/
structure FioSupply where
  deadAt : Nat := 0
  lowClearAt : Nat := 0
  /-- Re-enabling runs from a tick, after a manual rearm or not; or it waits for FIELD_REARM. -/
  enableAt : Option (Nat × Bool) := none
  deriving DecidableEq, Repr, Inhabited

/-- The field channels (R427 to R452): records of the supplies wait for their urgent conversion. -/
structure FioSt where
  ch : Vector FioCh 32 := Vector.replicate 32 {}
  sup : Vector FioSupply 2 := Vector.replicate 2 {}
  waiting : List (Nat × Nat × EdgeStamp) := []
  seq : W32 := 0
  deriving DecidableEq, Repr, Inhabited

/-- A completion entry (R476). -/
structure Completion where
  progress : Bool := false
  duplicate : Bool := false
  replayed : Bool := false
  status : W16
  cmdIndex : W32
  tag : W64
  opcode : W16
  tq : Byte
  tsc : Byte
  step : W32
  posted : W64
  result : List Byte
  deriving DecidableEq, Repr, Inhabited

/-- An event as posted to a context's event ring (R479), with the ring index of its first slot. -/
structure Event where
  index : W32
  cls : Nat
  nslots : Nat
  seq : W32
  lost : W32
  payload : List Byte
  deriving DecidableEq, Repr, Inhabited

/-- The write-back block (R468). -/
structure WriteBack where
  cmdHead : W32
  cplWritten : W32
  evtWritten : W32
  evtLost : W32
  streamWritten : List W32
  stamp : W64
  state : Nat
  dbBad : Bool
  dbEarly : Bool
  seq : W32
  deriving DecidableEq, Repr, Inhabited

/-- One MSI-X vector: when it was last raised, whether a cause waits for the end of holdoff, and how often it was
raised (R484). -/
structure Msix where
  lastAt : Option Nat := none
  waiting : Bool := false
  raised : Nat := 0
  deriving DecidableEq, Repr, Inhabited

/-- A fetched command that is not yet final: its ring index, and the opcode, tag and argument bytes of its
descriptor (R471). -/
structure Fetched where
  index : W32
  opcode : W16
  tag : W64
  args : List Byte
  deriving DecidableEq, Repr, Inhabited

/-- A write of the module into a host buffer. -/
structure HostWrite where
  ctx : Nat
  addr : W64
  data : List Byte
  deriving DecidableEq, Repr, Inhabited

/-- A host context's positions and what it has been given (R462 to R484). Its registers are in the register file. -/
structure HostCtx where
  cmdHead : W32 := 0
  cmdTail : W32 := 0
  cplHead : W32 := 0
  cplWritten : W32 := 0
  evtHead : W32 := 0
  evtWritten : W32 := 0
  streamPost : Vector W32 8 := Vector.replicate 8 0
  streamW : Vector W32 8 := Vector.replicate 8 0
  evtSeq : W32 := 0
  lostSince : W32 := 0
  evtLost : W32 := 0
  fetched : List Fetched := []
  completions : List Completion := []
  events : List Event := []
  writeBack : Option WriteBack := none
  wbSeq : W32 := 0
  wbAt : Option Nat := none
  fetchAt : Option Nat := none
  /-- A completion posted since the last fetch asks for a further fetch (R466). -/
  fetchAsked : Bool := false
  /-- The read latch: the offset of the 64-bit register it holds, and its high half (R459). -/
  latch : Option (Nat × W32) := none
  /-- The data of the last setup read. -/
  readData : W64 := 0
  class7At : Option Nat := none
  /-- Refused writes of the context, wrapping, as class-7 events count them (R479). -/
  refusals : W32 := 0
  /-- Tags of commands fetched before the context last left Running or Stalled and not final: their completions are
  discarded (R470). -/
  stale : List W64 := []
  msix : Vector Msix 4 := Vector.replicate 4 {}
  deriving DecidableEq, Repr, Inhabited

/-- The outcome kept for a final command (R490). -/
structure FinalRec where
  status : W16
  step : W32
  result : List Byte
  replayed : Bool
  deriving DecidableEq, Repr, Inhabited

/-- A tag record (R490): `links` are the ring indices of linked duplicates (R491). -/
structure TagRec where
  tag : W64
  opcode : W16
  crc : W32
  index : W32
  final : Option FinalRec := none
  links : List W32 := []
  deriving DecidableEq, Repr, Inhabited

/-- A complete journal entry whose command is not final (R492, R493). -/
structure JEntry where
  hdr : CmdHdr
  op : HostOp
  /-- The number of the link frame whose acknowledgement the effect waits for (R576). -/
  wait : Option Nat := none
  /-- A class-X command that has taken effect as its row states (R492). -/
  effect : Bool := false
  /-- The entry came from the Primary; and the outcome of a class-J command applied here with it (R576). -/
  peer : Bool := false
  out : Option (W16 × List Byte) := none
  deriving DecidableEq, Repr, Inhabited

/-- An ownership (R494, R495): the owning context, the window's end as W64 and its length in seconds. -/
structure Owner where
  ctx : Nat
  expiry : Nat
  hold : Nat
  deriving DecidableEq, Repr, Inhabited

/-- A running long operation of a context (R497): the command, the steps done and estimated, its phase, and whether a
CANCEL asked for its end (R498). -/
structure LongOp where
  hdr : CmdHdr
  op : HostOp
  steps : Nat := 0
  total : Nat := 0
  phase : Nat := 0
  cancel : Bool := false
  /-- What has been read from the source so far. -/
  buf : List Byte := []
  deriving DecidableEq, Repr, Inhabited

/-- The command processor: tag records and journal (MRAM), ownerships of the nine shared objects (breakers 0 to 3,
settings 4 to 7, the program 8), and the long operation of each context. -/
structure CmdSt where
  tags : Vector (List TagRec) 8 := Vector.replicate 8 []
  journal : List JEntry := []
  owners : Vector (Option Owner) 9 := Vector.replicate 9 none
  long : Vector (Option LongOp) 8 := Vector.replicate 8 none
  deriving DecidableEq, Repr, Inhabited

/-- A DMA channel beside its registers (R506 to R515): the slots that have been written, 32 bytes each, the positions of the
engine and of the producer, and the descriptor in progress with the bytes of it issued. -/
structure DmaCh where
  slots : List (Nat × List Byte) := []
  head : Nat := 0
  tail : Nat := 0
  pos : Nat := 0
  /-- A descriptor of the chain has been taken, and the running CRC remainder of the chain. -/
  inChain : Bool := false
  crc : Nat := 0xFFFFFFFF
  /-- A confirmation read is outstanding, and an abort waits for it. -/
  confirm : Bool := false
  abort : Bool := false
  halted : Bool := false
  /-- Interrupts raised to the producer. -/
  irqs : Nat := 0
  /-- The context whose out buffer or stream blocks the channel carries (R517). -/
  forCtx : Option Nat := none
  deriving DecidableEq, Repr, Inhabited

/-- The DMA engine: its channels, the channel served last at each priority, and what it has written, newest first, by
destination address (R503 to R518). -/
structure DmaSt where
  ch : Vector DmaCh 16 := Vector.replicate 16 {}
  last : Vector Nat 4 := Vector.replicate 4 15
  out : List (Nat × List Byte) := []
  deriving DecidableEq, Repr, Inhabited
/-- A table space: its words by address, rising; a word not listed is 0 (R528, R563). -/
abbrev Tbl := List (Nat × Nat)

/-- A published GOOSE dataset (R530 to R532): the members as last read, whether a change waits for the next frame, the
present numbers, the instant of the last change with its tq, the interval that runs, ms, and when the next frame is due. -/
structure PubSt where
  begun : Bool := false
  dirty : Bool := false
  st : Nat := 1
  sq : Nat := 0
  t : Nat := 0
  tq : Nat := 5
  vals : List (PointVal × Nat) := []
  gap : Nat := 0
  nextAt : Nat := 0
  deriving DecidableEq, Repr, Inhabited

/-- A subscribed GOOSE control block (R533, R534, R608): it takes simulated frames alone, when its last frame ceases to
hold, W64, and stNum and sqNum of that frame. -/
structure CbSt where
  sim : Bool := false
  until_ : Nat := 0
  last : Option (Nat × Nat) := none
  deriving DecidableEq, Repr, Inhabited

/-- A received sample of a stream (R208, R209): its number since the epoch, its smpSynch, the pairs of its dataset, and the W64
ingress of its frame. -/
structure SvSample where
  no : Nat
  synch : Byte
  pairs : List (W32 × W32)
  at_ : Nat
  deriving DecidableEq, Repr, Inhabited

/-- A subscribed sampled-value stream (R536, R538, R608): the second of the samples accepted with a bit for each smpCnt of it
and of the second before it, the number since the epoch of the latest sample, and the tick of the last acceptance. -/
structure SvSt where
  sim : Bool := false
  sec : Nat := 0
  seen : Nat := 0
  prev : Nat := 0
  top : Option Nat := none
  at_ : Nat := 0
  /-- Samples received, latest first (R208). -/
  recent : List SvSample := []
  deriving DecidableEq, Repr, Inhabited

/-- An entry of a duplicate-discard table, and of the frames a ring pair has forwarded: source, sequence number, the port it
left by for a forwarded one, and the tick (R523, R524). -/
structure DdEnt where
  src : Nat
  seq : Nat
  port : Nat := 0
  at_ : Nat
  deriving DecidableEq, Repr, Inhabited

/-- A redundant pair (R522 to R524): the sequence number of sent frames and of supervision frames, when one was sent, and the
tables, oldest first; and what was added to the last two-step Syncs forwarded, by their port identity and sequence number (R57). -/
structure PairEth where
  seq : Nat := 0
  sup : Nat := 0
  supAt : Nat := 0
  dd : List DdEnt := []
  fwd : List DdEnt := []
  added : List (Nat × Nat) := []
  deriving DecidableEq, Repr, Inhabited

/-- The egress side of a port (R525): its eight queues by VLAN priority and its PTP event messages, oldest first, and the tick at
which the frame in progress has left it. -/
structure PortOut where
  queues : Vector (List OutFrame) 8 := Vector.replicate 8 []
  ptp : List OutFrame := []
  busyTo : Nat := 0
  deriving DecidableEq, Repr, Inhabited

/-- Ethernet (R519 to R538): the table space, its status words, and what runs on its entries. -/
structure EthSt where
  tbl : Tbl := []
  stat : Tbl := []
  pubs : List (Nat × PubSt) := []
  cbs : Vector CbSt 32 := Vector.replicate 32 {}
  sv : Vector SvSt 16 := Vector.replicate 16 {}
  /-- The frames since the epoch that each sampled-value publication has sent or passed over. -/
  svNext : Vector Nat 4 := Vector.replicate 4 0
  pairs : Vector PairEth 3 := Vector.replicate 3 {}
  out : Vector PortOut 8 := Vector.replicate 8 {}
  /-- The supervisor-bound frames of each port in the second that began at a tick: the tick and the count (R526). -/
  bound : Vector (Nat × Nat) 8 := Vector.replicate 8 (0, 0)
  deriving DecidableEq, Repr, Inhabited

/-- A correlation pair of a bus (R559, R560). -/
structure CanPair where
  ts : Nat
  w64 : Nat
  incr : W64
  tq : Nat
  tsc : Nat
  deriving DecidableEq, Repr, Inhabited

/-- A transmission of an object with its latched payload, the attempts made, and the column of its window (R548, R551). -/
structure CanTx where
  obj : Nat
  data : List Byte
  tries : Nat := 0
  col : Option Nat := none
  deriving DecidableEq, Repr, Inhabited

/-- The window in force: its column, the type and object of its cell, whether its object was accepted in it, and its end
unless that is the next basic cycle (R550, R551). -/
structure CanWin where
  col : Nat
  typ : Nat
  obj : Nat
  got : Bool := false
  endAt : Option Nat
  deriving DecidableEq, Repr, Inhabited

/-- A receive object: consecutive misses, and the tick of the last accepted frame (R553, R555). -/
structure CanObjSt where
  misses : Nat := 0
  at_ : Nat := 0
  deriving DecidableEq, Repr, Inhabited

/-- A CAN controller beside its registers: the start of its basic cycle, the cycle index and the next column, the window, the
payloads latched for the cycle, the transmission on the wire and the one that waits for its first SOF opportunity, the
pending objects of the message memory, receive objects, and its pairs, newest first (R546 to R560). -/
structure CanBus where
  startAt : Option Nat := none
  cyc : Nat := 0
  next : Nat := 0
  win : Option CanWin := none
  latched : List (Nat × List Byte) := []
  cur : Option CanTx := none
  due : Option CanTx := none
  pend : List CanTx := []
  objs : List (Nat × CanObjSt) := []
  pairs : List CanPair := []
  deriving DecidableEq, Repr, Inhabited

/-- A CAN subscription (R561): the records of its block in order of ts with the pair of the first and the tick at which that
came, and the ended blocks that are still to be written. -/
structure CanSubSt where
  on : Bool := false
  first : Bool := true
  recs : List (Nat × List Byte) := []
  pair : CanPair := default
  at_ : Nat := 0
  ready : List (CanPair × List (Nat × List Byte)) := []
  seq : W32 := 0
  dropped : Nat := 0
  deriving DecidableEq, Repr, Inhabited

/-- The CAN buses (R541 to R561): the table space, its status words, buses and subscriptions. -/
structure CanSt where
  tbl : Tbl := []
  stat : Tbl := []
  bus : Vector CanBus 12 := Vector.replicate 12 {}
  sub : Vector CanSubSt 4 := Vector.replicate 4 {}
  deriving DecidableEq, Repr, Inhabited


/-- A frame sent over the Lorras link and not yet acknowledged (R565): its number, kind and payload, and the tick at
which it was queued. -/
structure LinkFrame where
  seq : Nat
  kind : Nat
  data : List Byte
  at_ : Nat
  deriving DecidableEq, Repr, Inhabited

/-- A streamed scan as the partner follows it (R575 to R577): the commit record of the Primary, the own commit, and the
deferred actions that no effect notice has reported as applied. -/
structure PeerCommit where
  task : Nat
  ts : Nat
  /-- The CRCs of the Primary's record, once it has arrived, and of the own commit, once it is made: snapshot and log. -/
  peer : Option (W32 × W32) := none
  own : Option (W32 × W32) := none
  acts : List Action := []
  deriving DecidableEq, Repr, Inhabited

/-- What the last heartbeat of the Primary mirrors (R567): event flags, stNum and sqNum of the datasets, and the message counts
of the capture groups and the arrival messages. -/
structure Mirror where
  flags : List W32 := []
  goose : List (W32 × W32) := []
  groups : List W32 := []
  arrivals : List W32 := []
  deriving DecidableEq, Repr, Inhabited

/-- A state copy as the Primary makes it (R573, R574): the dirty pages of instance data, and the number of the copy-point
frame whose acknowledgement it waits for. -/
structure CopySt where
  dirty : List Nat := []
  point : Option Nat := none
  draining : Bool := false
  deriving DecidableEq, Repr, Inhabited

/-- Redundancy (R564 to R584); instants are ticks. -/
structure ParSt where
  /-- The module has been Standby or Primary since its last reset (R568). -/
  wasActive : Bool := false
  /-- The number of the last frame sent, the frames not yet acknowledged, oldest first, and the frames accepted (R565). -/
  seq : Nat := 0
  unacked : List LinkFrame := []
  got : Nat := 0
  /-- The last heartbeat sent, the last valid frame received, and the last valid heartbeat. -/
  beatAt : Nat := 0
  rxAt : Nat := 0
  hbAt : Nat := 0
  /-- The partner was dropped, or is gone: nothing is streamed until it says that it follows again (R576). -/
  dropped : Bool := false
  /-- Since when heartbeats have arrived without a loss of the link. -/
  upAt : Option Nat := none
  /-- The last heartbeat of the partner, and what a Primary mirrored in its last one. -/
  peer : Option PeerBeat := none
  mirror : Mirror := {}
  /-- The partner's phase in its last heartbeat. -/
  peerPhase : Nat := 0
  /-- Since when the present role and phase have lasted. -/
  roleAt : Nat := 0
  /-- Consecutive heartbeats with an offset beyond time_thr, and since when the offset has been within it (R569, R570). -/
  offBad : Nat := 0
  offOkAt : Option Nat := none
  /-- Flag sets of the own routed sources since the last heartbeat of the Primary (R579). -/
  ownSets : List (Nat × Nat) := []
  /-- Scans that are streamed, in the order of their commits. -/
  commits : List PeerCommit := []
  /-- Resyncs of the last 3,600 s (R569), and the tasks released, and matched, since tracking began (R577). -/
  resyncs : List Nat := []
  tracked : List Nat := []
  matched : List Nat := []
  /-- Staged pages of the copy pass in progress, in order of arrival (R573). -/
  stage : List CopyItem := []
  copy : Option CopySt := none
  /-- A handover waits for the drain: the REQUEST_REMOVAL that it serves (R581). -/
  removal : Option CmdHdr := none
  /-- The last valid frame arrived so many ns after it left, and since when alv_fault is set (R570, R578). -/
  delay : Option Int := none
  alvAt : Nat := 0
  deriving DecidableEq, Repr, Inhabited

/-- A record of the event recorder (R598); `bad` marks a record whose CRC fails. -/
structure EvrRec where
  code : Nat
  ms : Nat
  ot : W32
  pc : W32
  p0 : W32 := 0
  p1 : W32 := 0
  p2 : W32 := 0
  p3 : W32 := 0
  bad : Bool := false
  deriving DecidableEq, Repr, Inhabited

/-- A supervisor firmware slot of the NAND (R29, R594). -/
structure FwSlot where
  valid : Bool := false
  version : W32 := 0
  bytes : Nat := 0
  writes : Nat := 0
  deriving DecidableEq, Repr, Inhabited

/-- The stages of a boot that end on events of their own (R594). -/
inductive Boot where
  /-- SELF_CAL and the DRAM wipe run. -/
  | wiping
  /-- The program image and the retained copy are restored; doorbells are served. -/
  | done
  /-- The DRAM wipe has ended; the program starts, and replay follows (R594). -/
  | starting
  /-- No valid firmware: only LOAD_FIRMWARE on context 0 or 4. -/
  | recovery
  /-- Held in reset or without feed. -/
  | held
  deriving DecidableEq, Repr, Inhabited

/-- Life cycle, boot and recorder state beside the registers (R585 to R601). -/
structure LifeSt where
  boot : Boot := .wiping
  /-- The end of the reset, and the start of SELF_CAL, of the DRAM wipe and of the angle clocks: the 40 ms line (R594). -/
  bootAt : Nat := 0
  lineAt : Nat := 10000000
  lineDone : Bool := false
  /-- The module feed is valid; the carrier reset is asserted; a power-on reset waits for its release; and the feed switch
  has been opened by HS_EN_N (R591, R616, R619). -/
  power : Bool := true
  crst : Bool := false
  poweredUp : Bool := false
  hsOpen : Bool := false
  /-- The kind of the RESET_MODULE that caused this boot (R591). -/
  resetKind : Nat := 0
  /-- The wipe-pending marker of the recorder index: the target state of a full wipe (R590). -/
  wipePending : Option Nat := none
  /-- NAND blocks of a program slot still wait for background erase; remaining steps. -/
  eraseLeft : Nat := 0
  fw : Vector FwSlot 2 := #v[⟨true, 0, 0, 0⟩, ⟨false, 0, 0, 0⟩]
  records : List (Nat × EvrRec) := []
  /-- The first anchor after this reset was written (R599). -/
  anchored : Bool := false
  /-- Protection in service was reached in this boot (R595). -/
  protDone : Bool := false
  ctlDone : Bool := false
  /-- The boot-complete record has been written (R596). -/
  bootNoted : Bool := false
  /-- The slot of the image that was Running before the reset, or before the module began to join (R359, R569). -/
  autoSlot : Option Nat := none
  /-- A reset that a command asks for once it is final: its cause and its kind (R500, R590, R591). -/
  resetReq : Option (Nat × Nat) := none
  /-- The power-fail sequence: the tick of detection, the feeds then, mV, and whether a feed has returned since (R38, R39). -/
  failAt : Option Nat := none
  failFeeds : Nat × Nat := (0, 0)
  refed : Bool := false
  /-- When the scrubber last began a pass over the SRAMs, the DRAM and the MRAM (R30). -/
  scrubAt : Vector Nat 3 := Vector.replicate 3 0
  /-- Bytes written into the capture cache, and bytes of spare blocks in use, over the module's life (R29). -/
  cacheBytes : Nat := 0
  spareBytes : Nat := 0
  deriving DecidableEq, Repr, Inhabited

/-- The application partition and what is joined to it: everything but the Cistern and the command queue. -/
structure App where
  /-- Setup registers (R635, R636). -/
  regs : RegFile := []
  /-- The RW1C bits that hardware has set in the present clock cycle: bit address and tick (R17). -/
  raised : List (Nat × Nat) := []
  /-- The target ports of the crossbar: core local SRAM, shared SRAM, DRAM, MRAM, NAND (R26, R33 to R36). -/
  xbar : Vector XPort 5 := Vector.replicate 5 {}
  /-- Ticks of the 250 MHz timebase since the first power-on; the model's instants count them through every reset. -/
  tick : Nat := 0
  /-- Timebase ticks of powered operation over the module's life, from which OT32 counts (R7). -/
  opTicks : Nat := 0
  /-- The model's own counter: each use of a free value steps it. -/
  freeCtr : Nat := 0
  tim : TimeSt := {}
  bkp : Backup := {}
  ctxs : Vector HostCtx 8 := Vector.replicate 8 {}
  hostWrites : List HostWrite := []
  cmd : CmdSt := {}
  life : LifeSt := {}
  clk : Vector Clock 4 := Vector.replicate 4 {}
  ana : AnaSt := {}
  sig : SigSt := {}
  slu : SluSt := {}
  trp : TripSt := {}
  par : ParSt := {}
  /-- The node number of the stored configuration; 0 means not assigned (R2). -/
  node : Nat := 0
  sent : List OutFrame := []
  cap : CapSt := {}
  tw : TwSt := {}
  ctl : CtlSt := {}
  fio : FioSt := {}
  mbox : MboxSt := {}
  eth : EthSt := {}
  can : CanSt := {}
  dma : DmaSt := {}
  deriving DecidableEq, Repr, Inhabited

/-- The whole block: the application partition with its islands, the Cistern partition, and the queue of the
commands that are waiting. -/
structure State where
  app : App := {}
  cis : Cistern := {}
  pending : List Instr := []
  deriving DecidableEq, Repr, Inhabited

/-- The module right after its first power-on reset, with factory contents in its non-volatile stores and a backup
domain that is lost: every register at its reset value (R18), wall time from 0 s with tq 5 (R65), every context Off
(R469), its two first event-recorder records written (R600), nothing in the queue. -/
def State.reset : State :=
  { app := { regs := [(8 * 0x11000, 2)]
             bkp := { pc := 1, mirrorPc := 1 }
             life := { records := [(0, { code := 0x0013, ms := 0, ot := 0, pc := 1 }), (1, { code := 0x0001, ms := 0, ot := 0, pc := 1 })] } } }

end Sys2Proof.Machine
end

