-- ==== Sys2Proof/Machine/Ops.lean ====
section
/-! DEFINITION. The named operations that every meaning shares: the register file, little-endian bytes and CRC-32C,
wall-time stamps, the event recorder, and what a context receives (events, interrupts, data in its buffers). -/

namespace Sys2Proof.Machine

open Host

/-! ### Indexed parts -/

/-- Element `i` of a fixed array; an index past its end gives the default element. -/
def vat {α : Type} {n : Nat} [Inhabited α] (v : Vector α n) (i : Nat) : α :=
  if h : i < n then v[i] else default

/-- The array with element `i` changed by `f`; an index past its end changes nothing. -/
def vup {α : Type} {n : Nat} (v : Vector α n) (i : Nat) (f : α → α) : Vector α n :=
  if h : i < n then v.set i (f v[i]) else v

/-- The array with element `i` replaced. -/
def vput {α : Type} {n : Nat} (v : Vector α n) (i : Nat) (x : α) : Vector α n :=
  vup v i (fun _ => x)

/-- The indices below `n` in rising order. -/
def upto (n : Nat) : List Nat := List.range n

/-! ### The register file (R15, R16, R18) -/

/-- The value of the field at a bit address: the listed value, else the reset value of its table. -/
def RegFile.get (r : RegFile) (b : Nat) : Nat :=
  match r with
  | [] => fieldReset b
  | (c, v) :: t => if b = c then v else RegFile.get t b

/-- The cell list with one cell put at its place. -/
def RegFile.insert (r : RegFile) (b v : Nat) : RegFile :=
  match r with
  | [] => [(b, v)]
  | (c, w) :: t =>
    if b < c then (b, v) :: (c, w) :: t
    else if b = c then (b, v) :: t
    else (c, w) :: RegFile.insert t b v

/-- The cell list without the cell at a bit address. -/
def RegFile.drop (r : RegFile) (b : Nat) : RegFile :=
  r.filter (fun c => c.1 != b)

/-- A field given a value: listed only where the value differs from the reset value. -/
def RegFile.set (r : RegFile) (b v : Nat) : RegFile :=
  if v = fieldReset b then r.drop b else r.insert b v

/-- Bit addresses rise strictly. -/
def RegFile.rising : RegFile → Bool
  | [] => true
  | [_] => true
  | (b, _) :: (c, w) :: t => decide (b < c) && RegFile.rising ((c, w) :: t)

/-- The canonical form: bit addresses rise strictly, and no listed value is the reset value. -/
def RegFile.wf (r : RegFile) : Bool :=
  r.rising && r.all (fun c => c.2 != fieldReset c.1)

/-- Read a named register field. -/
def App.get (a : App) (f : Fld) : Nat := a.regs.get f.bit

/-- Whether a one-bit field is set. -/
def App.on (a : App) (f : Fld) : Bool := a.get f != 0

/-- Give a named register field a value, cut to its width. -/
def App.set (a : App) (f : Fld) (v : Nat) : App :=
  { a with regs := a.regs.set f.bit (v % 2 ^ f.w) }

/-- Set or clear a one-bit field. -/
def App.setB (a : App) (f : Fld) (b : Bool) : App := a.set f b.toNat

/-- Hardware sets an RW1C bit: a write of 1 in the same clock cycle leaves it set (R17). -/
def App.raise (a : App) (f : Fld) : App :=
  { a.setB f true with raised := (f.bit, a.tick) :: a.raised.filter (fun r => r.1 != f.bit && r.2 == a.tick) }

/-- Add to a counter field that saturates at its width. -/
def App.satAdd (a : App) (f : Fld) (n : Nat) : App := a.set f (min (2 ^ f.w - 1) (a.get f + n))

/-- Add to a counter field that wraps at its width. -/
def App.wrapAdd (a : App) (f : Fld) (n : Nat) : App := a.set f (a.get f + n)

/-! ### Table spaces (R528, R563) -/

/-- The word at an address. -/
def Tbl.get (t : Tbl) (o : Nat) : Nat :=
  match t with
  | [] => 0
  | (p, v) :: r => if p = o then v else Tbl.get r o

/-- The words with the one at an address put in its place. -/
def Tbl.insert (t : Tbl) (o v : Nat) : Tbl :=
  match t with
  | [] => [(o, v)]
  | (p, w) :: r => if o < p then (o, v) :: (p, w) :: r else if o = p then (o, v) :: r else (p, w) :: Tbl.insert r o v

/-- The words without the one at an address. -/
def Tbl.drop (t : Tbl) (o : Nat) : Tbl := t.filter (fun c => c.1 != o)

/-- A word written: listed only for a value other than 0. -/
def Tbl.put (t : Tbl) (o v : Nat) : Tbl := if v = 0 then t.drop o else t.insert o v

/-- Addresses rise strictly. -/
def Tbl.rising : Tbl → Bool
  | [] => true
  | [_] => true
  | (p, _) :: (q, c) :: t => decide (p < q) && Tbl.rising ((q, c) :: t)

/-- The canonical form: addresses rise strictly, and no listed word is 0. -/
def Tbl.wf (t : Tbl) : Bool := t.rising && t.all (fun c => c.2 != 0)

/-! ### Numbers and bytes (R3 to R6) -/

/-- Bits `lo + w - 1 : lo` of a number. -/
def bitsOf (v lo w : Nat) : Nat := v / 2 ^ lo % 2 ^ w

/-- Whether bit `i` of a number is set. -/
def bitOf (v i : Nat) : Bool := v / 2 ^ i % 2 == 1

/-- The number with bit `i` set to `b`. -/
def putBit (v i : Nat) (b : Bool) : Nat :=
  if bitOf v i == b then v else if b then v + 2 ^ i else v - 2 ^ i

/-- A number of `w` bits read as two's complement. -/
def asSigned (w v : Nat) : Int :=
  let u := v % 2 ^ w
  if u < 2 ^ (w - 1) then u else (u : Int) - 2 ^ w

/-- An integer cut to `w` bits of two's complement. -/
def toBits (w : Nat) (x : Int) : Nat := (x % (2 ^ w : Nat)).toNat

/-- An integer held within a signed field of `w` bits. -/
def satSigned (w : Nat) (x : Int) : Int :=
  max (-(2 ^ (w - 1) : Nat)) (min ((2 ^ (w - 1) : Nat) - 1) x)

/-- The least-significant-first bytes of a number (R4). -/
def le (n v : Nat) : List Byte :=
  match n with
  | 0 => []
  | n + 1 => BitVec.ofNat 8 v :: le n (v / 256)

/-- The number that bytes hold, least significant first (R4). -/
def ofLe (bs : List Byte) : Nat :=
  match bs with
  | [] => 0
  | b :: t => b.toNat + 256 * ofLe t

/-- `n` bytes from offset `o`; bytes past the end read as 0. -/
def bytesAt (bs : List Byte) (o n : Nat) : List Byte :=
  (upto n).map (fun i => bs.getD (o + i) 0)

/-- The number in `n` bytes at offset `o`. -/
def numAt (bs : List Byte) (o n : Nat) : Nat := ofLe (bytesAt bs o n)

/-- A list of bytes brought to exactly `n` bytes, zeros after its end. -/
def padTo (n : Nat) (bs : List Byte) : List Byte := bytesAt bs 0 n

/-- The remainder after one bit of the reflected CRC-32C polynomial. -/
def crcBit (c : Nat) : Nat := if c % 2 = 1 then (c / 2) ^^^ 0x82F63B78 else c / 2

/-- The remainder after one byte. -/
def crcByte (c : Nat) (b : Byte) : Nat :=
  crcBit (crcBit (crcBit (crcBit (crcBit (crcBit (crcBit (crcBit (c ^^^ b.toNat))))))))

/-- CRC-32C over bytes. -/
def crc32c (bs : List Byte) : Nat :=
  (bs.foldl crcByte 0xFFFFFFFF) ^^^ 0xFFFFFFFF

/-- An integer square root, rounded down, by bits from `k` downward. -/
def isqrtFrom (x : Nat) : Nat → Nat → Nat
  | 0, r => r
  | k + 1, r => if (r + 2 ^ k) * (r + 2 ^ k) ≤ x then isqrtFrom x k (r + 2 ^ k) else isqrtFrom x k r

/-- The integer square root of a number below 2^160. -/
def isqrt (x : Nat) : Nat := isqrtFrom x 80 0

/-- The quotient rounded to the nearest integer, halves away from zero. -/
def divRound (x : Int) (d : Nat) : Int :=
  if 0 ≤ x then (2 * x + d) / (2 * d) else -((2 * (-x) + d) / (2 * d))

/-! ### Time -/

/-- Timebase ticks in a microsecond, a millisecond and a second (R40). -/
def tUs : Nat := 250
def tMs : Nat := 250000
def tS : Nat := 250000000

/-- The code of a time-quality state (R44). -/
def TimeQ.code : TimeQ → Nat
  | .traceable => 0
  | .fallback => 1
  | .holdover => 2
  | .drifting => 3
  | .restored => 4
  | .invalid => 5

/-- Wall time as nanoseconds since the epoch. -/
def Wall.total (w : Wall) : Nat := w.sec.toNat * 1000000000 + w.ns

/-- Wall time set to a count of nanoseconds; the fraction stays (R47). -/
def Wall.ofTotal (w : Wall) (t : Nat) : Wall :=
  { w with sec := BitVec.ofNat 48 (t / 1000000000), ns := t % 1000000000 }

/-- One tick of the wall clock (R40). -/
def Wall.tick (w : Wall) (incr : W64) : Wall :=
  let sum := w.frac.toNat + incr.toNat % 2 ^ 32
  let ns := w.ns + incr.toNat / 2 ^ 32 + sum / 2 ^ 32
  let frac := BitVec.ofNat 32 sum
  if ns ≥ 1000000000 then
    { sec := w.sec + 1, ns := ns - 1000000000, frac := frac }
  else
    { sec := w.sec, ns := ns, frac := frac }

/-- The present instant in ns, and as W64 (R7). -/
def App.now (a : App) : Nat := a.tim.wall.total
def App.w64 (a : App) : Nat := a.now % 2 ^ 64

/-- The time-quality code and the step count that go with a stamp (R45). -/
def App.tqc (a : App) : Nat := a.tim.tq.code
def App.tsc (a : App) : Nat := a.tim.tsc.toNat

/-- W80 bytes of an instant given in ns (R7). -/
def w80Bytes (t : Nat) : List Byte := le 4 (t % 1000000000) ++ le 6 (t / 1000000000)

/-- OT32, and the milliseconds within it (R7, R598). -/
def App.ot (a : App) : Nat := min (a.opTicks / tS) 0xFFFFFFFF
def App.otMs (a : App) : Nat := a.opTicks / tMs % 1000

/-- Whether `n` ticks have passed since tick `t0`. -/
def App.since (a : App) (t0 n : Nat) : Bool := decide (t0 + n ≤ a.tick)

/-- A fresh index for a free value. -/
def App.fresh (a : App) : Nat × App := (a.freeCtr, { a with freeCtr := a.freeCtr + 1 })

/-! ### The event recorder (R597 to R600) -/

/-- The slot of record number `m` (R597). -/
def evrSlot (m : Nat) : Nat := if m < 4096 then m else 4096 + (m - 4096) % 65536

/-- A record put into its slot, in place of what the slot held. -/
def putRec (l : List (Nat × EvrRec)) (i : Nat) (r : EvrRec) : List (Nat × EvrRec) :=
  match l with
  | [] => [(i, r)]
  | (j, q) :: t => if i < j then (i, r) :: (j, q) :: t else if i = j then (i, r) :: t else (j, q) :: putRec t i r

/-- Write one event-recorder record (R597, R598). -/
def App.record (a : App) (code p0 p1 p2 p3 : Nat) : App :=
  let n := a.get Reg.EVR_TOTAL_n
  let r : EvrRec := { code := code, ms := a.otMs, ot := BitVec.ofNat 32 a.ot, pc := a.bkp.pc,
                      p0 := BitVec.ofNat 32 p0, p1 := BitVec.ofNat 32 p1,
                      p2 := BitVec.ofNat 32 p2, p3 := BitVec.ofNat 32 p3 }
  let a := { a with life := { a.life with records := putRec a.life.records (evrSlot n) r } }
  let a := a.set Reg.EVR_TOTAL_n (n + 1)
  a.set Reg.EVR_OVW_overwritten (min 0xFFFFFFFF (n + 1 - 69632))

/-- The 32 bytes of a record (R598). -/
def EvrRec.bytes (r : EvrRec) : List Byte :=
  let b := le 2 r.code ++ le 2 r.ms ++ le 4 r.ot.toNat ++ le 4 r.pc.toNat ++ le 4 r.p0.toNat ++ le 4 r.p1.toNat
    ++ le 4 r.p2.toNat ++ le 4 r.p3.toNat
  b ++ le 4 (if r.bad then crc32c b ^^^ 1 else crc32c b)

/-- An anchor record with its reason: 0 reset, 1 tq change, 2 step, 3 periodic (R599). -/
def App.anchor (a : App) (reason : Nat) : App :=
  if a.tim.tq = .invalid then a
  else
    let a := { a with bkp := { a.bkp with anchorAt := a.opTicks }, life := { a.life with anchored := true } }
    a.record 0x0006 (a.w64 % 2 ^ 32) (a.w64 / 2 ^ 32) (a.tqc + 256 * a.tsc + 65536 * reason)
      (toBits 32 (asSigned 16 a.tim.utcOffset.toNat))

/-! ### Contexts: interrupts and events (R479 to R484) -/

/-- A change to one context. -/
def App.onCtx (a : App) (k : Nat) (f : HostCtx → HostCtx) : App := { a with ctxs := vup a.ctxs k f }

/-- Whether a context takes the module's writes: it is Running or Stalled (R469, R470). -/
def App.ctxLive (a : App) (k : Nat) : Bool :=
  (a.get (Reg.HCX_STAT_state k) == 1 || a.get (Reg.HCX_STAT_state k) == 2) && a.life.boot != .held

/-- A cause of an MSI-X vector: raised at once, or combined at the end of holdoff (R484). -/
def App.raiseMsix (a : App) (k v : Nat) : App :=
  let hold := a.get (Reg.HCX_CTL_holdoff k) * tUs
  let t := a.tick
  a.onCtx k fun c =>
    { c with msix := vup c.msix v fun m =>
        match m.lastAt with
        | some t0 => if t < t0 + hold then { m with waiting := true }
                     else { lastAt := some t, waiting := false, raised := m.raised + 1 }
        | none => { lastAt := some t, waiting := false, raised := m.raised + 1 } }

/-- The size of ring `r` of context `k` in slots (R462). -/
def App.ringSize (a : App) (k r : Nat) : Nat := 2 ^ a.get (Reg.HCX_RCFG_log2size k r)

/-- Post an event to one context: one slot up to 48 payload bytes, else two; padding before the ring's end; dropped
and counted when no slot is free (R479, R480). -/
def App.postTo (a : App) (k cls : Nat) (payload : List Byte) : App :=
  let c := vat a.ctxs k
  let size := a.ringSize k 2
  let n := if payload.length ≤ 48 then 1 else 2
  let pad := n == 2 && c.evtWritten.toNat % size == size - 1
  let need := if pad then 3 else n
  let free := size - (c.evtWritten - c.evtHead).toNat
  if free < need then
    a.onCtx k fun c => { c with lostSince := if c.lostSince = 0xFFFFFFFF#32 then c.lostSince else c.lostSince + 1,
                                evtLost := c.evtLost + 1 }
  else
    let a := if pad then
        a.onCtx k fun c => { c with events := c.events ++ [⟨c.evtWritten, 0, 1, c.evtSeq, 0, []⟩],
                                    evtWritten := c.evtWritten + 1 }
      else a
    let a := a.onCtx k fun c =>
      { c with events := c.events ++ [⟨c.evtWritten, cls, n, c.evtSeq + 1, c.lostSince, padTo (if n = 1 then 48 else 96) payload⟩],
               evtWritten := c.evtWritten + BitVec.ofNat 32 n, evtSeq := c.evtSeq + 1, lostSince := 0 }
    let a := a.raiseMsix k 1
    if cls = 8 then a.raiseMsix k 3 else a

/-- Whether a context receives events of a class under its mask and role (R480). -/
def App.takesClass (a : App) (k cls : Nat) : Bool :=
  a.ctxLive k && bitOf (a.get (Reg.HCX_EVMASK_mask k)) cls
    && (a.get (Reg.HCX_ROLE_active_role k) != 3 || cls == 7 || cls == 8 || (16 ≤ cls && cls ≤ 24))

/-- Post an event to every context that receives its class. -/
def App.post (a : App) (cls : Nat) (payload : List Byte) : App :=
  (upto 8).foldl (fun a k => if a.takesClass k cls then a.postTo k cls payload else a) a

/-- The payload of the state and status events, classes 16 to 24 (R502). -/
def App.statePayload (a : App) (item old new param : Nat) : List Byte :=
  le 1 item ++ le 1 old ++ le 1 new ++ le 1 a.tqc ++ le 8 a.w64 ++ le 1 a.tsc ++ le 3 0 ++ le 8 param ++ le 8 0

/-- Post a state or status event. -/
def App.postState (a : App) (cls item old new param : Nat) : App :=
  a.post cls (a.statePayload item old new param)

/-- Post a change of a mode dimension: class 17, the dimension in param byte 0 (R502, R602). -/
def App.postMode (a : App) (dim item old new : Nat) : App := a.postState 17 item old new dim

/-- A class-8 ring-fault event of one context, and vector 3 (R479, R484). -/
def App.ringFault (a : App) (k ring kind index : Nat) (addr : Nat) : App :=
  if a.takesClass k 8 then
    a.postTo k 8 (le 1 ring ++ le 1 kind ++ le 2 0 ++ le 4 index ++ le 8 addr ++ le 8 a.w64 ++ le 1 a.tqc ++ le 1 a.tsc ++ le 6 0)
  else a

/-- A write of the module into a host buffer. -/
def App.writeHost (a : App) (k : Nat) (addr : W64) (data : List Byte) : App :=
  { a with hostWrites := a.hostWrites ++ [⟨k, addr, data⟩] }

/-! ### Meanings -/

/-- A meaning that acts on the islands of the application side, whether or not the partition runs (R23, R591). -/
def State.onIsland (s : State) (f : App → App) : Outcome State Fault Refusal := .next { s with app := f s.app }

/-- A meaning that acts on the application partition alone: nothing of it runs while the module is held in reset or has no
feed (R38, R591). -/
def State.onApp (s : State) (f : App → App) : Outcome State Fault Refusal :=
  s.onIsland fun a => if a.life.boot = .held then a else f a

/-- A meaning that acts on the Cistern partition alone. -/
def State.onCis (s : State) (f : Cistern → Cistern) : Outcome State Fault Refusal := .next { s with cis := f s.cis }

end Sys2Proof.Machine
end

