-- ==== Sys2Proof/Machine/Num.lean ====
section
/-! DEFINITION. Fixed-point arithmetic for the phasors and the characteristics: the twiddle table, magnitude and
angle of a phasor, logarithm and exponential (R181, R184, R219). -/

namespace Sys2Proof.Machine

/-- Rounded 65,536 × cos of 0 to 64 steps of 1/256 cycle (R181). -/
def cosQuarter : List Nat :=
  [65536, 65516, 65457, 65358, 65220, 65043, 64827, 64571, 64277, 63944, 63572, 63162,
   62714, 62228, 61705, 61145, 60547, 59914, 59244, 58538, 57798, 57022, 56212, 55368,
   54491, 53581, 52639, 51665, 50660, 49624, 48559, 47464, 46341, 45190, 44011, 42806,
   41576, 40320, 39040, 37736, 36410, 35062, 33692, 32303, 30893, 29466, 28020, 26558,
   25080, 23586, 22078, 20557, 19024, 17479, 15924, 14359, 12785, 11204, 9616, 8022,
   6424, 4821, 3216, 1608, 0]

/-- 65,536 × cos(2π m / 256), rounded (R181). -/
def twCos (m : Nat) : Int :=
  let m := m % 256
  if m ≤ 64 then (cosQuarter.getD m 0 : Nat)
  else if m ≤ 128 then -(cosQuarter.getD (128 - m) 0 : Nat)
  else if m ≤ 192 then -(cosQuarter.getD (m - 128) 0 : Nat)
  else (cosQuarter.getD (256 - m) 0 : Nat)

/-- 65,536 × −sin(2π m / 256), rounded (R181). -/
def twSin (m : Nat) : Int := twCos (m + 64)

/-- atan(2^-i) in units of 2^-48 cycle. -/
def atanSteps : List Nat :=
  [35184372088832, 20770547670515, 10974586953444, 5570871696862, 2796246208089, 1399486241028,
   699913886760, 349978300884, 174991820497, 87496244017, 43748163730, 21874087080,
   10937044192, 5468522177, 2734261099, 1367130551, 683565276, 341782638,
   170891319, 85445659, 42722830, 21361415, 10680707, 5340354,
   2670177, 1335088, 667544, 333772, 166886, 83443,
   41722, 20861, 10430, 5215, 2608, 1304,
   652, 326, 163, 81, 41, 20,
   10, 5]

/-- The angle of the vector (x, y), x > 0, in units of 2^-48 cycle, by rotation onto the axis. -/
def cordic (x y acc : Int) (i : Nat) : List Nat → Int
  | [] => acc
  | t :: r =>
    if 0 ≤ y then cordic (x + y / (2 ^ i : Nat)) (y - x / (2 ^ i : Nat)) (acc + t) (i + 1) r
    else cordic (x - y / (2 ^ i : Nat)) (y + x / (2 ^ i : Nat)) (acc - t) (i + 1) r

/-- The angle of (x, y) in au, rounded to the nearest, 0 to 65,535; 0 for the zero vector (R181). -/
def angleAu (x y : Int) : Nat :=
  if x = 0 ∧ y = 0 then 0
  else
    let s : Int := (2 ^ 48 : Nat)
    let a := if 0 < x then cordic (x * s) (y * s) 0 0 atanSteps
             else if x = 0 then (if 0 < y then (2 ^ 46 : Nat) else -(2 ^ 46 : Nat) : Int)
             else cordic (-x * s) (-y * s) 0 0 atanSteps + (2 ^ 47 : Nat)
    toBits 16 ((a + (2 ^ 31 : Nat)) / (2 ^ 32 : Nat))

/-- The square root rounded to the nearest integer. -/
def sqrtRound (x : Nat) : Nat := (isqrt (4 * x) + 1) / 2

/-- Fixed point with 64 fraction bits. -/
def fx1 : Nat := 2 ^ 64

/-- Terms z^(2j+1)/(2j+1) of the inverse hyperbolic tangent, from j upward. -/
def atanhSum (z2 p j : Nat) : Nat → Nat
  | 0 => 0
  | n + 1 => p / (2 * j + 1) + atanhSum z2 (p * z2 / fx1) (j + 1) n

/-- ln 2 in fixed point. -/
def ln2fx : Nat := 12786308645202655660

/-- Natural logarithm of a fixed-point number of at least 1. -/
def lnFx (x : Nat) : Nat :=
  let e := Nat.log2 (x / fx1)
  let m := x / 2 ^ e
  let z := (m - fx1) * fx1 / (m + fx1)
  e * ln2fx + 2 * atanhSum (z * z / fx1) z 0 24

/-- Terms x^j / j! of the exponential, from j upward. -/
def expSum (x p j : Nat) : Nat → Nat
  | 0 => 0
  | n + 1 => p + expSum x (p * x / fx1 / (j + 1)) (j + 1) n

/-- Exponential of a fixed-point number. -/
def expFx (x : Nat) : Nat := expSum (x % ln2fx) fx1 0 26 * 2 ^ (x / ln2fx)

/-- Exponential of the negative of a fixed-point number; 0 where it falls below one step. -/
def expNegFx (x : Nat) : Nat := if x / ln2fx > 70 then 0 else fx1 * fx1 / expFx x

end Sys2Proof.Machine
end

