-- ==== Sys2Proof/Machine/Phasor.lean ====
section
/-! DEFINITION. Sample words, windows and phasors: the recursive DFT of a window, sequence components, and the quality
of a window (R9 to R11, R181 to R186). -/

namespace Sys2Proof.Machine

/-- A Pool sample word from its parts (R9). -/
def sampleWord (value : BitVec 24) (ovr fs flt sub hold : Bool) (q : Nat) : W32 :=
  BitVec.ofNat 32 (value.toNat * 256 + ovr.toNat * 128 + fs.toNat * 64 + flt.toNat * 32 + sub.toNat * 16 + hold.toNat * 8 + q)

/-- The signed 24-bit value of a sample word. -/
def wordValue (w : W32) : Int := asSigned 24 (w.toNat / 256)
def wordOvr (w : W32) : Bool := bitOf w.toNat 7
def wordFs (w : W32) : Bool := bitOf w.toNat 6
def wordFlt (w : W32) : Bool := bitOf w.toNat 5
def wordSub (w : W32) : Bool := bitOf w.toNat 4
def wordHold (w : W32) : Bool := bitOf w.toNat 3

/-- The quality field, a reserved code taken as invalid (R11). -/
def wordQual (w : W32) : Nat := let q := w.toNat % 8; if q ≥ 4 then 2 else q

/-- Whether a value is at a full-scale code (R135). -/
def atFullScale (v : BitVec 24) : Bool := v == 0x7FFFFF#24 || v == 0x800000#24

/-- The worse of two qualities: invalid over questionable over test over good (R137, R186). -/
def worseQual (p q : Nat) : Nat :=
  if p = 2 ∨ q = 2 then 2 else if p = 1 ∨ q = 1 then 1 else if p = 3 ∨ q = 3 then 3 else 0

/-- The quality of the words of a window (R186). -/
def windowQual (l : List (W32 × Nat)) : Nat := l.foldl (fun q e => worseQual q (wordQual e.1)) 0

/-- The sum of a window's samples with the twiddles of harmonic `h`, each at its own angle (R181). -/
def dftSum (h : Nat) (l : List (W32 × Nat)) : Int × Int :=
  l.foldl (fun x e => (x.1 + wordValue e.1 * twCos (h * e.2), x.2 + wordValue e.1 * twSin (h * e.2))) (0, 0)

/-- √2 in units of 2^-40. -/
def sqrt2fx : Nat := 1554944255988

/-- The phasor of a sum over a window of `w` samples: √2 / w × X (R181). -/
def phasorOf (w : Nat) (x : Int × Int) : Phasor :=
  { re := divRound (x.1 * sqrt2fx) (w * 2 ^ 40)
    im := divRound (x.2 * sqrt2fx) (w * 2 ^ 40)
    mag := sqrtRound ((x.1 * x.1 + x.2 * x.2).toNat / (w * w * 2 ^ 15))
    ang := angleAu x.1 x.2 }

/-- The full-cycle phasor of harmonic `h`, and the half-cycle fundamental, of a channel's window (R183). -/
def fullPhasor (h : Nat) (l : List (W32 × Nat)) : Phasor := phasorOf 256 (dftSum h (l.take 256))
def halfPhasor (l : List (W32 × Nat)) : Phasor := phasorOf 128 (dftSum 1 (l.take 128))

/-- A phasor from its rectangular parts. -/
def phasorRect (re im : Int) : Phasor :=
  { re := re, im := im, mag := sqrtRound ((re * re + im * im).toNat / 2 ^ 16), ang := angleAu re im }

def Phasor.add (p q : Phasor) : Phasor := phasorRect (p.re + q.re) (p.im + q.im)
def Phasor.sub (p q : Phasor) : Phasor := phasorRect (p.re - q.re) (p.im - q.im)
def Phasor.neg (p : Phasor) : Phasor := phasorRect (-p.re) (-p.im)

/-- 0.866 025 in units of 2^-16 (R184). -/
def sin120 : Int := 56756

/-- The parts of a phasor rotated by 120° and by 240° (R184). -/
def rot120 (p : Phasor) : Int × Int :=
  (divRound (-32768 * p.re - sin120 * p.im) 65536, divRound (sin120 * p.re - 32768 * p.im) 65536)
def rot240 (p : Phasor) : Int × Int :=
  (divRound (-32768 * p.re + sin120 * p.im) 65536, divRound (-sin120 * p.re - 32768 * p.im) 65536)

/-- Positive sequence, scaled by 1/3 (R184). -/
def posSeq (x y z : Phasor) : Phasor :=
  phasorRect (divRound (x.re + (rot120 y).1 + (rot240 z).1) 3) (divRound (x.im + (rot120 y).2 + (rot240 z).2) 3)

/-- Negative sequence, scaled by 1/3 (R184). -/
def negSeq (x y z : Phasor) : Phasor :=
  phasorRect (divRound (x.re + (rot240 y).1 + (rot120 z).1) 3) (divRound (x.im + (rot240 y).2 + (rot120 z).2) 3)

/-- Three times the zero sequence: the sum (R184). -/
def zeroSeq (x y z : Phasor) : Phasor := phasorRect (x.re + y.re + z.re) (x.im + y.im + z.im)

/-- R_rms in u24.8 (chapter 7, ranges common to all elements). -/
def rRms : Nat := 1214783232

/-- A sample pushed into a window of at most 256. -/
def pushWin (l : List (W32 × Nat)) (new : List (W32 × Nat)) : List (W32 × Nat) := (new.reverse ++ l).take 256

end Sys2Proof.Machine
end

