-- ==== Sys2Proof/Machine/Crossbar.lean ====
section
/-! DEFINITION. The memories with their regions, and the crossbar that its masters share (R26 to R28, R32 to R36). -/

namespace Sys2Proof.Machine

/-! ### Memories and regions (R26 to R29) -/

/-- The memories of the application partition, each a target port of the crossbar (R26). -/
inductive Memory where
  | coreSram | sharedSram | dram | mram | nand
  deriving DecidableEq, Repr, Inhabited

/-- The memory's place among the ports, which is also its code in the event recorder (R600). -/
def Memory.code : Memory → Nat
  | .coreSram => 0
  | .sharedSram => 1
  | .dram => 2
  | .mram => 3
  | .nand => 4

/-- Whether a memory keeps its contents over a reset (R26). -/
def Memory.kept : Memory → Bool
  | .coreSram | .sharedSram | .dram => false
  | .mram | .nand => true

/-- The fixed regions of the memories (R26 to R29). -/
inductive Region where
  | core (k : Fin 8) | shared
  | jetRing | staging | image (slot : Fin 2) | instances (half : Fin 2) | working | partner | network | records | reserved
  | config | settings | calibration | retained (area : Fin 3) | journal | recorder | mramReserved
  | slot (n : Fin 2) | firmware (n : Fin 2) | cache | spare
  deriving DecidableEq, Repr, Inhabited

/-- Bytes in a MiB. -/
def mib : Nat := 2 ^ 20

/-- The memory that holds a region. -/
def Region.memory : Region → Memory
  | .core _ => .coreSram
  | .shared => .sharedSram
  | .jetRing | .staging | .image _ | .instances _ | .working | .partner | .network | .records | .reserved => .dram
  | .config | .settings | .calibration | .retained _ | .journal | .recorder | .mramReserved => .mram
  | .slot _ | .firmware _ | .cache | .spare => .nand

/-- The size of a region in bytes. -/
def Region.size : Region → Nat
  | .core _ => mib / 2
  | .shared => 16 * mib
  | .jetRing => 2048 * mib
  | .staging | .image _ | .working | .records | .reserved => 512 * mib
  | .instances _ => 768 * mib
  | .partner | .network => 256 * mib
  | .config | .retained _ => 4 * mib
  | .settings | .calibration => mib
  | .journal => 32 * mib
  | .recorder => 3 * mib
  | .mramReserved => 11 * mib
  | .slot _ => 1024 * mib
  | .firmware _ => 256 * mib
  | .cache => 24576 * mib
  | .spare => 5632 * mib

/-- The regions, each with a number. -/
def regions : List Region :=
  (List.finRange 8).map Region.core ++ [.shared, .jetRing, .staging, .image 0, .image 1, .instances 0, .instances 1, .working, .partner,
    .network, .records, .reserved, .config, .settings, .calibration, .retained 0, .retained 1, .retained 2, .journal, .recorder,
    .mramReserved, .slot 0, .slot 1, .firmware 0, .firmware 1, .cache, .spare]

/-- The bytes of the regions of a memory. -/
def Memory.size (m : Memory) : Nat := ((regions.filter (fun r => r.memory == m)).map Region.size).foldl (· + ·) 0

/-- The first module address of a region; no address map of the modules' memories is given (R507). -/
def Region.base (r : Region) : Nat := (Config.regionBase (regions.idxOf r)).toNat

/-- The region that holds a module address. -/
def regionAt (x : Nat) : Option Region := regions.find? (fun r => decide (r.base ≤ x) && decide (x < r.base + r.size))

/-- Whether every byte of a range of module addresses lies in a region; `fuel` regions at most (R508). -/
def mapped : Nat → Nat → Nat → Bool
  | 0, _, n => n == 0
  | fuel + 1, x, n =>
    n == 0 || match regionAt x with
      | some r => mapped fuel (r.base + r.size) (n - (r.base + r.size - x))
      | none => false

/-- Whether two ranges have a byte in common. -/
def overlap (x n y m : Nat) : Bool := decide (x < y + m) && decide (y < x + n)

/-! ### The crossbar (R33 to R35) -/

/-- The priority class of a master (R33). -/
def Master.cls : Master → Nat
  | .sluice _ | .fast | .matrix => 0
  | .decimation | .resampler | .capture | .jet | .wavefront | .gooseSv => 1
  | .core _ | .cascade => 2
  | .supervisor | .link | .ethernet | .can _ | .scrubber => 3
  | .host _ | .dma _ => 4

/-- The master's place in the round of its class. -/
def Master.place : Master → Nat
  | .sluice e => e
  | .fast => 2
  | .matrix => 3
  | .decimation => 0
  | .resampler => 1
  | .capture => 2
  | .jet => 3
  | .wavefront => 4
  | .gooseSv => 5
  | .core k => k
  | .cascade => 8
  | .supervisor => 0
  | .link => 1
  | .ethernet => 2
  | .scrubber => 3
  | .can b => 4 + b
  | .host p => p
  | .dma c => 2 + c

/-- A master asks a port for an access of so many bytes: transfers of at most 64 B (R34). -/
def App.access (a : App) (m : Master) (p : Memory) (bytes : Nat) : App :=
  { a with xbar := vup a.xbar p.code fun x =>
      { x with queue := if bytes = 0 then x.queue else x.queue ++ [⟨m, (bytes + 63) / 64, a.tick⟩] } }

/-- The class that a request has now: among classes 2 to 4 one that has waited 1 µs is served once as class 2 (R35). -/
def XReq.clsNow (r : XReq) (tick : Nat) : Nat :=
  if 2 < r.master.cls ∧ r.since + tUs ≤ tick then 2 else r.master.cls

/-- How far a request stands behind the master served last in its class: the round goes by class and place. -/
def XReq.turn (r : XReq) (last : Nat) : Nat := (32 * r.master.cls + r.master.place + 159 - last) % 160

/-- The request served next at a port: the lowest class, and round-robin within it (R34). -/
def XPort.next (x : XPort) (tick : Nat) : Option XReq :=
  x.queue.foldl (fun b r => match b with
    | none => some r
    | some q =>
      let c := r.clsNow tick
      let d := q.clsNow tick
      if c < d ∨ (c = d ∧ r.turn (vat x.last c) < q.turn (vat x.last c)) then some r else some q) none

/-- How long a transfer takes, ns: 2 ns at an SRAM port, one burst of at most 40 ns at the DRAM (R34). -/
def App.transferNs (a : App) (p : Memory) : Nat × App :=
  match p with
  | .coreSram | .sharedSram => (2, a)
  | .dram => let (i, a) := a.fresh; (1 + (Config.transferNs 2 i).toNat % 40, a)
  | .mram | .nand => let (i, a) := a.fresh; (1 + (Config.transferNs p.code i).toNat, a)

/-- A transfer of a request starts: one transfer less is left, and its wait starts again (R34, R35). -/
def XPort.start (x : XPort) (r : XReq) (tick ns : Nat) : XPort :=
  let at_ := x.queue.idxOf r
  { x with queue := if r.left ≤ 1 then x.queue.eraseIdx at_ else x.queue.set at_ { r with left := r.left - 1, since := tick }
           busy := ns, serving := some r.master, last := vput x.last (r.clsNow tick) (32 * r.master.cls + r.master.place) }

/-- A port over `ns` nanoseconds: a transfer in progress is never pre-empted, and the next starts as it ends (R34). -/
def App.portRun (a : App) (p : Memory) (ns : Nat) : Nat → App
  | 0 => a
  | fuel + 1 =>
    let x := vat a.xbar p.code
    if ns < x.busy then { a with xbar := vput a.xbar p.code { x with busy := x.busy - ns } }
    else
      match x.next a.tick with
      | none => { a with xbar := vput a.xbar p.code { x with busy := 0, serving := none } }
      | some r =>
        let left := ns - x.busy
        if left = 0 then { a with xbar := vput a.xbar p.code { x with busy := 0, serving := none } }
        else
          let (t, a) := a.transferNs p
          ({ a with xbar := vput a.xbar p.code (x.start r a.tick t) }).portRun p left fuel

/-- The ports over one tick of 4 ns. -/
def App.xbarTick (a : App) : App :=
  [Memory.coreSram, .sharedSram, .dram, .mram, .nand].foldl (fun a p => a.portRun p 4 5) a

/-! ### Errors in the Jet ring (R32, R295) -/

/-- An uncorrectable error in a slot of the Jet ring: the frame there is damaged, and the anchor before it says so. -/
def App.damageJet (a : App) (slot : Nat) : App :=
  let n := a.sig.jetCount
  let back := (n + 33554432 - 1 - slot) % 33554432
  if n ≤ back then a
  else
    let m := n - 1 - back
    let before := (a.sig.anchors.find? (fun x => decide (x.n ≤ m))).map (·.n)
    { a with sig :=
      { a.sig with damaged := m :: a.sig.damaged
                   anchors := a.sig.anchors.map (fun x => if some x.n = before then { x with damaged := true } else x) } }

end Sys2Proof.Machine
end

