-- ==== Sys2Proof/Machine/Operands.lean ====
section
/-! DEFINITION. The operands of the host commands: opcode, argument packing, roles and classes of each row of the
command table (R487, R492, R500). -/

namespace Sys2Proof

open Machine

/-- Command classes (R492). -/
inductive CmdClass where
  | q | j | x
  deriving DecidableEq, Repr

/-- The opcode of a command (R500). -/
def HostOp.opcode : HostOp → Nat
  | .nop => 0x0001
  | .select .. => 0x0002
  | .deselect .. => 0x0003
  | .cancel .. => 0x0004
  | .moduleStatus => 0x0005
  | .readTime .. => 0x0101
  | .forceTime .. => 0x0102
  | .adjustRate .. => 0x0103
  | .stepTime .. => 0x0104
  | .readAngle .. => 0x0105
  | .writeSettings .. => 0x0201
  | .selectGroup .. => 0x0202
  | .setCurve .. => 0x0203
  | .readSettings .. => 0x0204
  | .selfCal => 0x0205
  | .auxStart .. => 0x0206
  | .readAux .. => 0x0207
  | .breakerClose .. => 0x0301
  | .breakerOpen .. => 0x0302
  | .clearTripFault .. => 0x0303
  | .armCapture .. => 0x0401
  | .fireCapture .. => 0x0402
  | .cutTwRecord .. => 0x0403
  | .readTwRecord .. => 0x0404
  | .readSnapshot .. => 0x0501
  | .cisternRequest .. => 0x0502
  | .loadImage .. => 0x0601
  | .verifyImage .. => 0x0602
  | .eraseSlot .. => 0x0603
  | .startProgram .. => 0x0604
  | .stopProgram => 0x0605
  | .holdProgram .. => 0x0606
  | .writePoint .. => 0x0607
  | .readPoints .. => 0x0608
  | .flagSet .. => 0x0609
  | .flagCancel .. => 0x060A
  | .skimPrepare .. => 0x0701
  | .skimSwitch .. => 0x0702
  | .skimAbort => 0x0703
  | .skimRollback => 0x0704
  | .skimConfirm => 0x0705
  | .forceSet .. => 0x0706
  | .forceClear .. => 0x0707
  | .readForces .. => 0x0708
  | .fieldRearm .. => 0x0801
  | .lifecycleSet .. => 0x0901
  | .resetModule .. => 0x0902
  | .loadFirmware .. => 0x0903
  | .requestRemoval => 0x0904

/-- The class of a command (R500). -/
def HostOp.cls : HostOp → CmdClass
  | .nop | .moduleStatus | .readTime .. | .readAngle .. | .readSettings .. | .readAux .. | .readTwRecord ..
  | .readSnapshot .. | .cisternRequest .. | .readPoints .. | .readForces .. => .q
  | .select .. | .deselect .. | .cancel .. | .writeSettings .. | .selectGroup .. | .setCurve .. | .clearTripFault ..
  | .armCapture .. | .stopProgram | .holdProgram .. | .writePoint .. | .flagSet .. | .flagCancel .. | .skimAbort
  | .skimConfirm | .forceSet .. | .forceClear .. | .fieldRearm .. => .j
  | .forceTime .. | .adjustRate .. | .stepTime .. | .selfCal | .auxStart .. | .breakerClose .. | .breakerOpen ..
  | .fireCapture .. | .cutTwRecord .. | .loadImage .. | .verifyImage .. | .eraseSlot .. | .startProgram ..
  | .skimPrepare .. | .skimSwitch .. | .skimRollback | .lifecycleSet .. | .resetModule .. | .loadFirmware ..
  | .requestRemoval => .x

/-- The roles that may issue a command: 1 Engineering, 2 Operator, 3 Metrology reader, 4 Maintenance (R456, R500).
ADJUST_RATE and STEP_TIME belong to the named context whatever its role (R53). -/
def HostOp.roles : HostOp → List Nat
  | .nop | .moduleStatus | .readTime .. | .readSnapshot .. => [1, 2, 3, 4]
  | .adjustRate .. | .stepTime .. => [0, 1, 2, 3, 4]
  | .cisternRequest .. => [3, 4]
  | .select .. | .deselect .. | .cancel .. | .readAngle .. | .selectGroup .. | .readSettings .. | .readAux ..
  | .breakerClose .. | .breakerOpen .. | .clearTripFault .. | .armCapture .. | .fireCapture .. | .cutTwRecord ..
  | .readTwRecord .. | .writePoint .. | .readPoints .. | .flagSet .. | .flagCancel .. | .readForces ..
  | .fieldRearm .. | .requestRemoval => [1, 2, 4]
  | .forceTime .. | .writeSettings .. | .setCurve .. | .selfCal | .auxStart .. | .loadImage .. | .verifyImage ..
  | .eraseSlot .. | .startProgram .. | .stopProgram | .holdProgram .. | .skimPrepare .. | .skimSwitch ..
  | .skimAbort | .skimRollback | .skimConfirm | .forceSet .. | .forceClear .. | .lifecycleSet .. | .resetModule ..
  | .loadFirmware .. => [1, 4]

/-- The arguments of a command as pairs of a size in bytes and a value, in the order of its row (R487, R500). -/
def HostOp.fields : HostOp → List (Nat × Nat)
  | .nop | .moduleStatus | .selfCal | .stopProgram | .skimAbort | .skimRollback | .skimConfirm | .requestRemoval => []
  | .select obj hold => [(2, obj.toNat), (2, hold.toNat)]
  | .deselect obj => [(2, obj.toNat)]
  | .cancel t => [(8, t.toNat)]
  | .readTime o c => [(8, o.addr.toNat), (4, o.len.toNat), (1, c.toNat)]
  | .forceTime m ns v => [(1, m.toNat), (4, ns.toNat), (8, v.toNat)]
  | .adjustRate i l => [(8, i.toNat), (1, l.toNat)]
  | .stepTime o => [(8, o.toNat)]
  | .readAngle o b c => [(8, o.addr.toNat), (4, o.len.toNat), (1, b.toNat), (1, c.toNat)]
  | .writeSettings g f c _ => [(1, g.toNat), (2, f.toNat), (2, c.toNat)]
  | .selectGroup b g => [(1, b.toNat), (1, g.toNat)]
  | .setCurve _ => []
  | .readSettings o g f c => [(8, o.addr.toNat), (4, o.len.toNat), (1, g.toNat), (2, f.toNat), (2, c.toNat)]
  | .auxStart s l => [(1, s.toNat), (4, l.toNat)]
  | .readAux o s => [(8, o.addr.toNat), (4, o.len.toNat), (1, s.toNat)]
  | .breakerClose b m t | .breakerOpen b m t => [(1, b.toNat), (1, m.toNat), (2, t.toNat)]
  | .clearTripFault c => [(1, c.toNat)]
  | .armCapture s r => [(1, s.toNat), (1, r.toNat)]
  | .fireCapture s => [(1, s.toNat)]
  | .cutTwRecord b t => [(1, b.toNat), (8, t.toNat)]
  | .readTwRecord o s => [(8, o.addr.toNat), (4, o.len.toNat), (4, s.toNat)]
  | .readSnapshot o | .readForces o => [(8, o.addr.toNat), (4, o.len.toNat)]
  | .cisternRequest o r c f => [(8, o.addr.toNat), (4, o.len.toNat), (1, r.toNat), (2, c.toNat), (4, f.toNat)]
  | .loadImage s z p | .loadFirmware s z p => [(1, s.toNat), (4, z.toNat), (8, p.toNat)]
  | .verifyImage s | .eraseSlot s => [(1, s.toNat)]
  | .startProgram s w => [(1, s.toNat), (1, w.toNat)]
  | .holdProgram h => [(1, h.toNat)]
  | .writePoint q p v => [(2, q.toNat), (4, p.toNat), (8, v.toNat)]
  | .readPoints o f c => [(8, o.addr.toNat), (4, o.len.toNat), (4, f.toNat), (4, c.toNat)]
  | .flagSet t f => [(1, t.toNat), (1, f.toNat)]
  | .flagCancel t m => [(1, t.toNat), (4, m.toNat)]
  | .skimPrepare l m => [(4, l.toNat), (8, m.toNat)]
  | .skimSwitch e => [(8, e.toNat)]
  | .forceSet q p v t => [(2, q.toNat), (4, p.toNat), (8, v.toNat), (4, t.toNat)]
  | .forceClear o p => [(1, o.toNat), (4, p.toNat)]
  | .fieldRearm s => [(1, s.toNat)]
  | .lifecycleSet t c => [(1, t.toNat), (4, c.toNat)]
  | .resetModule k => [(1, k.toNat)]

/-- The bytes after the packed fields: descriptors from offset 8, or a curve body (R500). -/
def HostOp.blob : HostOp → List Byte
  | .writeSettings _ _ _ d => d
  | .setCurve b => b
  | _ => []

/-- The next offset that is a multiple of a size (R487). -/
def alignUp (o n : Nat) : Nat := (o + n - 1) / n * n

/-- Fields packed after the bytes already there, each at the next multiple of its size (R487). -/
def packFields (acc : List Byte) : List (Nat × Nat) → List Byte
  | [] => acc
  | (n, v) :: t => packFields (padTo (alignUp acc.length n) acc ++ le n v) t

/-- The argument bytes of a command (R487). -/
def HostOp.args (op : HostOp) : List Byte :=
  let f := packFields [] op.fields
  match op with
  | .writeSettings .. => padTo 8 f ++ op.blob
  | .setCurve b => b
  | _ => f

/-- The CRC-32C of a command's arguments (R490). -/
def HostOp.crc (op : HostOp) : Nat := crc32c op.args

/-- The offset of argument `i` of a command (R487, R489). -/
def HostOp.offsetOf (op : HostOp) (i : Nat) : Nat :=
  match op.fields[i]? with
  | some (n, _) => alignUp (packFields [] (op.fields.take i)).length n
  | none => 8

/-- The commands of the named host-servo context (R53). -/
def HostOp.servoOnly : HostOp → Bool
  | .adjustRate .. | .stepTime .. => true
  | _ => false

/-- Whether a command is a long operation (R500). -/
def HostOp.isLong : HostOp → Bool
  | .loadImage .. | .verifyImage .. | .eraseSlot .. | .skimPrepare .. | .skimRollback | .loadFirmware .. => true
  | _ => false

end Sys2Proof
end

