-- ==== Sys2Proof/Machine/Cmd.lean ====
section
/-! DEFINITION. Processing of host commands: the order of the checks, host tags, journal, ownership, completions and
long operations (R486 to R499), shared by every host command. -/

namespace Sys2Proof.Machine

open Host

/-- The status codes (R477, R499). -/
def Status.ok : Nat := 0x0000
def Status.badDesc : Nat := 0x0001
def Status.chainLoop : Nat := 0x0002
def Status.chainBad : Nat := 0x0003
def Status.malformed : Nat := 0x0004
def Status.badTag : Nat := 0x0100
def Status.tagReused : Nat := 0x0101
def Status.unknownOp : Nat := 0x0102
def Status.role : Nat := 0x0103
def Status.state : Nat := 0x0104
def Status.range : Nat := 0x0105
def Status.owned : Nat := 0x0106
def Status.notOwner : Nat := 0x0107
def Status.expired : Nat := 0x0108
def Status.cancelled : Nat := 0x0109
def Status.tooLate : Nat := 0x010A
def Status.notFound : Nat := 0x010B
def Status.busy : Nat := 0x010C
def Status.full : Nat := 0x010D
def Status.buffer : Nat := 0x010E
def Status.inService : Nat := 0x010F
def Status.admission : Nat := 0x0110
def Status.check : Nat := 0x0111
def Status.notServo : Nat := 0x0112
def Status.stepRefused : Nat := 0x0113
def Status.tripActive : Nat := 0x0200
def Status.noLock : Nat := 0x0201
def Status.notDirect : Nat := 0x0202
def Status.noUnit : Nat := 0x0203
def Status.superseded : Nat := 0x0204
def Status.lostLock : Nat := 0x0205
def Status.failed : Nat := 0x0206
def Status.disabled : Nat := 0x0207
def Status.noBoundary : Nat := 0x0210
def Status.dirty : Nat := 0x0211
def Status.cisLost : Nat := 0x0220

/-- The life-cycle codes (R585) and the redundancy role codes (R567). -/
def Lcy.blank : Nat := 0
def Lcy.commissioning : Nat := 1
def Lcy.operational : Nat := 2
def Lcy.maintenance : Nat := 3
def Lcy.decommissioned : Nat := 4
def Role.solo : Nat := 0
def Role.primary : Nat := 1
def Role.standby : Nat := 2
def Role.joining : Nat := 3
def Role.leaving : Nat := 4

/-- The life-cycle state and the redundancy role with its phase. -/
def App.lcy (a : App) : Nat := a.get Reg.LCY_STAT_state
def App.role (a : App) : Nat := a.get Reg.PAR_STAT_role

/-! ### Completions (R476, R478) -/

/-- Write one completion entry and raise its vector. -/
def App.complete (a : App) (k : Nat) (c : Completion) : App :=
  if a.ctxLive k then
    let c := { c with tq := BitVec.ofNat 8 a.tqc, tsc := a.tim.tsc, posted := BitVec.ofNat 64 a.now,
                      result := padTo 32 c.result }
    let a := a.onCtx k fun x => { x with completions := x.completions ++ [c], cplWritten := x.cplWritten + 1,
                                         fetchAsked := true }
    a.raiseMsix k 0
  else a

/-- A final completion takes its command from those fetched and not final. -/
def App.completeFinal (a : App) (k : Nat) (c : Completion) : App :=
  (a.onCtx k fun x => { x with fetched := x.fetched.filter (fun f => f.index != c.cmdIndex) }).complete k c

/-- The final completion of a command, without record keeping; discarded where the context has left Running or Stalled
since the fetch (R470). -/
def App.reply (a : App) (h : CmdHdr) (opcode st step : Nat) (result : List Byte) (dup repl : Bool) : App :=
  if !dup && (vat a.ctxs h.ctx).stale.contains h.tag then
    a.onCtx h.ctx fun x => { x with stale := x.stale.filter (fun t => t != h.tag) }
  else
  a.completeFinal h.ctx { progress := false, duplicate := dup, replayed := repl, status := BitVec.ofNat 16 st, cmdIndex := h.index, tag := h.tag,
                          opcode := BitVec.ofNat 16 opcode, tq := 0, tsc := 0, step := BitVec.ofNat 32 step,
                          posted := 0, result := result }

/-- A progress completion, posted only while the completion ring has slots beyond those reserved (R478, R497). -/
def App.progress (a : App) (l : LongOp) : App :=
  let k := l.hdr.ctx.val
  let c := vat a.ctxs k
  if c.stale.contains l.hdr.tag then a
  else if a.ringSize k 1 - (c.cplWritten - c.cplHead).toNat > c.fetched.length then
    a.complete k { progress := true, duplicate := false, replayed := false, status := BitVec.ofNat 16 Status.ok, cmdIndex := l.hdr.index, tag := l.hdr.tag,
                   opcode := BitVec.ofNat 16 l.op.opcode, tq := 0, tsc := 0, step := BitVec.ofNat 32 l.steps,
                   posted := 0, result := le 4 l.total ++ le 1 l.phase }
  else a.satAdd (Reg.HCX_CNT_prog_skipped k) 1

/-! ### Tag records and the journal (R490 to R492) -/

/-- The tag record of a context that a tag matches. -/
def App.tagRec (a : App) (k : Nat) (tag : W64) : Option TagRec := (vat a.cmd.tags k).find? (fun r => r.tag == tag)

/-- Evict the oldest final records beyond the last 4,096; a record that is not final stays (R490). -/
def trimTags (l : List TagRec) : List TagRec :=
  if l.length ≤ 4096 then l
  else
    match l.findIdx? (fun r => r.final.isSome) with
    | some i => l.eraseIdx i
    | none => l

/-- A change to a context's tag records. -/
def App.onTags (a : App) (k : Nat) (f : List TagRec → List TagRec) : App :=
  { a with cmd := { a.cmd with tags := vup a.cmd.tags k f } }

/-- Keep the record of an accepted or refused command of classes J and X. -/
def App.keepTag (a : App) (k : Nat) (r : TagRec) : App := a.onTags k (fun l => trimTags (l ++ [r]))

/-- The power-fail sequence runs: nothing is fetched, and no new journal entry is started (R38). -/
def App.failing (a : App) : Bool := a.life.failAt.isSome

/-- The journal entry of a command (R37, R492). -/
def App.journalize (a : App) (e : JEntry) : App :=
  ({ a with cmd := { a.cmd with journal := a.cmd.journal ++ [e] } }).access .supervisor .mram (64 + e.op.args.length)

/-- Whether the module streams to its partner: it leads, and the partner is Standby or Joining in phase 3, or has been sent the
copy point (R574 to R576). -/
def App.streams (a : App) : Bool :=
  (a.role == Role.solo || a.role == Role.primary) && !a.par.dropped &&
    (a.get Reg.PAR_STAT_partner_role == Role.standby || a.par.copy.any (fun c => c.point.isSome)
      || (a.get Reg.PAR_STAT_partner_role == Role.joining && a.par.peerPhase == 3))

/-- A link frame as it leaves: header, payload and CRC-32C (R565). -/
def linkBytes (kind seq : Nat) (data : List Byte) : List Byte :=
  let b := le 1 kind ++ le 1 0 ++ le 2 0 ++ le 4 seq ++ le 4 (20 + data.length) ++ le 4 0 ++ data
  b ++ le 4 (crc32c b)

/-- A frame leaves over the Lorras link under the next number (R565). -/
def App.linkOut (a : App) (kind : Nat) (data : List Byte) : App :=
  let a := a.access .link .dram data.length
  { a with par := { a.par with seq := a.par.seq + 1 }, sent := a.sent ++ [⟨10, 0, linkBytes kind (a.par.seq + 1) data⟩] }

/-- Send a frame on the Lorras link and keep it until it is acknowledged (R565). -/
def App.linkSend (a : App) (kind : Nat) (data : List Byte) : App :=
  let a := a.linkOut kind data
  { a with par := { a.par with unacked := a.par.unacked ++ [⟨a.par.seq, kind, data, a.tick⟩] } }

/-- Queue a frame for a partner that is Standby or Joining in phase 3. -/
def App.stream (a : App) (kind : Nat) (data : List Byte) : App := if a.streams then a.linkSend kind data else a

/-- A command's entry with its tag record, and a final tag record, as they go to the partner (R565). -/
def journalBytes (h : CmdHdr) (op : HostOp) : List Byte :=
  le 1 h.ctx ++ le 4 h.index.toNat ++ le 8 h.tag.toNat ++ le 2 op.opcode ++ le 4 op.crc ++ op.args
def finalBytes (h : CmdHdr) (opcode : Nat) (f : FinalRec) : List Byte :=
  le 1 h.ctx ++ le 8 h.tag.toNat ++ le 2 opcode ++ le 2 f.status.toNat ++ le 4 f.step.toNat ++ f.result

/-- A command becomes final: its journal entry ends, its tag record takes the outcome, and its completion is posted
for the original and once more for each linked duplicate (R491). A command of the Primary answers to the Primary's host. -/
def App.finish (a : App) (h : CmdHdr) (opcode st step : Nat) (result : List Byte) (repl : Bool) : App :=
  let k := h.ctx.val
  let links := match a.tagRec k h.tag with
    | some r => r.links
    | none => []
  let fin : FinalRec := ⟨BitVec.ofNat 16 st, BitVec.ofNat 32 step, padTo 32 result, repl⟩
  let a := a.onTags k (fun l => l.map (fun r => if r.tag == h.tag then { r with final := some fin, links := [] } else r))
  let known := (a.tagRec k h.tag).isSome
  let peer := a.cmd.journal.any (fun e => e.hdr.ctx == h.ctx && e.hdr.tag == h.tag && e.peer)
  let a := { a with cmd := { a.cmd with journal := a.cmd.journal.filter (fun e => !(e.hdr.ctx == h.ctx && e.hdr.tag == h.tag)) } }
  let a := if known && opcode != 0x0103 && opcode != 0x0104 then a.stream 5 (finalBytes h opcode fin) else a
  if peer then a
  else
  let a := a.reply h opcode st step result false repl
  links.foldl (fun a i => a.reply { h with index := i } opcode st step result true repl) a

/-! ### Ownership (R494 to R496) -/

/-- The place of a shared object: breakers 0x0000 + b, settings 0x0010 + b, the program 0x0020 (R494). -/
def objIndex (obj : Nat) : Option Nat :=
  if obj < 4 then some obj
  else if 0x10 ≤ obj ∧ obj < 0x14 then some (obj - 0x10 + 4)
  else if obj = 0x20 then some 8
  else none

/-- The object number at a place. -/
def objOf (i : Nat) : Nat := if i < 4 then i else if i < 8 then 0x10 + (i - 4) else 0x20

/-- Whether a context's long operation runs on the program object (R495, R500). -/
def App.longOnProgram (a : App) (k : Nat) : Bool := (vat a.cmd.long k).any (fun l => match l.op with
  | .loadFirmware .. => false
  | _ => true)

/-- The owner of an object while its window lasts: the end of the window is outside it (R13, R495). Expiry waits for
a long operation of the owner that runs on the object. -/
def App.ownerOf (a : App) (i : Nat) : Option Owner :=
  match vat a.cmd.owners i with
  | some o => if a.now < o.expiry ∨ (i = 8 ∧ a.longOnProgram o.ctx = true) then some o else none
  | none => none

/-- A class-18 event: ownership granted (old 0, new 1) or released (old 1, new 0), with the holder's context and the
reason (R502). -/
def App.postOwner (a : App) (i : Nat) (granted : Bool) (holder reason : Nat) : App :=
  a.postState 18 (objOf i) (!granted).toNat granted.toNat (holder + 256 * reason)

/-- Release an object, with the reason of the class-18 event (R495, R502). -/
def App.release (a : App) (i reason : Nat) : App :=
  match vat a.cmd.owners i with
  | some o => { a with cmd := { a.cmd with owners := vput a.cmd.owners i none } }.postOwner i false o.ctx reason
  | none => a

/-- Release every object that a context holds. -/
def App.releaseCtx (a : App) (k reason : Nat) : App :=
  (upto 9).foldl (fun a i => match vat a.cmd.owners i with
    | some o => if o.ctx = k then a.release i reason else a
    | none => a) a

/-- An accepted operate on an owned object restarts its window (R495). -/
def App.touchOwner (a : App) (i : Nat) : App :=
  { a with cmd := { a.cmd with owners := vup a.cmd.owners i (fun o => o.map (fun o => { o with expiry := a.now + o.hold * 1000000000 })) } }

/-! ### The checks and the effect (R489) -/

/-- What the effect of a command answers: a final status with its result, or that the command is final later. -/
inductive Reply where
  | final (status : Nat) (result : List Byte)
  | later
  deriving DecidableEq, Repr

/-- Whether the life-cycle state accepts a command (R610). -/
def lcyAccepts (lcy : Nat) (op : HostOp) : Bool :=
  match op with
  | .lifecycleSet .. | .resetModule .. | .forceClear .. | .adjustRate .. | .stepTime .. => true
  | .loadFirmware .. => lcy != Lcy.operational
  | .forceTime .. | .forceSet .. | .selfCal => lcy == Lcy.commissioning || lcy == Lcy.maintenance
  | op => op.cls == .q || lcy == Lcy.commissioning || lcy == Lcy.operational || lcy == Lcy.maintenance

/-- Whether the redundancy role accepts a command (R53, R568); phase 4 is Joining-Blocked. -/
def roleAccepts (role phase : Nat) (op : HostOp) : Bool :=
  if role = Role.solo ∨ role = Role.primary then true
  else if op.cls == .q then true
  else
    match op with
    | .loadFirmware .. | .resetModule .. => role == Role.leaving || (role == Role.joining && phase == 4)
    | .loadImage .. | .verifyImage .. | .eraseSlot .. => role == Role.joining && phase == 4
    | .adjustRate .. | .stepTime .. => true
    | .requestRemoval => role == Role.standby || role == Role.joining
    | _ => false

/-- Whether the present modes accept a command (R489, R568, R594, R610). -/
def App.accepts (a : App) (k : Nat) (op : HostOp) : Bool :=
  if a.life.boot = .recovery then
    match op with
    | .loadFirmware .. => k == 0 || k == 4
    | _ => false
  else lcyAccepts a.lcy op && roleAccepts a.role (a.get Reg.PAR_STAT_phase) op

/-- The context that TIM_CTL names as the host servo (R52, R74). -/
def App.servoCtx (a : App) : Nat := 4 * a.get Reg.TIM_CTL_servo_port + a.get Reg.TIM_CTL_servo_ctx

/-- The first failing check of R489 from ROLE on, as a status with its detail: `range` is the number of the first
failing argument, `objs` are the places of the objects the command touches. -/
def App.cmdCheck (a : App) (h : CmdHdr) (op : HostOp) (range : Option Nat) (objs : List Nat) : Option (Nat × Nat) :=
  if op.servoOnly && !(a.on Reg.TIM_CTL_servo_sel && a.servoCtx == h.ctx.val) then some (Status.notServo, 0)
  else if !op.roles.contains (a.get (Reg.HCX_ROLE_active_role h.ctx)) then
    some (Status.role, a.get (Reg.HCX_ROLE_active_role h.ctx))
  else if !a.accepts h.ctx op then some (Status.state, a.lcy)
  else
    match range with
    | some i => some (Status.range, op.offsetOf i)
    | none =>
      match objs.find? (fun i => (a.ownerOf i).map (·.ctx) != some h.ctx.val) with
      | some i => some (Status.notOwner, objOf i)
      | none => none

/-- The outcome of a duplicate: a tag that matches a kept record of its context is not executed (R491). -/
def App.duplicate (a : App) (h : CmdHdr) (op : HostOp) (r : TagRec) : App :=
  if r.opcode.toNat ≠ op.opcode ∨ r.crc.toNat ≠ op.crc then
    a.reply h op.opcode Status.tagReused 0 (le 4 r.opcode.toNat) false false
  else
    match r.final with
    | some f => a.reply h op.opcode f.status.toNat f.step.toNat f.result true f.replayed
    | none => a.onTags h.ctx (fun l => l.map (fun q => if q.tag == h.tag then { q with links := q.links ++ [h.index] } else q))

/-- A class-X command has taken effect: its journal entry says so, and the partner receives a notice (R492, R576). -/
def App.effected (a : App) (h : CmdHdr) : App :=
  let mark := fun (e : JEntry) => if e.hdr.ctx == h.ctx && e.hdr.tag == h.tag then { e with effect := true } else e
  ({ a with cmd := { a.cmd with journal := a.cmd.journal.map mark } }).stream 7 (le 1 h.ctx ++ le 8 h.tag.toNat)

/-- What an effect answers is concluded: a final status ends the command. -/
def App.conclude (a : App) (h : CmdHdr) (op : HostOp) (r : Reply) : App :=
  match r with
  | .final st res =>
    let a := if op.cls == .x && st == Status.ok && !op.servoOnly then a.effected h else a
    a.finish h op.opcode st 0 res false
  | .later => a

/-- Process one fetched command (R489): tag, duplicate, role, mode, range and ownership in this order; then, for the
classes J and X, its tag record and journal entry, the restarted ownership window, and the effect. With a partner that
follows, the effect waits for the acknowledgement of the entry (R576). In the power-fail sequence a command that needs an entry
stays where it is (R38). -/
def App.process (a : App) (h : CmdHdr) (op : HostOp) (range : Option Nat) (objs : List Nat)
    (eff : App → App × Reply) : App :=
  if a.failing && op.cls != .q then a
  else if h.tag = 0#64 then a.reply h op.opcode Status.badTag 0 [] false false
  else
    match a.tagRec h.ctx h.tag with
    | some r => a.duplicate h op r
    | none =>
      let kept := op.cls != .q
      let fresh : TagRec := { tag := h.tag, opcode := BitVec.ofNat 16 op.opcode, crc := BitVec.ofNat 32 op.crc, index := h.index }
      let a := if kept then a.keepTag h.ctx fresh else a
      match a.cmdCheck h op range objs with
      | some (st, d) => a.finish h op.opcode st 0 (le 4 d) false
      | none =>
        let a := objs.foldl App.touchOwner a
        if kept && a.streams && !op.servoOnly then
          let a := a.linkSend 4 (journalBytes h op)
          a.journalize { hdr := h, op := op, wait := some a.par.seq }
        else
        let a := if kept then a.journalize { hdr := h, op := op } else a
        let (a, r) := eff a
        a.conclude h op r

/-- The result of a command that fills a host buffer: the data is written when it fits, and the result carries its
length, its CRC-32C and the status of the chain; otherwise, or where the write fails, BUFFER (R488, R517). -/
def App.outData (a : App) (h : CmdHdr) (out : Out) (data : List Byte) : App × Reply :=
  if out.len.toNat < data.length then (a, .final Status.buffer (le 4 data.length))
  else
    match out.fate with
    | .done => (a.writeHost h.ctx out.addr data, .final Status.ok (le 4 data.length ++ le 4 (crc32c data)))
    | .unconfirmed => (a.writeHost h.ctx out.addr data, .final Status.ok (le 4 data.length ++ le 4 (crc32c data) ++ le 1 3))
    | .bad n => (a.writeHost h.ctx out.addr (data.take n.toNat), .final Status.buffer (le 4 data.length))

/-- The range check of an output buffer: its address is 64-byte aligned (R488). -/
def outRange (out : Out) : Option Nat := if out.addr.toNat % 64 = 0 then none else some 0

/-- The first argument, by number, whose check fails. -/
def firstFail (l : List (Nat × Bool)) : Option Nat := (l.find? (fun c => !c.2)).map (·.1)

/-! ### Long operations (R497, R498) -/

/-- A long operation starts, unless its context runs one already (R497). -/
def App.startLong (a : App) (h : CmdHdr) (op : HostOp) (total : Nat) : App × Reply :=
  if (vat a.cmd.long h.ctx).isSome then (a, .final Status.busy [])
  else ({ a with cmd := { a.cmd with long := vput a.cmd.long h.ctx (some { hdr := h, op := op, total := total }) } }, .later)

/-- A long operation is final. -/
def App.endLong (a : App) (l : LongOp) (st : Nat) (result : List Byte) : App :=
  ({ a with cmd := { a.cmd with long := vput a.cmd.long l.hdr.ctx none } }).finish l.hdr l.op.opcode st l.steps result false

/-- Whether any long operation runs. -/
def App.anyLong (a : App) : Bool := a.cmd.long.toList.any (·.isSome)

/-! ### The plain commands: NOP, SELECT, DESELECT, CANCEL (R494 to R500) -/

/-- The effect of SELECT. -/
def opSelect (k obj hold : Nat) (a : App) : App × Reply :=
  match objIndex obj with
  | none => (a, .final Status.range [])
  | some i =>
    match a.ownerOf i with
    | some o => if o.ctx = k then grant i else (a, .final Status.owned (le 4 o.ctx))
    | none => grant i
where
  /-- The grant: a window from now, its end in result bytes 8 to 15. -/
  grant (i : Nat) : App × Reply :=
    let e := a.now + hold * 1000000000
    let a := { a with cmd := { a.cmd with owners := vput a.cmd.owners i (some ⟨k, e, hold⟩) } }
    (a.postOwner i true k 0, .final Status.ok (le 8 0 ++ le 8 e))

/-- The effect of DESELECT: it releases the issuing context's ownership (R495). -/
def opDeselect (k obj : Nat) (a : App) : App × Reply :=
  match objIndex obj with
  | none => (a, .final Status.range [])
  | some i =>
    match a.ownerOf i with
    | some o => if o.ctx = k then (a.release i 0, .final Status.ok []) else (a, .final Status.notOwner (le 4 obj))
    | none => (a, .final Status.notOwner (le 4 obj))

/-- The effect of CANCEL: a running long operation of the context ends at its next step boundary (R498). -/
def opCancel (k : Nat) (target : W64) (a : App) : App × Reply :=
  match vat a.cmd.long k with
  | some l =>
    if l.hdr.tag = target then
      ({ a with cmd := { a.cmd with long := vput a.cmd.long k (some { l with cancel := true }) } }, .final Status.ok [])
    else (a, past)
  | none => (a, past)
where
  /-- A long operation that is final already, or none under that tag. -/
  past : Reply :=
    match a.tagRec k target with
    | some r => if [0x0601, 0x0602, 0x0603, 0x0701, 0x0704, 0x0903].contains r.opcode.toNat then .final Status.tooLate []
                else .final Status.notFound []
    | none => .final Status.notFound []

/-- NOP (R500). -/
def execNop (h : CmdHdr) (s : State) : Outcome State Fault Refusal :=
  s.onApp fun a => a.process h .nop none [] (fun a => (a, .final Status.ok []))

/-- SELECT (R494). -/
def execSelect (h : CmdHdr) (obj hold : W16) (s : State) : Outcome State Fault Refusal :=
  s.onApp fun a => a.process h (.select obj hold)
    (firstFail [(0, (objIndex obj.toNat).isSome), (1, 1 ≤ hold.toNat ∧ hold.toNat ≤ 600)]) [] (opSelect h.ctx obj.toNat hold.toNat)

/-- DESELECT (R495). -/
def execDeselect (h : CmdHdr) (obj : W16) (s : State) : Outcome State Fault Refusal :=
  s.onApp fun a => a.process h (.deselect obj) (firstFail [(0, (objIndex obj.toNat).isSome)]) []
    (opDeselect h.ctx obj.toNat)

/-- CANCEL (R498). -/
def execCancel (h : CmdHdr) (target : W64) (s : State) : Outcome State Fault Refusal :=
  s.onApp fun a => a.process h (.cancel target) none [] (opCancel h.ctx target)

/-- OWNERSHIP_EXPIRY (R495): the window of an object has ended and no long operation of its owner runs on it. -/
def execOwnershipExpiry (object : Fin 9) (s : State) : Outcome State Fault Refusal :=
  s.onApp fun a =>
    match vat a.cmd.owners object, a.ownerOf object with
    | some _, none => a.release object 1
    | _, _ => a

end Sys2Proof.Machine
end

