-- ==== Sys2Proof/Machine/Egress.lean ====
section
/-! DEFINITION. The egress queues of the Ethernet ports, and the peer-delay messages (R55, R57, R58, R60, R520, R521, R525). -/

namespace Sys2Proof.Machine

open Host

/-- Bytes of a number, most significant first, as published standards order them (R4). -/
def be (n v : Nat) : List Byte := (le n v).reverse

/-- The number that bytes hold, most significant first. -/
def ofBe (bs : List Byte) : Nat := ofLe bs.reverse

/-- A change to the Ethernet part, to a pair, and to the egress side of a port. -/
def App.onEth (a : App) (f : EthSt → EthSt) : App := { a with eth := f a.eth }
def App.onPair (a : App) (x : Nat) (f : PairEth → PairEth) : App := a.onEth fun e => { e with pairs := vup e.pairs x f }
def App.onOut (a : App) (p : Nat) (f : PortOut → PortOut) : App := a.onEth fun e => { e with out := vup e.out p f }

/-- A change to the time part. -/
def App.onTim (a : App) (f : TimeSt → TimeSt) : App := { a with tim := f a.tim }

/-- A frame sent. -/
def App.send (a : App) (f : OutFrame) : App := { a with sent := a.sent ++ [f] }

/-- The port group of a port: the pairs 0 to 2, E6 and E7 (R521). -/
def portGroup (p : Nat) : Nat := if p < 6 then p / 2 else p - 3

/-- The source address of a port group (R521). -/
def App.macOf (a : App) (g : Nat) : List Byte := be 6 ((a.get Reg.ETH_MAC_base + g) % 2 ^ 48)

/-! ### The queues (R525) -/

/-- The priority of a frame: its VLAN priority, 0 untagged. -/
def framePrio (d : List Byte) : Nat := if ofBe (bytesAt d 12 2) = 0x8100 then ofBe (bytesAt d 14 1) / 32 else 0

/-- Where the EtherType of a frame's content stands: behind a VLAN tag and an HSR tag. -/
def typeAt (d : List Byte) : Nat :=
  let o := if ofBe (bytesAt d 12 2) = 0x8100 then 16 else 12
  if ofBe (bytesAt d o 2) = 0x892F then o + 6 else o

/-- Whether a frame is a PTP event message: its message type is below 4 (PRESUMED from IEEE 1588, which R55 names). -/
def isPtpEvent (d : List Byte) : Bool :=
  ofBe (bytesAt d (typeAt d) 2) == 0x88F7 && decide (ofBe (bytesAt d (typeAt d + 2) 1) % 16 < 4)

/-- The ticks for which a frame holds its port at 1000 Mb/s: preamble, frame of at least 64 bytes with its check sequence, and
the gap, 8 ns a byte (R520; the lengths PRESUMED from IEEE 802.3). -/
def wireTicks (d : List Byte) : Nat := 2 * (8 + max 64 (d.length + 4) + 12)

/-- A frame put into the queue of its priority; PTP event messages have a queue before all of them. -/
def PortOut.enqueue (o : PortOut) (f : OutFrame) : PortOut :=
  if isPtpEvent f.data then { o with ptp := o.ptp ++ [f] } else { o with queues := vup o.queues (framePrio f.data) (· ++ [f]) }

/-- The frame that a port sends next, with what remains: a PTP event message, else the oldest of the highest priority. -/
def PortOut.next (o : PortOut) : Option (OutFrame × PortOut) :=
  match o.ptp with
  | f :: l => some (f, { o with ptp := l })
  | [] => [7, 6, 5, 4, 3, 2, 1, 0].findSome? (fun q => match vat o.queues q with
    | f :: l => some (f, { o with queues := vput o.queues q l })
    | [] => none)

/-- The egress stamp of a frame that leaves now: the port's transmit latency after the present instant (R60). -/
def App.egress (a : App) (p : Nat) : Nat := a.now + (a.get (Reg.TIM_PHY_LAT_tx_lat p) + 8) / 16

/-- The ingress instant at the stamp point of R60: now, less the port's receive latency of 1/16 ns units. -/
def App.ingress (a : App) (p : Nat) : Nat := a.now - (a.get (Reg.TIM_PHY_LAT_rx_lat p) + 8) / 16

/-- The ingress stamp of a received frame, corrected by its port's receive latency (R60). -/
def App.rxStamp (a : App) (h : RxHead) : Nat := h.ingress.toNat - (a.get (Reg.TIM_PHY_LAT_rx_lat h.port) + 8) / 16

/-- A PTP timestamp as the standard orders it. -/
def ptpStamp (t : Nat) : List Byte := be 6 (t / 1000000000) ++ be 4 (t % 1000000000)

/-- A PTP header of 34 bytes and a link-local frame around a message of 54 bytes on a port: PRESUMED from IEEE 1588, which R55
names. The clock's own identity is not given. -/
def App.ptpHead (a : App) (type flags corr p seq logInt : Nat) : List Byte :=
  be 1 type ++ be 1 0x12 ++ be 2 54 ++ be 1 (a.get Reg.TIM_PTP_CFG_domain) ++ be 1 0 ++ be 2 flags ++ be 8 corr ++ be 4 0
    ++ be 8 Config.clockIdentity.toNat ++ be 2 (p + 1) ++ be 2 seq ++ be 1 5 ++ be 1 logInt
def App.ptpFrame (a : App) (p : Nat) (msg : List Byte) : List Byte :=
  [0x01, 0x80, 0xC2, 0x00, 0x00, 0x0E] ++ a.macOf (portGroup p) ++ be 2 0x88F7 ++ msg

/-- What the egress stamp of a peer-delay message gives: the instant of the own request, or the follow-up of a response, which
carries it (R55, R58, R60). -/
def App.ptpLeft (a : App) (p : Nat) (f : OutFrame) : App :=
  let msg := f.data.drop 14
  let seq := ofBe (bytesAt msg 30 2)
  match ofBe (bytesAt msg 0 1) with
  | 2 => a.onTim fun t => { t with pdSent := vput t.pdSent p (some (seq, a.egress p)) }
  | 3 => a.onOut p fun o => o.enqueue ⟨9, p, a.ptpFrame p (a.ptpHead 0xA 0 (vat a.tim.pdCorr p) p seq 0x7F
      ++ ptpStamp (a.egress p) ++ bytesAt msg 44 10)⟩
  | _ => a

/-- A port whose frame in progress has ended sends its next one (R525). -/
def App.portServe (a : App) (p : Nat) : App :=
  let o := vat a.eth.out p
  if a.tick < o.busyTo then a
  else
    match o.next with
    | some (f, o) =>
      let a := (a.onOut p fun _ => { o with busyTo := a.tick + wireTicks f.data }).send f
      if f.kind = 9 then a.ptpLeft p f else a
    | none => a

/-- The ports at a tick: each that is idle sends what waits (R525). -/
def App.portsTick (a : App) : App := (upto 8).foldl App.portServe a

/-- The master that moves frames of a kind: GOOSE and sampled values have hardware of their own (R33). -/
def frameMaster (kind : Nat) : Master := if kind = 3 ∨ kind = 4 then .gooseSv else .ethernet

/-- A frame for one port, when the port is enabled: it joins its queue, and leaves at once where the port is idle. -/
def App.portSend (a : App) (kind p : Nat) (data : List Byte) : App :=
  if a.on (Reg.ETH_PORT_en p) then
    ((a.access (frameMaster kind) .dram data.length).onOut p fun o => o.enqueue ⟨kind, p, data⟩).portServe p
  else a

/-! ### Peer delay (R55, R58) -/

/-- A Pdelay_Req of a port under its next sequence number. -/
def App.pdelayAsk (a : App) (p : Nat) : App :=
  let q := (vat a.tim.pdSeq p + 1) % 65536
  let a := a.onTim fun t => { t with pdSeq := vput t.pdSeq p q, pdSent := vput t.pdSent p none, pdResp := vput t.pdResp p none }
  a.portSend 9 p (a.ptpFrame p (a.ptpHead 2 0 0 p q 0 ++ be 10 0 ++ be 10 0))

/-- The answer to a Pdelay_Req: a two-step Pdelay_Resp with the request's ingress stamp, whose follow-up leaves with its egress
stamp. -/
def App.pdelayAnswer (a : App) (p src sport seq corr : Nat) : App :=
  let a := a.onTim fun t => { t with pdCorr := vput t.pdCorr p corr }
  a.portSend 9 p (a.ptpFrame p (a.ptpHead 3 0x0200 0 p seq 0x7F ++ ptpStamp (a.ingress p) ++ be 8 src ++ be 2 sport))

/-- A measured peer link delay joins the last eight of its port (R58). -/
def App.pdelayPut (a : App) (p : Nat) (d : Int) : App :=
  a.onTim fun t => { t with pdelay := vup t.pdelay p (fun l => (d.toNat :: l).take 8) }

end Sys2Proof.Machine
end

