-- ==== Sys2Proof/Machine/Time.lean ====
section
/-! DEFINITION. Wall time: the clock, its quality, steps, the servo and its sources, the backup domain and the time
commands (R40 to R66, R73). -/

namespace Sys2Proof.Machine

open Host

/-- The increments that are accepted: 3.998 ns to 4.002 ns, the bounds being the nearest codes (R41, R639). -/
def incrMin : Nat := 0x3FF7CED91
def incrMax : Nat := 0x40083126F
def incrOk (i : Nat) : Bool := incrMin ≤ i && i ≤ incrMax

/-- An increment takes effect at the next tick; the history keeps what the 60 s mean needs (R41, R54). -/
def App.setIncr (a : App) (i : W64) : App :=
  a.onTim fun t =>
    let old := t.incrHist.filter (fun e => a.tick < e.1 + 60 * tS)
    let edge := (t.incrHist.filter (fun e => !(a.tick < e.1 + 60 * tS))).take 1
    { t with incr := i, incrHist := (a.tick, i) :: (old ++ edge) }

/-- The time-weighted sum of the increments over [start, stop), newest first. -/
def incrSum (start : Nat) (stop : Nat) : List (Nat × W64) → Nat
  | [] => 0
  | (t, v) :: r =>
    if stop ≤ start then 0
    else (stop - max t start) * v.toNat + incrSum start (min stop t) r

/-- The mean of the increment over the last 60 s, or since reset when that is shorter (R54). -/
def App.meanIncr (a : App) : W64 :=
  let start := max a.life.bootAt (a.tick - 60 * tS)
  if a.tick ≤ start then a.tim.incr
  else BitVec.ofNat 64 (incrSum start a.tick a.tim.incrHist / (a.tick - start))

/-- Without a grandmaster and without IRIG-B control bits the held UTC offset is TIM_UTC_DEFAULT, with no leap second pending (R43). -/
def App.utcFallback (a : App) : App :=
  if a.tim.gm.isSome || a.tim.irigUtc then a
  else a.onTim fun t => { t with utcOffset := BitVec.ofNat 16 (a.get Reg.TIM_UTC_DEFAULT_utc_offset), utcValid := false, leap61 := false, leap59 := false }

/-- Whether the reference input is selected and valid: four consecutive edges or frames as expected, the last within
1.5 s (R54). -/
def App.refValid (a : App) : Bool :=
  a.get Reg.TIM_CTL_ref_in != 0 && 4 ≤ a.tim.refGood && !a.since a.tim.refAt (1500 * tMs)

/-- The source code that goes with a state (R73). -/
def App.sourceOf (a : App) (q : TimeQ) : Byte :=
  match q with
  | .traceable => BitVec.ofNat 8 (1 + a.get Reg.TIM_CTL_ptp_pair)
  | .fallback => BitVec.ofNat 8 (3 + a.get Reg.TIM_CTL_ref_in)
  | _ => 0

/-- A change of the time-quality state: class-20 event and, with tq 0 to 4, an anchor record (R502, R599). -/
def App.setTq (a : App) (q : TimeQ) : App :=
  if a.tim.tq = q then a
  else
    let old := a.tqc
    let a := a.onTim fun t => { t with tq := q, source := a.sourceOf q }
    let a := a.postState 20 0 old q.code 0
    a.anchor 1

/-- Holdover: the increment frozen at its mean, hold_elapsed from 0 (R54). -/
def App.goHoldover (a : App) : App :=
  let a := a.setIncr a.meanIncr
  let a := a.onTim fun t => { t with holdAt := a.tick }
  a.setTq .holdover

/-- The grandmaster is lost: Traceable goes to Fallback on a valid reference input, else to Holdover (R54). -/
def App.gmLost (a : App) : App :=
  if a.tim.tq = .traceable then (if a.refValid then a.setTq .fallback else a.goHoldover) else a

/-- A second in the unit of the modulator's phase. -/
def modSecond : Nat := 1000000000 * 100000 * 2 ^ 32

/-- A tick of the slew: at most 10 ppm of the tick's increment (R72). -/
def modSlew (incr : Nat) (e : Int) : Int := if 0 ≤ e then max 0 (e - incr) else min 0 (e + incr)

/-- A phase within half a second: whole seconds leave the edges of a second where they are (R152). -/
def modWrap (e : Int) : Int := (e + modSecond / 2) % modSecond - modSecond / 2

/-- The instant on the scale of the modulator's edges, ns: wall time less the phase (R72, R152). -/
def Wall.modNs (w : Wall) (e : Int) : Int := (((w.total * 2 ^ 32 + w.frac.toNat) * 100000 : Nat) - e) / (100000 * 2 ^ 32 : Nat)

/-- The present instant on that scale, and the phase of the modulator clock behind wall time, in ns. -/
def App.modNow (a : App) : Nat := (a.tim.wall.modNs a.tim.modErr).toNat
def App.modLag (a : App) : Int := a.tim.modErr / (100000 * 2 ^ 32 : Nat)

/-- The same phase, and the present instant, in 1/16 ns (R164). -/
def App.modLag16 (a : App) : Int := 16 * a.tim.modErr / (100000 * 2 ^ 32 : Nat)
def App.now16 (a : App) : Nat := 16 * a.now + a.tim.wall.frac.toNat / 2 ^ 28

/-- A step moves the wall instants of the CIC periods that an angle clock remembers, and no angle (R79). -/
def Clock.shift (c : Clock) (offset : Int) : Clock :=
  { c with trace := c.trace.map (fun (e : Nat × Nat) => (((e.1 : Int) + 16 * offset).toNat, e.2)) }

/-- A jump of the modulator's scale by whole seconds moves the instant from which a pending DEC_ change counts (R171). -/
def AnaSt.shift (x : AnaSt) (jump : Int) : AnaSt :=
  { x with decPend := x.decPend.map (fun (p : List (Nat × Nat) × Nat) => (p.1, ((p.2 : Int) + jump).toNat)) }

/-- The target of a wall compare unit as ns. -/
def App.cmpTarget (a : App) (n : Nat) : Nat :=
  a.get (Reg.TIM_CMP_TGT_S_tgt_s n) * 1000000000 + a.get (Reg.TIM_CMP_TGT_NS_tgt_ns n)

/-- A step carries wall time past targets not served before: those units fire late, at the step tick (R69, R70). -/
def App.markPassed (a : App) (old : Nat) : App :=
  (upto 16).foldl (fun a n =>
    if a.on (Reg.TIM_CMP_CTL_en n) ∧ vat a.tim.served n = false ∧ old < a.cmpTarget n ∧ a.cmpTarget n ≤ a.now then
      a.onTim fun t => { t with lateReq := vput t.lateReq n true }
    else a) a

/-- The stamps of the mirror fit moved by a step (R333). -/
def App.shiftFit (a : App) (offset : Int) : App :=
  { a with mbox := { a.mbox with fit := a.mbox.fit.map (fun (e : Nat × Nat) => (e.1, ((e.2 : Int) + offset).toNat)) } }

/-- What a step moves beside wall time, where the modulator's scale read `before`: no instant of the modulator's edges, no angle and
no A48 stamp (R51, R79, R171). -/
def App.shiftAxes (a : App) (before : Nat) (offset : Int) : App :=
  { a with clk := a.clk.map (fun c => c.shift offset), ana := a.ana.shift ((a.modNow : Int) - before) }

/-- Wall time moves by the offset and the modulator's edges do not (R51, R72); tsc counts, a pending refused offset ends, and the
stamps of the mirror fit move with wall time (R47, R53, R333). What a step below 0 s would do is not stated: the model stops at 0 s
(DESIGN CHOICE, log entry 178). -/
def App.stepped (a : App) (offset : Int) : App :=
  ((a.onTim fun t =>
    { t with wall := t.wall.ofTotal ((t.wall.total : Int) + offset).toNat
             modErr := modWrap (t.modErr + offset * (100000 * 2 ^ 32 : Nat)), tsc := t.tsc + 1, refusedPending := false, steppedOnce := true
             refAsked := false }).shiftFit offset).shiftAxes a.modNow offset

/-- Apply a step: a record and an anchor are written, and compare units passed fire late (R47, R69). A forced step sets Holdover
(R50). -/
def App.applyStep (a : App) (offset : Int) (forced : Bool) : App :=
  let old := a.now
  let a := a.stepped offset
  let w := toBits 64 offset
  let a := a.record 0x0010 (w % 2 ^ 32) (w / 2 ^ 32) a.tsc forced.toNat
  let a := a.markPassed old
  if forced then
    let a' := a.onTim fun t => { t with tq := .holdover, holdAt := a.tick, source := 0 }
    let a' := a'.anchor 2
    if a.tim.tq = .holdover then a'
    else (a'.postState 20 0 a.tqc 2 0).anchor 1
  else a.anchor 2

/-- Refuse a step: time, increment and tsc stay; flag, count and record; a refused step takes Traceable out of lock
(R48, R54). -/
def App.refuseStep (a : App) (offset : Int) : App :=
  let w := toBits 64 offset
  let a := a.onTim fun t => { t with stepRefused := true, refusedSteps := t.refusedSteps + 1, steppedOnce := true }
  let a := a.record 0x0011 (w % 2 ^ 32) (w / 2 ^ 32) 0 0
  a.gmLost

/-- Whether a step of this offset is applied: within the limit, or the first step since reset from Restored or Invalid
with first_free 1 (R48, R49). -/
def App.stepAllowed (a : App) (offset : Int) : Bool :=
  offset.natAbs ≤ a.get Reg.TIM_STEP_LIMIT_limit_ns
    || ((a.tim.tq == .restored || a.tim.tq == .invalid) && a.on Reg.TIM_CTL_first_free && !a.tim.steppedOnce)

/-- A step under the step rules (R47 to R49). -/
def App.tryStep (a : App) (offset : Int) : App × Bool :=
  if a.stepAllowed offset then (a.applyStep offset false, true) else (a.refuseStep offset, false)

/-- A lock to the grandmaster: Traceable from every other state (R54). -/
def App.gmLock (a : App) : App := if a.tim.tq = .traceable then a else a.setTq .traceable

/-- hold_elapsed: seconds in Holdover or Drifting (R73). -/
def App.holdElapsed (a : App) : Nat :=
  if a.tim.tq = .holdover ∨ a.tim.tq = .drifting then (a.tick - a.tim.holdAt) / tS else 0

/-- Insertion into a rising list. -/
def insertNat (x : Nat) : List Nat → List Nat
  | [] => [x]
  | y :: t => if x ≤ y then x :: y :: t else y :: insertNat x t

/-- A list of numbers in rising order. -/
def sortNat (l : List Nat) : List Nat := l.foldr insertNat []

/-- The median of up to eight measurements: the mean of the middle two, rounded down, for an even count (R58). -/
def median (l : List Nat) : Nat :=
  let s := sortNat l
  if s.length = 0 then 0
  else if s.length % 2 = 1 then s.getD (s.length / 2) 0
  else (s.getD (s.length / 2 - 1) 0 + s.getD (s.length / 2) 0) / 2

/-- The median peer link delay of a port. -/
def App.linkDelay (a : App) (p : Nat) : Nat := median (vat a.tim.pdelay p)

/-- The ordinary-clock port: of the pair named in TIM_CTL, the one with the smaller path delay (R56). -/
def App.ocPort (a : App) : Nat :=
  let p := 2 * a.get Reg.TIM_CTL_ptp_pair
  if vat a.tim.pdelay p = [] then p + 1
  else if vat a.tim.pdelay (p + 1) = [] then p
  else if a.linkDelay p ≤ a.linkDelay (p + 1) then p else p + 1

/-- The flags of the time status block (R73). -/
def App.timeFlags (a : App) : Nat :=
  a.tim.stepRefused.toNat + 2 * a.tim.gmConflict.toNat + 4 * a.tim.bkpLost.toNat + 8 * a.tim.refLost.toNat
    + 16 * a.tim.hostServoSilent.toNat

/-- The 64-byte time status block (R73). -/
def App.timeBlock (a : App) : List Byte :=
  let t := a.tim
  let gm : Announce := t.gm.getD default
  w80Bytes a.now ++ le 1 a.tqc ++ le 1 a.tsc ++ le 2 t.utcOffset.toNat
    ++ le 1 (t.leap61.toNat + 2 * t.leap59.toNat + 4 * t.utcValid.toNat) ++ le 1 t.source.toNat
    ++ le 8 t.incr.toNat ++ le 4 (toBits 32 (satSigned 32 t.offsetNs)) ++ le 4 (a.linkDelay a.ocPort)
    ++ le 8 gm.identity.toNat ++ le 1 gm.cls.toNat ++ le 1 gm.steps.toNat ++ le 2 a.timeFlags
    ++ le 4 a.holdElapsed ++ le 4 t.refusedSteps.toNat ++ le 12 0

/-- The flags of the time status block cleared (R73). -/
def App.clearTimeFlags (a : App) : App :=
  a.onTim fun t => { t with stepRefused := false, gmConflict := false, bkpLost := false, refLost := false, hostServoSilent := false }

/-- The effect of READ_TIME: the block shows the flags as before clearing (R73, R500). -/
def opReadTime (h : CmdHdr) (out : Out) (clear : Byte) (a : App) : App × Reply :=
  let (b, r) := a.outData h out a.timeBlock
  (if clear = 1#8 then b.clearTimeFlags else b, r)

/-- The effect of FORCE_TIME: an offset in ns, or an absolute W80 (R50). -/
def opForceTime (mode : Byte) (ns : W32) (value : W64) (a : App) : App × Reply :=
  let offset : Int :=
    if mode = 0#8 then value.toInt
    else ((value.toNat % 2 ^ 48) * 1000000000 + ns.toNat : Nat) - (a.now : Int)
  (a.applyStep offset true, .final Status.ok [])

/-- The effect of ADJUST_RATE: the increment in every state; the lock flag brings the clock to Traceable unless a
refused offset is pending (R53). -/
def opAdjustRate (incr : W64) (lock : Byte) (a : App) : App × Reply :=
  let a := a.setIncr incr
  let a := a.onTim fun t => { t with adjustAt := a.tick }
  (if lock = 1#8 ∧ a.tim.refusedPending = false then a.gmLock else a, .final Status.ok [])

/-- The effect of STEP_TIME: R47 to R49 govern the offset; a refused one becomes pending (R53). -/
def opStepTime (offset : W64) (a : App) : App × Reply :=
  match a.tryStep offset.toInt with
  | (a, true) => (a, .final Status.ok [])
  | (a, false) => (a.onTim fun t => { t with refusedPending := true }, .final Status.stepRefused [])

/-- READ_TIME (R73). -/
def execReadTime (h : CmdHdr) (out : Out) (clear : Byte) (s : State) : Outcome State Fault Refusal :=
  s.onApp fun a => a.process h (.readTime out clear)
    (firstFail [(0, out.addr.toNat % 64 = 0), (2, clear.toNat ≤ 1)]) [] (opReadTime h out clear)

/-- FORCE_TIME (R50). -/
def execForceTime (h : CmdHdr) (mode : Byte) (ns : W32) (value : W64) (s : State) : Outcome State Fault Refusal :=
  s.onApp fun a => a.process h (.forceTime mode ns value)
    (firstFail [(0, mode.toNat ≤ 1), (1, if mode = 0#8 then ns = 0#32 else ns.toNat ≤ 999999999),
                (2, mode = 0#8 ∨ value.toNat < 2 ^ 48)]) []
    (opForceTime mode ns value)

/-- ADJUST_RATE (R53). -/
def execAdjustRate (h : CmdHdr) (incr : W64) (lock : Byte) (s : State) : Outcome State Fault Refusal :=
  s.onApp fun a => a.process h (.adjustRate incr lock)
    (firstFail [(0, incrOk incr.toNat), (1, lock.toNat ≤ 1)]) [] (opAdjustRate incr lock)

/-- STEP_TIME (R53). -/
def execStepTime (h : CmdHdr) (offset : W64) (s : State) : Outcome State Fault Refusal :=
  s.onApp fun a => a.process h (.stepTime offset) none [] (opStepTime offset)

/-! ### Sources (R52 to R58) -/

/-- The order in which two Announce data sets compare (IEEE 1588 dataset comparison on priority1, class, accuracy,
variance, priority2, identity, steps removed): PRESUMED from the standard that R52 and R55 name. -/
def announceKey (m : Announce) : Nat :=
  (((((m.prio1.toNat * 256 + m.cls.toNat) * 256 + m.acc.toNat) * 65536 + m.var.toNat) * 256 + m.prio2.toNat)
    * 2 ^ 64 + m.identity.toNat) * 65536 + m.steps.toNat

/-- The UTC data that the selected grandmaster's Announce carries (R43). -/
def App.takeUtc (a : App) (m : Announce) : App :=
  a.onTim fun t => { t with utcOffset := m.utcOffset, utcValid := m.utcValid, leap61 := m.leap61, leap59 := m.leap59 }

/-- An Announce message: best-master selection among clocks whose class is at most accept_class; a selected clock whose class has
risen above it is selected no longer (R43, R52, R56). -/
def App.onAnnounce (a : App) (m : Announce) : App :=
  if a.get Reg.TIM_PTP_CFG_accept_class < m.cls.toNat then
    match a.tim.gm with
    | some g => if g.src = m.src then (a.onTim fun t => { t with gm := none, gmNew := false, gmGone := true, syncGood := 0, syncWait := none }).utcFallback else a
    | none => a
  else
    match a.tim.gm with
    | none => (a.onTim fun t => { t with gm := some m, gmNew := true, gmGone := false, syncAt := a.tick, syncGood := 0 }).takeUtc m
    | some g =>
      if g.src = m.src then
        (a.onTim fun t => { t with gm := some m, gmNew := t.gmNew || g.identity != m.identity }).takeUtc m
      else if announceKey m < announceKey g then
        (a.onTim fun t => { t with gm := some m, gmNew := true, syncAt := a.tick, syncGood := 0 }).takeUtc m
      else a

/-- The increment that the supervisor servo writes, held within the accepted range: a free value (R52). -/
def App.servoAdjust (a : App) : App :=
  let (i, a) := a.fresh
  a.setIncr (BitVec.ofNat 64 (max incrMin (min incrMax (Config.servoIncr i).toNat)))

/-- A measured offset from the selected grandmaster: the rows of R54 for a new grandmaster, and the supervisor servo
with its lock criterion of eight Syncs within 1 µs. -/
def App.onOffset (a : App) (offset : Int) : App :=
  let a := a.onTim fun t =>
    { t with offsetNs := offset, syncAt := a.tick, syncGood := if offset.natAbs ≤ 1000 then t.syncGood + 1 else 0 }
  if a.on Reg.TIM_CTL_servo_sel then { a with tim := { a.tim with gmNew := false } }
  else if a.tim.gmNew then
    let a := a.onTim fun t => { t with gmNew := false }
    match a.tryStep (-offset) with
    | (a, true) => a
    | (a, false) => a.onTim fun t => { t with gmConflict := true }
  else if offset.natAbs > a.get Reg.TIM_STEP_LIMIT_limit_ns then
    if a.tim.tq = .traceable then (a.tryStep (-offset)).1 else a
  else
    let a := a.servoAdjust
    if 8 ≤ a.tim.syncGood then a.gmLock else a

/-- A correctionField in ns, rounded to the nearest (R57). -/
def corrNs (c : W64) : Int := divRound c.toInt 65536

/-- An Announce; a Sync, or a Follow_Up of a two-step Sync, from the selected grandmaster on the port that serves; and the messages
of the peer-delay exchange, whose arithmetic is PRESUMED from IEEE 1588, which R55 names (R52, R55, R56, R58). -/
def App.onPtp (a : App) (p : Nat) (m : PtpMsg) : App :=
  let own := a.get Reg.TIM_PTP_CFG_domain
  let here := p / 2 == a.get Reg.TIM_CTL_ptp_pair && (a.get Reg.TIM_CTL_ptp_pair != 0 || p == a.ocPort)
  match m with
  | .announce d x => if d.toNat = own ∧ p / 2 = a.get Reg.TIM_CTL_ptp_pair then a.onAnnounce x else a
  | .sync d src seq two sec ns corr =>
    if d.toNat = own ∧ here ∧ (a.tim.gm.map (·.src)) = some src then
      if two then a.onTim fun t => { t with syncWait := some (seq.toNat, a.ingress p, corrNs corr, p), syncAt := a.tick }
      else a.onOffset ((a.ingress p : Int) - ((sec.toNat * 1000000000 + ns.toNat : Nat) + corrNs corr + a.linkDelay p))
    else a
  | .followUp d src seq sec ns corr =>
    match a.tim.syncWait with
    | some (q, ing, c, port) =>
      if d.toNat = own ∧ here ∧ (a.tim.gm.map (·.src)) = some src ∧ q = seq.toNat ∧ port = p then
        (a.onTim fun t => { t with syncWait := none }).onOffset
          ((ing : Int) - ((sec.toNat * 1000000000 + ns.toNat : Nat) + c + corrNs corr + a.linkDelay p))
      else a
    | none => a
  | .pdelayReq d src port seq corr => if d.toNat = own then a.pdelayAnswer p src.toNat port.toNat seq.toNat corr.toNat else a
  | .pdelayResp d two req port seq sec ns corr =>
    match vat a.tim.pdSent p with
    | some (q, t1) =>
      if d.toNat = own ∧ req = Config.clockIdentity ∧ port.toNat = p + 1 ∧ q = seq.toNat then
        if two then a.onTim fun t => { t with pdResp := vput t.pdResp p (some (q, a.ingress p, sec.toNat * 1000000000 + ns.toNat, corrNs corr)) }
        else a.pdelayPut p (((a.ingress p : Int) - t1 - corrNs corr) / 2)
      else a
    | none => a
  | .pdelayRespFollowUp d req port seq sec ns corr =>
    match vat a.tim.pdSent p, vat a.tim.pdResp p with
    | some (q, t1), some (r, t4, t2, c) =>
      if d.toNat = own ∧ req = Config.clockIdentity ∧ port.toNat = p + 1 ∧ q = seq.toNat ∧ r = q then
        (a.onTim fun t => { t with pdResp := vput t.pdResp p none }).pdelayPut p
          (((t4 : Int) - t1 - ((sec.toNat * 1000000000 + ns.toNat : Nat) - t2) - c - corrNs corr) / 2)
      else a
    | _, _ => a

/-- The class-6 event of a received PTP message: two slots, to the host-servo context alone (R52, R480). -/
def App.postPtp (a : App) (p : Nat) (raw : List Byte) : App :=
  if a.on Reg.TIM_CTL_servo_sel ∧ a.ctxLive a.servoCtx then
    a.postTo a.servoCtx 6 (w80Bytes (a.ingress p) ++ le 1 a.tqc ++ le 1 a.tsc ++ le 1 p ++ le 1 raw.length ++ le 2 0 ++ padTo 64 raw)
  else a

/-- Whether a PTP message is an event message. -/
def ptpIsEvent : PtpMsg → Bool
  | .sync .. | .pdelayReq .. | .pdelayResp .. => true
  | .announce .. | .followUp .. | .pdelayRespFollowUp .. => false

/-- The limit of 10,000 supervisor-bound frames in a second of a port: whether one more is taken; excess frames are counted. When a
second begins is not stated: the model's begins with its first frame (R526, log entry 179). -/
def App.boundTake (a : App) (p : Nat) : App × Bool :=
  let (t, n) := vat a.eth.bound p
  if n = 0 ∨ a.since t tS then (a.onEth fun e => { e with bound := vput e.bound p (a.tick, 1) }, true)
  else if n < 10000 then (a.onEth fun e => { e with bound := vput e.bound p (t, n + 1) }, true)
  else (a.satAdd (Reg.ETH_RXDROP_limited p) 1, false)

/-- PTP_MESSAGE_RX (R52): a received message, with its bytes from the PTP header on; general messages are bound for the supervisor
(R526). -/
def execPtpMessageRx (port : Fin 6) (msg : PtpMsg) (raw : List Byte) (s : State) : Outcome State Fault Refusal :=
  s.onApp fun a =>
    if a.on Reg.TIM_CTL_ptp_en then
      match (if ptpIsEvent msg then (a, true) else a.boundTake port) with
      | (a, true) => (a.postPtp port raw).onPtp port msg
      | (a, false) => a
    else a

/-- PDELAY_INTERVAL (R55, R58): every second a port of a pair asks its peer; the answer is measured as it arrives. -/
def execPdelayInterval (pair : Fin 3) (side : Fin 2) (s : State) : Outcome State Fault Refusal :=
  s.onApp fun a =>
    let port := 2 * pair.val + side.val
    if a.on Reg.TIM_CTL_ptp_en ∧ a.since (vat a.tim.pdelayAt port) tS then
      (a.onTim fun t => { t with pdelayAt := vput t.pdelayAt port a.tick }).pdelayAsk port
    else a

/-- ANNOUNCE_TIMEOUT (R54): no Sync from the selected grandmaster for ann_timeout Announce intervals of 1 s. -/
def execAnnounceTimeout (s : State) : Outcome State Fault Refusal :=
  s.onApp fun a =>
    if (a.tim.gm.isSome ∨ a.tim.gmGone = true) ∧ a.since a.tim.syncAt (a.get Reg.TIM_PTP_CFG_ann_timeout * tS) then
      ((a.onTim fun t => { t with gm := none, gmNew := false, gmGone := false, syncGood := 0, syncWait := none }).utcFallback).gmLost
    else a

/-- HOST_SERVO_SILENCE (R53): no ADJUST_RATE from the named context for 4 s. -/
def execHostServoSilence (s : State) : Outcome State Fault Refusal :=
  s.onApp fun a =>
    if a.on Reg.TIM_CTL_servo_sel ∧ a.since a.tim.adjustAt (4 * tS) then
      (a.onTim fun t => { t with hostServoSilent := true }).gmLost
    else a

/-- HOLD_LIMIT_REACHED (R54): Holdover has lasted TIM_HOLD_LIMIT. -/
def execHoldLimitReached (s : State) : Outcome State Fault Refusal :=
  s.onApp fun a =>
    if a.tim.tq = .holdover ∧ a.since a.tim.holdAt (a.get Reg.TIM_HOLD_LIMIT_hold_s * tS) then
      (a.setTq .drifting).record 0x0012 a.holdElapsed 0 0 0
    else a

/-- The loss of the reference input: Fallback goes to Holdover, with ref_lost set, and its UTC data are gone (R43, R54). -/
def App.refGone (a : App) : App :=
  let was := a.tim.tq
  let a := (a.onTim fun t => { t with refGood := 0, refAsked := false, irigUtc := false }).utcFallback
  if was = .fallback then (a.goHoldover).onTim fun t => { t with refLost := true } else a

/-- The offset of the clock from the reference input: the distance to the nearest second for 1PPS, the difference
from the converted UTC for IRIG-B; both after the cable delay (R62, R63). -/
def App.refOffset (a : App) (r : RefSignal) : Int :=
  let t : Int := (a.now : Int) - a.get Reg.TIM_REF_CFG_cable_delay
  match r with
  | .pps _ => (t + 500000000) % 1000000000 - 500000000
  | .irig _ u _ => t - ((u.toNat : Int) + asSigned 16 a.tim.utcOffset.toNat) * 1000000000

/-- A step toward the reference input under the step rules: a refused one is not asked for again while its offset persists (R48,
R63). -/
def App.refStep (a : App) (offset : Int) : App :=
  if a.stepAllowed (-offset) then a.applyStep (-offset) false
  else if a.tim.refAsked then a
  else (a.refuseStep (-offset)).onTim fun t => { t with refAsked := true }

/-- A valid edge or frame of the selected reference input, with the measured offset: count those within 1 µs of expected, and enter
Fallback on the fourth in a row. The supervisor servo steps toward the input while the clock has no lock and follows it in Fallback;
a host servo owns the increment and asks for its own steps (R52 to R54, R63, R73). -/
def App.onRef (a : App) (offset : Int) : App :=
  let good := offset.natAbs ≤ 1000
  let a := a.onTim fun t => { t with refAt := a.tick, refGood := if good then t.refGood + 1 else 0 }
  let host := a.on Reg.TIM_CTL_servo_sel
  match a.tim.tq with
  | .traceable => a
  | .fallback =>
    let a := a.onTim fun t => { t with offsetNs := offset }
    if host then a else if offset.natAbs ≤ a.get Reg.TIM_STEP_LIMIT_limit_ns then a.servoAdjust else a.refStep offset
  | _ =>
    let a := a.onTim fun t => { t with offsetNs := offset }
    if good then (if 4 ≤ a.tim.refGood then a.setTq .fallback else a)
    else if host then a else a.refStep offset

/-- REFERENCE_EDGE (R63). -/
def execReferenceEdge (signal : RefSignal) (s : State) : Outcome State Fault Refusal :=
  s.onApp fun a =>
    match signal with
    | .pps falling =>
      if a.get Reg.TIM_CTL_ref_in = 1 ∧ falling = a.on Reg.TIM_REF_CFG_polarity then a.onRef (a.refOffset signal) else a
    | .irig valid _ bits =>
      if a.get Reg.TIM_CTL_ref_in = 2 then
        if valid then
          let a := if a.tim.gm.isNone then
              match bits with
              | some u => a.onTim fun t => { t with utcOffset := u.offset, utcValid := true, leap61 := u.leap61, leap59 := u.leap59, irigUtc := true }
              | none => a
            else a
          a.onRef (a.refOffset signal)
        else a.refGone
      else a

/-- REFERENCE_LOST (R54): no edge for 1.5 s, in Fallback or with IRIG-B data held. -/
def execReferenceLost (s : State) : Outcome State Fault Refusal :=
  s.onApp fun a =>
    if (a.tim.tq = .fallback ∨ a.tim.irigUtc = true) ∧ a.since a.tim.refAt (1500 * tMs) then a.refGone else a

/-! ### The backup domain (R64 to R66) -/

/-- BACKUP_WRITE (R64): once per second, with tq 0 to 4. -/
def execBackupWrite (s : State) : Outcome State Fault Refusal :=
  s.onApp fun a =>
    if a.tim.tq ≠ .invalid ∧ a.since a.bkp.wroteAt tS then
      { a with bkp := { a.bkp with valid := true, sec := a.tim.wall.sec, sub := BitVec.ofNat 15 (a.tim.wall.ns * 32768 / 1000000000),
                                   wroteAt := a.tick } }
    else a

/-- OT32 and PC32 copied into their MRAM mirror (R66). -/
def App.mirrorOt (a : App) : App :=
  { a with bkp := { a.bkp with mirrorOt := BitVec.ofNat 32 a.ot, mirrorPc := a.bkp.pc, mirrorAt := a.opTicks } }

/-- OT_MIRROR (R66): every 3,600 s of operating time. -/
def execOtMirror (s : State) : Outcome State Fault Refusal :=
  s.onApp fun a => if a.bkp.mirrorAt + 3600 * tS ≤ a.opTicks then a.mirrorOt else a

/-- ANCHOR_PERIODIC (R599): every 3,600 s of operating time, with tq 0 to 4. -/
def execAnchorPeriodic (s : State) : Outcome State Fault Refusal :=
  s.onApp fun a => if a.bkp.anchorAt + 3600 * tS ≤ a.opTicks then a.anchor 3 else a

/-- Wall time as the backup counters hold it, the nanoseconds rounded from the sub-second count (R65). -/
def Backup.total (b : Backup) : Nat := b.sec.toNat * 1000000000 + (b.sub.toNat * 1000000000 + 16384) / 32768

/-- Wall time after a reset: restored from the backup domain with tq 4, or from 0 s with tq 5 and bkp_lost (R54, R65). -/
def App.restoreTime (a : App) : App :=
  let base : TimeSt := { ({} : TimeSt) with incrHist := [(a.tick, ({} : TimeSt).incr)], adjustAt := a.tick, syncAt := a.tick, refAt := a.tick, holdAt := a.tick }
  if a.bkp.valid then
    { a with tim := { base with wall := Wall.ofTotal {} a.bkp.total, tq := .restored, bkpLost := false,
                                         utcOffset := BitVec.ofNat 16 (a.get Reg.TIM_UTC_DEFAULT_utc_offset) } }
  else
    { a with tim := { base with utcOffset := BitVec.ofNat 16 (a.get Reg.TIM_UTC_DEFAULT_utc_offset) } }.record 0x0013 0 0 0 0

end Sys2Proof.Machine
end

