-- ==== Sys2Proof/Machine/Angle.lean ====
section
/-! DEFINITION. Angle clocks: the accumulator, references, the tracker, the clock states, and READ_ANGLE
(R75 to R98, R106). -/

namespace Sys2Proof.Machine

open Host

/-- The code of a clock state (R80). -/
def ClkState.code : ClkState → Nat
  | .off => 0
  | .freeRun => 1
  | .acquiring => 2
  | .lockedV => 3
  | .lockedI => 4
  | .frozen => 5
  | .holdover => 6

/-- Whether samples taken in a state carry HOLD (R80, R81). -/
def ClkState.hold : ClkState → Bool
  | .freeRun | .acquiring | .frozen | .holdover => true
  | .off | .lockedV | .lockedI => false

/-- A change to one angle clock. -/
def App.onClk (a : App) (n : Nat) (f : Clock → Clock) : App := { a with clk := vup a.clk n f }

/-- The limits of the frequency word, and its nominal values (R76). -/
def wordMin : Nat := 0x0444444444
def wordMax : Nat := 0x1555555555
def wordNominal (fnom : Nat) : Nat := if fnom = 0 then 0x0E38E38E39 else 0x1111111111

/-- The applied increment (R76, R77). -/
def Clock.incr (c : Clock) : Nat := ((c.word : Int) + c.corr).toNat

/-- One advance of the accumulator, once per CIC period, which begins at wall instant `t16`: the increment of the period that ends
is added, and the one now applied is in force in the period that begins (R75 to R77). -/
def Clock.advance (t16 : Nat) (c : Clock) : Clock :=
  if c.st = .off then c
  else
    let acc := (c.acc + c.inc) % 2 ^ 80
    { c with acc := acc, inc := c.incr, trace := ((t16, acc) :: c.trace).take 8192 }

/-- The part of a CIC period that has passed at the present instant, over 10^9 (R75, R152). -/
def App.cicPart (a : App) : Nat := (a.tim.wall.modNs a.tim.modErr * 230400 % 1000000000).toNat

/-- The present instant on the axis of the CIC periods, in 10^-9 period, and the wall instant of a place on it a little earlier,
in 1/16 ns (R164). -/
def App.axis (a : App) : Nat := a.sig.periods * 1000000000 + a.cicPart
def App.atAxis (a : App) (pos : Nat) : Nat := a.now16 - (a.axis - pos) * 16 / 230400

/-- The number of the CIC sample that completes next: the newest edge of sample p is the last but none of its period (R152). -/
def App.nextCic (a : App) : Nat := if 64 * a.cicPart < 63 * 1000000000 then a.sig.periods else a.sig.periods + 1

/-- The angle of a clock at a part of the CIC period in progress, interpolated with the increment in force in it (R83, R100). -/
def Clock.angleIn (c : Clock) (part : Nat) : Nat :=
  if c.st = .off then c.acc else (c.acc + c.inc * part / 1000000000) % 2 ^ 80

/-- The angle at the present instant, with its sub-au fraction (R83, R100). -/
def App.angleFx (a : App) (n : Nat) : Nat := (vat a.clk n).angleIn a.cicPart

/-- The A48 of the present instant (R7, R83). -/
def App.a48 (a : App) (n : Nat) : Nat := a.angleFx n / 2 ^ 32

/-- The angle between two accumulator values that bracket an instant `dt` of a period `len` after the first (R83). -/
def between80 (x y dt len : Nat) : Nat := if len = 0 then x else (x + (y + 2 ^ 80 - x) % 2 ^ 80 * min dt len / len) % 2 ^ 80

/-- The angle at wall instant `t16`, from the accumulator values of the CIC periods latest first, `after` being the one that
follows: linear between the two that bracket it, and the earliest one before all of them (R83). -/
def traceAt (t16 : Nat) (after : Nat × Nat) : List (Nat × Nat) → Nat
  | [] => after.2
  | e :: l => if e.1 ≤ t16 then between80 e.2 after.2 (t16 - e.1) (after.1 - e.1) else traceAt t16 e l

/-- The A48 of an event with wall stamp `t`, ns (R83). -/
def App.a48At (a : App) (n t : Nat) : Nat := traceAt (16 * t) (a.now16, a.angleFx n) (vat a.clk n).trace / 2 ^ 32

/-- The state code of a clock at the present instant (R82). -/
def App.aq (a : App) (n : Nat) : Nat := (vat a.clk n).st.code

/-- The place at which a clock reaches a multiple of 256 au in a period that began at `pos` with its accumulator at `acc`: by the
increment in force in that period, rounded up (R78, R100). -/
def reachAt (pos acc inc m : Nat) : Nat :=
  let d := (m * 2 ^ 40 + 2 ^ 80 - acc) % 2 ^ 80
  pos + if inc = 0 then 0 else (d * 1000000000 + inc - 1) / inc

/-- A clock that has passed a multiple of 256 au in this tick, `old` being the clock before it, with the instant, tq, tsc and the
state there (R78, R81). -/
def App.noteAngle (a : App) (old : Clock) (oldPart n : Nat) : App :=
  let c := vat a.clk n
  let m := a.angleFx n / 2 ^ 40
  if c.st = .off ∨ old.st = .off ∨ m = old.angleIn oldPart / 2 ^ 40 then a
  else
    let inNew := decide ((m * 2 ^ 40 + 2 ^ 80 - c.acc) % 2 ^ 80 < 2 ^ 79)
    let pos := if inNew then reachAt (a.sig.periods * 1000000000) c.acc c.inc m
               else reachAt ((a.sig.periods - 1) * 1000000000) old.acc old.inc m
    let i : AngInst := { m := m, pos := pos, w16 := a.atAxis pos, tq := a.tqc, tsc := a.tsc, st := c.st }
    a.onClk n fun c => { c with insts := c.insts ++ [i] }

/-- Whether A48 value `x` has reached `t`: (x - t) mod 2^48 < 2^47 (R100). -/
def reached48 (x t : Nat) : Bool := decide ((x + 2 ^ 48 - t % 2 ^ 48) % 2 ^ 48 < 2 ^ 47)

/-- The signed value of an angle difference, wrapped to ±32,768 au (R88). -/
def wrapAu (x : Int) : Int := (x + 32768) % 65536 - 32768

/-- A lock that ends while an operation of the bay's breaker runs is noted in it (R265). -/
def App.noteUnlock (a : App) (n : Nat) : App :=
  { a with trp := { a.trp with ops := vup a.trp.ops n (fun o => o.map (fun o =>
      { o with lostAt := if o.lostAt.isSome then o.lostAt else some a.w64 })) } }

/-- Whether a state code is 3 or 4, Locked-V or Locked-I (R80). -/
def lockedAq (q : Nat) : Bool := q == 3 || q == 4

/-- A change of clock state: class-21 event and the state's own counts (R97, R502). -/
def App.setClk (a : App) (n : Nat) (st : ClkState) : App :=
  let old := (vat a.clk n).st
  if old = st then a
  else
    let leaving := old == .freeRun || old == .frozen || old == .holdover || old == .off
    let a := a.onClk n fun c =>
      { c with st := st, stAt := a.tick, ticksIn := 0, lockTicks := 0, lockArmed := false, clearTicks := 0, clearArmed := false
               vTicks := if st == .acquiring || st == .lockedI then 0 else c.vTicks
               want := if st == .acquiring && !(old == .lockedV || old == .lockedI) then (c.word : Int) else c.want
               bothDiff := if leaving then none else c.bothDiff
               bridge := if leaving then 0 else c.bridge
               words := if old == .freeRun then [] else c.words
               corr := if st == .acquiring || st == .lockedV || st == .lockedI then c.corr else 0
               refUsed := if st == .acquiring || st == .lockedV || st == .lockedI then c.refUsed else 0
               freezes := if st == .frozen then c.freezes + 1 else c.freezes
               holdovers := if st == .holdover then c.holdovers + 1 else c.holdovers }
    let a := if lockedAq old.code && !lockedAq st.code then a.noteUnlock n else a
    a.postState 21 n old.code st.code 0

/-- The held frequency word: the mean over the 8 cycles that ended 2 cycles before the trigger; before 10 cycles have passed since
the clock left Free-run, the mean over the whole cycles available, or the current word (R92). -/
def Clock.heldWord (c : Clock) : Nat :=
  let l := if 320 ≤ c.words.length then (c.words.drop 64).take 256 else c.words.take (c.words.length / 32 * 32)
  if l.length = 0 then c.word else l.foldl (· + ·) 0 / l.length

/-- Entry into Frozen (R92): from Acquiring, Locked-V and Locked-I on a freeze trigger (R91). -/
def App.freeze (a : App) (n : Nat) : App :=
  let c := vat a.clk n
  if c.st = .acquiring ∨ c.st = .lockedV ∨ c.st = .lockedI then
    (a.onClk n fun c => { c with word := c.heldWord, corr := 0 }).setClk n .frozen
  else a

/-- Whether the fast detector of a bay is picked up (R190). -/
def App.fastUp (a : App) (b : Nat) : Bool :=
  let f := vat a.slu.fast b
  f.dist || f.inst.toList.any id

/-- The channels of the voltage reference and of the current reference (R84). -/
def refVChannels (code : Nat) : List Nat :=
  if code = 0 then [4, 5, 6] else if code ≤ 3 then [3 + code] else if code = 4 then [4, 5] else if code = 5 then [5, 6] else [6, 4]
def refIChannels (code : Nat) : List Nat :=
  if code = 0 then [0, 1, 2] else if code ≤ 3 then [code - 1] else []

/-- The reference phasor of its channels: positive sequence of three, one channel, or the difference of two (R84). -/
def refPhasor (ph : Nat → Phasor) (chs : List Nat) : Phasor :=
  match chs with
  | [x] => ph x
  | [x, y] => (ph x).sub (ph y)
  | [x, y, z] => posSeq (ph x) (ph y) (ph z)
  | _ => {}

/-- Whether every sample of the channels in the last full cycle has quality good or test (R85). -/
def Clock.refGood (c : Clock) (chs : List Nat) : Bool :=
  chs.all (fun ch => (vat c.win ch).all (fun e => wordQual e.1 == 0 || wordQual e.1 == 3))

/-- Whether half-cycle and full-cycle magnitude differ by more than freeze_mag percent (R91). -/
def magDiffers (pct : Nat) (full half : Phasor) : Bool :=
  decide (100 * (((full.mag : Int) - half.mag).natAbs) > pct * full.mag)

/-- The largest change of the frequency word in `dt` ns at `slew` units of 0.5 Hz/s (R76, R88). -/
def wordSlew (slew dt : Nat) : Nat := slew * dt * 65536 * 2 ^ 32 / (2 * 230400 * 1000000000)

/-- A word moved toward a demand by at most `d`, within the limits (R76, R88). -/
def moveWord (w demand d : Nat) : Nat :=
  max wordMin (min wordMax (if w ≤ demand then min demand (w + d) else max demand (w - d)))

/-- The phase correction per CIC period of `corr` au per cycle (R76, R88). -/
def corrPerCic (corr : Int) (word : Nat) : Int := corr * word / 65536

/-- The frequency word and the phase correction in au per cycle that the PI loop of bandwidth `bw` demands for a phase error: its
two gains are free values (R88). -/
def loopWord (bw : Nat) (want err : Int) : Int := want + err * (Config.loopKi bw).toNat
def loopCorr (bw : Nat) (err : Int) : Int := err * (Config.loopKp bw).toNat / 2 ^ 16

/-- The phase error that a reference phasor shows, with what is left of a bridge where it is the one in use (R87, R88). -/
def Clock.errOf (c : Clock) (ref : Nat) (bridge : Int) (p : Phasor) : Int :=
  wrapAu (wrapAu p.ang + if c.refUsed = ref then bridge else 0)

/-- What is left of a bridge at the next tick: it decays by slew_au per cycle, evenly over the 32 ticks of it (R87, R88). -/
def bridgeStep (slew tick : Nat) (b : Int) : Int :=
  let d : Nat := slew * (tick % 32 + 1) / 32 - slew * (tick % 32) / 32
  if b.natAbs ≤ d then 0 else if 0 < b then b - d else b + d

/-- The tracker's measurement at a tick: window, magnitudes, validity and triggers (R85 to R91). A reference is valid only while
the frequency word that it demands of the loop lies within the limits. The ticks behind VOLTAGE_VALID_COUNT are counted from any
tick: the spec names no cycle boundary for them (DESIGN CHOICE, log entry 180). -/
def App.clkMeasure (a : App) (n : Nat) : App :=
  let c := vat a.clk n
  let full := fun ch => fullPhasor 1 (vat c.win ch)
  let half := fun ch => halfPhasor (vat c.win ch)
  let chV := refVChannels (a.get (Reg.ANG_CFG_ref_v n))
  let chI := refIChannels (a.get (Reg.ANG_CFG_ref_i n))
  let pv := refPhasor full chV
  let pi := refPhasor full chI
  let vMin := a.get (Reg.ANG_LIM_vmin n) * rRms
  let iMin := a.get (Reg.ANG_LIM_imin n) * rRms
  let filled := 256 ≤ c.taken
  let tracking := c.st == .acquiring || c.st == .lockedV || c.st == .lockedI
  let br := bridgeStep (a.get (Reg.ANG_SLEW_slew_au n)) c.evalNo c.bridge
  let inRange := fun (err : Int) =>
    let w := loopWord (a.get (Reg.ANG_CFG_bw n)) (if tracking then c.want else c.word) err
    decide ((wordMin : Int) ≤ w) && decide (w ≤ (wordMax : Int))
  let errV := c.errOf 1 br pv
  let errI := c.errOf 2 br pi
  let vOk := filled && 100 * pv.mag ≥ vMin && c.refGood chV && inRange errV
  let iOk := filled && chI != [] && 100 * pi.mag ≥ iMin && c.refGood chI && inRange errI
  let fm := a.get (Reg.ANG_FRZ_freeze_mag n)
  let tv := magDiffers fm pv (refPhasor half chV)
  let ti := magDiffers fm pi (refPhasor half chI)
  let t2 := filled && (if tracking then (if c.refUsed = 1 then tv else ti)
            else (100 * pv.mag ≥ vMin && tv) || (chI != [] && 100 * pi.mag ≥ iMin && ti))
  let d := wrapAu ((pv.ang : Int) - pi.ang)
  let p := if c.refUsed = 2 then pi else pv
  let err := if c.refUsed = 2 then errI else errV
  a.onClk n fun c =>
    { c with vValid := vOk, iValid := iOk, trig2 := t2, phaseErr := err, bridge := br
             refMag := if c.refUsed = 0 then 0 else (2 * p.mag * 1000 + rRms) / (2 * rRms)
             freqLimit := c.freqLimit || (tracking && !inRange err)
             bothDiff := if vOk && iOk then some d else c.bothDiff
             vTicks := if vOk then c.vTicks + 1 else 0 }

/-- Acquiring with the reference named, the voltage reference when both are valid (R640). -/
def App.acquire (a : App) (n : Nat) : App :=
  let c := vat a.clk n
  let a := a.setClk n .acquiring
  a.onClk n fun c' => { c' with refUsed := if c.vValid then 1 else 2 }

/-- The clock takes the other reference: bridged where a bridge is possible, the lock count restarting (R87). -/
def App.switchRef (a : App) (n : Nat) (st : ClkState) (ref : Nat) : App :=
  let d := (vat a.clk n).bothDiff
  let b := (vat a.clk n).bridge
  let a := a.setClk n st
  a.onClk n fun c =>
    { c with refUsed := ref, refSwitched := true, lockTicks := 0, lockArmed := false
             bridge := match d with
               | some x => wrapAu (b + (if ref = 2 then x else -x))
               | none => 0 }

/-- The phase error of the reference that a clock would track, for the coarse alignment (R96, R640). -/
def App.alignError (a : App) (n : Nat) : Nat :=
  let c := vat a.clk n
  let full := fun ch => fullPhasor 1 (vat c.win ch)
  if c.vValid then (refPhasor full (refVChannels (a.get (Reg.ANG_CFG_ref_v n)))).ang
  else (refPhasor full (refIChannels (a.get (Reg.ANG_CFG_ref_i n)))).ang

/-- The target of a unit: with next set, from its enabling to its first firing, the first passage of the target angle after
the enabling (R100). -/
def App.angTarget (a : App) (b u : Nat) : Nat :=
  let t := a.get (Reg.ANG_CMP_TGT_tgt b u)
  match vat (vat a.clk b).nextFrom u with
  | some x => (x + 1 + (t + 65536 - (x + 1) % 65536) % 65536) % 2 ^ 48
  | none => t

/-- Angle compare units that an alignment from `old` by `d` au carries past their targets fire late; the Sluice tick
fires late as well, for the last tick passed, whose samples were never taken (R104; DESIGN CHOICE, log entry 181). -/
def App.markAngle (a : App) (n old d : Nat) : App :=
  let a := (upto 8).foldl (fun a u =>
    let ahead := (a.angTarget n u + 2 ^ 48 - old) % 2 ^ 48
    if u ≠ 0 ∧ a.on (Reg.ANG_CMP_CTL_en n u) ∧ vat (vat a.clk n).served u = false ∧ 0 < ahead ∧ ahead ≤ d then
      a.onClk n fun c => { c with lateReq := vput c.lateReq u (some a.sig.periods) }
    else a) a
  let k := (old % 2048 + d) / 2048
  if k = 0 then a
  else
    let a := a.raise (Reg.ANG_CMP_CTL_late n 0)
    let a := a.satAdd (Reg.ANG_CMP_CTL_skipped n 0) (k - 1)
    let no := (old + d) / 2048
    (a.set (Reg.ANG_CMP_TGT_tgt n 0) ((no + 1) * 2048)).onClk n fun c => { c with tickNo := no }

/-- Coarse alignment: the phase error modulo one cycle is added to the angle in one CIC period; the clock's own
windows turn with it (R96). -/
def App.coarseAlign (a : App) (n : Nat) : App :=
  let d := a.alignError n
  let old := a.a48 n
  let a := a.onClk n fun c =>
    let turn := (d + 128) / 256
    { c with acc := (c.acc + d * 2 ^ 32) % 2 ^ 80, coarseAligned := true, coarseDone := true
             win := c.win.map (fun l => l.map (fun e => (e.1, (e.2 + turn) % 256)))
             insts := c.insts.map (fun i => { i with turn := turn })
             got := c.got.map (fun g => { g with inst := { g.inst with turn := turn } }) }
  let a := a.record 0x0020 n d 0 0
  a.markAngle n old d

/-- The rows of R97 that the tick itself decides, in table order. -/
def App.clkRows (a : App) (n : Nat) : App :=
  let c := vat a.clk n
  let trig12 := a.fastUp n || c.trig2
  let big := c.phaseErr.natAbs > a.get (Reg.ANG_FPH_freeze_phase n)
  match c.st with
  | .off | .frozen => a
  | .acquiring =>
    if trig12 then a.freeze n
    else
      let used := if c.refUsed = 1 then c.vValid else c.iValid
      let other := if c.refUsed = 1 then c.iValid else c.vValid
      if used then a
      else if other then a.switchRef n .acquiring (3 - c.refUsed)
      else a.setClk n .holdover
  | .lockedV =>
    if trig12 || big then a.freeze n
    else if c.vValid then a
    else if c.iValid then (if c.bothDiff.isSome then a.switchRef n .lockedI 2 else a.switchRef n .acquiring 2)
    else a.setClk n .holdover
  | .lockedI =>
    if trig12 || big then a.freeze n
    else if c.iValid then a
    else if c.vValid then (if c.bothDiff.isSome then a.switchRef n .lockedV 1 else a.switchRef n .acquiring 1)
    else a.setClk n .holdover
  | .freeRun =>
    if (c.vValid || c.iValid) && !trig12 then
      if c.coarseDone then a.acquire n else (a.coarseAlign n).acquire n
    else a
  | .holdover => if (c.vValid || c.iValid) && !trig12 then a.acquire n else a

/-- The word and the correction after a tick: the loop's demand under its two limits while tracking, the slew to
nominal in Free-run, held otherwise (R88, R89, R94). -/
def App.clkSteer (a : App) (n dt : Nat) : App :=
  let bw := a.get (Reg.ANG_CFG_bw n)
  let slew := wordSlew (a.get (Reg.ANG_SLEW_slew_hz n)) dt
  let lim : Int := (a.get (Reg.ANG_SLEW_slew_au n) : Nat)
  let nominal := wordNominal (a.get (Reg.ANG_CFG_fnom n))
  a.onClk n fun c =>
    match c.st with
    | .acquiring | .lockedV | .lockedI =>
      let want := max (wordMin : Int) (min (wordMax : Int) (loopWord bw c.want c.phaseErr))
      let w := moveWord c.word want.toNat slew
      { c with word := w, want := want, corr := corrPerCic (max (-lim) (min lim (loopCorr bw c.phaseErr))) w, words := (w :: c.words).take 320 }
    | .freeRun => { c with word := moveWord c.word nominal slew, corr := 0 }
    | .frozen | .holdover => { c with corr := 0, words := (c.word :: c.words).take 320 }
    | .off => { c with corr := 0 }

/-- The counts of whole cycles behind the lock criterion and the settle condition, which start at a cycle boundary
(R90, R93). -/
def App.clkCount (a : App) (n : Nat) : App :=
  let up := a.fastUp n
  let win := a.get (Reg.ANG_LOCK_lock_window n)
  a.onClk n fun c =>
    let boundary := c.evalNo % 32 == 0
    let within := decide (c.phaseErr.natAbs ≤ win)
    let clear := !up && !c.trig1 && !c.trig2
    { c with trig1 := up, ticksIn := c.ticksIn + 1
             lockTicks := if within then (if c.lockArmed then c.lockTicks + 1 else 0) else 0
             lockArmed := within && (c.lockArmed || boundary)
             clearTicks := if clear then (if c.clearArmed then c.clearTicks + 1 else 0) else 0
             clearArmed := clear && (c.clearArmed || boundary) }

/-- The tracker's work at one Sluice tick (R86 to R97), the wall time since the last one counted in increments and not over
steps (R79). -/
def App.tracker (a : App) (n : Nat) : App :=
  let dt := (a.tick - (vat a.clk n).tickAt) * a.tim.incr.toNat / 2 ^ 32
  let a := a.clkMeasure n
  let a := a.clkRows n
  let a := a.clkSteer n dt
  let a := a.clkCount n
  a.onClk n fun c => { c with tickAt := a.tick }

/-- A clock starts in Free-run at cycle 0, angle 0 au and the nominal word; unit 0 is its Sluice tick (R95, R102). Its flags,
counts and the coarse alignment made since the reset stay (R96, R106). -/
def App.clkStart (a : App) (n : Nat) : App :=
  let w := wordNominal (a.get (Reg.ANG_CFG_fnom n))
  let a := a.onClk n fun c =>
    { ({} : Clock) with word := w, inc := w, trace := [(a.now16, 0)], tickAt := a.tick, stAt := a.tick
                        coarseDone := c.coarseDone, freezes := c.freezes, holdovers := c.holdovers, freezeMaxHit := c.freezeMaxHit
                        refSwitched := c.refSwitched, coarseAligned := c.coarseAligned, freqLimit := c.freqLimit
                        served := c.served, lateReq := c.lateReq, irq := c.irq, defer := c.defer
                        nextFrom := c.nextFrom.map (fun (o : Option Nat) => o.map (fun _ => 0)) }
  let a := a.setClk n .freeRun
  let a := a.setB (Reg.ANG_CMP_CTL_en n 0) true
  let a := a.set (Reg.ANG_CMP_CTL_dest n 0) 1
  let a := a.set (Reg.ANG_CMP_PER_period_au n 0) 2048
  a.set (Reg.ANG_CMP_TGT_tgt n 0) 2048

/-- A clock goes Off: its accumulator is held, and unit 0 reads as disabled (R95, R102). Where it stands within a CIC period counts
as that period's end. What dest, period and target of unit 0 read then is not stated: they stay (DESIGN CHOICE, log entry 182). -/
def App.clkStop (a : App) (n : Nat) : App :=
  let acc := a.angleFx n
  let a := a.setClk n .off
  let a := a.onClk n fun c => { c with acc := acc, win := Vector.replicate 8 [], taken := 0, insts := [], got := [] }
  a.setB (Reg.ANG_CMP_CTL_en n 0) false

/-- LOCK_CRITERION (R90): lock_cycles whole cycles within lock_window; the row of the voltage reference comes before it (R97). -/
def execLockCriterion (bay : Fin 4) (s : State) : Outcome State Fault Refusal :=
  s.onApp fun a =>
    let c := vat a.clk bay
    let n := 32 * a.get (Reg.ANG_LOCK_lock_cycles bay)
    if c.st = .acquiring ∧ n ≤ c.lockTicks ∧ !(c.refUsed == 2 && decide (n ≤ c.vTicks)) then
      a.setClk bay (if c.refUsed = 1 then .lockedV else .lockedI)
    else a

/-- VOLTAGE_VALID_COUNT (R97): the voltage reference valid for lock_cycles cycles while the current reference is
tracked. -/
def execVoltageValidCount (bay : Fin 4) (s : State) : Outcome State Fault Refusal :=
  s.onApp fun a =>
    let c := vat a.clk bay
    if 32 * a.get (Reg.ANG_LOCK_lock_cycles bay) ≤ c.vTicks then
      match c.st with
      | .lockedI => a.switchRef bay .lockedV 1
      | .acquiring => if c.refUsed = 2 then a.switchRef bay .acquiring 1 else a
      | _ => a
    else a

/-- FREEZE_MAX (R93): Frozen has lasted freeze_max. -/
def execFreezeMax (bay : Fin 4) (s : State) : Outcome State Fault Refusal :=
  s.onApp fun a =>
    let c := vat a.clk bay
    if c.st = .frozen ∧ a.since c.stAt (a.get (Reg.ANG_FRZ_freeze_max bay) * 100 * tMs) then
      (a.onClk bay fun c => { c with freezeMaxHit := true }).setClk bay .holdover
    else a

/-- SETTLE_COMPLETE (R93): triggers clear for settle_cycles whole cycles; the row of freeze_max comes before it (R97). -/
def execSettleComplete (bay : Fin 4) (s : State) : Outcome State Fault Refusal :=
  s.onApp fun a =>
    let c := vat a.clk bay
    if c.st = .frozen ∧ 32 * a.get (Reg.ANG_FRZ_settle_cycles bay) ≤ c.clearTicks
        ∧ !a.since c.stAt (a.get (Reg.ANG_FRZ_freeze_max bay) * 100 * tMs) then
      if c.vValid || c.iValid then a.acquire bay else a.setClk bay .holdover
    else a

/-- HOLD_MAX (R97): Holdover has lasted hold_max. -/
def execHoldMax (bay : Fin 4) (s : State) : Outcome State Fault Refusal :=
  s.onApp fun a =>
    let c := vat a.clk bay
    if c.st = .holdover ∧ a.since c.stAt (a.get (Reg.ANG_HOLD_hold_max bay) * tS) then a.setClk bay .freeRun else a

/-- The 64-byte angle status block (R106). -/
def App.angleBlock (a : App) (n : Nat) : List Byte :=
  let c := vat a.clk n
  le 6 (a.a48 n) ++ le 1 (a.aq n) ++ le 1 c.refUsed ++ w80Bytes a.now ++ le 1 a.tqc ++ le 1 a.tsc
    ++ le 8 c.word ++ le 2 (toBits 16 c.phaseErr) ++ le 2 c.refMag ++ le 4 c.freezes.toNat ++ le 4 c.holdovers.toNat
    ++ le 4 (min 0xFFFFFFFF ((a.tick - c.stAt) / tMs))
    ++ le 2 (c.freezeMaxHit.toNat + 2 * c.refSwitched.toNat + 4 * c.coarseAligned.toNat + 8 * c.freqLimit.toNat) ++ le 18 0

/-- The effect of READ_ANGLE: the block shows the flags as before clearing (R106, R500). -/
def opReadAngle (h : CmdHdr) (out : Out) (bay clear : Byte) (a : App) : App × Reply :=
  let (b, r) := a.outData h out (a.angleBlock bay.toNat)
  (if clear = 1#8 then
     b.onClk bay.toNat fun c => { c with freezeMaxHit := false, refSwitched := false, coarseAligned := false, freqLimit := false }
   else b, r)

/-- READ_ANGLE (R106). -/
def execReadAngle (h : CmdHdr) (out : Out) (bay clear : Byte) (s : State) : Outcome State Fault Refusal :=
  s.onApp fun a => a.process h (.readAngle out bay clear)
    (firstFail [(0, out.addr.toNat % 64 = 0), (2, bay.toNat ≤ 3), (3, clear.toNat ≤ 1)]) [] (opReadAngle h out bay clear)

end Sys2Proof.Machine
end

