-- ==== Sys2Proof/Machine/Analog.lean ====
section
/-! DEFINITION. Bay inputs: slices, SELF_CAL, the Float slice hand-over, references, sample quality, the decimation
settings, and the auxiliary converter (R108 to R174). -/

namespace Sys2Proof.Machine

open Host

/-- A change to the converters of one bay. -/
def App.onBay (a : App) (b : Nat) (f : AnaBay → AnaBay) : App :=
  { a with ana := { a.ana with bays := vup a.ana.bays b f } }

/-- A change to the signal paths. -/
def App.onSig (a : App) (f : SigSt → SigSt) : App := { a with sig := f a.sig }

/-- The protection state of a bay: 0 In service, 1 Blocked, 2 Test, 3 Simulation (R602). -/
def App.protOf (a : App) (b : Nat) : Nat := bitsOf (a.get Reg.GLB_MODE_prot) (2 * b) 2

/-! ### Slices and factors (R114 to R121) -/

/-- The within-bay slice that serves a channel, and the Float slice (R115). -/
def App.sliceOf (a : App) (b c : Nat) : Nat := bitsOf (a.get (Reg.ANA_SLICEMAP_map b)) (4 * c) 4
def App.floatOf (a : App) (b : Nat) : Nat := a.get (Reg.ANA_FSTAT_float_slice b)

/-- Assign a slice to a channel. -/
def App.assignSlice (a : App) (b c i : Nat) : App :=
  let m := a.get (Reg.ANA_SLICEMAP_map b)
  a.set (Reg.ANA_SLICEMAP_map b) (m - bitsOf m (4 * c) 4 * 2 ^ (4 * c) + i * 2 ^ (4 * c))

/-- The channel that a slice serves, if any. -/
def App.servedBy (a : App) (b i : Nat) : Option Nat := (upto 8).find? (fun c => a.sliceOf b c == i)

/-- Whether a slice is marked failed (R121). -/
def App.sliceFailed (a : App) (b i : Nat) : Bool := a.get (Reg.ANA_CAL_GAIN_status (9 * b + i)) == 1

/-- The code of full range (R110), and the factory gain of a slice, u2.22 (R120). -/
def rangeCode : Nat := 6710886
def factoryGain : Nat := 0x400000

/-- Gain and offset from the three points: zero, and ±0.9 × range; none where the gain deviates by more than 2 % or
the offset exceeds 0.5 % of range (R121). -/
def calFactors (p : CalPoints) : Option (Nat × Int) :=
  let span := p.plus - p.minus
  if span ≤ 0 then none
  else
    let gain := (divRound (2 * 9 * rangeCode * 2 ^ 22) (10 * span.toNat)).toNat
    let off := p.zero
    if 100 * (((gain : Int) - factoryGain).natAbs) > 2 * factoryGain then none
    else if 200 * off.natAbs > rangeCode then none
    else some (gain, off)

/-- A slice calibration takes its result: new factors and age 0, or failed with the previous factors kept and a
record (R121, R124). -/
def App.calSlice (a : App) (b i : Nat) (p : CalPoints) : App :=
  let s := 9 * b + i
  match calFactors p with
  | some (g, o) =>
    let a := a.set (Reg.ANA_CAL_GAIN_gain s) g
    let a := a.set (Reg.ANA_CAL_OFS_offset s) (toBits 24 o)
    let a := a.set (Reg.ANA_CAL_GAIN_status s) 0
    a.onBay b fun x => { x with calAt := vput x.calAt i a.tick }
  | none => (a.set (Reg.ANA_CAL_GAIN_status s) 1).record 0x0021 s 0 0 0

/-- Seconds since the last calibration of slice `s` (R149). -/
def App.sliceAge (a : App) (s : Nat) : Nat := min 255 ((a.tick - vat (vat a.ana.bays (s / 9)).calAt (s % 9)) / tS)

/-- The restart of a channel's integrator from y = 0: 0.2 s of settling (R156); a channel without one has no settling. -/
def App.intRestart (a : App) (b c : Nat) : App :=
  if bitOf (a.get (Reg.DEC_CFG_int_en b)) c then
    let a := a.set Reg.DEC_SETTLE_int_settle (putBit (a.get Reg.DEC_SETTLE_int_settle) (8 * b + c) true)
    let a := a.onBay b fun x => { x with intAt := vput x.intAt c a.tick }
    a.onSig fun s =>
      { s with
        chans := vup s.chans (8 * b + c) (fun p => { p with y := 0 })
        own := vup s.own (8 * b + c) (fun p => { p with y := 0 })
        ownAt := vput s.ownAt (8 * b + c) (some a.tick) }
  else a.set Reg.DEC_SETTLE_int_settle (putBit (a.get Reg.DEC_SETTLE_int_settle) (8 * b + c) false)

/-- Restart the integrators of all channels of a bay. -/
def App.intRestartBay (a : App) (b : Nat) : App := (upto 8).foldl (fun a c => a.intRestart b c) a

/-! ### Sample quality (R137, R170, R171) -/

/-- The CIC order of a code, and the orders of a bay's filters (R174). -/
def cicOrder (code : Nat) : Nat := code + 3
def App.poolK (a : App) (b : Nat) : Nat := cicOrder (a.get (Reg.DEC_CFG_pool_k b))
def App.jetK (a : App) (b : Nat) : Nat := cicOrder (a.get (Reg.DEC_CFG_jet_k b))

/-- The analog delay of a channel, ns: factory data (R111). -/
def factoryTa : Nat := 300

/-- How far the stamp of a CIC word of a bay's own converters lies before the beginning of its CIC period, in 10^-9 period (R164): the
delay of the input and of the filter, less the way to its newest edge. -/
def App.ownBack (a : App) (b : Nat) : Nat := (2 + 63 * a.poolK b) * 7812500 + factoryTa * 230400 - 984375000

/-- The same of the CIC words that the bay works on: a substituted word stands at its nominal instant (R208). -/
def App.cicBack (a : App) (b : Nat) : Nat := if a.on (Reg.SLU_BAY_sub_active b) then 0 else a.ownBack b

/-- Whether an instant lies within the last `n` ticks. -/
def App.within (a : App) (t : Option Nat) (n : Nat) : Bool :=
  match t with
  | some t0 => decide (a.tick < t0 + n)
  | none => false

/-- The quality that the analog chain gives a channel's words of a filter span of `n` ticks (R137), with R156 and R171. -/
def App.anaQualIn (a : App) (b c n : Nat) : Nat :=
  let x := vat a.ana.bays b
  let en := bitOf (a.get (Reg.ANA_CHCFG_ch b)) (2 * c)
  if !en || a.ana.calRun.isSome || x.refStale || bitOf (a.get Reg.ANA_REFSTAT_ref_fault) b || vat x.dead c
      || a.within (vat x.rangeAt c) (2 * tMs) || a.within (vat x.loopAt (a.sliceOf b c)) n || a.within x.decAt n then 2
  else if bitOf (a.get Reg.ANA_REFSTAT_ref_warn) b || x.srcNow == 2 || vat x.mismatch c
      || a.since (vat x.calAt (a.sliceOf b c)) (600 * tS + 1)
      || bitOf (a.get Reg.DEC_SETTLE_int_settle) (8 * b + c) then 1
  else 0

/-! ### The Float slice hand-over (R125 to R133) -/

/-- The phase field of ANA_FSTAT (R149). -/
def Handover.code : Handover → Nat
  | .idle => 0
  | .connect _ => 1
  | .compare _ => 2
  | .verify _ => 3
  | .decided _ => 3
  | .calibrate .. => 4

/-- A bay's hand-over enters a phase. -/
def App.setHand (a : App) (b : Nat) (x : Handover) : App :=
  (a.onBay b fun y => { y with hand := x }).set (Reg.ANA_FSTAT_phase b) x.code

/-- The bay of a DEC_ register, 4 for the common DEC_AVG (R174). -/
def decBay (fields : List (Nat × Nat)) : Nat :=
  match fields with
  | (b, _) :: _ => if b < 8 * 0x5010 then 4 else (b / 8 - 0x5010) / 4
  | [] => 4

/-- Whether a pending DEC_ change affects a bay (R172). -/
def App.decTouches (a : App) (b : Nat) : Bool :=
  match a.ana.decPend with
  | some (fields, _) => decBay fields == 4 || decBay fields == b
  | none => false

/-- What defers a hand-over: the fast detector picked up, a pending DEC_ change of the bay, or a range or reference change
waiting on it (R130, R172). -/
def App.handBlocked (a : App) (b : Nat) : Bool :=
  let x := vat a.ana.bays b
  a.fastUp b || a.decTouches b || x.srcNow != bitsOf (a.get Reg.ANA_REFCFG_src) (2 * b) 2
    || (upto 8).any (fun c => vat x.rangeNow c != bitOf (a.get (Reg.ANA_CHCFG_ch b)) (2 * c + 1))

/-- Whether a hand-over has begun and can still be deferred or abandoned (R130, R131). -/
def App.handOpen (a : App) (b : Nat) : Bool :=
  match (vat a.ana.bays b).hand with
  | .connect _ | .compare _ | .verify _ => true
  | _ => false

/-- The whole second of wall time. -/
def App.wallSec (a : App) : Nat := a.now / 1000000000

/-- A hand-over is deferred: the old slice keeps the channel, and it is retried at the next whole second (R130). -/
def App.handDefer (a : App) (b : Nat) : App := (a.setHand b .idle).onBay b fun x => { x with deferred := some a.wallSec }

/-- A hand-over in progress is deferred by a condition of the bay. -/
def App.handDisturb (a : App) (b : Nat) : App := if a.handOpen b then a.handDefer b else a

/-- A hand-over is abandoned with MISMATCH: counted, and after three in a row the channel turns questionable and the
rotation moves on (R130, R132). -/
def App.handMismatch (a : App) (b : Nat) : App :=
  let c := a.get (Reg.ANA_FSTAT_next_ch b)
  let a := (a.setHand b .idle).satAdd (Reg.ANA_FSTAT_abandoned b) 1
  let n := vat (vat a.ana.bays b).misses c + 1
  if n < 3 then a.onBay b fun x => { x with misses := vput x.misses c n }
  else
    let a := a.onBay b fun x => { x with misses := vput x.misses c 0, mismatch := vput x.mismatch c true }
    let a := (a.setB (Reg.ANA_FSTAT_float_mismatch b) true).record 0x0022 b c 0 0
    a.set (Reg.ANA_FSTAT_next_ch b) ((c + 1) % 8)

/-- A hand-over starts: the Float slice connects to the next channel's buffer. -/
def App.handStart (a : App) (b : Nat) : App :=
  if a.handBlocked b then a.onBay b fun x => { x with deferred := some a.wallSec }
  else (a.setHand b (.connect a.nextCic)).onBay b fun x => { x with deferred := none }

/-- The next instant of the grid on which hand-overs start: every float_period seconds from the end of SELF_CAL (R125). -/
def App.handGrid (a : App) (b : Nat) : App :=
  let per := a.get (Reg.ANA_FLOAT_float_period b) * tS
  a.onBay b fun x => { x with dueAt := x.calEnd + ((a.tick - x.calEnd) / per + 1) * per }

/-- Whether the rotation of a bay runs (R124, R125). -/
def App.rotating (a : App) (b : Nat) : Bool :=
  a.on (Reg.ANA_FLOAT_float_en b) && !(vat a.ana.bays b).stopped && a.ana.calRun.isNone
    && (vat a.ana.bays b).hand == .idle

/-- HANDOVER_START (R125): every float_period seconds from the end of SELF_CAL; a start that falls while rotation stands still, or
while a deferred hand-over waits, passes. -/
def execHandoverStart (bay : Fin 4) (s : State) : Outcome State Fault Refusal :=
  s.onApp fun a =>
    let x := vat a.ana.bays bay
    if a.ana.calRun.isNone ∧ x.dueAt ≤ a.tick then
      let a := a.handGrid bay
      if a.rotating bay ∧ x.deferred = none then a.handStart bay else a
    else a

/-- HANDOVER_RETRY (R130): a deferred hand-over is retried at the next whole second of wall time. -/
def execHandoverRetry (bay : Fin 4) (s : State) : Outcome State Fault Refusal :=
  s.onApp fun a =>
    match (vat a.ana.bays bay).deferred with
    | some sec => if a.rotating bay ∧ a.wallSec ≠ sec then a.handStart bay else a
    | none => a

/-- HANDOVER_SETTLE_END (R125): 231 CIC samples after the connection the comparison window opens. -/
def execHandoverSettleEnd (bay : Fin 4) (s : State) : Outcome State Fault Refusal :=
  s.onApp fun a =>
    match (vat a.ana.bays bay).hand with
    | .connect kc =>
      if kc + 231 ≤ a.nextCic then (if a.handBlocked bay then a.handDefer bay else a.setHand bay (.compare a.nextCic)) else a
    | _ => a

/-- The least-squares line y_A = g × y_F + o over pairs (y_A, y_F) in 1/64 LSB: g in 2^-32, o in 2^-22 LSB; `flat` fixes g
at 1 (R125, R126). -/
def fitLine (flat : Bool) (l : List (Int × Int)) : Int × Int :=
  let n : Int := l.length
  let sy := l.foldl (fun t p => t + p.1) 0
  let sx := l.foldl (fun t p => t + p.2) 0
  let sxx := l.foldl (fun t p => t + p.2 * p.2) 0
  let sxy := l.foldl (fun t p => t + p.1 * p.2) 0
  let den := n * sxx - sx * sx
  let g := if flat || den ≤ 0 then (2 ^ 32 : Int) else divRound ((n * sxy - sx * sy) * 2 ^ 32) den.toNat
  (g, divRound (sy * 2 ^ 32 - g * sx) (n.toNat * 2 ^ 16))

/-- Whether the RMS of y_A is below 1 % of range: too little signal for a gain (R125). -/
def tooFlat (l : List (Int × Int)) : Bool :=
  decide (10000 * l.foldl (fun t p => t + p.1 * p.1) 0 < (l.length : Int) * (64 * rangeCode) * (64 * rangeCode))

/-- The trim folded into the slice factors of the Float slice (R126): y' = g × y + o. -/
def App.trimFloat (a : App) (b : Nat) (g o : Int) : App :=
  let s := 9 * b + a.floatOf b
  let gain := (divRound (a.get (Reg.ANA_CAL_GAIN_gain s) * g) (2 ^ 32)).toNat
  let off := asSigned 24 (a.get (Reg.ANA_CAL_OFS_offset s)) - (if gain = 0 then 0 else divRound o gain)
  (a.set (Reg.ANA_CAL_GAIN_gain s) gain).set (Reg.ANA_CAL_OFS_offset s) (toBits 24 off)

/-- Whether the signal path has taken the words of a hand-over window that began at a CIC sample: its pairs (y_A, y_F), and whether
a word carried OVR or FS. -/
def App.handWin (a : App) (b t n : Nat) : Option (List (Int × Int) × Bool) :=
  let w := vat a.sig.hand b
  if w.at_ = t ∧ w.pairs.length = n then some (w.pairs, w.spoiled) else none

/-- COMPARISON_WINDOW_END (R126): the window's 2,048 words have been taken. -/
def execComparisonWindowEnd (bay : Fin 4) (s : State) : Outcome State Fault Refusal :=
  s.onApp fun a =>
    match (vat a.ana.bays bay).hand with
    | .compare t =>
      match a.handWin bay t 2048 with
      | some (pairs, ovr) =>
        if ovr || a.handBlocked bay then a.handDefer bay
        else
          let (g, o) := fitLine (tooFlat pairs) pairs
          if 2000 * (g - 2 ^ 32).natAbs > 2 ^ 32 ∨ 5000 * o.natAbs > rangeCode * 2 ^ 22 then a.handMismatch bay
          else (a.trimFloat bay g o).setHand bay (.verify a.nextCic)
      | none => a
    | _ => a

/-- VERIFY_WINDOW_END (R126): the residuals over 512 words predict the step; at most 1 LSB decides the take-over, at sample
k1 + 513. The rule of too little signal (g = 1), which the procedure states for the comparison window, is taken for this refit as
well (DESIGN CHOICE, log entry 183). -/
def execVerifyWindowEnd (bay : Fin 4) (s : State) : Outcome State Fault Refusal :=
  s.onApp fun a =>
    match (vat a.ana.bays bay).hand with
    | .verify t =>
      match a.handWin bay t 512 with
      | some (pairs, ovr) =>
        if ovr || a.handBlocked bay then a.handDefer bay
        else
          let (g, o) := fitLine (tooFlat pairs) pairs
          let p := pairs.foldl (fun m x => max m x.1.natAbs) 0
          if o.natAbs * 2 ^ 16 + (g - 2 ^ 32).natAbs * p > 64 * 2 ^ 32 then a.handMismatch bay
          else a.setHand bay (.decided (t + 513))
      | none => a
    | _ => a

/-- Whether an active slice of a bay has gone more than 90 s since its last calibration (R133). -/
def App.overdue (a : App) (b : Nat) : Bool :=
  (upto 8).any (fun c => a.since (vat (vat a.ana.bays b).calAt (a.sliceOf b c)) (90 * tS + 1))

/-- cal_overdue as the ages of the active slices have it (R133). -/
def App.showOverdue (a : App) (b : Nat) : App := a.setB (Reg.ANA_FSTAT_cal_overdue b) (a.overdue b)

/-- At sample kt both paths of the channel switch to the Float slice, whose predecessor goes to calibration (R127, R129). -/
def App.takeOver (a : App) (bay kt : Nat) : App :=
  let c := a.get (Reg.ANA_FSTAT_next_ch bay)
  let old := a.sliceOf bay c
  let a := a.assignSlice bay c (a.floatOf bay)
  let pos := kt * 1000000000 - a.cicBack bay
  let a := a.onBay bay fun x =>
    { x with misses := vput x.misses c 0, mismatch := vput x.mismatch c false, fltPool := vput x.fltPool c true, fltRes := vput x.fltRes c (some pos) }
  let a := a.setB (Reg.ANA_FSTAT_float_mismatch bay) ((vat a.ana.bays bay).mismatch.toList.any id)
  let a := a.wrapAdd (Reg.ANA_FCNT_handovers bay) 1
  let a := a.set (Reg.ANA_FSTAT_next_ch bay) ((c + 1) % 8)
  (a.showOverdue bay).setHand bay (.calibrate a.tick old)

/-- TAKE_OVER (R127): at sample kt, an exact sample boundary. -/
def execTakeOver (bay : Fin 4) (s : State) : Outcome State Fault Refusal :=
  s.onApp fun a =>
    match (vat a.ana.bays bay).hand with
    | .decided kt => if kt ≤ a.nextCic then a.takeOver bay kt else a
    | _ => a

/-- A CIC period begins: a take-over that is due at its sample takes place (R127). -/
def App.takeOvers (a : App) : App :=
  (upto 4).foldl (fun a b =>
    match (vat a.ana.bays b).hand with
    | .decided kt => if kt ≤ a.sig.periods then a.takeOver b kt else a
    | _ => a) a

/-- SLICE_CALIBRATION_END (R121): 180 ms after take-over the released slice becomes the Float slice. -/
def execSliceCalibrationEnd (bay : Fin 4) (points : CalPoints) (s : State) : Outcome State Fault Refusal :=
  s.onApp fun a =>
    match (vat a.ana.bays bay).hand with
    | .calibrate t i =>
      if a.since t (180 * tMs) then
        let a := (a.calSlice bay i points).setHand bay .idle
        let a := a.set (Reg.ANA_FSTAT_float_slice bay) i
        a.onBay bay fun x => { x with stopped := x.stopped || a.sliceFailed bay i }
      else a
    | _ => a

/-- CAL_OVERDUE (R133). -/
def execCalOverdue (bay : Fin 4) (s : State) : Outcome State Fault Refusal := s.onApp fun a => a.showOverdue bay

/-- SLICE_LOOP_RESET (R116): a slice of a bay, the Float slice too, resets its loop filter; the integrator of its channel restarts
with the first valid sample after it (R156). -/
def execSliceLoopReset (bay : Fin 4) (slice : Fin 9) (s : State) : Outcome State Fault Refusal :=
  s.onApp fun a =>
    (a.satAdd (Reg.ANA_FSTAT_loop_resets bay) 1).onBay bay fun x => { x with loopAt := vput x.loopAt slice (some a.tick) }

/-! ### SELF_CAL (R122 to R124) -/

/-- A slice that a hand-over has released is the Float slice, though its calibration is not carried out (R114, R123). -/
def App.releaseSlice (a : App) (b : Nat) : App :=
  match (vat a.ana.bays b).hand with
  | .calibrate _ i => a.set (Reg.ANA_FSTAT_float_slice b) i
  | _ => a

/-- SELF_CAL starts: hand-overs end with the old slice keeping its channel; every bay sample is invalid (R122, R123). A hand-over
abandoned so is not counted in abandoned, which R130 counts beside MISMATCH only (DESIGN CHOICE, log entry 184). -/
def App.selfCalStart (a : App) (h : Option CmdHdr) : App :=
  let a := { a with ana := { a.ana with calRun := some a.tick, calCmd := h } }
  (upto 4).foldl (fun a b => (((a.releaseSlice b).onBay b fun x => { x with hand := .idle, deferred := none }).set (Reg.ANA_FSTAT_phase b) 5)) a

/-- The result of SELF_CAL in one bay: the Float slice takes the first channel on a failed slice, further ones are
invalid, and rotation stops with any failure (R124). -/
def App.afterCal (a : App) (b : Nat) : App :=
  let fl := a.floatOf b
  let flBad := a.sliceFailed b fl
  let bad := (upto 8).filter (fun c => a.sliceFailed b (a.sliceOf b c))
  let a := a.onBay b fun x =>
    { x with dead := Vector.ofFn (fun c : Fin 8 => if flBad then bad.contains c.val else bad.tail.contains c.val)
             stopped := flBad || bad != [], refStale := false
             calEnd := a.tick, deferred := none, hand := .idle }
  let a := ((a.handGrid b).set (Reg.ANA_FSTAT_phase b) 0).showOverdue b
  let a := a.intRestartBay b
  match bad with
  | c :: _ =>
    if flBad then a
    else
      let i := a.sliceOf b c
      (a.assignSlice b c fl).set (Reg.ANA_FSTAT_float_slice b) i
  | [] => a

/-- The map of failed slices, 36 bits (R500). -/
def App.failedMap (a : App) : Nat :=
  (upto 36).foldl (fun m s => if a.get (Reg.ANA_CAL_GAIN_status s) = 1 then m + 2 ^ s else m) 0

/-- SELF_CAL_COMPLETE (R124, R594): 410 ms after its start, with the calibration points of the 36 slices; loaded engines
evaluate from here on. -/
def execSelfCalComplete (points : Vector CalPoints 36) (s : State) : Outcome State Fault Refusal :=
  s.onApp fun a =>
    match a.ana.calRun with
    | none => a
    | some t =>
      if a.since t (405 * tMs) then
        let a := (upto 36).foldl (fun a i => a.calSlice (i / 9) (i % 9) (vat points i)) a
        let h := a.ana.calCmd
        let a := { a with ana := { a.ana with calRun := none, calCmd := none } }
        let a := (upto 4).foldl App.afterCal a
        let a := (upto 2).foldl (fun a e => if a.get (Reg.SLU_STAT_state e) = 1 then a.set (Reg.SLU_STAT_state e) 0 else a) a
        match h with
        | some h => a.finish h 0x0205 Status.ok 0 (le 8 a.failedMap) false
        | none => a
      else a

/-- The effect of SELF_CAL: refused while any bay is In service; final when the calibration completes (R123). -/
def opSelfCal (h : CmdHdr) (a : App) : App × Reply :=
  match (upto 4).find? (fun b => a.protOf b == 0) with
  | some b => (a, .final Status.inService (le 4 b))
  | none => if a.ana.calRun.isSome then (a, .final Status.busy []) else (a.selfCalStart (some h), .later)

/-- SELF_CAL (R123). -/
def execSelfCal (h : CmdHdr) (s : State) : Outcome State Fault Refusal :=
  s.onApp fun a => a.process h .selfCal none [] (opSelfCal h)

/-! ### Range and reference changes (R117, R118, R138) -/

/-- RANGE_CHANGE (R138): the range of a channel follows its register at the next CIC sample boundary. -/
def execRangeChange (bay : Fin 4) (ch : Fin 8) (s : State) : Outcome State Fault Refusal :=
  s.onApp fun a =>
    let r := bitOf (a.get (Reg.ANA_CHCFG_ch bay)) (2 * ch + 1)
    if vat (vat a.ana.bays bay).rangeNow ch = r then a
    else
      let a := a.handDisturb bay
      (a.onBay bay fun x => { x with rangeNow := vput x.rangeNow ch r, rangeAt := vput x.rangeAt ch (some a.tick) }).intRestart bay ch

/-- REFERENCE_SOURCE_CHANGE (R118): the samples of a group are invalid until SELF_CAL next completes. -/
def execReferenceSourceChange (bay : Fin 4) (s : State) : Outcome State Fault Refusal :=
  s.onApp fun a =>
    let r := bitsOf (a.get Reg.ANA_REFCFG_src) (2 * bay) 2
    if (vat a.ana.bays bay).srcNow = r then a
    else (a.handDisturb bay).onBay bay fun x => { x with srcNow := r, refStale := true }

/-! ### Decimation settings (R158 to R172) -/

/-- The Pool delay and the Jet delay of a bay, 1/16 ns (R163). -/
def App.poolDelay (a : App) (b : Nat) : Nat :=
  16 * factoryTa + (divRound (8000000000 * (2 + 63 * cicOrder (a.get (Reg.DEC_CFG_pool_k b)) + 64 * a.get Reg.DEC_AVG_navg)) 14745600).toNat
def App.jetDelay (a : App) (b : Nat) : Nat :=
  16 * factoryTa + (divRound (8000000000 * (2 + 7 * cicOrder (a.get (Reg.DEC_CFG_jet_k b)))) 14745600).toNat

/-- The delays of every channel, recomputed (R163). -/
def App.setDelays (a : App) : App :=
  (upto 4).foldl (fun a b => (upto 8).foldl (fun a c =>
    (a.set (Reg.DEC_PDLY_dp b c) (a.poolDelay b)).set (Reg.DEC_JDLY_dj b c) (a.jetDelay b)) a) a

/-- The Pool rate, S/s (R159). -/
def App.poolRate (a : App) : Nat := 230400 / (a.get Reg.DEC_AVG_navg + 1)

/-- A value of DEC_AVG is accepted when N divides 230,400 and the gain is within 2^-14 of 1 (R159). -/
def decAvgOk (navg shift trim : Nat) : Bool :=
  let n := navg + 1
  let unity : Int := (2 ^ shift * 65536 : Nat)
  230400 % n == 0 && 2 ^ 14 * ((n * trim : Nat) - unity).natAbs ≤ unity.natAbs

/-- An accepted DEC_ write becomes pending, in place of an earlier one (R171, R172). What a write that changes no field does is not
stated: it is an accepted write as any other, and so it becomes the pending change, is counted and recorded at its edge, and makes
words that span the edge invalid (DESIGN CHOICE, log entry 185). -/
def App.decAccept (a : App) (fields : List (Nat × Nat)) : App :=
  let a := { a with ana := { a.ana with decPend := some (fields, a.modNow) } }
  (upto 4).foldl (fun a b => if a.decTouches b then a.handDisturb b else a) (a.setB Reg.DEC_STAT_pending true)

/-- Edge 0 of the first second that follows an instant by at least 1 ms (R171). -/
def decEdge (t : Nat) : Nat := (t + 1000000 + 999999999) / 1000000000 * 1000000000

/-- DEC_CHANGE_EDGE (R171): a pending change takes effect at edge 0 of a second. -/
def execDecChangeEdge (s : State) : Outcome State Fault Refusal :=
  s.onApp fun a =>
    match a.ana.decPend with
    | none => a
    | some (fields, t) =>
      if decEdge t ≤ a.modNow then
        let a := { a with regs := fields.foldl (fun (r : RegFile) (f : Nat × Nat) => r.set f.1 f.2) a.regs, ana := { a.ana with decPend := none } }
        let a := (a.setB Reg.DEC_STAT_pending false).satAdd Reg.DEC_STAT_applied 1
        let a := { a with ana := { a.ana with decGen := a.ana.decGen + 1 } }
        let edge := ((decEdge t : Int) + a.modLag).toNat
        let a := a.record 0x0023 (decBay fields) (edge / 1000000000) (edge % 1000000000) 0
        let a := (upto 4).foldl (fun a b => (a.onBay b fun x => { x with decAt := some a.tick }).intRestartBay b) a
        a.setDelays
      else a

/-- INTEGRATOR_SETTLE_END (R156): 0.2 s after its restart an integrator returns to its set leak. -/
def execIntegratorSettleEnd (bay : Fin 4) (ch : Fin 8) (s : State) : Outcome State Fault Refusal :=
  s.onApp fun a =>
    if a.since (vat (vat a.ana.bays bay).intAt ch) (200 * tMs) then
      a.set Reg.DEC_SETTLE_int_settle (putBit (a.get Reg.DEC_SETTLE_int_settle) (8 * bay + ch) false)
    else a

/-! ### The auxiliary converter (R139 to R148) -/

/-- A change to the auxiliary converter. -/
def App.onAux (a : App) (f : AuxSt → AuxSt) : App := { a with ana := { a.ana with aux := f a.ana.aux } }

/-- A slot as ANA_AUXQs_j holds it (R143, R149). -/
def App.auxSlot (a : App) (s j : Nat) : AuxSlot :=
  ⟨a.get (Reg.ANA_AUXQ_input s j), a.get (Reg.ANA_AUXQ_navg s j) + 1, a.get (Reg.ANA_AUXQ_shift s j), a.get (Reg.ANA_AUXQ_ref s j)⟩

/-- The time for which a changed reference is not settled (R142). -/
def refSettle (ref : Nat) : Nat := if ref = 0 then 2 * tMs else if ref = 1 then 5 * tMs else 500 * tUs

/-- The time of a conversion of N samples: (N + 2) / 7,200 s (R141). -/
def convTicks (n : Nat) : Nat := ((n + 2) * tS + 7199) / 7200

/-- The code of what runs, for seq_now (R149). -/
def AuxSource.code : AuxSource → Nat
  | .seq s _ => s
  | .housekeeping _ => 16
  | .urgent => 17
  | .single => 18

/-- The pending field of ANA_AUXSTAT. -/
def App.auxPendField (a : App) : App :=
  a.set Reg.ANA_AUXSTAT_pending (a.ana.aux.seqs.foldl (fun m s => putBit m s true) 0)

/-- A conversion begins: at once when its reference is in use, else held until the reference has settled, a settling under way
included (R142). -/
def App.auxRun (a : App) (c : AuxConv) : App :=
  let a := ((a.setB Reg.ANA_AUXSTAT_busy true).set Reg.ANA_AUXSTAT_input_now c.slot.input).set Reg.ANA_AUXSTAT_seq_now c.src.code
  if a.get Reg.ANA_AUXSTAT_ref_now = c.slot.ref ∧ a.on Reg.ANA_AUXSTAT_REF_SETTLED then
    a.onAux fun x => { x with running := some { c with startAt := a.tick }, heldTo := none }
  else
    let t := if a.get Reg.ANA_AUXSTAT_ref_now = c.slot.ref ∧ a.tick < a.ana.aux.refAt then a.ana.aux.refAt else a.tick + refSettle c.slot.ref
    let a := (a.set Reg.ANA_AUXSTAT_ref_now c.slot.ref).setB Reg.ANA_AUXSTAT_REF_SETTLED false
    a.onAux fun x => { x with running := some { c with startAt := t }, heldTo := some t, refAt := t }

/-- The slot of an urgent conversion, and of the housekeeping sequence (R145, R146). -/
def urgentSlot (input : Nat) : AuxSlot := ⟨input, 4, 2, 0⟩
def hkSlot (input : Nat) : AuxSlot := ⟨input, 16, 4, 0⟩

/-- The next conversion in the order of R145: urgent, aborted, the sequence in progress, housekeeping, singles, user
sequences. That a sequence in progress goes on before housekeeping that has become due is not stated (DESIGN CHOICE, log entry 186),
nor what input_now and seq_now read while no conversion runs: they keep the last one (DESIGN CHOICE, log entry 187). -/
def App.auxNext (a : App) : App :=
  let x := a.ana.aux
  if x.running.isSome then a
  else
    match x.urgent with
    | i :: r => (a.onAux fun x => { x with urgent := r }).auxRun ⟨.urgent, urgentSlot i, 0, false⟩
    | [] =>
      match x.aborted with
      | c :: r => ((a.onAux fun x => { x with aborted := r }).satAdd Reg.ANA_AUXCNT_restarts 1).auxRun { c with restarted := true }
      | [] =>
        match x.cont with
        | some (16, j) => (a.onAux fun x => { x with cont := none }).auxRun ⟨.housekeeping j, hkSlot j, 0, false⟩
        | some (s, j) => (a.onAux fun x => { x with cont := none }).auxRun ⟨.seq s j, a.auxSlot s j, 0, false⟩
        | none =>
          if x.hkDue then (a.onAux fun x => { x with hkDue := false }).auxRun ⟨.housekeeping 0, hkSlot 0, 0, false⟩
          else
            match x.singles with
            | c :: r => (a.onAux fun x => { x with singles := r }).auxRun ⟨.single, c, 0, false⟩
            | [] =>
              match x.seqs with
              | s :: r => ((a.onAux fun x => { x with seqs := r }).auxPendField).auxRun ⟨.seq s 0, a.auxSlot s 0, 0, false⟩
              | [] => (a.setB Reg.ANA_AUXSTAT_busy false)

/-- Whether a sequence is pending or running. -/
def AuxSt.busySeq (x : AuxSt) (s : Nat) : Bool :=
  x.seqs.contains s || (x.cont.map (·.1)) == some s
    || (match x.running with
        | some c => c.src.code == s
        | none => false)
    || x.aborted.any (fun c => c.src.code == s)

/-- Start of a user sequence: ignored and counted when it is pending or running (R144, R145). -/
def App.auxStartSeq (a : App) (s : Nat) : App :=
  if a.ana.aux.busySeq s then a.satAdd Reg.ANA_AUXCNT_overruns 1
  else ((a.onAux fun x => { x with seqs := insertNat s x.seqs }).auxPendField).auxNext

/-- An urgent request: merged with a pending one of its input; it aborts a running conversion that is not urgent
(R145 to R147). -/
def App.auxUrgent (a : App) (input : Nat) : App :=
  let x := a.ana.aux
  if x.urgent.contains input then a
  else
    let a := a.onAux fun x => { x with urgent := x.urgent ++ [input] }
    let a := match x.running with
      | some c => if c.src = AuxSource.urgent then a else a.onAux fun x => { x with running := none, heldTo := none, aborted := x.aborted ++ [c] }
      | none => a
    a.auxNext

/-- HOUSEKEEPING_DUE (R145): at each whole second of wall time. -/
def execHousekeepingDue (s : State) : Outcome State Fault Refusal :=
  s.onApp fun a =>
    let sec := a.now / 1000000000
    if a.ana.aux.hkSec = sec then a
    else (a.onAux fun x => { x with hkDue := true, hkSec := sec }).auxNext

/-- REF_SETTLED (R142): the reference has settled and the held conversion proceeds. -/
def execRefSettled (s : State) : Outcome State Fault Refusal :=
  s.onApp fun a =>
    if a.on Reg.ANA_AUXSTAT_REF_SETTLED = false ∧ a.ana.aux.refAt ≠ 0 ∧ a.ana.aux.refAt ≤ a.tick then
      (a.setB Reg.ANA_AUXSTAT_REF_SETTLED true).onAux fun x =>
        { x with heldTo := none, refAt := 0
                 running := if x.heldTo.isSome then x.running.map (fun c => { c with startAt := a.tick }) else x.running }
    else a

/-- The voltage or temperature that a converter code stands for, in µV or 0.001 °C: the converter's scale is not
given (R139, R141). -/
def auxMicro (input : Nat) (v : W32) : Int := (Config.auxScale input v).toInt

/-- The reference checks of R119 on inputs 8 to 11, and on REFX where a group selects it. When refx_absent clears once no group
selects the external source is not stated: it stays as it is (DESIGN CHOICE, log entry 188). -/
def App.auxRefCheck (a : App) (g : Nat) (v : W32) : App :=
  let dev := (2 * auxMicro (8 + g) v - 2500000).natAbs
  let a := a.set Reg.ANA_REFSTAT_ref_warn (putBit (a.get Reg.ANA_REFSTAT_ref_warn) g (decide (dev > 2500)))
  let absent := (vat a.ana.bays g).srcNow == 1 && decide (2 * auxMicro (8 + g) v < 1000000)
  let a := a.set Reg.ANA_REFSTAT_ref_fault (putBit (a.get Reg.ANA_REFSTAT_ref_fault) g (decide (dev > 25000) || absent))
  if (vat a.ana.bays g).srcNow = 1 then a.setB Reg.ANA_REFSTAT_refx_absent absent else a

/-- A reading of a supply in mV, held to 16 bits. -/
def supplyMv (input : Nat) (v : W32) : Nat := min 65535 (auxMicro input v * 20 / 1000).toNat

/-- What a finished reading of housekeeping or of a supervisor feeds: references, field supplies and feeds (R119, R139, R146). -/
def App.auxFeed (a : App) (input : Nat) (v : W32) : App :=
  match input with
  | 4 => a.set Reg.FIO_FSVAL_fsa (supplyMv 4 v)
  | 5 => a.set Reg.FIO_FSVAL_fsb (supplyMv 5 v)
  | 6 => a.set Reg.GLB_FEEDVAL_feed_a (supplyMv 6 v)
  | 7 => a.set Reg.GLB_FEEDVAL_feed_b (supplyMv 7 v)
  | 8 | 9 | 10 | 11 => a.auxRefCheck (input - 8) v
  | _ => a

/-- The result of a conversion: the sum of its base samples shifted right (R141). -/
def auxResult (shift : Nat) (samples : List Int) : W32 :=
  BitVec.ofInt 32 (samples.foldl (· + ·) 0 / (2 ^ shift : Nat))

/-- A result record written over the previous one of its slot (R148). -/
def App.auxRecord (a : App) (c : AuxConv) (samples : List Int) (old : AuxRec) : AuxRec :=
  { value := auxResult c.slot.shift samples, stamp := BitVec.ofNat 64 a.now, tq := BitVec.ofNat 8 a.tqc
    flags := BitVec.ofNat 8 (c.restarted.toNat + 2 * (samples.any (fun x => x == 8388607 || x == -8388608)).toNat)
    input := BitVec.ofNat 8 c.slot.input, count := old.count + 1, tsc := BitVec.ofNat 8 a.tsc }

/-- The record of a sequence slot; not yet written it is all zero. -/
def AuxSt.recOf (x : AuxSt) (i : Nat) : AuxRec :=
  match x.recs.find? (fun e => e.1 == i) with
  | some e => e.2
  | none => {}

/-- A slot's record put in its place, rising by slot. -/
def putAux (l : List (Nat × AuxRec)) (i : Nat) (r : AuxRec) : List (Nat × AuxRec) :=
  match l with
  | [] => [(i, r)]
  | (j, q) :: t => if i < j then (i, r) :: (j, q) :: t else if i = j then (i, r) :: t else (j, q) :: putAux t i r

/-- The end of the running conversion: its record, what it feeds, and the next conversion (R141, R143). -/
def App.auxEnd (a : App) (c : AuxConv) (samples : List Int) : App :=
  let a := a.onAux fun x => { x with running := none }
  let v := auxResult c.slot.shift samples
  let a := match c.src with
    | .urgent | .housekeeping _ => a.auxFeed c.slot.input v
    | .single | .seq .. => a
  let a := match c.src with
    | .urgent => a
    | .single => a.onAux fun x => { x with singleRec := a.auxRecord c samples x.singleRec }
    | .housekeeping j =>
      a.onAux fun x => { x with hk := vup x.hk j (a.auxRecord c samples), cont := if j < 11 then some (16, j + 1) else x.cont }
    | .seq q j =>
      a.onAux fun x => { x with recs := putAux x.recs (16 * q + j) (a.auxRecord c samples (x.recOf (16 * q + j)))
                                cont := if j < 15 ∧ !a.on (Reg.ANA_AUXQ_last q j) then some (q, j + 1) else x.cont }
  a.auxNext

/-- The 16 bytes of a result record (R148). -/
def AuxRec.bytes (r : AuxRec) : List Byte :=
  le 4 r.value.toNat ++ le 8 r.stamp.toNat ++ [r.tq, r.flags, r.input, r.count]

/-- The effect of AUX_START: a sequence, or one single conversion of at most 16 pending (R144, R145). -/
def opAuxStart (seq : Byte) (slot : W32) (a : App) : App × Reply :=
  if seq = 255#8 then
    if 16 ≤ a.ana.aux.singles.length then (a, .final Status.full [])
    else
      let v := slot.toNat
      ((a.onAux fun x => { x with singles := x.singles ++ [⟨bitsOf v 0 4, bitsOf v 4 8 + 1, bitsOf v 12 4, bitsOf v 16 2⟩] }).auxNext,
        .final Status.ok [])
  else (a.auxStartSeq seq.toNat, .final Status.ok [])

/-- The slot word of AUX_START as the fields of ANA_AUXQs_j limit it (R149). -/
def auxSlotOk (v : Nat) : Bool := bitsOf v 4 8 != 0 && bitsOf v 12 4 ≤ 8 && bitsOf v 16 2 != 3 && v < 2 ^ 19

/-- AUX_START (R144). -/
def execAuxStart (h : CmdHdr) (seq : Byte) (slot : W32) (s : State) : Outcome State Fault Refusal :=
  s.onApp fun a => a.process h (.auxStart seq slot)
    (firstFail [(0, seq.toNat ≤ 15 ∨ seq = 255#8), (1, seq ≠ 255#8 ∨ auxSlotOk slot.toNat)]) [] (opAuxStart seq slot)

/-- The effect of READ_AUX: the 16 records of a sequence (R148). -/
def opReadAux (h : CmdHdr) (out : Out) (seq : Byte) (a : App) : App × Reply :=
  a.outData h out ((upto 16).flatMap (fun j => (a.ana.aux.recOf (16 * seq.toNat + j)).bytes))

/-- READ_AUX (R148). -/
def execReadAux (h : CmdHdr) (out : Out) (seq : Byte) (s : State) : Outcome State Fault Refusal :=
  s.onApp fun a => a.process h (.readAux out seq)
    (firstFail [(0, out.addr.toNat % 64 = 0), (2, seq.toNat ≤ 15)]) [] (opReadAux h out seq)

end Sys2Proof.Machine
end

