-- ==== Sys2Proof/Machine/Image.lean ====
section
/-! DEFINITION. Program images: their sections and tables, and the checks of VERIFY_IMAGE (R338 to R342, R349 to R353,
R380, R388). -/

namespace Sys2Proof.Machine

open Host

/-- A program image as its bytes. -/
abbrev Image := List Byte

/-- Header fields (R340). -/
def Image.nsect (m : Image) : Nat := numAt m 6 2
def Image.fpImage (m : Image) : Nat := numAt m 8 4
def Image.fpRetain (m : Image) : Nat := numAt m 12 4
def Image.ntasks (m : Image) : Nat := numAt m 28 2
def Image.ntypes (m : Image) : Nat := numAt m 30 2
def Image.ninst (m : Image) : Nat := numAt m 32 4
def Image.npoints (m : Image) : Nat := numAt m 36 4
def Image.retainedSize (m : Image) : Nat := numAt m 40 4
def Image.instSize (m : Image) : Nat := numAt m 44 4

/-- The program fingerprint (R341). -/
def Image.fp (m : Image) : Nat := m.fpRetain * 2 ^ 32 + m.fpImage

/-- Directory entry `i`: kind, offset, size and CRC. -/
def Image.entry (m : Image) (i : Nat) : Nat × Nat × Nat × Nat :=
  let o := 64 + 16 * i
  (numAt m o 4, numAt m (o + 4) 4, numAt m (o + 8) 4, numAt m (o + 12) 4)

/-- The directory. -/
def Image.dir (m : Image) : List (Nat × Nat × Nat × Nat) := (upto m.nsect).map m.entry

/-- The bytes of a section; none of a kind that is absent. -/
def Image.sect (m : Image) (k : Nat) : List Byte :=
  match m.dir.find? (fun e => e.1 == k) with
  | some (_, o, n, _) => (m.drop o).take n
  | none => []

/-- The task-table entry of a task, as its 64 bytes (R342). -/
def Image.task (m : Image) (t : Nat) : Option (List Byte) :=
  let s := m.sect 1
  ((upto m.ntasks).map (fun i => bytesAt s (64 * i) 64)).find? (fun e => numAt e 0 1 == t)

/-- Fields of a task-table entry. -/
def tkTrigger (e : List Byte) : Nat := numAt e 1 1
def tkPriority (e : List Byte) : Nat := numAt e 2 1
def tkEnabled (e : List Byte) : Bool := bitOf (numAt e 3 1) 0
def tkFaultStop (e : List Byte) : Bool := bitOf (numAt e 3 1) 1
def tkPeriod (e : List Byte) : Nat := numAt e 4 4
def tkPhase (e : List Byte) : Nat := numAt e 8 4
def tkMask (e : List Byte) : Nat := numAt e 12 4
def tkAll (e : List Byte) : Bool := numAt e 16 1 == 1
def tkBay (e : List Byte) : Nat := numAt e 17 1
def tkAngTgt (e : List Byte) : Nat := numAt e 18 2
def tkAngPer (e : List Byte) : Nat := numAt e 20 4
def tkEntry (e : List Byte) : Nat := numAt e 24 4
def tkWcet (e : List Byte) : Nat := numAt e 28 4 + numAt e 52 4 * 2 ^ 32
def tkInList (e : List Byte) : Nat := numAt e 32 4
def tkInCount (e : List Byte) : Nat := numAt e 36 2
def tkOvrLimit (e : List Byte) : Nat := numAt e 38 2
def tkOutList (e : List Byte) : Nat := numAt e 40 4
def tkOutCount (e : List Byte) : Nat := numAt e 44 2
def tkLogMax (e : List Byte) : Nat := numAt e 48 4
def tkRoot (e : List Byte) : Nat := numAt e 56 4

/-- The points of a task's input list and output list (R351). -/
def Image.inList (m : Image) (e : List Byte) : List Nat :=
  (upto (tkInCount e)).map (fun i => numAt (m.sect 10) (tkInList e + 4 * i) 4)
def Image.outList (m : Image) (e : List Byte) : List Nat :=
  (upto (tkOutCount e)).map (fun i => numAt (m.sect 10) (tkOutList e + 4 * i) 4)

/-- Function-block type `i`: entry, size, initialisation routine, record list (R351). -/
def Image.typ (m : Image) (i : Nat) : Nat × Nat × Nat × Nat :=
  let s := m.sect 2
  (numAt s (16 * i) 4, numAt s (16 * i + 4) 4, numAt s (16 * i + 8) 4, numAt s (16 * i + 12) 4)

/-- Words of a record list up to 0xFFFFFFFF; none when the list does not end within the section. -/
def recWords (s : List Byte) : Nat → Nat → Option (List Nat)
  | 0, _ => none
  | n + 1, o =>
    if s.length < o + 4 then none
    else
      let w := numAt s o 4
      if w = 0xFFFFFFFF then some [] else (recWords s n (o + 4)).map (w :: ·)

/-- The record list of a type (R351). -/
def Image.records (m : Image) (i : Nat) : Option (List Nat) :=
  let (_, _, _, r) := m.typ i
  if r = 0xFFFFFFFF then some [] else recWords (m.sect 2) ((m.sect 2).length / 4 + 1) r

/-- Instance `i`: offset, size, type and owner (R380). -/
structure InstEnt where
  off : Nat
  size : Nat
  typ : Nat
  owner : Nat
  deriving DecidableEq, Repr, Inhabited

def Image.inst (m : Image) (i : Nat) : InstEnt :=
  let s := m.sect 4
  ⟨numAt s (16 * i) 4, numAt s (16 * i + 4) 4, numAt s (16 * i + 8) 2, numAt s (16 * i + 10) 1⟩

/-- The retained ranges: instance, offset in it, size (R351). -/
def Image.retained (m : Image) : List (Nat × Nat × Nat) :=
  let s := m.sect 6
  (upto (s.length / 12)).map (fun i => (numAt s (12 * i) 4, numAt s (12 * i + 4) 4, numAt s (12 * i + 8) 4))

/-- The retained ranges as offsets in instance data. -/
def Image.retRanges (m : Image) : List (Nat × Nat) := m.retained.map (fun r => ((m.inst r.1).off + r.2.1, r.2.2))

/-- Whether an offset in instance data is retained. -/
def Image.retAt (m : Image) (o : Nat) : Bool := m.retRanges.any (fun r => r.1 ≤ o && o < r.1 + r.2)

/-- Entry `i` of the point table (R352). -/
def Image.point (m : Image) (i : Nat) : List Byte := bytesAt (m.sect 7) (32 * i) 32
def ptType (p : List Byte) : Nat := numAt p 0 1
def ptKind (p : List Byte) : Nat := numAt p 1 1
def ptFlags (p : List Byte) : Nat := numAt p 2 2
def ptWriter (p : List Byte) : Nat := numAt p 4 4
def ptTrip (p : List Byte) : Option Nat := if bitOf (ptFlags p) 0 then some (bitsOf (ptFlags p) 1 6) else none

/-- Entries of the force table and of the remote-I/O map (R353). -/
def Image.forceEnt (m : Image) (i : Nat) : List Byte := bytesAt (m.sect 8) (16 + 24 * i) 24
def Image.nforces (m : Image) : Nat := numAt (m.sect 8) 0 4
def Image.remoteEnt (m : Image) (i : Nat) : List Byte := bytesAt (m.sect 9) (16 + 8 * i) 8
def Image.nremote (m : Image) : Nat := numAt (m.sect 9) 0 4

/-- The width in bytes of a point type (R346). -/
def typeWidth (t : Nat) : Nat :=
  if t = 1 ∨ t = 2 ∨ t = 6 ∨ t = 0xC then 1
  else if t = 3 ∨ t = 7 ∨ t = 0xD then 2
  else if t = 4 ∨ t = 8 ∨ t = 0xA ∨ t = 0xE then 4
  else if t = 5 ∨ t = 9 ∨ t = 0xB ∨ t = 0xF ∨ t = 0x10 then 8
  else 0

/-- The tag that a point type loads as (R382). -/
def typeTag (t : Nat) : Nat :=
  if t = 1 then 1
  else if 2 ≤ t ∧ t ≤ 5 then 2
  else if 6 ≤ t ∧ t ≤ 9 then 3
  else if t = 0xA then 4
  else if t = 0xB then 5
  else if 0xC ≤ t ∧ t ≤ 0xF then 6
  else if t = 0x10 then 7
  else 0

/-- A value narrowed to a type's width and extended to 64 bits (R346, R382). -/
def typeValue (t : Nat) (v : W64) : W64 :=
  let w := 8 * typeWidth t
  let x := v.toNat % 2 ^ w
  if 2 ≤ t ∧ t ≤ 5 then BitVec.ofInt 64 (asSigned w x) else if t = 1 then (if x = 0 then 0 else 1) else BitVec.ofNat 64 x

/-! ### Verification (R341) -/

/-- Whether a list has no repeats. -/
def noDup (l : List Nat) : Bool := decide l.Nodup

/-- The CRC-32C of an image and of each of its sections (R32, R341). -/
def Image.crcOk (m : Image) : Bool :=
  m.fpImage == crc32c (m.drop 64) && m.fpRetain == crc32c (m.sect 6)
    && m.dir.all (fun e => crc32c ((m.drop e.2.1).take e.2.2.1) == e.2.2.2)

/-- The header, the sections and their CRCs. -/
def Image.formOk (m : Image) : Bool :=
  numAt m 0 4 == 0x4950584F && numAt m 4 2 == 1 && 1 ≤ m.nsect && m.nsect ≤ 16 && numAt m 24 4 == m.length
    && 64 + 16 * m.nsect ≤ m.length && m.crcOk
    && 1 ≤ m.ntasks && 1 ≤ m.ntypes && (upto 12).all (fun i => m.getD (52 + i) 0 == 0)
    && m.dir.all (fun e => 1 ≤ e.1 && e.1 ≤ 11 && e.2.1 + e.2.2.1 ≤ m.length)

/-- One directory entry of a kind, and a whole section 5. -/
def Image.sectOk (m : Image) : Bool := noDup (m.dir.map (·.1)) && (m.sect 5).length == m.instSize

/-- The task-table entries, in table order. -/
def Image.tasks (m : Image) : List (List Byte) := (upto m.ntasks).map (fun i => bytesAt (m.sect 1) (64 * i) 64)

/-- A sum of fractions at most 6. -/
def loadOk (l : List (Nat × Nat)) : Bool :=
  let (n, d) := l.foldl (fun x e => (x.1 * e.2 + e.1 * x.2, x.2 * e.2)) (0, 1)
  decide (n ≤ 6 * d)

/-- A task-table entry in itself (R342). -/
def taskOk (e : List Byte) : Bool :=
  let tr := tkTrigger e
  numAt e 0 1 < 64 && tr ≤ 2 && tkPriority e ≤ 15 && numAt e 3 1 < 4 && 1 ≤ tkOvrLimit e && tkOvrLimit e ≤ 1000
    && numAt e 46 2 == 0 && numAt e 60 4 == 0 && numAt e 16 1 ≤ 1 && tkBay e ≤ 3
    && (if tr = 0 then 250 ≤ tkPeriod e && tkPeriod e ≤ 10000000 && tkPhase e < tkPeriod e else tkPeriod e == 0 && tkPhase e == 0)
    && (tr == 1 || (tkMask e == 0 && numAt e 16 1 == 0))
    && (tr == 2 || (tkBay e == 0 && tkAngTgt e == 0 && tkAngPer e == 0)) && (tkAngPer e == 0 || 256 ≤ tkAngPer e)

/-- The limits of R338. -/
def Image.limitsOk (m : Image) : Bool :=
  let cyc := m.tasks.filter (fun e => tkTrigger e == 0)
  m.ntasks ≤ 64 && m.ntypes ≤ 4096 && m.ninst ≤ 131072 && m.npoints ≤ 65536 && m.instSize ≤ 768 * 2 ^ 20
    && m.retainedSize ≤ 4 * 2 ^ 20 && m.length ≤ 512 * 2 ^ 20
    && m.tasks.all (fun e => taskOk e && tkInCount e ≤ 8192 && tkLogMax e ≤ 262144) && noDup (m.tasks.map (fun e => numAt e 0 1))
    && cyc.all (fun e => 2 * tkWcet e ≤ 1000 * tkPeriod e) && loadOk (cyc.map (fun e => (tkWcet e, 1000 * tkPeriod e)))
    && (upto m.ninst).all (fun i => 1 ≤ (m.inst i).size && (m.inst i).size ≤ 2 ^ 20)

/-- One writer for each point that a task writes. -/
def Image.writersOk (m : Image) : Bool := noDup (m.tasks.flatMap (fun e => m.outList e))

/-- Instances inside instance data, retained ranges inside their instances. -/
def Image.placesOk (m : Image) : Bool :=
  (upto m.ninst).all (fun i => (m.inst i).off % 64 == 0 && (m.inst i).off + (m.inst i).size ≤ m.instSize)
    && m.retained.all (fun r => r.1 < m.ninst && r.2.1 + r.2.2 ≤ (m.inst r.1).size)

/-- Code offsets inside the code section, and WAIT_WORK at offset 0 (R341, R388). -/
def Image.codeOk (m : Image) : Bool :=
  let n := (m.sect 3).length
  numAt (m.sect 3) 0 4 == 0xF0000000 && 4 ≤ n && m.tasks.all (fun e => tkEntry e < n)
    && (upto m.ntypes).all (fun i => (m.typ i).1 < n && ((m.typ i).2.2.1 == 0xFFFFFFFF || (m.typ i).2.2.1 < n))

/-- The root instance of every task. -/
def Image.rootsOk (m : Image) : Bool :=
  m.tasks.all (fun e => tkRoot e < m.ninst && (m.inst (tkRoot e)).owner == numAt e 0 1)

/-- The type table, the instances and the record lists (R349, R351, R380). -/
def Image.typesOk (m : Image) : Bool :=
  16 * m.ntypes ≤ (m.sect 2).length && 16 * m.ninst ≤ (m.sect 4).length && 64 * m.ntasks == (m.sect 1).length
    && (m.sect 6).length % 12 == 0 && (m.retained.foldl (fun s r => s + r.2.2) 0) == m.retainedSize
    && (upto m.ntypes).all (fun i =>
      let (_, size, _, _) := m.typ i
      1 ≤ size && size ≤ 2 ^ 20 && match m.records i with
        | none => false
        | some l => l.all (fun w =>
            let o := w % 2 ^ 20
            let n := if bitOf w 31 then 1 else 24
            bitsOf w 20 10 == 0 && o + n ≤ size
              && (upto m.ninst).all (fun j => (m.inst j).typ != i ||
                   (upto n).all (fun b => m.retAt ((m.inst j).off + o + b) == bitOf w 30))
              && (bitOf w 31 || !bitOf w 30 || (upto m.ninst).all (fun j => (m.inst j).typ != i ||
                   bitsOf (numAt (m.sect 5) ((m.inst j).off + o + 16) 1) 2 2 != 3))))
    && (upto m.ninst).all (fun j => (m.inst j).typ < m.ntypes && (m.inst j).size == (m.typ (m.inst j).typ).2.1
         && (m.inst j).owner < 64 && (upto 5).all (fun b => (m.sect 4).getD (16 * j + 11 + b) 0 == 0))

/-- The input and output lists of the tasks (R351). -/
def Image.listsOk (m : Image) : Bool :=
  let n := (m.sect 10).length
  m.tasks.all (fun e =>
    tkInList e % 4 == 0 && tkOutList e % 4 == 0 && tkInList e + 4 * tkInCount e ≤ n && tkOutList e + 4 * tkOutCount e ≤ n
      && noDup (m.inList e) && noDup (m.outList e) && (m.inList e).all (fun p => p < m.npoints)
      && (m.outList e).all (fun p => p < m.npoints && ptKind (m.point p) == 0 && ptWriter (m.point p) == numAt e 0 1))

/-- The width of the snapshot field or element at an offset (R332), and of the MODULE_STATUS field (R501). -/
def snapWidth (o : Nat) : Nat :=
  if 64 ≤ o ∧ o < 256 ∧ o % 8 = 0 then 8 else if 256 ≤ o ∧ o < 352 ∧ o % 4 = 0 then 4 else 0
def statusWidth (o : Nat) : Nat :=
  if o < 8 then 1 else if o = 8 then 2 else if o = 12 ∨ o = 16 ∨ o = 28 then 4 else if o = 20 then 8 else 0

/-- An entry of the point table (R352). -/
def pointOk (p : List Byte) : Bool :=
  let t := ptType p
  let k := ptKind p
  let w := ptWriter p
  1 ≤ t && t ≤ 0x10 && k ≤ 7 && ptFlags p < 128 && (bitOf (ptFlags p) 0 || ptFlags p == 0)
    && (!bitOf (ptFlags p) 0 || (t == 1 && k == 0)) && (k == 5 || (numAt p 8 8 == 0 && numAt p 16 2 == 0))
    && numAt p 16 2 < 2 ^ 13 && numAt p 18 2 == 0 && numAt p 24 8 == 0
    && (match k with
        | 0 => w < 64
        | 1 => w < 32
        | 2 => w < 256
        | 3 => w < 1024
        | 4 => (w / 128 < 10 && w % 128 < 64) || ((w / 128 == 10 || w / 128 == 11) && w % 128 < 100)
        | 5 => w == 0
        | 6 => snapWidth w != 0 && snapWidth w == typeWidth t
        | _ => w < 32 && statusWidth w != 0 && statusWidth w == typeWidth t)

/-- The point table and its trip requests (R352). -/
def Image.pointsOk (m : Image) : Bool :=
  32 * m.npoints == (m.sect 7).length && (upto m.npoints).all (fun i => pointOk (m.point i))
    && noDup ((upto m.npoints).filterMap (fun i => ptTrip (m.point i)))

/-- The force table and the remote-I/O map (R353, R365). -/
def Image.forcesOk (m : Image) : Bool :=
  let f := m.sect 8
  f.isEmpty || (m.nforces ≤ 4096 && f.length == 16 + 24 * m.nforces && (upto 12).all (fun i => f.getD (4 + i) 0 == 0)
    && noDup ((upto m.nforces).map (fun i => numAt (m.forceEnt i) 0 4))
    && (upto m.nforces).all (fun i =>
         let e := m.forceEnt i
         numAt e 0 4 < m.npoints && numAt e 4 2 < 2 ^ 13 && numAt e 6 2 == 0 && numAt e 20 4 == 0))
def Image.remoteOk (m : Image) : Bool :=
  let f := m.sect 9
  f.isEmpty || (f.length == 16 + 8 * m.nremote && (upto 12).all (fun i => f.getD (4 + i) 0 == 0)
    && noDup ((upto m.nremote).map (fun i => numAt (m.remoteEnt i) 0 1 * 65536 + numAt (m.remoteEnt i) 2 2))
    && (upto m.nremote).all (fun i =>
         let e := m.remoteEnt i
         let x := numAt e 2 2
         numAt e 1 1 < 64 && numAt e 4 4 == 0 && (m.task (numAt e 1 1)).isSome
           && (match numAt e 0 1 with
               | 1 => x ≤ 9 && (match m.task (numAt e 1 1) with | some t => tkTrigger t == 0 | none => false)
               | 2 => (x / 128 == 10 || x / 128 == 11) && x % 128 < 100
               | 3 => x < 128
               | _ => false)))

/-- The number of the first failing check of VERIFY_IMAGE, counted in the order of R341 from 1. -/
def Image.verify (m : Image) (fw : Nat) : Option Nat :=
  ([m.formOk, m.sectOk, decide (numAt m 48 4 ≤ fw), m.limitsOk, m.writersOk, m.placesOk, m.codeOk, m.rootsOk,
    m.typesOk && m.listsOk && m.pointsOk && m.forcesOk && m.remoteOk].findIdx? (fun b => !b)).map (· + 1)

end Sys2Proof.Machine
end

