-- ==== Sys2Proof/Machine/Settings.lean ====
section
/-! DEFINITION. Element descriptors, settings groups, user curves, their checks and the admission rule
(R175, R191 to R195, R201 to R203, R215 to R225, R641). -/

namespace Sys2Proof.Machine

open Host

/-- A change to the Sluice part. -/
def App.onSlu (a : App) (f : SluSt → SluSt) : App := { a with slu := f a.slu }

/-! ### Descriptor memory -/

/-- An empty descriptor: 64 zero bytes. -/
def emptyDesc : List Byte := List.replicate 64 0#8

/-- The descriptor at a place of a descriptor store; a place not listed holds the empty one. -/
def descAt (l : List (Nat × List Byte)) (i : Nat) : List Byte :=
  match l with
  | [] => emptyDesc
  | (j, d) :: t => if i = j then d else descAt t i

/-- A descriptor put in its place, rising; the empty one is not listed. -/
def putDesc (l : List (Nat × List Byte)) (i : Nat) (d : List Byte) : List (Nat × List Byte) :=
  match l with
  | [] => if d = emptyDesc then [] else [(i, d)]
  | (j, q) :: t =>
    if i < j then (if d = emptyDesc then (j, q) :: t else (i, d) :: (j, q) :: t)
    else if i = j then (if d = emptyDesc then t else (i, d) :: t)
    else (j, q) :: putDesc t i d

/-- The place of the descriptor of a slot in a group (R175). -/
def descKey (g s : Nat) : Nat := 1024 * g + s

/-! ### Fields of a descriptor (R191) -/

def dType (d : List Byte) : Nat := numAt d 0 1
def dFlags (d : List Byte) : Nat := numAt d 1 1
def dEn (d : List Byte) : Bool := bitOf (dFlags d) 0
def dPaired (d : List Byte) : Bool := bitOf (dFlags d) 1
def dPairAnd (d : List Byte) : Bool := bitOf (dFlags d) 2
def dOvrBlk (d : List Byte) : Bool := bitOf (dFlags d) 3
def dKeep (d : List Byte) : Bool := bitOf (dFlags d) 4
def dBay (d : List Byte) : Nat := numAt d 2 1
def dGroup (d : List Byte) : Nat := numAt d 3 1
def dQty (d : List Byte) : Nat := numAt d 4 2
def dCurve (d : List Byte) : Nat := numAt d 6 1
def dReset (d : List Byte) : Nat := numAt d 7 1
def dPickup (d : List Byte) : Nat := numAt d 8 4
def dRatio (d : List Byte) : Nat := numAt d 12 2
def dPuTicks (d : List Byte) : Nat := numAt d 14 1
def dDoTicks (d : List Byte) : Nat := numAt d 15 1
def dTms (d : List Byte) : Nat := numAt d 16 4
def dTdef (d : List Byte) : Nat := numAt d 20 4
def dTreset (d : List Byte) : Nat := numAt d 24 4
def dPar (d : List Byte) (i : Nat) : Nat := numAt d (28 + 4 * i) 4
def dBlk (d : List Byte) : Nat := numAt d 44 2
def dBlk2 (d : List Byte) : Nat := numAt d 46 2

/-- Kind, harmonic, window and code of a quantity (R194). -/
def qKind (q : Nat) : Nat := bitsOf q 12 4
def qHarm (q : Nat) : Nat := bitsOf q 8 4
def qHalf (q : Nat) : Bool := bitOf q 7
def qCode (q : Nat) : Nat := bitsOf q 0 3

/-- Whether a descriptor is evaluated for a bay: its type is not empty and en is set. -/
def dLive (d : List Byte) (b : Nat) : Bool := dType d != 0 && dEn d && dBay d == b

/-- The evaluation cost of a type (R193). -/
def typeCost (t : Nat) : Nat :=
  match t with
  | 0x01 => 420 | 0x02 => 200 | 0x03 => 200 | 0x04 => 640 | 0x05 => 380 | 0x06 => 360 | 0x07 => 360 | 0x08 => 180
  | 0x09 => 160 | 0x0A => 160 | 0x0B => 200 | 0x0C => 520 | 0x0D => 1400 | 0x0E => 300 | _ => 0

/-! ### The checks of a descriptor (R192 to R194, R215 to R225) -/

/-- Whether a value lies in a closed range. -/
def inR (lo hi x : Nat) : Bool := decide (lo ≤ x) && decide (x ≤ hi)

/-- A bound of so many thousandths of R_rms, the nearest code (R215, R639). -/
def rPart (thousandths : Nat) : Nat := (rRms * thousandths + 500) / 1000

/-- Whether the quantity code is defined (R6, R194). -/
def qtyOk (q : Nat) : Bool :=
  bitsOf q 3 4 == 0 &&
  match qKind q with
  | 0 => qHarm q == 0
  | 1 => inR 2 15 (qHarm q) && !qHalf q
  | 2 | 3 | 4 => qHarm q == 0 && inR 0 2 (qCode q)
  | 5 | 6 => qHarm q == 0 && qCode q == 0 && !qHalf q
  | 7 => qHarm q == 0 && inR 0 2 (qCode q)
  | _ => false

/-- Whether a type accepts a quantity (R193, R226 to R243). -/
def typeQtyOk (t q : Nat) : Bool :=
  let k := qKind q
  let c := qCode q
  match t with
  | 0x01 | 0x04 => k == 7 && c == 0
  | 0x02 | 0x05 => (k == 0 && c == 3) || (k == 2 && c == 2)
  | 0x03 => k == 2 && c == 1
  | 0x06 | 0x07 => (k == 0 && inR 4 7 c) || k == 3 || k == 4 || (k == 7 && inR 1 2 c)
  | 0x08 => (k == 0 && c == 7) || (k == 3 && c == 2)
  | 0x09 | 0x0A => k == 5
  | 0x0B => k == 6
  | 0x0C => (k == 0 && inR 0 3 c) || (k == 7 && c == 0)
  | 0x0D => k == 7 && c == 0 && !qHalf q
  | 0x0E => (k == 0 && inR 0 3 c) || (k == 2 && c == 2) || (k == 7 && c == 0)
  | _ => false

/-- The pickup range of a quantity (R215). -/
def pickupQtyOk (q p : Nat) : Bool :=
  match qKind q, qCode q with
  | 0, 0 | 0, 1 | 0, 2 => inR (rPart 10) (rPart 1200) p
  | 0, 3 => inR (rPart 5) (rPart 1200) p
  | 0, 7 => inR (rPart 5) (rPart 1200) p
  | 0, _ => inR (rPart 20) (rPart 1200) p
  | 2, 0 => inR (rPart 10) (rPart 1200) p
  | 2, 1 => inR (rPart 5) (rPart 1200) p
  | 2, _ => inR (rPart 5) (rPart 3600) p
  | 3, 0 => inR (rPart 20) (rPart 1200) p
  | 3, 1 => inR (rPart 5) (rPart 1200) p
  | 3, _ => inR (rPart 5) (rPart 3600) p
  | 4, _ => inR (rPart 20) (rPart 3600) p
  | 5, _ => inR 983040 4915200 p
  | 6, _ => inR 3277 655360 p
  | 7, 0 => inR (rPart 10) (rPart 1200) p
  | 7, 1 => inR (rPart 20) (rPart 1200) p
  | 7, _ => inR (rPart 20) (rPart 3600) p
  | _, _ => false

/-- The pickup range of a descriptor: types 49 and 87L have their own (R215). A bound of type 49 midway between two codes is the
one inside the range (R639). -/
def pickupOk (d : List Byte) : Bool :=
  match dType d with
  | 0x0C => inR ((dPar d 0 * 2 + 5) / 10) ((dPar d 0 * 15 + 4) / 10) (dPickup d)
  | 0x0D => inR (rPart 20) (rPart 1200) (dPickup d)
  | _ => pickupQtyOk (dQty d) (dPickup d)

/-- Under-elements (R196). -/
def isUnder (t : Nat) : Bool := t == 0x06 || t == 0x0A

/-- Whether a type accepts a curve code (R217, R225). -/
def curveTypeOk (t c : Nat) : Bool :=
  if c = 0 then true
  else if inR 1 7 c then inR 1 5 t
  else if c = 8 then t == 3
  else if c = 9 then inR 6 8 t
  else if inR 0x10 0x17 c then inR 1 8 t
  else false

/-- Whether the parameter words of a type lie in their ranges and their unused bits are 0 (R224). -/
def parsOk (d : List Byte) : Bool :=
  let p0 := dPar d 0
  let p1 := dPar d 1
  let p2 := dPar d 2
  let p3 := dPar d 3
  match dType d with
  | 0x01 | 0x02 => p0 < 2 ^ 17 && (bitsOf p0 0 16 == 0 || inR 3277 32768 (bitsOf p0 0 16)) && p1 == 0 && p2 == 0 && p3 == 0
  | 0x03 => p0 == 0 && p1 == 0 && p2 == 0 && p3 == 0
  | 0x04 | 0x05 => p0 < 2 ^ 18 && decide ((asSigned 16 p0).natAbs ≤ 16384) && inR 8192 16384 (bitsOf p1 0 16)
      && inR 1 1000 (bitsOf p1 16 16) && (if dType d = 0x04 then inR 0 2000 p2 else p2 == 0) && p3 == 0
  | 0x06 | 0x09 | 0x0A => p1 == 0 && p2 == 0 && p3 == 0
  | 0x07 | 0x08 => p0 == 0 && p1 == 0 && p2 == 0 && p3 == 0
  | 0x0B => inR 0 2 p0 && p2 == 0 && p3 == 0
  | 0x0C => inR (rPart 10) (rPart 1200) p0 && inR 60 86400 p1 && inR 60 259200 p2 && bitsOf p3 1 15 == 0
  | 0x0D => inR 1638 16384 (bitsOf p0 0 16) && inR 4915 32768 (bitsOf p0 16 16) && inR (rPart 100) (rPart 3600) p1
      && bitsOf p2 17 3 == 0 && inR 0 100 (bitsOf p2 20 8) && inR 1 15 (bitsOf p2 28 4) && p3 != 0
  | 0x0E => bitsOf p0 12 4 == 0 && inR 0 2 (bitsOf p0 16 2) && p0 < 2 ^ 18 && p1 < 2 ^ 12 && p2 == 0 && p3 == 0
  | _ => false

/-- The checks of one descriptor of a group (R192): CRC and group for every one, the rest when its type is not empty. -/
def descOk (curves : Vector (Option (List Byte)) 8) (g : Nat) (d : List Byte) : Bool :=
  numAt d 60 4 == crc32c (padTo 60 d) && dGroup d == g &&
  (dType d == 0 ||
    (dFlags d < 32 && dBay d < 4 && numAt d 52 8 == 0
      && qtyOk (dQty d) && typeQtyOk (dType d) (dQty d)
      && curveTypeOk (dType d) (dCurve d)
      && (!inR 0x10 0x17 (dCurve d) || (vat curves (dCurve d - 0x10)).isSome)
      && inR 0 2 (dReset d) && (dType d != 0x0E || dReset d == 0)
      && (if isUnder (dType d) then inR 0x8000 0x9999 (dRatio d) else inR 0x6666 0x8000 (dRatio d))
      && inR 1 255 (dPuTicks d)
      && inR 0x28F 0x1E0000 (dTms d) && inR 0 600000000 (dTdef d) && inR 0 600000000 (dTreset d)
      && (dReset d != 2 || inR 1 7 (dCurve d) || 1000 ≤ dTreset d)
      && (dBlk d < 0x1000 || dBlk d == 0xFFFF) && (dBlk2 d < 0x1000 || dBlk2 d == 0xFFFF)
      && pickupOk d && parsOk d))

/-- Whether a slot's paired descriptor is byte-for-byte identical to its partner (R192). -/
def pairOk (l : List (Nat × List Byte)) (g s : Nat) : Bool :=
  let d := descAt l (descKey g s)
  if dType d != 0 && dPaired d then d == descAt l (descKey g (s ^^^ 512)) else true

/-- The stream and entries that an enabled 87L descriptor names (R239). -/
def streamOf (d : List Byte) : Option Nat :=
  if dType d = 0x0D ∧ dEn d then some (bitsOf (dPar d 2) 0 16) else none

/-- The slots of a group whose enabled 87L descriptors name another stream or other entries than one of the same bay in a lower slot
(R239). -/
def streamsBad (l : List (Nat × List Byte)) (g : Nat) : List Nat :=
  let ds := l.filter (fun e => e.1 / 1024 == g && (streamOf e.2).isSome)
  (ds.filter (fun d => ds.any (fun e => e.1 < d.1 && dBay d.2 == dBay e.2 && streamOf d.2 != streamOf e.2))).map (fun d => d.1 % 1024)

/-! ### Admission (R195) and slots claimed twice (R641) -/

/-- The active group of a bay. -/
def App.groupOf (a : App) (b : Nat) : Nat := a.get (Reg.SLU_BAY_active_group b)
def App.defaultGroup (a : App) (b : Nat) : Nat := a.get (Reg.SLU_BAY_default_group b)

/-- Whether a bay's angle clock is not Off. -/
def App.clkOn (a : App) (b : Nat) : Bool := (vat a.clk b).st != .off

/-- The admitted load of an engine for a combination of active groups, over descriptors `l` and running clocks `on`
(R195). -/
def loadOf (l : List (Nat × List Byte)) (on : Nat → Bool) (grp : Nat → Nat) (e : Nat) : Nat :=
  12000 * ((upto 4).filter on).length +
  (l.filter (fun x => dType x.2 != 0 && dEn x.2 && x.1 % 1024 / 512 == e && x.1 / 1024 == grp (dBay x.2))).foldl
    (fun n x => n + typeCost (dType x.2)) 0

/-- The groups active for the bays from now on, until the requests that wait have all been applied: each bay's present group or the
last one requested for it (R195, R202, R641). -/
def App.groupsAhead (a : App) : List (Nat → Nat) :=
  (upto 4).foldl (fun (l : List (Nat → Nat)) b => match (vat a.slu.groupReq b).getLast? with
    | some g => l ++ l.map (fun f x => if x = b then g else f x)
    | none => l) [a.groupOf]

/-- The combinations of active groups that the admission rule tests (R195). -/
def combos (on : Nat → Bool) (active : List (Nat → Nat)) (dflt : Nat → Nat) : List (Nat → Nat) :=
  active ++ dflt :: active.flatMap (fun f => (upto 8).map (fun g b => if on b then g else f b))

/-- The first engine whose load breaks the limit, with that load (R195). -/
def overload (l : List (Nat × List Byte)) (on : Nat → Bool) (active : List (Nat → Nat)) (dflt : Nat → Nat) : Option (Nat × Nat) :=
  ((upto 2).flatMap (fun e => (combos on active dflt).map (fun c => (e, loadOf l on c e)))).find? (fun x => x.2 > 300000)

/-- The slots that a combination of groups would have claimed by two bays (R641), and the lowest of a list of slots. -/
def claimedTwice (l : List (Nat × List Byte)) (grp : Nat → Nat) : List Nat :=
  let live := l.filter (fun x => dType x.2 != 0 && dEn x.2 && x.1 / 1024 == grp (dBay x.2))
  (live.filter (fun x => live.any (fun y => x.1 % 1024 == y.1 % 1024 && dBay x.2 != dBay y.2))).map (fun x => x.1 % 1024)
def lowest (l : List Nat) : Option Nat := l.foldl (fun m x => some (min (m.getD x) x)) none

/-- The reported loads (R195): thousands of cycles, rounded up. -/
def App.showLoads (a : App) : App :=
  (upto 2).foldl (fun a e => a.set (Reg.SLU_STAT_load_k e) ((loadOf a.slu.descs a.clkOn a.groupOf e + 999) / 1000)) a

/-! ### The settings commands (R192, R202, R203, R222, R223) -/

/-- The descriptors that a command carries, by place. -/
def carried (g first count : Nat) (bytes : List Byte) : List (Nat × List Byte) :=
  (upto count).map (fun i => (descKey g (first + i), bytesAt bytes (64 * i) 64))

/-- The store after a settings command. -/
def applyDescs (l : List (Nat × List Byte)) (new : List (Nat × List Byte)) : List (Nat × List Byte) :=
  new.foldl (fun l e => putDesc l e.1 e.2) l

/-- The settings objects of the bays that new or replaced descriptors name (R496). -/
def App.settingsObjs (a : App) (new : List (Nat × List Byte)) : List Nat :=
  (upto 4).filter (fun b => new.any (fun e => (dType e.2 != 0 && dBay e.2 == b)
    || (let o := descAt a.slu.descs e.1; dType o != 0 && dBay o == b))) |>.map (· + 4)

/-- The detail of ADMISSION: the engine in bits 7:0 and its load in thousands of cycles above (R499). -/
def admissionDetail (e load : Nat) : Nat := e + 256 * ((load + 999) / 1000)

/-- The effect of WRITE_SETTINGS: every descriptor is checked before any is applied (R192, R203). -/
def opWriteSettings (group : Byte) (first count : W16) (desc : List Byte) (a : App) : App × Reply :=
  let g := group.toNat
  let new := carried g first.toNat count.toNat desc
  match (upto 4).find? (fun b => a.groupOf b == g && a.protOf b == 0) with
  | some b => (a, .final Status.inService (le 4 b))
  | none =>
    let l := applyDescs a.slu.descs new
    let bad := (new.filter (fun e => !(descOk a.slu.curves g e.2))).map (fun e => e.1 % 1024)
      ++ ((l.filter (fun e => e.1 / 1024 == g)).map (fun e => e.1 % 1024)).filter (fun s => !(pairOk l g s))
      ++ streamsBad l g ++ a.groupsAhead.flatMap (claimedTwice l)
    match lowest bad with
    | some s => (a, .final Status.check (le 4 s))
    | none =>
      match overload l a.clkOn a.groupsAhead a.defaultGroup with
      | some (e, ld) => (a, .final Status.admission (le 4 (admissionDetail e ld)))
      | none => ((a.onSlu fun x => { x with descs := l }).showLoads, .final Status.ok [])

/-- WRITE_SETTINGS (R192). -/
def execWriteSettings (h : CmdHdr) (group : Byte) (first count : W16) (desc : List Byte) (s : State) : Outcome State Fault Refusal :=
  s.onApp fun a => a.process h (.writeSettings group first count desc)
    (firstFail [(0, group.toNat ≤ 7), (1, first.toNat ≤ 1023), (2, 1 ≤ count.toNat ∧ count.toNat ≤ 1023 ∧ first.toNat + count.toNat ≤ 1024)])
    (a.settingsObjs (carried group.toNat first.toNat count.toNat desc)) (opWriteSettings group first count desc)

/-- A group request: checked for the admission rule and for slots claimed twice, then waiting for the bay's next tick
(R195, R202, R641). The answer is the status with its detail. -/
def App.requestGroup (a : App) (b g : Nat) : App × Nat × Nat :=
  let after := a.onSlu fun x => { x with groupReq := vup x.groupReq b (· ++ [g]) }
  match lowest (after.groupsAhead.flatMap (claimedTwice a.slu.descs)) with
  | some s => (a, Status.check, s)
  | none =>
    match overload a.slu.descs a.clkOn after.groupsAhead a.defaultGroup with
    | some (e, ld) => (a, Status.admission, admissionDetail e ld)
    | none => (after, Status.ok, 0)

/-- The effect of SELECT_GROUP (R202). -/
def opSelectGroup (bay group : Byte) (a : App) : App × Reply :=
  let (a, st, d) := a.requestGroup bay.toNat group.toNat
  (a, .final st (if st = Status.ok then [] else le 4 d))

/-- SELECT_GROUP (R202). -/
def execSelectGroup (h : CmdHdr) (bay group : Byte) (s : State) : Outcome State Fault Refusal :=
  s.onApp fun a => a.process h (.selectGroup bay group)
    (firstFail [(0, bay.toNat ≤ 3), (1, group.toNat ≤ 7)]) [4 + bay.toNat] (opSelectGroup bay group)

/-- Points of a user table: per-unit quantity u8.8 and time in µs (R222). -/
def curvePoint (b : List Byte) (i : Nat) : Nat × Nat := (numAt b (8 + 8 * i) 2, numAt b (12 + 8 * i) 4)
def curveCount (b : List Byte) : Nat := numAt b 1 1

/-- The first entry of a table body that breaks R222, if any. -/
def curveBad (b : List Byte) : Option Nat :=
  let n := curveCount b
  if numAt b 0 1 ≥ 8 ∨ n < 2 ∨ n > 32 ∨ numAt b 2 2 ≠ 0 then some 0
  else if numAt b 4 4 ≠ crc32c (bytesAt b 8 (8 * n)) then some 0
  else (upto n).find? (fun i =>
    let (m, t) := curvePoint b i
    !(inR 256 10240 m) || numAt b (10 + 8 * i) 2 != 0 || !(inR 1 600000000 t)
      || (i != 0 && ((curvePoint b (i - 1)).1 ≥ m || (curvePoint b (i - 1)).2 < t)))

/-- Bays, as settings objects, whose descriptors name a table (R496). -/
def App.curveObjs (a : App) (t : Nat) : List Nat :=
  (upto 4).filter (fun b => a.slu.descs.any (fun e => dType e.2 != 0 && dCurve e.2 == 0x10 + t && dBay e.2 == b)) |>.map (· + 4)

/-- The effect of SET_CURVE (R222, R223). -/
def opSetCurve (body : List Byte) (a : App) : App × Reply :=
  let b := padTo 264 body
  match curveBad b with
  | some i => (a, .final Status.check (le 4 i))
  | none =>
    let t := numAt b 0 1
    match (upto 4).find? (fun n => a.protOf n == 0 && a.slu.descs.any (fun e =>
        dType e.2 != 0 && dEn e.2 && dCurve e.2 == 0x10 + t && e.1 / 1024 == a.groupOf n)) with
    | some n => (a, .final Status.inService (le 4 n))
    | none => (a.onSlu fun x => { x with curves := vput x.curves t (some b) }, .final Status.ok [])

/-- SET_CURVE (R223). -/
def execSetCurve (h : CmdHdr) (body : List Byte) (s : State) : Outcome State Fault Refusal :=
  s.onApp fun a => a.process h (.setCurve body) none (a.curveObjs (numAt body 0 1)) (opSetCurve body)

/-- The effect of READ_SETTINGS: the descriptors of a group, as the master copy holds them (R500). -/
def opReadSettings (h : CmdHdr) (out : Out) (group : Byte) (first count : W16) (a : App) : App × Reply :=
  a.outData h out ((upto count.toNat).flatMap (fun i => descAt a.slu.descs (descKey group.toNat (first.toNat + i))))

/-- READ_SETTINGS (R500). -/
def execReadSettings (h : CmdHdr) (out : Out) (group : Byte) (first count : W16) (s : State) : Outcome State Fault Refusal :=
  s.onApp fun a => a.process h (.readSettings out group first count)
    (firstFail [(0, out.addr.toNat % 64 = 0), (2, group.toNat ≤ 7), (3, first.toNat ≤ 1023), (4, first.toNat + count.toNat ≤ 1024)])
    [] (opReadSettings h out group first count)

end Sys2Proof.Machine
end

