-- ==== Sys2Proof/Machine/Element.lean ====
section
/-! DEFINITION. The arithmetic of one element: characteristics, timers, resets, and the quantity each element type
forms (R196 to R200, R217 to R244). -/

namespace Sys2Proof.Machine

/-- Full scale of prog, u2.30 (R197). -/
def progOne : Nat := 2 ^ 30

/-- k, α in hundredths, c and tr of the inverse curves: k and c in 10^-4, tr in ms (R217). -/
def curveConst (c : Nat) : Option (Nat × Nat × Nat × Nat) :=
  match c with
  | 1 => some (1400, 2, 0, 13500)
  | 2 => some (135000, 100, 0, 47300)
  | 3 => some (800000, 200, 0, 80000)
  | 4 => some (1200000, 100, 0, 120000)
  | 5 => some (515, 2, 1140, 4850)
  | 6 => some (196100, 200, 4910, 21600)
  | 7 => some (282000, 200, 1217, 29100)
  | _ => none

/-- The per-unit quantity M in fixed point, limited to 40 (R218). -/
def perUnit (under : Bool) (q : Int) (pickup : Nat) : Nat :=
  if under then (if q ≤ 0 then 40 * fx1 else min (40 * fx1) (pickup * fx1 / q.toNat))
  else if q ≤ 0 ∨ pickup = 0 then 0 else min (40 * fx1) (q.toNat * fx1 / pickup)

/-- M to a power given in hundredths (R218). -/
def powM (m alpha : Nat) : Nat :=
  if alpha = 100 then m else if alpha = 200 then m * m / fx1 else expFx (lnFx m * alpha / 100)

/-- The unit of operate times: 2^-32 ns, so that what arithmetic leaves below it stays far below the engine's error (R219). -/
def nsFine : Nat := 2 ^ 32

/-- The time of a user table at M, 2^-32 ns at tms 1.0: linear in ln t against ln M; none below the first point (R222). -/
def tableTime (b : List Byte) (m : Nat) : Option Nat :=
  let n := curveCount b
  let pt := fun i => (((curvePoint b i).1 * fx1 / 256), (curvePoint b i).2)
  if m < (pt 0).1 then none
  else if (pt (n - 1)).1 ≤ m then some ((pt (n - 1)).2 * 1000 * nsFine)
  else
    match (upto (n - 1)).find? (fun i => m < (pt (i + 1)).1) with
    | none => none
    | some i =>
      let (m0, t0) := pt i
      let (m1, t1) := pt (i + 1)
      let l0 := lnFx (t0 * fx1)
      let l1 := lnFx (t1 * fx1)
      let x := (lnFx m - lnFx m0) * fx1 / (lnFx m1 - lnFx m0)
      some (expFx (l0 - (l0 - l1) * x / fx1) * 1000 * nsFine / fx1)

/-- The operate time t(M) in 2^-32 ns before the engine's arithmetic error; none where advance is 0 (R218). -/
def operateTime (table : Option (List Byte)) (c tms m : Nat) : Option Nat :=
  if m ≤ fx1 then none
  else if c = 8 then some (tms * 1000000000 * nsFine * fx1 / 65536 * fx1 / (m * m))
  else if c = 9 then some (tms * 1000000000 * nsFine * fx1 / 65536 / (m - fx1))
  else
    match curveConst c with
    | some (k, al, cc, _) =>
      let d := powM m al - fx1
      if d = 0 then none else some (tms * nsFine * (k * 100000 * fx1 / d + cc * 100000) / 65536)
    | none =>
      match table with
      | some b => (tableTime b m).map (fun t => t * tms / 65536)
      | none => none

/-- The engine's t(M): its relative error stays below 2^-20 and is otherwise not given, a free value (R219); 2^-26 of it is left
to the rounding of t(M) itself. -/
def engineTime (c m t : Nat) : Nat :=
  let e : Int := max (-(2 ^ 20 - 2 ^ 14)) (min (2 ^ 20 - 2 ^ 14) (Config.curveErr c m).toInt)
  (((t : Int) * (2 ^ 40 + e)) / 2 ^ 40).toNat

/-- dt in ns over t in 2^-32 ns in the scale of prog, rounded to nearest with halves up (R219). -/
def progPart (dt t : Nat) : Nat := if t = 0 then progOne else (2 * dt * nsFine * progOne + t) / (2 * t)

/-- The advance of prog over `dt` ns for the curves other than definite time (R218, R219). -/
def advance (table : Option (List Byte)) (d : List Byte) (q : Int) (dt : Nat) : Nat :=
  let m := perUnit (isUnder (dType d)) q (dPickup d)
  match operateTime table (dCurve d) (dTms d) m with
  | some t => progPart dt (max (engineTime (dCurve d) m t) (dTdef d * 1000 * nsFine))
  | none => 0

/-- The amount by which disk emulation lowers prog over `dt` ns (R220). -/
def diskStep (d : List Byte) (q : Int) (dt : Nat) : Nat :=
  match curveConst (dCurve d) with
  | some (_, _, _, tr) =>
    let m := if q ≤ 0 then 0 else min fx1 (q.toNat * fx1 / dPickup d)
    let t := dTms d * tr * 1000000 * fx1 * fx1
    if t = 0 then progOne else (2 * dt * progOne * 65536 * (fx1 * fx1 - m * m) + t) / (2 * t)
  | none => progPart dt (dTreset d * 1000 * nsFine)

/-- Whether a quantity is beyond pickup, and beyond the dropout level (R196). -/
def beyondPickup (d : List Byte) (q : Int) : Bool :=
  if isUnder (dType d) then decide (q ≤ dPickup d) else decide ((dPickup d : Int) ≤ q)
def beyondDropout (d : List Byte) (q : Int) : Bool :=
  if isUnder (dType d) then decide (q * 32768 ≤ (dPickup d * dRatio d : Nat)) else decide (((dPickup d * dRatio d : Nat) : Int) ≤ q * 32768)

/-- The phase state of an instance that is blocked or restarts; a thermal state stays (R199). -/
def PhaseSt.idle (st : PhaseSt) : PhaseSt := { ({} : PhaseSt) with theta := st.theta, thetaLow := st.thetaLow, mem := st.mem }

/-- A phase state that another descriptor takes over: it keeps a disk residual in reset mode 2 alone (R202, R221). -/
def PhaseSt.carried (st : PhaseSt) (d : List Byte) : PhaseSt := if dReset d = 2 then st else { st with resid := 0, residDue := false }

/-- The scale of definite time: prog from the time run (R197). -/
def defProg (d : List Byte) (run : Nat) : Nat := if dTdef d = 0 then progOne else min progOne (run * progOne / (dTdef d * 1000))

/-- A lowering of prog by reset mode 2, for definite time in the time run as well (R220). -/
def lowerProg (d : List Byte) (st : PhaseSt) (step : Nat) : PhaseSt :=
  let p := st.prog - step
  { st with prog := p, run := if dCurve d = 0 then p * (dTdef d * 1000) / progOne else 0 }

/-- One tick of the procedure of R196 for one phase: `out` forces the quantity outside the dropout level, `early` keeps start back
for this tick (R244). -/
def phaseStep (table : Option (List Byte)) (d : List Byte) (st : PhaseSt) (q : Int) (out early : Bool) (dt : Nat) : PhaseSt :=
  let up := !out && beyondPickup d q
  let hold := !out && beyondDropout d q
  let disk := dReset d == 2
  if !st.start then
    let st := if disk && !hold then { st with resid := st.resid - diskStep d q dt } else st
    if up then
      let n := st.puCnt + 1
      if dPuTicks d ≤ n ∧ early = false then
        { st with puCnt := n, start := true, prog := 0, run := 0, doCnt := 0, residDue := disk && st.resid != 0
                  op := dCurve d == 0 && dTdef d == 0 }
      else { st with puCnt := n }
    else { st with puCnt := 0 }
  else if hold then
    let extra := if st.residDue then st.resid else 0
    let st := if st.residDue then { st with resid := 0, residDue := false } else st
    if dCurve d = 0 then
      let run := st.run + dt + extra * (dTdef d * 1000) / progOne
      let p := defProg d run
      { st with doCnt := 0, run := run, prog := p, op := st.op || dTdef d * 1000 ≤ run }
    else
      let p := min progOne (st.prog + extra + advance table d q dt)
      { st with doCnt := 0, prog := p, op := st.op || progOne ≤ p }
  else
    let n := st.doCnt + 1
    let ends := decide (dDoTicks d < n)
    let st := { st with doCnt := n }
    let st := if dReset d = 0 then { st with prog := 0, run := 0 }
              else if dReset d = 1 then (if ends then { st with prog := 0, run := 0 } else st)
              else lowerProg d st (diskStep d q dt)
    if ends then
      { st with start := false, op := false, puCnt := 0, resid := if disk then st.prog else 0, prog := 0, run := 0, residDue := false }
    else st

/-- The thermal state of a phase after `dt` ns: m2 toward which it moves, by the time constant of its direction (R236). θ is u2.30; what
the computation gives below that is carried to the next tick, since a step of θ may be as small as its last bits and R245 bounds the
time that the steps add up to (DESIGN CHOICE, log entry 198). -/
def thetaStep (st : PhaseSt) (i2 ith tauHeat tauCool dt : Nat) : PhaseSt :=
  let theta := st.theta * 2 ^ 32 + st.thetaLow
  let m2 := i2 * progOne * 2 ^ 32 / (ith * ith)
  let tau := if theta ≤ m2 then tauHeat else tauCool
  let f := expNegFx (dt * fx1 / (tau * 1000000000))
  let t := min (2 ^ 64 - 1) (if theta ≤ m2 then m2 - (m2 - theta) * f / fx1 else m2 + (theta - m2) * f / fx1)
  { st with theta := t / 2 ^ 32, thetaLow := t % 2 ^ 32 }

/-- The thermal equivalent current Ith × √θ, u24.8 (R237). -/
def thetaCurrent (ith theta : Nat) : Nat := sqrtRound (ith * ith * theta / progOne)

/-- Direction of a phase: the angle of its current against the polarising phasor (R229). -/
def directional (d : List Byte) (iAng polAng : Nat) : Bool :=
  let p0 := dPar d 0
  let dem := wrapAu (wrapAu ((iAng : Int) - polAng) - asSigned 16 p0 - (if bitOf p0 16 then 32768 else 0))
  decide (dem.natAbs ≤ bitsOf (dPar d 1) 0 16)

/-- Whether a polarising phasor is usable (R230). -/
def polUsable (d : List Byte) (mag qual : Nat) : Bool := decide (bitsOf (dPar d 1) 16 16 * rRms ≤ 1000 * mag) && qual != 2

/-- The bias line of 87L (R240). -/
def biasLine (d : List Byte) (ir : Nat) : Nat :=
  let k1 := bitsOf (dPar d 0) 0 16
  let k2 := bitsOf (dPar d 0) 16 16
  let is2 := dPar d 1
  if ir ≤ is2 then k1 * ir / 16384 else (k1 * is2 + k2 * (ir - is2)) / 16384

/-- The normalised differential quantity of a phase (R240). -/
def diffQty (d : List Byte) (near far : Phasor) : Nat :=
  let f := if bitOf (dPar d 2) 16 then far.neg else far
  let id := (near.add f).mag
  let ir := (near.mag + far.mag) / 2
  id * dPickup d / max (dPickup d) (biasLine d ir)

end Sys2Proof.Machine
end

