-- ==== Sys2Proof/Machine/Sluice.lean ====
section
/-! DEFINITION. The Sluice engines and the fast detector: quantities of a tick, evaluation of the instances, matrix
inputs with their event records, pairs, engine faults, and substitution (R176 to R190, R196 to R212, R230 to R244). -/

namespace Sys2Proof.Machine

open Host

/-! ### Matrix inputs and event records (R211, R212) -/

/-- Whether a trip-matrix input is asserted. -/
def App.inp (a : App) (i : Nat) : Bool := a.slu.inputs.contains i

/-- A trip-matrix input as given: the asserted ones are listed rising. -/
def App.setInp (a : App) (i : Nat) (b : Bool) : App :=
  if a.inp i == b then a
  else a.onSlu fun x => { x with inputs := if b then insertNat i x.inputs else x.inputs.filter (· != i) }

/-- The present instant as the stamp of a record of bay `b`. -/
def App.stampNow (a : App) (b : Nat) : EvStamp := ⟨a.w64, a.tqc, a.tsc, a.a48 b, a.aq b⟩

/-- A Sluice event record: counted, and posted as a class-1 event (R212). -/
def App.sluEvent (a : App) (source type event : Nat) (t : EvStamp) (qual where_ group value : Nat) : App :=
  let n := a.slu.seq + 1
  let a := a.onSlu fun x => { x with seq := n }
  a.post 1 (le 2 source ++ le 1 type ++ le 1 event ++ le 8 t.w64 ++ le 1 t.tq ++ le 1 t.tsc ++ le 6 t.a48 ++ le 1 t.aq
    ++ le 1 qual ++ le 1 where_ ++ le 1 group ++ le 4 value ++ le 4 n.toNat)

/-- The where byte (R212). -/
def whereByte (bay phase origin : Nat) : Nat := bay + 4 * phase + 16 * origin

/-! ### Quantities (R183 to R187) -/

/-- The quality and flags of a window of samples; invalid until it is filled (R186, R187). -/
def flagsOf (filled : Bool) (l : List (W32 × Nat)) : QFlags :=
  { qual := if filled then windowQual l else 2, hold := l.any (fun e => wordHold e.1), sub := l.any (fun e => wordSub e.1)
    ovr := l.any (fun e => wordOvr e.1) }

/-- Flags of several windows together. -/
def joinFlags (l : List QFlags) : QFlags :=
  l.foldl (fun x y => ⟨worseQual x.qual y.qual, x.hold || y.hold, x.sub || y.sub, x.ovr || y.ovr⟩) {}

/-- The window of a channel that a quantity uses. -/
def EngBay.winOf (x : EngBay) (half : Bool) (c : Nat) : List (W32 × Nat) :=
  (vat x.win c).take (if half then 128 else 256)

/-- The fundamental phasor of a channel over the named window, and its flags. -/
def EngBay.chan (x : EngBay) (half : Bool) (c : Nat) : Phasor × QFlags :=
  (if half then halfPhasor (vat x.win c) else fullPhasor 1 (vat x.win c),
   flagsOf (decide ((if half then 128 else 256) ≤ x.taken)) (x.winOf half c))

/-- Channels and combination of the quantities of kinds 2 to 4 and of the phase triples (R184, R194). -/
def EngBay.combo (x : EngBay) (half : Bool) (base code : Nat) : Phasor × QFlags :=
  let (p0, f0) := x.chan half base
  let (p1, f1) := x.chan half (base + 1)
  let (p2, f2) := x.chan half (base + 2)
  let f := joinFlags [f0, f1, f2]
  match code with
  | 0 => (posSeq p0 p1 p2, f)
  | 1 => (negSeq p0 p1 p2, f)
  | _ => (zeroSeq p0 p1 p2, f)

/-- A phase-to-phase voltage: VAB, VBC, VCA (R184). -/
def EngBay.phph (x : EngBay) (half : Bool) (code : Nat) : Phasor × QFlags :=
  let (p, f) := x.chan half (4 + code)
  let (q, g) := x.chan half (4 + (code + 1) % 3)
  (p.sub q, joinFlags [f, g])

/-- The phasor quantity of a code for a phase, with its flags (R194). -/
def EngBay.phasorQty (x : EngBay) (q phase : Nat) : Phasor × QFlags :=
  let half := qHalf q
  match qKind q, qCode q with
  | 0, c => x.chan half c
  | 1, c => (fullPhasor (qHarm q) (vat x.win c), flagsOf (decide (256 ≤ x.taken)) (x.winOf false c))
  | 2, c => x.combo half 0 c
  | 3, c => x.combo half 4 c
  | 4, c => x.phph half c
  | 7, 0 => x.chan half phase
  | 7, 1 => x.chan half (4 + phase)
  | 7, _ => x.phph half phase
  | _, _ => ({}, {})

/-- The flags of a frequency or of a ROCOF over its windows: invalid in a clock state other than 2, 3 and 4, and questionable in
state 2 (R186). -/
def byClock (aq : Nat) (f : QFlags) : QFlags :=
  { f with qual := if aq = 3 ∨ aq = 4 then f.qual else if aq = 2 then worseQual f.qual 1 else 2 }

/-- Frequency of the bay from the reference that the clock uses, u16.16 Hz, with its flags (R185, R186). -/
def bayFreq (refs : List (Nat × (Nat × QFlags) × (Nat × QFlags))) (used aq : Nat) : Int × QFlags :=
  match refs.head?, refs[32]? with
  | some (t1, v1, i1), some (t0, v0, i0) =>
    let (a1, q1) := if used = 2 then i1 else v1
    let (a0, q0) := if used = 2 then i0 else v0
    let dt := t1 - t0
    if dt = 0 then (0, { qual := 2 })
    else (divRound ((65536 + wrapAu ((a1 : Int) - a0)) * 1000000000) dt, byClock aq (joinFlags [q1, q0]))
  | _, _ => (0, { qual := 2 })

/-- ROCOF over `r` cycles, s16.16 Hz/s, with its flags (R185 to R187). -/
def bayRocof (freqs : List (Nat × Int × QFlags)) (r aq : Nat) : Int × QFlags :=
  match freqs.head?, freqs[32 * r]? with
  | some (t1, f1, q1), some (t0, f0, q0) =>
    let dt := t1 - t0
    if dt = 0 then (0, { qual := 2 }) else (divRound ((f1 - f0) * 1000000000) dt, byClock aq (joinFlags [q1, q0]))
  | _, _ => (0, { qual := 2 })

/-- Remote samples of a tick enter the windows of 87L, and the tick keeps the windows as they then are (R241). -/
def EngBay.takeFar (y : EngBay) (r : FarTick) : EngBay :=
  let rwin := Vector.ofFn (fun p : Fin 3 => ((vat r.samples p.val).reverse ++ vat y.rwin p.val).take 256)
  { y with rwin := rwin, past := y.past.map (fun e => if e.no = r.no then { e with far := some rwin } else e) }

/-- An engine takes a tick into a bay's windows and histories (R176 to R187). -/
def engTake (a : App) (b : Nat) (x : EngBay) (t : ReadyTick) : EngBay :=
  let win := Vector.ofFn (fun c : Fin 8 => pushWin (vat x.win c.val) (vat t.samples c.val))
  let y := { x with ready := x.ready.tail, win := win, taken := min 256 (x.taken + (vat t.samples 0).length) }
  let chV := refVChannels (a.get (Reg.ANG_CFG_ref_v b))
  let chI := refIChannels (a.get (Reg.ANG_CFG_ref_i b))
  let refOf := fun (chs : List Nat) =>
    ((refPhasor (fun ch => (y.chan false ch).1) chs).ang, joinFlags (chs.map (fun ch => (y.chan false ch).2)))
  let y := { y with refs := ((t.w64, refOf chV, refOf chI) :: y.refs).take 33 }
  let (f, q) := bayFreq y.refs t.refUsed t.aq
  let y := { y with freqs := ((t.w64, f, q) :: y.freqs).take 1601 }
  let near : TickPhasors :=
    { no := t.no, near := Vector.ofFn (fun p : Fin 3 => (y.chan false p.val).1)
      flags := Vector.ofFn (fun p : Fin 3 => (y.chan false p.val).2) }
  t.remote.foldl EngBay.takeFar { y with past := (near :: y.past).take 16 }

/-! ### Element states -/

/-- The state of a slot; a slot not listed is dropped out. -/
def elemAt (l : List (Nat × ElemSt)) (i : Nat) : ElemSt :=
  match l with
  | [] => {}
  | (j, e) :: t => if i = j then e else elemAt t i

/-- A slot's state put in its place, rising. -/
def putElem (l : List (Nat × ElemSt)) (i : Nat) (e : ElemSt) : List (Nat × ElemSt) :=
  match l with
  | [] => [(i, e)]
  | (j, q) :: t => if i < j then (i, e) :: (j, q) :: t else if i = j then (i, e) :: t else (j, q) :: putElem t i e

def App.elem (a : App) (s : Nat) : ElemSt := elemAt a.slu.elems s
def App.putElem (a : App) (s : Nat) (e : ElemSt) : App := a.onSlu fun x => { x with elems := Machine.putElem x.elems s e }

/-- The pair state of slot `s` below 512. -/
def pairAt (l : List (Nat × PairSt)) (i : Nat) : PairSt :=
  match l with
  | [] => {}
  | (j, e) :: t => if i = j then e else pairAt t i

def putPair (l : List (Nat × PairSt)) (i : Nat) (e : PairSt) : List (Nat × PairSt) :=
  match l with
  | [] => [(i, e)]
  | (j, q) :: t => if i < j then (i, e) :: (j, q) :: t else if i = j then (i, e) :: t else (j, q) :: putPair t i e

/-- The live descriptor of a slot for a bay: that of the bay's active group (R175). -/
def App.liveDesc (a : App) (b s : Nat) : List Byte := descAt a.slu.live (descKey (a.groupOf b) s)

/-- The number of phases of a quantity: three for a triple, one otherwise (R194). -/
def phasesOf (d : List Byte) : Nat := if qKind (dQty d) = 7 then 3 else 1

/-- An element state dropped out, as it restarts; the thermal state starts at theta0 with the next evaluation. -/
def restartElem (d : List Byte) (old : ElemSt) (carryTheta : Bool) : ElemSt :=
  if dType d = 0x0C ∧ carryTheta then
    { ph := old.ph.map PhaseSt.idle, lastStamp := none, lastNo := 0, blocked := false, warm := old.warm }
  else {}

/-! ### Reporting (R199, R204, R205, R212) -/

/-- Whether an engine is Running (R214). -/
def App.engUp (a : App) (e : Nat) : Bool := a.get (Reg.SLU_STAT_state e) == 0

/-- Whether the other engine has completed a tick of a bay, or a later one, when engine `e` completes it (R205). -/
def App.second (a : App) (e b no : Nat) : Bool :=
  match (vat (vat a.slu.eng (1 - e)).bays b).past with
  | r :: _ => decide (no ≤ r.no)
  | [] => false

/-- Records for each phase whose flag changed, and the matrix input as the OR of the phases (R212). -/
def App.reportFlag (a : App) (input : Nat) (d : List Byte) (old new : Vector Bool 3) (t : EvStamp) (qual origin : Nat)
    (value : Nat → Nat) : App :=
  let n := phasesOf d
  let a := (upto n).foldl (fun a p =>
    if vat old p == vat new p then a
    else a.sluEvent input (dType d) (if vat new p then 0 else 1) t qual
          (whereByte (dBay d) (if n = 3 then p + 1 else 0) origin) (dGroup d) (value p)) a
  a.setInp input ((upto n).any (fun p => vat new p))

/-- Start and operate flags of an element by phase. -/
def ElemSt.starts (e : ElemSt) : Vector Bool 3 := e.ph.map (·.start)
def ElemSt.ops (e : ElemSt) : Vector Bool 3 := e.ph.map (·.op)

/-- The combined flags of a pair (R204), with an engine out as pair_fail states (R206). -/
def App.combine (a : App) (d : List Byte) (x y old : Vector Bool 3) (both : Bool) : Vector Bool 3 :=
  let up0 := a.engUp 0
  let up1 := a.engUp 1
  if up0 && up1 then
    if dPairAnd d then (if both then Vector.ofFn (fun p : Fin 3 => vat x p.val && vat y p.val) else old)
    else Vector.ofFn (fun p : Fin 3 => vat x p.val || vat y p.val)
  else if a.on Reg.SLU_CTL_pair_fail then Vector.replicate 3 false
  else if up0 then x else if up1 then y else Vector.replicate 3 false

/-- The combined output of the pair of slot `s` below 512 follows its copies (R204 to R207): `settle` says that an AND pair is updated,
`tick` that both copies have completed a tick, whose outputs are compared. -/
def App.pairUpdate (a : App) (d : List Byte) (s : Nat) (t : EvStamp) (qual : Nat) (value : Nat → Nat) (settle tick : Bool) : App :=
  let x := a.elem s
  let y := a.elem (s + 512)
  let p := pairAt a.slu.pairs s
  let st := a.combine d x.starts y.starts p.start settle
  let op := a.combine d x.ops y.ops p.op settle
  let differs := x.starts != y.starts || x.ops != y.ops
  let deg := !(a.engUp 0 && a.engUp 1) && !a.on Reg.SLU_CTL_pair_fail
  let p := { p with stamp := if tick then t else p.stamp, ticks := if tick then (if differs then p.ticks + 1 else 0) else p.ticks }
  let p' := { p with start := st, op := op }
  let a := a.onSlu fun z => { z with pairs := putPair z.pairs s p' }
  let q := qual + (if deg then 64 else 0)
  let a := a.reportFlag s d p.start st t q 2 value
  a.reportFlag (0x400 + s) d p.op op t q 2 value

/-- Report an element's change: an unpaired slot drives its inputs; slot s + 512 of a pair drives its own inputs raw,
and the pair drives those of slot s (R204, R212). -/
def App.report (a : App) (d : List Byte) (s : Nat) (old new : ElemSt) (t : EvStamp) (qual : Nat) (value : Nat → Nat) (settle tick : Bool) : App :=
  let e := s / 512
  let a := a.putElem s new
  let a :=
    if dPaired d ∧ s < 512 then a
    else
      let a := a.reportFlag s d old.starts new.starts t qual e value
      a.reportFlag (0x400 + s) d old.ops new.ops t qual e value
  if dPaired d then a.pairUpdate d (s % 512) t qual value settle tick else a

/-! ### Matrix inputs as the protection states let them through (R246, R604, R605) -/

/-- The protection state of a bay in force: 0 In service, 1 Blocked, 2 Test, 3 Simulation (R602, R607). -/
def App.prot (a : App) (b : Nat) : Nat := bitsOf a.trp.prot (2 * b) 2

/-- Whether a bay is a test source (R604). -/
def App.inTest (a : App) (b : Nat) : Bool := 2 ≤ a.prot b

/-- Whether a slot's descriptor in the active group of a bay names the bay. -/
def App.slotOf (a : App) (b s : Nat) : Bool :=
  dType (a.liveDesc b s) != 0 && dBay (a.liveDesc b s) == b

/-- Whether a matrix index is an input of a bay (R604). -/
def App.inputOf (a : App) (b i : Nat) : Bool :=
  if i < 0x800 then a.slotOf b (i % 0x400)
  else if i < 0x810 then (i - 0x800) / 4 == b
  else if i < 0x814 then i - 0x810 == b
  else 0x880 ≤ i && i < 0x890 && (i - 0x880) / 4 == b

/-- Whether an asserted input of a bay is read deasserted by the bay's protection state (R604, R605). -/
def App.masked (a : App) (b i : Nat) : Bool :=
  let slot := i < 0x800
  let fast := 0x800 ≤ i && i < 0x810
  let test := if slot then (a.elem (i % 0x400)).testQ || (i % 0x400 < 512 && dPaired (a.liveDesc b (i % 0x400)) && (a.elem (i % 0x400 + 512)).testQ)
              else fast && vat (vat a.slu.fast b).testQ (i % 4)
  a.inputOf b i && ((a.prot b == 1 && (slot || fast)) || (a.prot b ≤ 1 && test))

/-- A matrix input as a scan reads it: read-backs from the previous scan, inputs held after a return to In service and
inputs masked by a protection state deasserted (R246, R249, R604, R605, R607). -/
def App.input (a : App) (i : Nat) : Bool :=
  if 0x900 ≤ i && i < 0x980 then bitOf a.trp.rows (i - 0x900)
  else a.inp i && !a.trp.held.contains i && !(upto 4).any (fun b => a.masked b i)

/-- The inputs that a scan reads asserted, the read-backs of rows among them (R246, R249). -/
def App.scanInputs (a : App) : List Nat :=
  a.slu.inputs.filter a.input ++ ((upto 128).filter (bitOf a.trp.rows)).map (0x900 + ·)

/-! ### One instance at one tick -/

/-- What the evaluation of a tick sees beside the engine's quantities: the matrix as it stood when it began. -/
structure TickCtx where
  bay : Nat
  eng : Nat
  inputs : List Nat
  tick : ReadyTick
  stamp : EvStamp
  deriving Repr

/-- The operating quantity of an instance for one phase: its value, the forced dropout, its flags, whether it blocks,
and the polarising memory that results (R226 to R243). -/
structure PhaseQty where
  q : Int
  out : Bool := false
  f : QFlags := {}
  block : Bool := false
  mem : Option (Nat × Nat) := none
  value : Nat
  deriving Repr, Inhabited

/-- Second-harmonic restraint of a phase (R227). -/
def restrained (x : EngBay) (d : List Byte) (ch : Nat) : Bool :=
  let r := bitsOf (dPar d 0) 0 16
  r != 0 && decide (r * (fullPhasor 1 (vat x.win ch)).mag ≤ (fullPhasor 2 (vat x.win ch)).mag * 65536)

/-- The polarising phasor of a phase: the opposite phase-to-phase voltage turned by 90°, or −3V0 (R229, R231). -/
def polarising (x : EngBay) (d : List Byte) (phase : Nat) : Nat × Nat × Nat :=
  let half := qHalf (dQty d)
  if dType d = 0x05 then
    let (p, f) := x.combo half 4 2
    (p.mag, (p.ang + 32768) % 65536, f.qual)
  else
    let (p, f) := x.phph half ((phase + 1) % 3)
    (p.mag, (p.ang + 16384) % 65536, f.qual)

/-- The quantity of the directional elements (R229 to R231). -/
def directionalQty (x : EngBay) (d : List Byte) (st : PhaseSt) (t : ReadyTick) (phase : Nat) : PhaseQty :=
  let (i, f) := x.phasorQty (dQty d) phase
  let (mag, ang, qual) := polarising x d phase
  let kept := t.aq == 3 || t.aq == 4 || t.aq == 5
  let memOk := dType d == 0x04
  let mem := if polUsable d mag qual && (t.aq == 3 || t.aq == 4) then some (ang, t.w64) else if kept then st.mem else none
  let usable := polUsable d mag qual
  let old := match st.mem with
    | some (a0, t0) => if memOk && kept && decide (t.w64 < t0 + dPar d 2 % 65536 * 1000000) then some a0 else none
    | none => none
  let dir := if usable then directional d i.ang ang
    else match old with
      | some a0 => directional d i.ang a0
      | none => bitOf (dPar d 0) 17
  let f := if !usable && old.isSome && t.aq == 5 then { f with hold := true } else f
  { q := if dir then i.mag else 0, f := f, mem := mem, value := i.mag }

/-- A filtered value of a stream as a Pool value: scaled by a u16.16 factor and saturated (R208, R239). -/
def svScaled (scale : Nat) (v : Int) : BitVec 24 := BitVec.ofInt 24 (satSigned 24 (divRound (v * scale) 65536))

/-- The full-cycle phasor of a window of remote currents, scaled (R181, R239). -/
def farPhasor (scale : Nat) (l : List FarSample) : Phasor :=
  fullPhasor 1 (l.map fun e => (sampleWord (svScaled scale e.v) false false false false false 0, e.idx))

/-- The quality of a window of remote currents: invalid until it is filled; a value at full scale is questionable; `lax` says that
smpSynch 1 is accepted as questionable (R170, R209, R241). -/
def farFlags (scale : Nat) (lax : Bool) (l : List FarSample) : QFlags :=
  { qual := if l.length = 256 then
      l.foldl (fun q e => worseQual (worseQual q (if lax then e.lax else e.qual)) (if atFullScale (svScaled scale e.v) then 1 else 0)) 0
    else 2 }

/-- The quantity of 87L: that of the latest tick whose remote samples are complete (R240, R241). -/
def diffPhase (x : EngBay) (d : List Byte) (t : ReadyTick) (holdS phase : Nat) : PhaseQty :=
  let limit := bitsOf (dPar d 2) 20 8
  let keep := t.tq == 2 && decide (holdS * 10 ≤ limit) && limit != 0
  let timeBad := !(t.tq == 0 || t.tq == 2) || (t.tq == 2 && decide (holdS * 10 > limit))
  match x.past.find? (fun e => e.far.isSome) with
  | none => { q := 0, f := { qual := 2 }, block := true, value := 0 }
  | some e =>
    match e.far with
    | none => { q := 0, f := { qual := 2 }, block := true, value := 0 }
    | some far =>
      let w := vat far phase
      let q := diffQty d (vat e.near phase) (farPhasor (dPar d 3) w)
      { q := q, f := joinFlags [vat e.flags phase, farFlags (dPar d 3) keep w]
        block := timeBad || decide (bitsOf (dPar d 2) 28 4 < t.no - e.no), value := q }

/-- The sum of squared magnitudes that heats a cable: the fundamental, or harmonics 1 to 15 (R236). -/
def heating (x : EngBay) (d : List Byte) (ch : Nat) : Nat :=
  if bitOf (dPar d 3) 0 then
    (upto 15).foldl (fun t h => let m := (fullPhasor (h + 1) (vat x.win ch)).mag; t + m * m) 0
  else let m := (fullPhasor 1 (vat x.win ch)).mag; m * m

/-- The quantity of one phase of an instance. -/
def phaseQty (a : App) (c : TickCtx) (x : EngBay) (d : List Byte) (st : PhaseSt) (phase : Nat) : PhaseQty :=
  let qc := dQty d
  let t := c.tick
  match dType d with
  | 0x01 | 0x02 =>
    let (p, f) := x.phasorQty qc phase
    let chs := if dType d = 0x01 then (if bitOf (dPar d 0) 16 then [0, 1, 2] else [phase]) else [3]
    let r := chs.any (fun ch => restrained x d ch)
    { q := if r then 0 else p.mag, f := f, value := p.mag }
  | 0x04 | 0x05 => directionalQty x d st t phase
  | 0x06 =>
    let (p, f) := x.phasorQty qc phase
    { q := p.mag, out := dPar d 0 != 0 && decide (p.mag < dPar d 0), f := f, value := p.mag }
  | 0x09 | 0x0A =>
    let (v, f) := match x.freqs.head? with
      | some (_, v, f) => (v, f)
      | none => (0, { qual := 2 })
    { q := v, out := dPar d 0 != 0 && decide ((x.combo false 4 0).1.mag < dPar d 0), f := f, value := v.toNat }
  | 0x0B =>
    let (v, f) := bayRocof x.freqs (a.get Reg.SLU_CTL_rocof_cycles) t.aq
    let m := dPar d 0
    { q := if m = 0 then v.natAbs else if m = 1 then v else -v
      out := dPar d 1 != 0 && decide ((x.combo false 4 0).1.mag < dPar d 1), f := f, value := toBits 32 v }
  | 0x0C =>
    let (_, f) := x.phasorQty qc phase
    let v := thetaCurrent (dPar d 0) st.theta
    { q := v, f := f, value := v }
  | 0x0D => diffPhase x d t a.holdElapsed phase
  | 0x0E =>
    let (p, f) := x.phasorQty qc phase
    let mode := bitsOf (dPar d 0) 16 2
    let on := c.inputs.contains (bitsOf (dPar d 0) 0 12)
    let cb := bitsOf (dPar d 1) 0 12 != 0xFFF && c.inputs.contains (bitsOf (dPar d 1) 0 12)
    let byCb := if cb then dPickup d else 0
    let v := if !on then 0 else if mode = 0 then p.mag else if mode = 1 then byCb else max p.mag byCb
    { q := v, f := f, value := p.mag }
  | _ =>
    let (p, f) := x.phasorQty qc phase
    { q := p.mag, f := f, value := p.mag }

/-- The time between two evaluated ticks of an instance, capped at n + 3 ticks of the present frequency (R198). -/
def tickDt (e : ElemSt) (t : ReadyTick) : Nat :=
  let one := if t.word = 0 then 0 else 2048 * 2 ^ 32 * 1000000000 / (t.word * 230400)
  match e.lastStamp with
  | none => one
  | some s => min (t.w64 - s) ((t.no - e.lastNo + 3) * one)

/-- The phase states of an instance at a tick before the procedure of R196: the thermal state starts at theta0, and moves unless the
quantity is invalid (R200, R236, R238). -/
def warmPhases (x : EngBay) (d : List Byte) (old : ElemSt) (dt : Nat) : Vector PhaseSt 3 :=
  if dType d ≠ 0x0C then old.ph
  else
    let th0 := bitsOf (dPar d 3) 16 16 * 2 ^ 14
    let ph := if old.warm then old.ph else old.ph.map (fun p => { p with theta := th0, thetaLow := 0 })
    Vector.ofFn (fun p : Fin 3 =>
      let ch := if phasesOf d = 3 then p.val else qCode (dQty d)
      if (x.phasorQty (dQty d) p.val).2.qual = 2 then vat ph p.val
      else thetaStep (vat ph p.val) (heating x d ch) (dPar d 0) (dPar d 1) (dPar d 2) dt)

/-- The quantities of the phases of an instance; their flags together, as a record shows them; and the memorised angles that they
leave (R212, R230). -/
def instQtys (a : App) (c : TickCtx) (x : EngBay) (d : List Byte) (ph : Vector PhaseSt 3) : List PhaseQty :=
  (upto (phasesOf d)).map (fun p => phaseQty a c x d (vat ph p) p)
def qualByte (f : QFlags) : Nat := f.qual + 8 * f.hold.toNat + 16 * f.sub.toNat + 32 * f.ovr.toNat
def withMems (qs : List PhaseQty) (ph : Vector PhaseSt 3) : Vector PhaseSt 3 :=
  Vector.ofFn (fun p : Fin 3 =>
    match qs[p.val]? with
    | some q => { vat ph p.val with mem := q.mem }
    | none => vat ph p.val)
def valueOf (qs : List PhaseQty) (p : Nat) : Nat := ((qs[p]?).map (·.value)).getD 0

/-- An instance keeps the outputs of its last evaluated tick at one that is not evaluated; an AND pair is settled with them, and a
memorised angle is renewed or dropped (R32, R180, R205, R230). -/
def App.skipSlot (a : App) (c : TickCtx) (x : EngBay) (s : Nat) : App :=
  let d := a.liveDesc c.bay s
  let old := a.elem s
  let qs := instQtys a c x d old.ph
  let a := if dType d = 0x04 then a.putElem s { old with ph := withMems qs old.ph } else a
  let both := a.second c.eng c.bay c.tick.no
  if dPaired d && both then a.pairUpdate d (s % 512) c.stamp (qualByte (joinFlags (qs.map (·.f)))) (valueOf qs) true true else a

/-- Evaluate one slot at a tick (R196 to R200). -/
def App.evalSlot (a : App) (c : TickCtx) (x : EngBay) (s : Nat) : App :=
  let d := a.liveDesc c.bay s
  let old := a.elem s
  let dt := tickDt old c.tick
  let ph := warmPhases x d old dt
  let qs := instQtys a c x d ph
  let f := joinFlags (qs.map (·.f))
  let blkIn := (dBlk d != 0xFFFF && c.inputs.contains (dBlk d)) || (dBlk2 d != 0xFFFF && c.inputs.contains (dBlk2 d))
  let blocked := blkIn || f.qual == 2 || (f.ovr && dOvrBlk d) || qs.any (·.block)
  let init := dType d == 0x0E && c.inputs.contains (bitsOf (dPar d 0) 0 12)
  let withMem := withMems qs ph
  let base : ElemSt := { lastStamp := some c.tick.w64, lastNo := c.tick.no, warm := true, blocked := blocked, initSeen := init
                         testQ := qs.any (fun q => q.f.qual == 3), ph := withMem.map PhaseSt.idle }
  let table := if inR 0x10 0x17 (dCurve d) then vat (vat a.slu.liveCurves c.bay) (dCurve d - 0x10) else none
  let new : ElemSt :=
    if blocked then base
    else
      { base with ph := Vector.ofFn (fun p : Fin 3 =>
          match qs[p.val]? with
          | some q => phaseStep table d (vat withMem p.val) q.q q.out (dType d == 0x0E && !old.initSeen) dt
          | none => vat withMem p.val) }
  let a := if new.blocked == old.blocked then a
    else a.sluEvent s (dType d) (if new.blocked then 2 else 3) c.stamp (qualByte f) (whereByte c.bay 0 c.eng) (dGroup d) (valueOf qs 0)
  let both := a.second c.eng c.bay c.tick.no
  a.report d s old new c.stamp (qualByte f) (valueOf qs) both both

/-- A slot at a tick: its instance is evaluated, unless its descriptor was found bad (R32). -/
def App.tickSlot (a : App) (c : TickCtx) (x : EngBay) (s : Nat) : App :=
  if a.slu.heldSlots.contains s then (a.onSlu fun y => { y with heldSlots := y.heldSlots.filter (· != s) }).skipSlot c x s
  else a.evalSlot c x s

/-- The slots of an engine whose live descriptor is evaluated for a bay, ascending (R177). -/
def App.slotsOf (a : App) (e b : Nat) : List Nat :=
  (a.slu.live.filter (fun x => x.1 / 1024 == a.groupOf b && x.1 % 1024 / 512 == e && dLive x.2 b)).map (fun x => x.1 % 1024)

/-- Whether any paired combination runs degraded: an engine is out while pair_fail is 0 (R206, R211). -/
def App.degraded (a : App) : Bool :=
  !(a.engUp 0 && a.engUp 1) && !a.on Reg.SLU_CTL_pair_fail
    && (upto 4).any (fun b => a.slu.live.any (fun x => x.1 / 1024 == a.groupOf b && dLive x.2 b && dPaired x.2))

/-- A matrix input of the Sluice side with its record of origin and type 0. -/
def App.flagInp (a : App) (i : Nat) (b : Bool) (origin : Nat) : App :=
  if a.inp i == b then a
  else (a.setInp i b).sluEvent i 0 (if b then 0 else 1) (a.stampNow 0) 0 (whereByte 0 0 origin) 0 0

/-- Input 0x816 as it is now: whether any paired combination is degraded (R206, R211). -/
def App.showDegraded (a : App) (origin : Nat) : App := a.flagInp 0x816 a.degraded origin

/-! ### Requests applied at a bay's tick (R202, R203) -/

/-- A slot of a bay passes from one descriptor to another at a tick: the state carries over where R202 says so, and otherwise starts
dropped out; its records are those of the old descriptor (R212). -/
def App.swapSlot (a : App) (b s : Nat) (t : EvStamp) (old new : List Byte) : App :=
  if old = new ∨ !(dLive old b || dLive new b) then a
  else
    let e := a.elem s
    let same := dType old == dType new && dQty old == dQty new && dKeep new
    let a := if same && dLive new b then a.putElem s { e with ph := e.ph.map (fun p => p.carried new) }
      else a.report (if dLive old b then old else new) s e (restartElem new e (dType old == dType new && dLive old b && dLive new b)) t 0
        (fun _ => 0) true false
    if dPaired new then a else a.onSlu fun x => { x with pairs := x.pairs.filter (fun p => p.1 != s % 512) }

/-- The slots that two sets of descriptors name, each once. -/
def slotsIn (l : List (Nat × List Byte)) (g : Nat) : List Nat := (l.filter (fun x => x.1 / 1024 == g)).map (fun x => x.1 % 1024)

/-- The descriptors and groups accepted for a bay take effect at a tick, with the user tables: commands first, then the last group
request; each request leaves a record (R202, R203, R223). -/
def App.applyRequests (a : App) (b : Nat) (t : EvStamp) : App :=
  let olds := a.slu.live
  let g := a.groupOf b
  let reqs := vat a.slu.groupReq b
  let g' := (reqs.getLast?).getD g
  let keys := (a.slu.descs.map (·.1) ++ olds.map (·.1))
  let touched := keys.filter (fun k => descAt a.slu.descs k != descAt olds k
    && (dBay (descAt a.slu.descs k) == b || dBay (descAt olds k) == b))
  let a := a.onSlu fun x =>
    { x with live := touched.foldl (fun l k => putDesc l k (descAt x.descs k)) x.live, groupReq := vput x.groupReq b []
             liveCurves := vput x.liveCurves b x.curves }
  let a := (slotsIn (olds ++ a.slu.live) g).eraseDups.foldl (fun a s => a.swapSlot b s t (descAt olds (descKey g s)) (descAt a.slu.live (descKey g s))) a
  let n := reqs.length
  let a := (reqs.zip (upto n)).foldl (fun a r => a.record 0x0030 b r.1 (if r.2 + 1 < n then 1 else 0) 0) a
  let a := a.set (Reg.SLU_BAY_active_group b) g'
  let a := if g' = g then a
    else (slotsIn a.slu.live g ++ slotsIn a.slu.live g').eraseDups.foldl (fun a s =>
      a.swapSlot b s t (descAt a.slu.live (descKey g s)) (descAt a.slu.live (descKey g' s))) a
  (if touched = [] ∧ g' = g then a else a.showDegraded 2).showLoads

/-! ### Tick evaluation (R177 to R180) -/

/-- A change to an engine's view of a bay. -/
def App.onEng (a : App) (e b : Nat) (f : EngBay → EngBay) : App :=
  a.onSlu fun x => { x with eng := vup x.eng e (fun g => { g with bays := vup g.bays b f }) }

/-- The bay whose ready tick an engine serves next: the earliest, the lowest bay among equals (R177). -/
def App.nextBay (a : App) (e : Nat) : Option Nat :=
  (upto 4).foldl (fun best b =>
    match ((vat (vat a.slu.eng e).bays b).ready).head? with
    | none => best
    | some t =>
      match best with
      | none => some b
      | some o =>
        match ((vat (vat a.slu.eng e).bays o).ready).head? with
        | some u => if t.at_ < u.at_ then some b else best
        | none => some b) none

/-- TICK_EVALUATION (R177): an engine serves its next ready tick: quantities always, instances unless a later tick of
the bay is ready too (R180). -/
def App.tickEval (a : App) (e : Nat) : App :=
  match a.nextBay e with
  | none => a
  | some b =>
    match (vat (vat a.slu.eng e).bays b).ready with
    | [] => a
    | t :: more =>
      let stamp : EvStamp := ⟨t.w64, t.tq, t.tsc, t.a48, t.aq⟩
      let inputs := a.scanInputs
      let a := if vat a.slu.appliedNo b < t.no then
          (a.applyRequests b stamp).onSlu fun x => { x with appliedNo := vput x.appliedNo b t.no }
        else a
      let x := engTake a b (vat (vat a.slu.eng e).bays b) t
      let a := a.onEng e b (fun _ => x)
      let late := (a.tick - t.at_) * 4
      let a := if a.get (Reg.SLU_PEAK_peak_ns e) < late then a.set (Reg.SLU_PEAK_peak_ns e) (min 0xFFFFFFFF late) else a
      let c : TickCtx := { bay := b, eng := e, inputs := inputs, tick := t, stamp := stamp }
      let slots := a.slotsOf e b
      let a := a.access (.sluice (Fin.ofNat 2 e)) .sharedSram (256 + 64 * slots.length)
      if more != [] then slots.foldl (fun a s => a.skipSlot c x s) (a.satAdd (Reg.SLU_OVR_overruns e) 1)
      else slots.foldl (fun a s => a.tickSlot c x s) a

/-! ### Meanings -/

/-- TICK_EVALUATION (R177). -/
def execTickEvaluation (engine : Fin 2) (s : State) : Outcome State Fault Refusal :=
  s.onApp fun a => if a.engUp engine then a.tickEval engine else a

/-- PAIR_DISAGREE (R207): the copies of a pair have differed for more than 4 ticks, or agree again after a report. -/
def execPairDisagree (slot : Fin 512) (s : State) : Outcome State Fault Refusal :=
  s.onApp fun a =>
    let p := pairAt a.slu.pairs slot
    let d := match (upto 4).find? (fun b => dLive (a.liveDesc b slot) b) with
      | some b => a.liveDesc b slot
      | none => emptyDesc
    let tell := fun (told : Bool) (ev : Nat) =>
      (a.onSlu fun x => { x with pairs := putPair x.pairs slot { p with told := told } }).sluEvent slot (dType d) ev
        p.stamp 0 (whereByte (dBay d) 0 2) (dGroup d) 0
    if 4 < p.ticks ∧ p.told = false then tell true 4
    else if p.ticks = 0 ∧ p.told then tell false 5
    else a

/-- Every instance of an engine restarts dropped out (R206). -/
def App.dropEngine (a : App) (e : Nat) : App :=
  (upto 4).foldl (fun a b => (a.slotsOf e b).foldl (fun a s =>
    a.report (a.liveDesc b s) s (a.elem s) {} (a.stampNow b) 0 (fun _ => 0) true false) a) a

/-- ENGINE_FAULTED (R206): heartbeats of two ticks missed, or an internal fault. -/
def execEngineFaulted (engine : Fin 2) (internal : Bool) (s : State) : Outcome State Fault Refusal :=
  s.onApp fun a =>
    let missed := (upto 4).any (fun b => decide (2 ≤ (vat (vat a.slu.eng engine).bays b).ready.length))
    if a.engUp engine ∧ (internal ∨ missed) then
      let a := a.set (Reg.SLU_STAT_state engine) 2
      let a := a.onSlu fun x => { x with eng := vput x.eng engine { ({} : Engine) with reloadAt := some a.tick } }
      let a := a.dropEngine engine
      let a := a.flagInp (0x814 + engine) true engine
      let a := a.showDegraded engine
      (a.satAdd (Reg.SLU_STAT_reloads engine) 1).record 0x0031 engine 0 0 0
    else a

/-- ENGINE_RELOAD_END (R206): every instance restarts dropped out, θ from theta0 (R238). -/
def execEngineReloadEnd (engine : Fin 2) (s : State) : Outcome State Fault Refusal :=
  s.onApp fun a =>
    match (vat a.slu.eng engine).reloadAt with
    | none => a
    | some _ =>
      let a := a.set (Reg.SLU_STAT_state engine) 0
      let a := a.onSlu fun x => { x with eng := vput x.eng engine {}
                                         elems := x.elems.filter (fun e => e.1 / 512 != engine.val) }
      let a := a.flagInp (0x814 + engine) false engine
      a.showDegraded engine

end Sys2Proof.Machine
end

