-- ==== Sys2Proof/Machine/Resample.lean ====
section
/-! DEFINITION. The angle resampler and the Sluice tick: CIC words and their history, substituted samples, resampled samples, and
the windows that become ready; the fast detector's functions (R102, R166 to R170, R177, R178, R188 to R190, R202, R208, R209, R239,
R241). -/

namespace Sys2Proof.Machine

open Host

/-! ### Samples of a stream (R208, R209) -/

/-- The rate of a subscribed stream, and the CIC periods in one of its samples (R208). -/
def App.svStreamRate (a : App) (v : Nat) : Nat := if bitOf (a.eth.tbl.get (0x16400 + 256 * v)) 6 then 14400 else 4800
def App.svRatio (a : App) (v : Nat) : Nat := 230400 / a.svStreamRate v

/-- How many samples of a stream the interpolator takes on either side of an instant (DESIGN CHOICE, log entry 189). -/
def svReach : Nat := 8

/-- The quality of a received value (R209); `late` is the second row. -/
def svQual (synch : Byte) (late : Bool) (q : Nat) : Nat :=
  if synch ≠ 2#8 ∨ late = true then 2
  else if q % 4 = 1 ∨ q % 4 = 2 ∨ bitOf q 2 = true ∨ bitOf q 3 = true ∨ bitOf q 6 = true then 2
  else if q % 4 = 3 ∨ bitOf q 10 = true then 1
  else if bitOf q 11 then 3
  else 0

/-- The W64 instant of sample `no` of a stream (R208). -/
def svInstant (rate no : Nat) : Nat := no * 1000000000 / rate

/-- Entry `ent` of sample `no` of a stream in stream LSB, its quality, and its quality where smpSynch 1 is accepted as
questionable (R209, R241); `wait` is sv_wait in 0.25 ms. A sample that has not been received is invalid. -/
def App.svEntry (a : App) (v ent wait no : Nat) : Int × Nat × Nat :=
  match (vat a.eth.sv v).recent.find? (fun x => x.no == no) with
  | none => (0, 2, 2)
  | some x =>
    match x.pairs[ent]? with
    | none => (0, 2, 2)
    | some p =>
      let late := decide (svInstant (a.svStreamRate v) no + wait * 250000 < x.at_)
      let q := svQual x.synch late p.2.toNat
      (p.1.toInt, q, if x.synch = 1#8 then worseQual 1 (svQual 2 late p.2.toNat) else q)

/-- What the interpolator gives at grid point `g` of the 230.4 kS/s axis from the samples around it, each value first put through
`f`: the value, and the worst qualities of these samples. -/
def App.svPoint (a : App) (v ent wait g : Nat) (f : Int → Int) : Int × Nat × Nat :=
  let r := a.svRatio v
  let l := (upto (2 * svReach)).map (fun i => a.svEntry v ent wait (g / r + svReach - i))
  (Config.svInterp (g % r) (l.map (fun e => f e.1)), l.foldl (fun q e => worseQual q e.2.1) 0, l.foldl (fun q e => worseQual q e.2.2) 0)

/-- How many CIC periods after its nominal instant a substituted sample is taken: once the samples that it needs have been received
or are late (R208, R209; DESIGN CHOICE, log entry 189). -/
def App.subLag (a : App) (b : Nat) : Nat :=
  (576 * a.get (Reg.SLU_SVCFG_sv_wait b) + 9) / 10 + (svReach + 1) * a.svRatio (a.get (Reg.SLU_BAY_sub_stream b))

/-- The grid point of the 230.4 kS/s axis in whose place CIC period `p` falls: that nearest to the period's beginning. -/
def App.gridOf (a : App) (p : Nat) : Nat := (a.atAxis (p * 1000000000) * 230400 + 8000000000) / 16000000000

/-- The substituted sample of a channel in CIC period `p`, in 1/64 LSB, with its quality (R208, R209). -/
def App.subSample (a : App) (b c p : Nat) : Int × Nat :=
  let r := a.svPoint (a.get (Reg.SLU_BAY_sub_stream b)) (bitsOf (a.get (Reg.SLU_SVMAP_map b)) (4 * c) 4) (a.get (Reg.SLU_SVCFG_sv_wait b))
    (a.gridOf p) (fun v => (svScaled (a.get (Reg.SLU_SVSCALE_scale b c)) v).toInt)
  (64 * satSigned 24 r.1, r.2.1)

/-- The stamp of the Pool word of a channel, to the nearest ns: its newest edge less its delay, or for a substituted channel less the
way back to the middle of the nominal instants of its samples (R163, R164, R208). -/
def App.poolStamp (a : App) (i edge : Nat) : Nat :=
  let d := if a.on (Reg.SLU_BAY_sub_active (i / 8)) then (16000000000 * (63 + 32 * a.get Reg.DEC_AVG_navg) + 7372800) / 14745600
    else a.get (Reg.DEC_PDLY_dp (i / 8) (i % 8))
  (edge - d + 8) / 16

/-! ### The FIR (R166, R167) -/

/-- The words of the 349 taps and half of their span. -/
def firTaps : Nat := 349
def firHalf : Nat := 174

/-- The output of the FIR over words `x`, latest first, at a part `mu` of a CIC period in 10^-9: linear between two of the 1,024
branches, whose coefficients, s2.30, are free values, and so is the rounding; words in 1/64 of the unit of the output (R166,
R167). -/
def firAt (x : List Int) (mu : Nat) : Int :=
  let br := mu * 1024 / 1000000000
  let f := mu * 1024 % 1000000000
  let n := x.zipIdx.foldl (fun (t : Int) (e : Int × Nat) =>
    t + e.1 * ((Config.firTap br e.2).toInt * ((1000000000 - f : Nat) : Int) + (Config.firTap (br + 1) e.2).toInt * f)) 0
  let d : Nat := 64 * 2 ^ 30 * 1000000000
  n / d + if n % d ≠ 0 ∧ Config.firUp n then 1 else 0

/-- The CIC period whose word is the last one stamped at or before a place on the axis, and how far that place lies beyond the stamp
(R167). -/
def App.cicBefore (a : App) (b pos : Nat) : Nat × Nat := ((pos + a.cicBack b) / 1000000000, (pos + a.cicBack b) % 1000000000)

/-- Whether the span of an instant has been produced (R168). -/
def App.instReady (a : App) (b : Nat) (i : AngInst) : Bool :=
  match vat a.sig.hist b with
  | r :: _ => decide ((a.cicBefore b i.pos).1 + firHalf ≤ r.per)
  | [] => false

/-- The words of the span of an instant, latest first. -/
def App.spanOf (a : App) (b : Nat) (i : AngInst) : List CicRow :=
  let p := (a.cicBefore b i.pos).1
  (vat a.sig.hist b).filter (fun r => decide (p ≤ r.per + firHalf) && decide (r.per ≤ p + firHalf))

/-- The resampled word of a channel at an instant (R9, R81, R135, R170, R208 to R210). -/
def App.resampled (a : App) (b c : Nat) (flt : Bool) (i : AngInst) : W32 :=
  let ws := (a.spanOf b i).map (fun r => vat r.ch c)
  let v := BitVec.ofInt 24 (satSigned 24 (firAt (ws.map (·.v)) (a.cicBefore b i.pos).2))
  let q := ws.foldl (fun q w => worseQual q w.qual) (if ws.length = firTaps then 0 else 2)
  let q := if ws.any (·.full) then worseQual q 1 else q
  let bad : Bool := match (vat a.slu.sub b).badFrom with
    | some m => decide ((i.m + 2 ^ 40 - m % 2 ^ 40) % 2 ^ 40 < 256)
    | none => false
  sampleWord v (ws.any (·.ovr)) (atFullScale v) flt (a.on (Reg.SLU_BAY_sub_active b)) i.st.hold (if bad then 2 else q)

/-- Whether an instant is the first at or after the stamp of a channel's take-over sample (R170). -/
def App.fltAt (a : App) (b c : Nat) (i : AngInst) : Bool :=
  match vat (vat a.ana.bays b).fltRes c with
  | some p => decide (p ≤ i.pos)
  | none => false

/-- The resampled samples of an instant. -/
def App.takeInst (a : App) (b : Nat) (i : AngInst) : App :=
  let g : ResSample := { inst := i, words := Vector.ofFn fun c : Fin 8 => a.resampled b c.val (a.fltAt b c.val i) i }
  let a := a.onBay b fun x => { x with fltRes := Vector.ofFn fun c : Fin 8 => if a.fltAt b c.val i then none else vat x.fltRes c.val }
  a.onClk b fun c => { c with got := c.got ++ [g] }

/-! ### Remote currents of 87L (R239, R241) -/

/-- The first enabled 87L descriptor of a bay, which names the stream and the entries of all of them (R239). -/
def App.farDesc (a : App) (b : Nat) : Option (List Byte) :=
  (a.slu.live.find? (fun x => x.1 / 1024 == a.groupOf b && dLive x.2 b && dType x.2 == 0x0D)).map (·.2)

/-- The remote current of an entry at an instant t_a: interpolated to the 230.4 kS/s axis and put through the FIR (R239). -/
def App.farSample (a : App) (b v ent : Nat) (i : AngInst) : FarSample :=
  let at_ := i.w16 * 230400
  let g := at_ / 16000000000
  let pts := (upto firTaps).map (fun k => a.svPoint v ent (a.get (Reg.SLU_SVCFG_sv_wait b)) (g + firHalf - k) id)
  { v := firAt (pts.map (fun p => 64 * p.1)) (at_ % 16000000000 / 16), idx := i.m % 256
    qual := pts.foldl (fun q p => worseQual q p.2.1) 0, lax := pts.foldl (fun q p => worseQual q p.2.2) 0 }

/-- Whether the remote samples of an instant are complete: those that they need have been received, or are late (R209, R241). -/
def App.farReady (a : App) (b v : Nat) (i : AngInst) : Bool :=
  let rate := a.svStreamRate v
  let g := i.w16 * 230400 / 16000000000
  let last := (g + firHalf) / a.svRatio v + svReach
  let first := (g - firHalf) / a.svRatio v - svReach
  decide (svInstant rate last + a.get (Reg.SLU_SVCFG_sv_wait b) * 250000 < a.w64)
    || (upto (last + 1 - first)).all (fun k => (vat a.eth.sv v).recent.any (fun x => x.no == first + k))

/-- The ticks whose remote samples are complete by now, and those that still wait, of the last sixteen. -/
def App.farTicks (a : App) (b : Nat) (wait : List (Nat × List AngInst)) : List FarTick × List (Nat × List AngInst) :=
  match a.farDesc b with
  | none => ([], [])
  | some d =>
    let w := dPar d 2
    let ready := fun (e : Nat × List AngInst) => e.2.all (fun i => a.farReady b (bitsOf w 0 4) i)
    ((wait.filter ready).map (fun e => (⟨e.1, Vector.ofFn fun p : Fin 3 =>
        e.2.map (fun i => a.farSample b (bitsOf w 0 4) (bitsOf w (4 + 4 * p.val) 4) i)⟩ : FarTick)),
      ((wait.filter (fun e => !ready e)).reverse.take 16).reverse)

/-! ### The Sluice tick of a clock (R102, R177, R178) -/

/-- The samples of tick `no` that have arrived, and whether a sample of a later tick has. -/
def inTick (no : Nat) (g : ResSample) : Bool := g.inst.m / 8 == no % 2 ^ 37
def beyondTick (no : Nat) (g : ResSample) : Bool :=
  let d := (g.inst.m / 8 + 2 ^ 37 - no % 2 ^ 37) % 2 ^ 37
  d != 0 && decide (d < 2 ^ 36)

/-- The window of tick `no` becomes ready with its eighth sample `last`: its samples enter the clock's window and both engines'
buffers, then the tracker works (R86, R88, R102, R177, R178). -/
def App.sluiceTick (a : App) (b no : Nat) (win : List ResSample) (last : AngInst) : App :=
  let c := vat a.clk b
  let (far, wait) := a.farTicks b ((vat a.slu.sub b).far ++ [(no + 1, win.map (·.inst))])
  let words := fun (turn : ResSample → Nat) => Vector.ofFn (fun ch : Fin 8 => win.map (fun g => (vat g.words ch.val, (g.inst.m + turn g) % 256)))
  let t : ReadyTick := { no := no + 1, at_ := a.tick, w64 := (last.w16 + 8) / 16 % 2 ^ 64, a48 := last.m * 256 % 2 ^ 48, tq := last.tq, tsc := last.tsc
                         aq := last.st.code, refUsed := c.refUsed, word := c.word, samples := words (fun _ => 0), remote := far }
  let a := (upto 2).foldl (fun a e => if a.engUp e then a.onEng e b (fun y => { y with ready := y.ready ++ [t] }) else a) a
  let a := a.onSlu fun y => { y with sub := vup y.sub b (fun z => { z with far := wait }) }
  let own := words (fun g => g.inst.turn)
  let a := a.onClk b fun k =>
    { k with win := Vector.ofFn (fun ch : Fin 8 => pushWin (vat k.win ch.val) (vat own ch.val)), taken := min 256 (k.taken + win.length)
             evalNo := no + 1, got := k.got.filter (beyondTick no) }
  (a.access .resampler .sharedSram 256).tracker b

/-- The next tick that has fired becomes ready with its eighth sample; one that a coarse alignment has cut short is passed over
(R96, R102, R104). -/
def App.pumpOne (a : App) (b : Nat) : App :=
  let c := vat a.clk b
  let no := c.evalNo
  if c.tickNo ≤ no then a
  else
    let win := c.got.filter (inTick no)
    match win.find? (fun g => g.inst.m % 8 == 7) with
    | some last => a.sluiceTick b no win last.inst
    | none =>
      if c.got.any (beyondTick no) then a.onClk b fun k => { k with evalNo := no + 1, got := k.got.filter (beyondTick no) } else a

/-- Every tick that has fired and whose samples are there becomes ready, in order. -/
def App.tickPump (a : App) (b : Nat) : App :=
  (upto ((vat a.clk b).tickNo - (vat a.clk b).evalNo)).foldl (fun a _ => a.pumpOne b) a

/-- The instants of a bay whose spans have been produced give their samples (R167, R168). -/
def App.resample (a : App) (b : Nat) : App :=
  let ready := (vat a.clk b).insts.filter (a.instReady b)
  if ready = [] then a
  else (ready.foldl (fun a i => a.takeInst b i) (a.onClk b fun c => { c with insts := c.insts.filter (fun i => !a.instReady b i) })).tickPump b

/-- The target that a unit fires at next: the end of the next tick's window for unit 0 (R100, R102). -/
def App.unitTarget (a : App) (b u : Nat) : Nat := if u = 0 then 2048 * ((vat a.clk b).tickNo + 1) % 2 ^ 48 else a.angTarget b u

/-- Whether the Sluice tick of a clock is due (R102). -/
def App.tickDue (a : App) (b : Nat) : Bool := (vat a.clk b).st != .off && reached48 (a.a48 b) (a.unitTarget b 0)

/-- The Sluice tick of a clock fires at the end of its window (R102). -/
def App.tickFire (a : App) (b : Nat) : App :=
  let no := (vat a.clk b).tickNo
  ((a.onClk b fun k => { k with tickNo := no + 1 }).set (Reg.ANG_CMP_TGT_tgt b 0) (2048 * (no + 2))).tickPump b

/-! ### Clocks and substitution on and off -/

/-- Both engines' view of a bay at a change of its clock: windows and requests begin anew (R187, R202). -/
def App.freshBay (a : App) (b : Nat) : App :=
  let a := (upto 2).foldl (fun a e => a.onEng e b (fun _ => {})) a
  a.onSlu fun x => { x with appliedNo := vput x.appliedNo b 0, sub := vup x.sub b (fun z => { z with far := [], pending := z.pending.map (fun p => (p.1, p.2.1, 0)) }) }

/-- A bay's clock is enabled or disabled (R95, R102, R187). -/
def App.clockOn (a : App) (b : Nat) : App := (a.clkStart b).freshBay b
def App.clockOff (a : App) (b : Nat) : App := (a.clkStop b).freshBay b

/-- A switch of substitution waits for the bay's next tick (R210). -/
def App.askSub (a : App) (b : Nat) (on lost : Bool) : App :=
  a.onSlu fun x => { x with sub := vup x.sub b (fun z => { z with pending := some (on, lost, (vat a.clk b).tickNo) }) }

/-! ### The fast detector (R188 to R190) -/

/-- What a pickup or dropout of the fast detector of a bay does beyond its own input: a freeze of the angle clock and
the deferral of a hand-over (R91, R92, R130). -/
def App.fastUpdate (a : App) (b : Nat) (was : Bool) : App :=
  if a.fastUp b && !was then ((a.onClk b fun c => { c with trig1 := true }).freeze b).handDisturb b else a

/-- The stamp of the Pool word of channel `ch` that completed a run (R190, R212). -/
def App.fastStamp (a : App) (b ch : Nat) (f : FastWord) : EvStamp :=
  let t := a.poolStamp (8 * b + ch) f.edge
  ⟨t % 2 ^ 64, f.tq, f.tsc, a.a48At b t, f.aq⟩

/-- A transition of a fast-detector function with its record, origin 3 (R190, R212). -/
def App.fastSet (a : App) (b ch input : Nat) (on : Bool) (by_ : FastWord) (f : FastDet → FastDet) : App :=
  let w := by_.w
  let t := a.fastStamp b ch by_
  let was := a.fastUp b
  let a := a.onSlu fun x => { x with fast := vup x.fast b f }
  let a := if input < 0x810 then
      a.onSlu fun x => { x with fast := vup x.fast b (fun y => { y with testQ := vput y.testQ (input % 4) (on && wordQual w == 3) }) }
    else a
  let a := a.fastUpdate b was
  let q := wordQual w + 8 * (wordHold w).toNat + 16 * (wordSub w).toNat + 32 * (wordOvr w).toNat
  (a.setInp input on).sluEvent input 0 (if on then 0 else 1) t q (whereByte b 0 3) 0 (toBits 32 (wordValue w))

/-- INSTANTANEOUS_PICKUP (R188): the last n_conf words of a current channel are at or above its threshold. -/
def execInstantaneousPickup (bay : Fin 4) (ch : Fin 4) (s : State) : Outcome State Fault Refusal :=
  s.onApp fun a =>
    if bitOf (a.get (Reg.SLU_FDCTL_inst_en bay)) ch ∧ vat (vat a.slu.fast bay).inst ch = false
        ∧ a.get (Reg.SLU_FDCTL_n_conf bay) ≤ vat (vat a.sig.fast bay).up ch then
      a.fastSet bay ch (0x800 + 4 * bay + ch) true (vat (vat a.sig.fast bay).upBy ch) (fun f => { f with inst := vput f.inst ch true })
    else a

/-- INSTANTANEOUS_DROPOUT (R188): the last dd words are below the threshold. -/
def execInstantaneousDropout (bay : Fin 4) (ch : Fin 4) (s : State) : Outcome State Fault Refusal :=
  s.onApp fun a =>
    if vat (vat a.slu.fast bay).inst ch = true ∧ a.get (Reg.SLU_FDCTL_dd bay) ≤ vat (vat a.sig.fast bay).down ch then
      a.fastSet bay ch (0x800 + 4 * bay + ch) false (vat (vat a.sig.fast bay).downBy ch) (fun f => { f with inst := vput f.inst ch false })
    else a

/-- DISTURBANCE_PICKUP (R189): the last n_conf comparisons reach a threshold on some channel. Which word gives value and quality of
its record is not stated: that of IA is taken (R212; DESIGN CHOICE, log entry 191). -/
def execDisturbancePickup (bay : Fin 4) (s : State) : Outcome State Fault Refusal :=
  s.onApp fun a =>
    if a.on (Reg.SLU_FDCTL_dist_en bay) ∧ (vat a.slu.fast bay).dist = false
        ∧ a.get (Reg.SLU_FDCTL_n_conf bay) ≤ (vat a.sig.fast bay).distUp then
      a.fastSet bay 0 (0x810 + bay) true (vat a.sig.fast bay).distUpBy (fun f => { f with dist := true, distAt := some (a.fastStamp bay 0 (vat a.sig.fast bay).distUpBy).w64 })
    else a

/-- DISTURBANCE_DROPOUT (R189): dd valid comparisons have been below both thresholds. -/
def execDisturbanceDropout (bay : Fin 4) (s : State) : Outcome State Fault Refusal :=
  s.onApp fun a =>
    if (vat a.slu.fast bay).dist = true ∧ a.get (Reg.SLU_FDCTL_dd bay) ≤ (vat a.sig.fast bay).distDown then
      a.fastSet bay 0 (0x810 + bay) false (vat a.sig.fast bay).distDownBy (fun f => { f with dist := false })
    else a

end Sys2Proof.Machine
end

