-- ==== Sys2Proof/Machine/Modes.lean ====
section
/-! DEFINITION. How the mode dimensions combine on outputs (R568, R602 to R612). -/

namespace Sys2Proof.Machine

open Host

/-- The control state: 0 Stop, 1 Run, 2 Hold, 3 Skim (R364, R602). -/
def App.cstate (a : App) : Nat := a.get Reg.CSC_PSTAT_cstate

/-- Whether the life-cycle state permits outputs (R609). -/
def App.lcyActive (a : App) : Bool :=
  a.lcy == Lcy.commissioning || a.lcy == Lcy.operational || a.lcy == Lcy.maintenance

/-- Whether the output enable is Enabled (R602). -/
def App.outEnabled (a : App) : Bool := a.on Reg.GLB_MODE_outen

/-- Whether the role is Solo or Primary (R568). -/
def App.leads (a : App) : Bool := a.role == Role.solo || a.role == Role.primary

/-- Whether the trip channels may conduct: life cycle, role and output enable (R568, R609). -/
def App.tripPermit (a : App) : Bool :=
  a.lcyActive && a.outEnabled &&
    (a.leads || a.role == Role.standby || (a.role == Role.joining && a.par.wasActive))

/-- Whether the permit bits of F outputs of a source are set: source 0 needs a control state other than Stop (R568,
R609). -/
def App.fieldPermit (a : App) (src : Nat) : Bool :=
  a.lcyActive && a.outEnabled && (a.leads || a.role == Role.standby) && (src == 1 || a.cstate != 0)

/-- Whether GOOSE, sampled-value and Volith frames are sent (R568, R609). -/
def App.pubPermit (a : App) : Bool := a.lcyActive && a.leads

/-- Whether CAN FD transmits without restriction (R568, R609). -/
def App.canPermit (a : App) : Bool := a.lcyActive && a.outEnabled && a.leads && a.cstate != 0

end Sys2Proof.Machine
end

