-- ==== Sys2Proof/Machine/Frames.lean ====
section
/-! DEFINITION. Table spaces, and how the module's own Ethernet frames leave its ports (R519 to R528). -/

namespace Sys2Proof.Machine

open Host

/-- The words of `n` bytes from an address, as bytes. -/
def Tbl.bytes (t : Tbl) (o n : Nat) : List Byte := (upto (n / 4)).flatMap (fun i => le 4 (t.get (o + 4 * i)))

/-! ### Sending -/

/-- The redundancy control trailer of PRP on LAN 0 or 1, and the HSR tag of a direction: PRESUMED from IEC 62439-3, which
R522 and R523 name. -/
def prpTrailer (seq lan size : Nat) : List Byte := be 2 seq ++ be 2 ((0xA + lan) * 4096 + size % 4096) ++ be 2 0x88FB
def hsrTag (path size seq : Nat) : List Byte := be 2 0x892F ++ be 2 (path * 4096 + size % 4096) ++ be 2 seq

/-- The module's own frame on a port group, from its EtherType on: on a PRP pair on both LANs with one trailer, on a ring in
both directions with one tag, else as it is (R522, R523). -/
def App.ethSend (a : App) (kind g : Nat) (dst : List Byte) (vlan : Option Nat) (body : List Byte) : App :=
  let head := dst ++ a.macOf g ++ (match vlan with
    | some tci => be 2 0x8100 ++ be 2 tci
    | none => [])
  if g = 0 then
    let q := (vat a.eth.pairs 0).seq
    let f := fun lan => head ++ body ++ prpTrailer q lan (body.length + 4)
    ((a.onPair 0 fun x => { x with seq := (q + 1) % 65536 }).portSend kind 0 (f 0)).portSend kind 1 (f 1)
  else if g < 3 then
    let q := (vat a.eth.pairs g).seq
    let f := fun dir => head ++ hsrTag dir (body.length + 4) q ++ body
    ((a.onPair g fun x => { x with seq := (q + 1) % 65536 }).portSend kind (2 * g) (f 0)).portSend kind (2 * g + 1) (f 1)
  else a.portSend kind (g + 3) (head ++ body)

/-- The frame on every group of a port set: bit 0 E0/E1, 1 E2/E3, 2 E4/E5, 3 E6, 4 E7 (R530). -/
def App.ethSendAll (a : App) (kind ports : Nat) (dst : List Byte) (vlan : Option Nat) (body : List Byte) : App :=
  (upto 5).foldl (fun a g => if bitOf ports g then a.ethSend kind g dst vlan body else a) a

/-- A Volith message of a kind, 1 group or 2 arrival, on the port of a code: 0 E2/E3, 1 E4/E5, 2 E6 (R527). -/
def App.volith (a : App) (kind code : Nat) (msg : List Byte) : App :=
  let tci := a.get Reg.ETH_OWN_vid + 8192 * a.get Reg.ETH_OWN_pcp
  a.ethSend kind (code + 1) [0x03, 0x56, 0x4C, 0x00, 0x00, BitVec.ofNat 8 kind]
    (if a.on Reg.ETH_OWN_tagged then some tci else none) (be 2 0x88B5 ++ msg ++ le 14 0)

/-! ### Receiving (R524, R526) -/

/-- The live entries of a table, with the oldest evicted and counted when it is full (R524). -/
def App.ddLive (a : App) (x : Nat) (l : List DdEnt) : List DdEnt :=
  l.filter (fun e => !a.since e.at_ (a.get (Reg.ETH_PAIR_entry_forget x) * tMs))

/-- The duplicate discard of a received copy: the first copy is accepted and entered, a copy that matches a live entry is
discarded; a frame with no trailer or tag, or of a single attached port, is accepted (R522, R524). -/
def App.ddTake (a : App) (h : RxHead) : App × Bool :=
  match h.red with
  | some (src, seq) =>
    if 6 ≤ h.port.val then (a, true)
    else
      let x := h.port.val / 2
      let l := a.ddLive x (vat a.eth.pairs x).dd
      if l.any (fun e => e.src == src.toNat && e.seq == seq.toNat) then (a.onPair x fun p => { p with dd := l }, false)
      else
        let full := decide (4096 ≤ l.length)
        let l := (if full then l.drop 1 else l) ++ [⟨src.toNat, seq.toNat, 0, a.tick⟩]
        let a := a.onPair x fun p => { p with dd := l }
        (if full then a.satAdd (Reg.ETH_PAIR_dd_overflow x) 1 else a, true)
  | none => (a, true)

/-- A received frame at its port: none of a port that is not enabled; a wrong or too long one is counted and discarded
(R520). -/
def App.rxPort (a : App) (h : RxHead) : App × Bool :=
  if !a.on (Reg.ETH_PORT_en h.port) then (a, false)
  else if !h.good then (a.satAdd (Reg.ETH_PORT_fcs_err h.port) 1, false)
  else (a, true)

/-- A frame that matches no enabled entry (R526). -/
def App.rxDrop (a : App) (h : RxHead) : App := a.satAdd (Reg.ETH_RXDROP_unmatched h.port) 1

/-! ### Meanings -/

/-- SUPERVISION_FRAME (R522, R523): every life_check, on both ports of a pair. Its address and content are PRESUMED from
IEC 62439-3. -/
def execSupervisionFrame (pair : Fin 3) (s : State) : Outcome State Fault Refusal :=
  s.onApp fun a =>
    let x := vat a.eth.pairs pair
    if a.since x.supAt (a.get (Reg.ETH_PAIR_life_check pair) * 100 * tMs) then
      let prp := pair.val == 0
      let body := be 2 0x88FB ++ be 2 1 ++ be 2 x.sup ++ (if prp then be 1 20 else be 1 23) ++ be 1 6 ++ a.macOf pair ++ be 2 0
      (a.onPair pair fun x => { x with sup := (x.sup + 1) % 65536, supAt := a.tick }).ethSend 5 pair
        [0x01, 0x15, 0x4E, 0x00, 0x01, 0x00] none (padTo 48 body)
    else a

/-- A PTP message's correctionField, scaled ns at byte 8 of its header, raised by a time in ns (R57). -/
def corrected (d : List Byte) (o add : Nat) : List Byte :=
  let c := ofLe ((bytesAt d (o + 8) 8).reverse)
  d.take (o + 8) ++ be 8 ((c + add * 65536) % 2 ^ 64) ++ d.drop (o + 16)

/-- What a forwarded PTP message takes into its correctionField, ns: an event message its residence time and the link delay, the
Follow_Up of a two-step Sync the amount that the Sync took (R57). The fields' places are PRESUMED from IEEE 1588. -/
def tcAmount (added : List (Nat × Nat)) (msg : List Byte) (amount : Nat) : Nat :=
  let type := ofBe (bytesAt msg 0 1) % 16
  if type < 4 then amount
  else if type = 8 then ((added.find? (fun e => e.1 == ofBe (bytesAt msg 20 12))).map (·.2)).getD 0
  else 0

/-- The amounts kept for Follow_Ups after a forwarded PTP message: of the last 64 two-step Syncs. -/
def tcKeep (added : List (Nat × Nat)) (msg : List Byte) (amount : Nat) : List (Nat × Nat) :=
  if ofBe (bytesAt msg 0 1) % 16 = 0 ∧ bitOf (ofBe (bytesAt msg 6 1)) 1 = true then
    ((ofBe (bytesAt msg 20 12), amount) :: added).take 64
  else added

/-- HSR_FRAME_RX (R523): a ring frame at E2 to E5 leaves by the other port of its pair, unless the module sent it or has
sent it that way before; a PTP message with its header at `ptp` takes its correction on
the way (R57). -/
def execHsrFrameRx (port : Fin 4) (good : Bool) (src : W48) (seq : W16) (data : List Byte) (ptp : Option Nat) (resid : W32) (s : State) :
    Outcome State Fault Refusal :=
  s.onApp fun a =>
    let p := port.val + 2
    let x := p / 2
    let out := 2 * x + (1 - p % 2)
    if !a.on (Reg.ETH_PORT_en p) then a
    else if !good then a.satAdd (Reg.ETH_PORT_fcs_err p) 1
    else
      let l := a.ddLive x (vat a.eth.pairs x).fwd
      if src.toNat = (a.get Reg.ETH_MAC_base + x) % 2 ^ 48 ∨ l.any (fun e => e.src == src.toNat && e.seq == seq.toNat && e.port == out) then
        a.onPair x fun y => { y with fwd := l }
      else
        let amount := resid.toNat + median (vat a.tim.pdelay p)
        let d := match ptp with
          | some o => corrected data o (tcAmount (vat a.eth.pairs x).added (data.drop o) amount)
          | none => data
        (a.onPair x fun y => { y with added := (match ptp with
                                        | some o => tcKeep y.added (data.drop o) amount
                                        | none => y.added)
                                      fwd := (if 4096 ≤ l.length then l.drop 1 else l) ++ [⟨src.toNat, seq.toNat, out, a.tick⟩] }).portSend 6 out d

/-- ETH_LINK_CHANGE (R520). -/
def execEthLinkChange (port : Fin 8) (link an : Bool) (s : State) : Outcome State Fault Refusal :=
  s.onApp fun a => (a.setB (Reg.ETH_PORT_link port) link).setB (Reg.ETH_PORT_an_done port) an

end Sys2Proof.Machine
end

