-- ==== Sys2Proof/Machine/Trip.lean ====
section
/-! DEFINITION. Trip matrix rows, trip channels with their supervision, and the breaker controllers
(R246 to R268, R606, R607). -/

namespace Sys2Proof.Machine

open Host

/-- A change to the trip part. -/
def App.onTrp (a : App) (f : TripSt → TripSt) : App := { a with trp := f a.trp }

/-- A change to a trip channel. -/
def App.onCh (a : App) (n : Nat) (f : TripCh → TripCh) : App := a.onTrp fun t => { t with ch := vup t.ch n f }

/-! ### Rows (R248, R249, R606) -/

/-- The enabled terms of a row: index and inversion. -/
def App.rowTerms (a : App) (r : Nat) : List (Nat × Bool) :=
  ((upto 8).filter (fun j => a.on (Reg.TRP_ROW_use r j))).map
    (fun j => (a.get (Reg.TRP_ROW_index r j), a.on (Reg.TRP_ROW_inv r j)))

/-- The output of a row: OR or AND of its enabled terms; deasserted with none (R248). -/
def App.rowOut (a : App) (r : Nat) : Bool :=
  match a.rowTerms r with
  | [] => false
  | ts => if a.on (Reg.TRP_ROW_op r) then ts.all (fun t => a.input t.1 != t.2) else ts.any (fun t => a.input t.1 != t.2)

/-- A number of 128 bits from its bits. -/
def bitsNat (n : Nat) (f : Nat → Bool) : Nat := (upto n).foldl (fun x i => if f i then x + 2 ^ i else x) 0

/-- The rows test-linked beside those in `l`: a term names an input of a bay in test, or the read-back of a row in
`l` (R606). -/
def App.linkStep (a : App) (l : Nat) : Nat :=
  bitsNat 128 (fun r => bitOf l r || (a.rowTerms r).any (fun t =>
    (0x900 ≤ t.1 && t.1 < 0x980 && bitOf l (t.1 - 0x900)) || (upto 4).any (fun b => a.inTest b && a.inputOf b t.1)))

/-- The test-linked rows: the least set closed under R606. -/
def App.links (a : App) : Nat :=
  if (upto 4).any (fun b => a.inTest b) then (upto 128).foldl (fun l _ => a.linkStep l) 0 else 0

/-! ### Trip channels (R252 to R255) -/

/-- Whether the current has stayed below 0.1 A for 1 ms. -/
def App.lowFor (a : App) (n : Nat) : Bool :=
  match (vat a.trp.ch n).lowAt with
  | some t => a.since t tMs
  | none => false

/-- Whether a conducting channel may open: row deasserted, t_min elapsed, and no seal-in or the current low (R253). -/
def App.mayOpen (a : App) (n : Nat) : Bool :=
  let c := vat a.trp.ch n
  a.on (Reg.TRP_CHSTAT_on n) && !c.row && a.since c.onAt (a.get (Reg.TRP_CHTIM_t_min n) * tMs)
    && (!a.on (Reg.TRP_CHCFG_seal_en n) || a.lowFor n)

/-- The channel opens. -/
def App.chOpen (a : App) (n : Nat) : App :=
  (a.setB (Reg.TRP_CHSTAT_on n) false).onCh n fun c => { c with noCurrent := false, tested := false, hotAt := none }

/-- The row of a channel as it takes it from now on: asserted it makes the channel conduct, unless an overload is latched or
TSP is lost, and counts an operation (R23, R253, R254). -/
def App.chRow (a : App) (n : Nat) (row : Bool) : App :=
  let c := vat a.trp.ch n
  let a := if row == c.row then a else a.onCh n fun c => { c with row := row, offAt := if row then c.offAt else a.tick }
  if row && !a.on (Reg.TRP_CHSTAT_on n) && !c.overload && !c.tspLost then
    ((a.setB (Reg.TRP_CHSTAT_on n) true).wrapAdd (Reg.TRP_CHCNT_ops n) 1).onCh n fun c =>
      { c with onAt := a.tick, noCurrent := false, tested := false }
  else if a.mayOpen n then a.chOpen n
  else a

/-- What a channel takes of its row at a scan: nothing without its permits, and of a test-linked row only with its
test_trip bit; silent clears when the channel is permitted again (R255, R606, R609). -/
def App.chScan (a : App) (n : Nat) : App :=
  let c := vat a.trp.ch n
  let permit := a.tripPermit && a.on (Reg.TRP_CHCFG_en n) && c.logicUp
  let a := if permit then a.setB (Reg.TRP_CHSTAT_silent n) false else a
  let linked := bitOf a.trp.linked n && !bitOf (a.get Reg.GLB_MODE_test_trip) n
  a.chRow n (permit && bitOf a.trp.rows n && !linked)

/-- TRIP_OVERLOAD (R252): above 4.4 A for 200 ms opens the switch and latches overload. -/
def execTripOverload (ch : Fin 8) (s : State) : Outcome State Fault Refusal :=
  s.onIsland fun a =>
    match (vat a.trp.ch ch).hotAt with
    | some t => if a.on (Reg.TRP_CHSTAT_on ch) && a.since t (200 * tMs) then
        (a.chOpen ch).onCh ch fun c => { c with overload := true } else a
    | none => a

/-- SEAL_IN_RELEASE (R253). -/
def execSealInRelease (ch : Fin 8) (s : State) : Outcome State Fault Refusal :=
  s.onIsland fun a => if a.mayOpen ch then a.chOpen ch else a

/-- SEAL_TIMEOUT (R253): at seal_max from the deassertion of the row a channel that still seals in opens and sets
seal_timeout. -/
def execSealTimeout (ch : Fin 8) (s : State) : Outcome State Fault Refusal :=
  s.onIsland fun a =>
    let c := vat a.trp.ch ch
    if a.on (Reg.TRP_CHSTAT_on ch) && !c.row && a.on (Reg.TRP_CHCFG_seal_en ch) && !a.lowFor ch
        && a.since c.onAt (a.get (Reg.TRP_CHTIM_t_min ch) * tMs)
        && a.since c.offAt (a.get (Reg.TRP_CHTIM_seal_max ch) * 100 * tMs) then
      (a.chOpen ch).raise (Reg.TRP_CHSTAT_seal_timeout ch)
    else a

/-- TRIP_LOGIC_SILENT (R255): no heartbeat for 50 µs; the row is taken as deasserted. -/
def execTripLogicSilent (ch : Fin 8) (s : State) : Outcome State Fault Refusal :=
  s.onIsland fun a =>
    if (vat a.trp.ch ch).logicUp then
      ((a.onCh ch fun c => { c with logicUp := false }).setB (Reg.TRP_CHSTAT_silent ch) true).chRow ch false
    else a

/-- TRIP_LOGIC_RETURN (R255): the heartbeat is back; the channel follows its row again once it is permitted. -/
def execTripLogicReturn (ch : Fin 8) (s : State) : Outcome State Fault Refusal :=
  s.onApp fun a => a.onCh ch fun c => { c with logicUp := true }

/-- CLEAR_TRIP_FAULT (R252). -/
def opClearTripFault (channel : Byte) (a : App) : App × Reply :=
  (a.onCh channel.toNat fun c => { c with overload := false }, .final Status.ok [])

/-- CLEAR_TRIP_FAULT (R252). -/
def execClearTripFault (h : CmdHdr) (channel : Byte) (s : State) : Outcome State Fault Refusal :=
  s.onApp fun a => a.process h (.clearTripFault channel) (firstFail [(0, channel.toNat ≤ 7)]) [] (opClearTripFault channel)

/-! ### Supervision (R258, R259) -/

/-- The row of R258 that applies, as its diagnosis code, for a current in µA, a switch voltage in percent and a TSP
voltage in mV. -/
def App.tcsCond (a : App) (n iOut vSw tsp : Nat) : Nat :=
  let c := vat a.trp.ch n
  let on := a.on (Reg.TRP_CHSTAT_on n)
  let measure := a.on (Reg.TRP_CHCFG_tcs_role n)
  let wiring := a.get (Reg.TRP_CHCFG_wiring n)
  let inject := if measure then 0 else 1500
  if tsp < 16000 then 1
  else if c.overload then 2
  else if !a.on (Reg.TRP_CHCFG_tcs_en n) then 0
  else if !on then
    if inject + 5000 < iOut then 3
    else if wiring = 1 ∧ vSw < 10 then 4
    else if !measure ∧ iOut < 1000 ∧ !a.input (a.get (Reg.TRP_CHCFG_tcs_blk n)) then 5
    else if measure ∧ wiring = 2 ∧ vSw < 50 ∧ !a.input (a.get (Reg.TRP_CHCFG_tcs_blk n)) then 5
    else 0
  else if c.noCurrent then (if wiring = 2 then 7 else 6)
  else 0

/-- A diagnosis is reported, with its alarm input. -/
def App.tcsReport (a : App) (n diag : Nat) (alarm : Bool) : App :=
  (a.set (Reg.TRP_CHSTAT_diag n) diag).setInp (0x890 + n) alarm

/-- TCS_MEASUREMENT (R258): once a millisecond, the current in µA, the switch voltage in percent of TSP, and TSP in mV.
A current above 10 A is limited (R252). Healthy, no_current and partner_open are reported at once. Without TSP the switch has no
gate supply and opens (R23). -/
def execTcsMeasurement (ch : Fin 8) (iOut tsp : W32) (vSw : W16) (s : State) : Outcome State Fault Refusal :=
  s.onIsland fun a =>
    let due := match (vat a.trp.ch ch).measAt with
      | some t => a.since t tMs
      | none => true
    if due then
      let i := min iOut.toNat 10000000
      let low := i < 100000
      let on := a.on (Reg.TRP_CHSTAT_on ch)
      let a := a.onCh ch fun c =>
        let test := on && !c.tested && a.since c.onAt (2 * tMs)
        { c with measAt := some a.tick
                 tspLost := decide (tsp.toNat < 16000)
                 lowAt := if low then (if c.lowAt.isSome then c.lowAt else some a.tick) else none
                 hotAt := if 4400000 < i then (if c.hotAt.isSome then c.hotAt else some a.tick) else none
                 tested := c.tested || test
                 noCurrent := if test then low else c.noCurrent }
      let a := a.setB (Reg.TRP_CHSTAT_current ch) (!low)
      let a := a.set (Reg.TRP_CHSTAT_i_out ch) (min 65535 (i / 1000))
      let a := a.set (Reg.TRP_CHSTAT_v_sw ch) (min 255 vSw.toNat)
      let a := a.setInp (0x898 + ch) (!low)
      let cond := a.tcsCond ch i vSw.toNat tsp.toNat
      let a := a.onCh ch fun c => { c with cond := cond, condAt := if c.cond = cond then c.condAt else a.tick }
      let a := if tsp.toNat < 16000 ∧ a.on (Reg.TRP_CHSTAT_on ch) = true then a.chOpen ch else a
      if cond = 0 then a.tcsReport ch 0 false
      else if cond = 6 ∨ cond = 7 then a.tcsReport ch cond true
      else a
    else a

/-- TCS_DIAGNOSIS (R258): a condition has persisted for tcs_time; the alarm of ext_conduct waits for the longer of
tcs_time and twice seal_max. -/
def execTcsDiagnosis (ch : Fin 8) (s : State) : Outcome State Fault Refusal :=
  s.onApp fun a =>
    let c := vat a.trp.ch ch
    let t := a.get (Reg.TRP_CHTIM_tcs_time ch) * 100 * tMs
    if inR 1 5 c.cond && a.since c.condAt t then
      if c.cond = 4 ∧ !a.since c.condAt (max t (2 * a.get (Reg.TRP_CHTIM_seal_max ch) * 100 * tMs)) then
        a.tcsReport ch 4 false
      else a.tcsReport ch c.cond true
    else a

/-! ### Breaker controllers (R260 to R268) -/

/-- A change to the operation of a bay. -/
def App.onOp (a : App) (b : Nat) (f : BrkOp → BrkOp) : App :=
  a.onTrp fun t => { t with ops := vup t.ops b (·.map f) }

/-- The first angle compare unit of a bay that is free: neither enabled nor owned (R105). -/
def App.freeUnit (a : App) (b : Nat) : Option Nat :=
  (upto 8).find? (fun u => u != 0 && !a.on (Reg.ANG_CMP_CTL_en b u) && !a.on (Reg.ANG_CMP_CTL_own b u))

/-- The supervisor writes an angle compare unit and sets its own bit (R105). -/
def App.takeUnit (a : App) (b u tgt per dest idx : Nat) (next : Bool) : App :=
  let a := a.set (Reg.ANG_CMP_TGT_tgt b u) tgt
  let a := a.set (Reg.ANG_CMP_PER_period_au b u) per
  let a := a.set (Reg.ANG_CMP_CTL_dest b u) dest
  let a := a.set (Reg.ANG_CMP_CTL_dest_index b u) idx
  let a := a.setB (Reg.ANG_CMP_CTL_next b u) next
  let a := a.setB (Reg.ANG_CMP_CTL_own b u) true
  let a := a.setB (Reg.ANG_CMP_CTL_en b u) true
  a.onClk b fun c => { c with served := vput c.served u false, lateReq := vput c.lateReq u none, defer := vput c.defer u []
                              nextFrom := vput c.nextFrom u (if next then some (a.a48 b) else none) }

/-- The supervisor releases a unit, clearing en, dest and own (R105). -/
def App.freeUnitOf (a : App) (b u : Nat) : App :=
  ((a.setB (Reg.ANG_CMP_CTL_en b u) false).set (Reg.ANG_CMP_CTL_dest b u) 0).setB (Reg.ANG_CMP_CTL_own b u) false

/-- The full-cycle fundamental angle of a channel at the latest tick, from an engine that runs (R263). -/
def App.refAngle (a : App) (b ch : Nat) : Nat :=
  let e := if a.engUp 0 then 0 else 1
  ((vat (vat a.slu.eng e).bays b).chan false ch).1.ang

/-- The firing point of R263 as the target of the compare unit and the fine wait in ns. Angles are counted in
10,000 × 2^32 parts of an au, in which the lead is whole. -/
def App.firingPoint (a : App) (b target t16 : Nat) (phi : Nat) : Nat × Nat :=
  let d := 10000 * 2 ^ 32
  let w := (vat a.clk b).word
  let cyc := 65536 * d
  let ae := (phi + target + 65536 - 16384) % 65536
  let lead := (t16 + 320) * w * 144
  let fire := (ae * d + cyc - lead % cyc) % cyc
  let early := a.angleFx b * 10000 + w * 2304000
  let base := early / cyc * cyc + fire
  let point := if base < early then base + cyc else base
  let tgt := point / d
  let fine := if w = 0 then 0 else ((2 * (point % d) * 125 + 4 * 288 * w) / (2 * 4 * 288 * w)) * 4
  (tgt % 2 ^ 48, fine)

/-- Whether a row is direct for the output `i`: one of rows 0 to 7 with that output as its only enabled term, not
inverted (R260). -/
def App.isDirect (a : App) (r i : Nat) : Bool := a.rowTerms r == [(i, false)]

/-- The first trip row of a bay that is asserted (R260, R262). -/
def App.tripRow (a : App) (b : Nat) : Option Nat :=
  (upto 8).find? (fun r => bitOf (a.get (Reg.TRP_BKCFG_trip_rows b)) r && bitOf a.trp.rows r)

/-- A command to a breaker controller: refused with a status and its detail, or accepted (R260, R263). -/
def App.brkAccept (a : App) (cmd : Option CmdHdr) (b : Nat) (open_ pow : Bool) (target : Nat) : App × Option (Nat × Nat) :=
  let row := if open_ then a.get (Reg.TRP_BKCFG_open_row b) else a.get (Reg.TRP_BKCFG_close_row b)
  let o : BrkOp := { cmd := cmd, open_ := open_, pow := pow, target := target, phase := .due }
  let start := fun (a : App) (o : BrkOp) =>
    ((a.onTrp fun t => { t with ops := vput t.ops b (some o) }).setInp (0x883 + 4 * b) false).setInp (0x882 + 4 * b) true
  if !a.on (Reg.TRP_BKCFG_en b) then (a, some (Status.disabled, b))
  else if (vat a.trp.ops b).isSome then (a, some (Status.busy, 0))
  else
    match (if open_ then none else a.tripRow b) with
    | some r => (a, some (Status.tripActive, r))
    | none =>
      if pow ∧ !lockedAq (a.aq b) then (a, some (Status.noLock, a.aq b))
      else if !a.isDirect row (0x880 + 4 * b + open_.toNat) then (a, some (Status.notDirect, row))
      else if pow then
        match a.freeUnit b with
        | none => (a, some (Status.noUnit, 0))
        | some u =>
          let (tgt, fine) := a.firingPoint b target (a.get (Reg.TRP_BKTOP_t_op b open_.toNat)) (a.refAngle b (a.get (Reg.TRP_BKCFG_ref_ch b)))
          ((start a { o with phase := .sched u, fine := fine }).takeUnit b u tgt 0 2 open_.toNat false, none)
      else (start a o, none)

/-- The effect of BREAKER_CLOSE and BREAKER_OPEN: final when the operation ends (R260, R500). -/
def opBreaker (h : CmdHdr) (open_ : Bool) (bay mode : Byte) (target : W16) (a : App) : App × Reply :=
  match a.brkAccept (some h) bay.toNat open_ (mode == 1#8) target.toNat with
  | (a, some (st, d)) => (a, .final st (le 4 d))
  | (a, none) => (a, .later)

/-- The 32-byte breaker record (R268). -/
def brkRecord (b status flags tq exec execA tMeas tOp seq : Nat) (o : BrkOp) : List Byte :=
  le 1 (b + 4 * o.open_.toNat + 8 * o.pow.toNat) ++ le 1 status ++ le 1 flags ++ le 1 tq ++ le 8 exec ++ le 6 execA
    ++ le 2 o.target ++ le 4 tMeas ++ le 4 tOp ++ le 4 seq

/-- The limits of a bay's learned times, in 1/16 µs (R267, R270). -/
def App.topLimits (a : App) (b : Nat) : Nat × Nat :=
  (a.get (Reg.TRP_BKLIM_t_op_min b) * 160, a.get (Reg.TRP_BKLIM_t_op_max b) * 160)

/-- The rows of R267 for a measured time in 1/16 µs; the flag byte of the record that results. -/
def App.learn (a : App) (b : Nat) (op : Nat) (tMeas : Nat) : App × Nat :=
  let t := a.get (Reg.TRP_BKTOP_t_op b op)
  let e : Int := (tMeas : Int) - t
  if a.get (Reg.TRP_BKLRN_learn_reject b) * 1600 < e.natAbs then
    let r := a.get (Reg.TRP_BKTOP_rejects b op)
    let a := a.satAdd (Reg.TRP_BKTOP_rejects b op) 1
    if r = 2 then ((a.setB (Reg.TRP_BKTOP_learn_alarm b op) true).record 0x0032 b op 0 0, 4) else (a, 4)
  else
    let step : Int := a.get (Reg.TRP_BKLRN_learn_step b) * 160
    let (lo, hi) := a.topLimits b
    let d := max (-step) (min step (divRound e 4))
    let t' := max lo (min hi ((t : Int) + d).toNat)
    ((a.set (Reg.TRP_BKTOP_t_op b op) t').set (Reg.TRP_BKTOP_rejects b op) 0, 8)

/-- Whether an operation of a bay is learned from: point-on-wave, executed as scheduled, and aq 3 or 4 from acceptance to
the onset (R265). -/
def App.learns (a : App) (b : Nat) (o : BrkOp) (onset : Nat) : Bool :=
  o.pow && !o.powLost && (if o.open_ then a.on (Reg.TRP_BKCFG_learn_en_o b) else a.on (Reg.TRP_BKCFG_learn_en_c b))
    && (match o.lostAt with
        | none => true
        | some t => decide (onset < t))

/-- The end of an operation: status 0 done, 1 failed, 2 SUPERSEDED, 3 LOST_LOCK. Learning, the record as a class-2 event,
the outputs of the controller, and the final completion of a host command (R262, R265, R267, R268). -/
def App.brkEnd (a : App) (b : Nat) (o : BrkOp) (status detail : Nat) : App :=
  let op := o.open_.toNat
  let a := a.onTrp fun t => { t with ops := vput t.ops b none }
  let a := match o.phase with
    | .sched u => a.freeUnitOf b u
    | _ => a
  let a := ((a.setInp (0x880 + 4 * b + op) false).setInp (0x882 + 4 * b) false)
  let ran := match o.phase with
    | .done _ => true
    | _ => false
  let (exec, tq, execA) := if ran then o.exec else (a.w64, a.tqc, a.a48 b)
  let (a, tMeas, fl) :=
    if !ran || 2 ≤ status then (a, 0xFFFFFFFF, 0)
    else
      match o.onset with
      | some (some t) =>
        let m := ((t - (exec + 20000)) * 16 + 500) / 1000
        if a.learns b o t then (let (a, f) := a.learn b op m; (a, m, f)) else (a, m, 0)
      | _ => (a, 0xFFFFFFFF, 2)
  let n := a.trp.seq + 1
  let a := a.onTrp fun t => { t with seq := n }
  let rec_ := brkRecord b status (o.powLost.toNat + fl) tq exec execA tMeas (a.get (Reg.TRP_BKTOP_t_op b op)) n.toNat o
  let a := a.post 2 rec_
  match o.cmd with
  | none => a
  | some h =>
    let st := match status with
      | 0 => Status.ok
      | 1 => Status.failed
      | 2 => Status.superseded
      | _ => Status.lostLock
    a.finish h (0x0301 + op) st 0 (if status ≤ 1 then rec_ else le 4 detail) false

/-- An operation ends once its output has ended, its position is no longer awaited, and its onset search has ended. -/
def App.brkSettle (a : App) (b : Nat) : App :=
  match vat a.trp.ops b with
  | some o =>
    let ran := match o.phase with
      | .done _ => true
      | _ => false
    let pos := a.get (Reg.TRP_BKTIM_pos_idx b) == 0xFFF || o.shownAt.isSome || o.failed
    if ran && !o.out && pos && o.onset.isSome then a.brkEnd b o o.failed.toNat 0 else a
  | none => a

/-- Whether the position input shows the new position of an operation (R261). -/
def App.posShown (a : App) (b : Nat) (o : BrkOp) : Bool :=
  a.get (Reg.TRP_BKTIM_pos_idx b) != 0xFFF && a.input (a.get (Reg.TRP_BKTIM_pos_idx b)) == !o.open_

/-- The first instant at or after the execution at which the position shows (R261). -/
def App.brkPosition (a : App) (b : Nat) : App :=
  a.onOp b fun o =>
    match o.phase with
    | .done _ => if o.shownAt.isNone && !o.failed && a.posShown b o then { o with shownAt := some a.tick } else o
    | _ => o

/-- The execution instant of an operation (R261). -/
def App.brkExecute (a : App) (b : Nat) : App :=
  match vat a.trp.ops b with
  | some o =>
    let a := a.onOp b fun o => { o with phase := .done a.tick, exec := (a.w64, a.tqc, a.a48 b), out := true }
    let a := a.onTrp fun t => { t with execs := vup t.execs b (fun l => (a.w64 :: l).take 8) }
    let a := match o.cmd with
      | some h => a.effected h
      | none => a
    (a.setInp (0x880 + 4 * b + o.open_.toNat) true).brkPosition b
  | none => a

/-- What a matrix scan does to the operation of a bay: a trip row that asserts supersedes a close, an immediate operation
executes, and the position is read (R261, R262). -/
def App.brkScan (a : App) (b : Nat) : App :=
  match vat a.trp.ops b with
  | none => a
  | some o =>
    let before := match o.phase with
      | .done _ => false
      | _ => true
    match (if o.open_ || !(before || o.out) then none else a.tripRow b) with
    | some r => a.brkEnd b o 2 r
    | none =>
      match o.phase with
      | .due => a.brkExecute b
      | .done _ => (a.brkPosition b).brkSettle b
      | _ => a

/-- The compare unit of an operation fires: the unit is released, and a late firing or an aq other than 3 or 4 is a loss
of lock (R105, R264). A firing with no operation to serve has no effect. -/
def App.brkFire (a : App) (b u : Nat) (late : Bool) : App :=
  match vat a.trp.ops b with
  | some o =>
    if o.phase = .sched u then
      let q := a.aq b
      (a.freeUnitOf b u).onOp b fun o => { o with phase := .fired a.tick (if late || !lockedAq q then some q else none) }
    else a
  | none => a

/-- BREAKER_CLOSE (R260). -/
def execBreakerClose (h : CmdHdr) (bay mode : Byte) (target : W16) (s : State) : Outcome State Fault Refusal :=
  s.onApp fun a => a.process h (.breakerClose bay mode target) (firstFail [(0, bay.toNat ≤ 3), (1, mode.toNat ≤ 1)]) [bay.toNat]
    (opBreaker h false bay mode target)

/-- BREAKER_OPEN (R260). -/
def execBreakerOpen (h : CmdHdr) (bay mode : Byte) (target : W16) (s : State) : Outcome State Fault Refusal :=
  s.onApp fun a => a.process h (.breakerOpen bay mode target) (firstFail [(0, bay.toNat ≤ 3), (1, mode.toNat ≤ 1)]) [bay.toNat]
    (opBreaker h true bay mode target)

/-- BREAKER_EXECUTION (R263, R264): fine_ns after the firing the output asserts; a loss of lock cancels the operation or,
with pow_fallback, executes it at once with pow_lost. -/
def execBreakerExecution (bay : Fin 4) (s : State) : Outcome State Fault Refusal :=
  s.onApp fun a =>
    match vat a.trp.ops bay with
    | some o =>
      match o.phase with
      | .fired t none => if a.since t (o.fine / 4) then a.brkExecute bay else a
      | .fired _ (some q) =>
        if a.on (Reg.TRP_BKCFG_pow_fallback bay) then (a.onOp bay fun o => { o with powLost := true }).brkExecute bay
        else a.brkEnd bay o 3 q
      | _ => a
    | none => a

/-- BREAKER_OUTPUT_END (R261): pulse_ms after the execution, or 20 ms after the position showed. -/
def execBreakerOutputEnd (bay : Fin 4) (s : State) : Outcome State Fault Refusal :=
  s.onApp fun a =>
    match vat a.trp.ops bay with
    | some o =>
      match o.phase with
      | .done t =>
        let shown := match o.shownAt with
          | some u => a.since u (20 * tMs)
          | none => false
        if o.out && (shown || a.since t (a.get (Reg.TRP_BKTIM_pulse_ms bay) * 2 * tMs)) then
          ((a.onOp bay fun o => { o with out := false }).setInp (0x880 + 4 * bay + o.open_.toNat) false).brkSettle bay
        else a
      | _ => a
    | none => a

/-- OP_TIMEOUT (R261): the position has not shown by op_timeout after the execution instant. -/
def execOpTimeout (bay : Fin 4) (s : State) : Outcome State Fault Refusal :=
  s.onApp fun a =>
    match vat a.trp.ops bay with
    | some o =>
      match o.phase with
      | .done t =>
        if a.get (Reg.TRP_BKTIM_pos_idx bay) ≠ 0xFFF ∧ o.shownAt = none ∧ o.failed = false
            ∧ a.since t (a.get (Reg.TRP_BKTIM_op_timeout bay) * tMs) then
          ((a.onOp bay fun o => { o with failed := true }).setInp (0x883 + 4 * bay) true).brkSettle bay
        else a
      | _ => a
    | none => a

/-- The distance of two angles with sub-au fraction, the shorter way round. -/
def angDist (x y : Nat) : Nat := let d := (x + 2 ^ 80 - y % 2 ^ 80) % 2 ^ 80; min d (2 ^ 80 - d)

/-- The frame at which a bay's clock stood nearest to an angle. -/
def nearestFrame (b ang : Nat) : List JetFrame → Option JetFrame
  | [] => none
  | f :: l =>
    match nearestFrame b ang l with
    | some g => if angDist (vat g.ang b) ang < angDist (vat f.ang b) ang then some g else some f
    | none => some f

/-- The stamp of a frame's word of a channel, ns (R163, R164). -/
def App.jetStamp (a : App) (b c : Nat) (f : JetFrame) : Nat := (f.edge - a.get (Reg.DEC_JDLY_dj b c) + 8) / 16

/-- The signed value of a Jet word (R12). -/
def jetValue (w : W16) : Int := asSigned 14 (w.toNat / 4)

/-- The channel of learn_mask whose word in a frame, stamped in [lo, hi), differs by more than learn_thr from the word one clock
cycle earlier (R266). -/
def App.onsetIn (a : App) (b lo hi : Nat) (before : List JetFrame) (f : JetFrame) : Option Nat :=
  match nearestFrame b (vat f.ang b + 2 ^ 80 - 65536 * 2 ^ 32) before with
  | none => none
  | some g => (upto 8).find? (fun c => bitOf (a.get (Reg.TRP_BKCFG_learn_mask b)) c
      && decide (lo ≤ a.jetStamp b c f) && decide (a.jetStamp b c f < hi)
      && decide (a.get (Reg.TRP_BKLRN_learn_thr b) < (jetValue (vat f.words (8 * b + c)) - jetValue (vat g.words (8 * b + c))).natAbs))

/-- The stamp of the first onset in a run of frames, latest first, within [lo, hi). -/
def App.onsetFind (a : App) (b lo hi : Nat) : List JetFrame → Option Nat
  | [] => none
  | f :: l =>
    match a.onsetFind b lo hi l with
    | some t => some t
    | none => (a.onsetIn b lo hi l f).map (fun c => a.jetStamp b c f)

/-- The first onset of an operation in the Jet ring, within op_timeout of the conduction instant (R266). -/
def App.onsetOf (a : App) (b : Nat) (o : BrkOp) : Option Nat :=
  let c := o.exec.1 + 20000
  a.onsetFind b c (c + a.get (Reg.TRP_BKTIM_op_timeout b) * 1000000) a.sig.ring

/-- ONSET_SEARCH_END (R266, R267): an onset was found, or none within op_timeout of the conduction instant. -/
def execOnsetSearchEnd (bay : Fin 4) (s : State) : Outcome State Fault Refusal :=
  s.onApp fun a =>
    match vat a.trp.ops bay with
    | some o =>
      match o.phase with
      | .done t =>
        if o.onset.isSome then a
        else
          match a.onsetOf bay o with
          | some x => (a.onOp bay fun o => { o with onset := some (some x) }).brkSettle bay
          | none =>
            if a.since t (5000 + a.get (Reg.TRP_BKTIM_op_timeout bay) * tMs) then
              (a.onOp bay fun o => { o with onset := some none }).brkSettle bay
            else a
      | _ => a
    | none => a

end Sys2Proof.Machine
end

