-- ==== Sys2Proof/Machine/Capture.lean ====
section
/-! DEFINITION. Stream rings, disturbance capture, trigger units and capture groups (R271 to R292, R483). -/

namespace Sys2Proof.Machine

open Host

/-- A change to the capture part. -/
def App.onCap (a : App) (f : CapSt → CapSt) : App := { a with cap := f a.cap }

/-- A change to a subscription of the stream. -/
def App.onSub (a : App) (s : Nat) (f : CapSub → CapSub) : App := a.onCap fun c => { c with subs := vup c.subs s f }

/-! ### Stream rings (R481 to R484) -/

/-- The free descriptors of a stream ring (R483). -/
def App.streamFree (a : App) (k s : Nat) : Nat := (vat (vat a.ctxs k).streamPost s - vat (vat a.ctxs k).streamW s).toNat

/-- The fill of a stream ring in percent (R483). -/
def App.streamFill (a : App) (k s : Nat) : Nat :=
  let n := a.ringSize k (3 + s)
  100 * (n - min n (a.streamFree k s)) / n

/-- Bytes 16 to 63 of a stream descriptor as the module hands it over, with own of its lap (R463, R482). -/
def App.streamEntry (a : App) (k s status len seq : Nat) : List Byte :=
  let i := (vat (vat a.ctxs k).streamW s).toNat
  let own := if i / a.ringSize k (3 + s) % 2 = 0 then 1 else 0
  le 1 own ++ le 1 status ++ le 2 0 ++ le 4 len ++ le 4 seq ++ le 4 0 ++ le 8 a.w64 ++ le 24 0

/-- The descriptor at the fill index is handed over, and the index advances. -/
def App.streamHand (a : App) (k s status len seq : Nat) : App :=
  let i := (vat (vat a.ctxs k).streamW s).toNat
  let at_ := a.get (Reg.HCX_RBASE_ring_base k (3 + s)) + 64 * (i % a.ringSize k (3 + s)) + 16
  let a := a.writeHost k (BitVec.ofNat 64 at_) (a.streamEntry k s status len seq)
  (a.onCtx k fun c => { c with streamW := vup c.streamW s (· + 1) }).raiseMsix k 2

/-- Write a block into a stream ring (R483): unreadable and small descriptors are consumed; whether the block was
written. A transfer that fails leaves the descriptor for the next block (R517). -/
def App.streamWrite (a : App) (k s seq : Nat) (data : List Byte) : List StreamDesc → App × Bool
  | [] => (a, false)
  | d :: rest =>
    if !a.ctxLive k || a.streamFree k s = 0 then (a, false)
    else if !d.readable then (a.streamHand k s 1 0 seq).streamWrite k s seq data rest
    else if d.len.toNat < a.get (Reg.HCX_RCFG_buf_kib k (3 + s)) * 1024 || d.len.toNat < data.length then
      (a.streamHand k s 2 0 seq).streamWrite k s seq data rest
    else if !d.done then (a, false)
    else ((a.writeHost k d.addr data).streamHand k s 0 data.length seq, true)

/-! ### Frames and their instants (R272 to R276) -/

/-- The averager length N of the Pool path (R159). -/
def App.navg (a : App) : Nat := a.get Reg.DEC_AVG_navg + 1

/-- Half modulator periods in a second. -/
def halfMods : Nat := 29491200

/-- Half modulator periods in 1/16 ns, to the nearest. -/
def hm16 (x : Nat) : Nat := (2 * x * 16000000000 + halfMods) / (2 * halfMods)

/-- The delay D_ref of averager length `n`, in half modulator periods: Dp with ta 0 and K_pool 5 (R163, R272). -/
def drefHm (n : Nat) : Nat := 64 * n + 253

/-- The frame instant t_f of a window in 1/16 ns: the wall time of its newest edge less D_ref (R272). -/
def PoolRow.t16 (r : PoolRow) : Nat := r.edge - hm16 (drefHm r.navg)

/-- An instant in 1/16 ns to the nearest ns. -/
def ns16 (t : Nat) : Nat := (t + 8) / 16

/-- How far the wall time of a window's newest edge was from the modulator's own scale, in 1/16 ns (R152). -/
def PoolRow.lag (r : PoolRow) : Int := (r.edge : Int) - hm16 (128 * r.navg * (r.no + 1) - 2)

/-- The frame of averager length `n` whose window [t_f − T/2, t_f + T/2) contains an instant in ns, by the modulator's scale: frame f
spans from 128 N f − 255 half periods on (R272). -/
def frameNo (n t : Nat) (lag : Int) : Nat := ((16 * (t : Int) - lag).toNat * halfMods / 16000000000 + 255) / (128 * n)

/-- Whether the frame window of an averager window contains an instant in ns. -/
def PoolRow.holds (r : PoolRow) (t : Nat) : Bool := frameNo r.navg t r.lag == r.no

/-- The frame that contains an instant of step count `tsc` (R272, R279): that of a window at hand, else as the modulator's scale
stands now. -/
def App.frameOf (a : App) (t tsc : Nat) : Nat :=
  match a.sig.rows.find? (fun r => r.tsc == tsc && r.holds t) with
  | some r => r.no
  | none => frameNo a.navg t a.modLag16

/-- Whether a matrix input was asserted in a scan whose instant lies in the window of a frame (R274). -/
def App.assertedIn (a : App) (i : Nat) (r : PoolRow) : Bool := a.cap.scans.any (fun x => r.holds x.at_ && x.set.contains i)

/-- Digital word k of a frame (R274). -/
def App.digWord (a : App) (r : PoolRow) (k : Nat) : W32 :=
  BitVec.ofNat 32 (bitsNat 32 (fun j => a.assertedIn (32 * a.get (Reg.CAP_DSEL_sel k) + j) r))

/-- The two mirror samples that bracket an instant, the earlier first. -/
def bracket (t : Nat) : List MirrorSample → Option (MirrorSample × MirrorSample)
  | y :: x :: rest => if x.t ≤ t ∧ t ≤ y.t then some (x, y) else bracket t (x :: rest)
  | _ => none

/-- One cis word between two mirror words (R275). -/
def cisWord (x y : W32) (t t0 t1 : Nat) : W32 :=
  let d := t1 - t0
  let v := if d = 0 then wordValue x else wordValue x + divRound ((wordValue y - wordValue x) * (t - t0)) d
  let b := BitVec.ofInt 24 v
  sampleWord b (wordOvr x || wordOvr y) (atFullScale b) false false false (worseQual (wordQual x) (wordQual y))

/-- The lag of the cis words in frames of averager length `n` (R275). -/
def cisLag (n : Nat) : Nat := 16 * ((230400 / n + 159) / 160)

/-- Whether the mirror is silent: no sample for 150 ms (R275, R293). -/
def App.mirrorSilent (a : App) : Bool :=
  match a.cap.mirrorAt with
  | some t => a.since t (150 * tMs)
  | none => true

/-- The cis words of a frame (R275). -/
def App.cisWords (a : App) (r : PoolRow) : List W32 :=
  let none_ := List.replicate 8 2#32
  if !a.on Reg.CAP_CTL_cis_mirror || a.mirrorSilent then none_
  else
    let t := ns16 (r.t16 - hm16 (128 * r.navg * cisLag r.navg))
    match bracket t a.cap.mirror with
    | some (x, y) => (upto 8).map (fun i => cisWord (x.words.getD i 2) (y.words.getD i 2) t x.t y.t)
    | none => none_

/-! ### Rate reduction (R286) -/

/-- The mean of words as one reduced word. -/
def reduceWord (r : Nat) (l : List W32) : W32 :=
  let sum : Int := l.foldl (fun s w => s + wordValue w) 0
  let b := BitVec.ofInt 24 ((sum + ((2 ^ r / 2 : Nat) : Int)) / (2 ^ r : Nat))
  if r = 0 then l.headD 0
  else sampleWord b (l.any wordOvr) (atFullScale b) (l.any wordFlt) (l.any wordSub) (l.any wordHold)
        (l.foldl (fun q w => worseQual q (wordQual w)) 0)

/-- A reduced frame of base frames. -/
def reduceFrame (r : Nat) (l : List CapFrame) : CapFrame :=
  let f := l.headD default
  { f with
    t := f.t + hm16 (64 * f.navg * (2 ^ r - 1))
    bay := (upto 32).map (fun i => reduceWord r (l.map (fun x => x.bay.getD i 0)))
    cis := (upto 8).map (fun i => reduceWord r (l.map (fun x => x.cis.getD i 0)))
    dig := (upto 64).map (fun i => l.foldl (fun w x => w ||| x.dig.getD i 0) 0) }

/-! ### Marks (R278, R279) -/

/-- Whether the frame of a mark is frame `last` of step count `tsc` or an earlier one; frames are ordered by tsc first (R277). -/
def Mark.upTo (m : Mark) (tsc last : Nat) : Bool :=
  if m.tsc = tsc then decide (m.frame ≤ last) else decide ((tsc + 256 - m.tsc) % 256 < 128)

/-- Insert a mark into every subscription that is enabled; late where its block has been written, or dropped, already. -/
def App.insertMark (a : App) (m : Mark) : App :=
  let isLate := fun (c : CapSub) => match c.written with
    | some w => m.upTo w.1 w.2
    | none => false
  let late := (upto 8).any (fun s => (vat a.cap.subs s).on && isLate (vat a.cap.subs s))
  let a := if late then a.satAdd Reg.CAP_STAT_late_marks 1 else a
  (upto 8).foldl (fun a s => if (vat a.cap.subs s).on then
      a.onSub s fun c => { c with marks := c.marks ++ [{ m with late := isLate c }] } else a) a

/-- A mark of the module's own at an instant, with tq and tsc there. -/
def App.ownMark (a : App) (kind src instant tq tsc param aq : Nat) : Mark :=
  { kind := kind, src := src, tq := tq, frame := a.frameOf instant tsc, instant := instant % 2 ^ 64, node := a.node, param := param, aq := aq, tsc := tsc }

/-- A mark of the first frame affected (R278). -/
def App.frameMark (a : App) (kind param : Nat) (f : CapFrame) : Mark :=
  { kind := kind, tq := f.tq, frame := f.no, instant := ns16 f.t % 2 ^ 64, node := a.node, param := param, tsc := f.tsc }

/-- The order of marks in a block: instant, kind, src (R279). -/
def Mark.before (x y : Mark) : Bool :=
  decide (x.instant < y.instant) || (x.instant == y.instant && (decide (x.kind < y.kind) || (x.kind == y.kind && decide (x.src < y.src))))

/-- Insertion in that order, after equals. -/
def insertMarkBy (m : Mark) : List Mark → List Mark
  | [] => [m]
  | x :: t => if m.before x then m :: x :: t else x :: insertMarkBy m t

/-- The 32 bytes of a mark record (R278). -/
def Mark.bytes (m : Mark) : List Byte :=
  le 1 m.kind ++ le 1 m.src ++ le 1 (m.late.toNat + 2 * m.deferred.toNat) ++ le 1 m.tq ++ le 8 m.frame ++ le 8 m.instant ++ le 2 m.node
    ++ le 2 m.group ++ le 4 m.param ++ le 1 m.aq ++ le 1 m.tsc ++ le 2 0

/-! ### Blocks (R277, R285) -/

/-- The context and ring of a subscription. -/
def App.subCtx (a : App) (s : Nat) : Nat := 4 * a.get (Reg.CAP_SUB_port s) + a.get (Reg.CAP_SUB_ctx s)

/-- The header, marks and frames of a block. -/
def App.blockBytes (a : App) (s : Nat) (c : CapSub) (marks : List Mark) : List Byte :=
  let r := a.get (Reg.CAP_SUBSTAT_div s)
  let f := c.frames.headD default
  let period := 2 ^ r * f.navg * 1000000000 * 2 ^ 32 / 230400
  let flags := a.get Reg.CAP_CTL_cis_mirror + 2 * c.gapAt.isSome.toNat + 4 * c.first.toNat
  le 1 1 ++ le 1 r ++ le 1 c.frames.length ++ le 1 marks.length ++ le 4 c.seq.toNat ++ le 8 c.frame0 ++ le 8 (ns16 f.t) ++ le 8 period
    ++ le 1 f.tq ++ le 1 f.tsc ++ le 1 flags ++ le 1 (f.navg - 1) ++ le 2 (cisLag f.navg / 16) ++ le 2 0 ++ le 4 c.dropped ++ le 20 0
    ++ marks.flatMap Mark.bytes
    ++ c.frames.flatMap (fun f => (f.bay ++ f.cis ++ f.dig).flatMap (fun w => le 4 w.toNat))

/-- The rows of R285 after a block: halving, recovery, or neither. -/
def App.rateRules (a : App) (s : Nat) : App :=
  let r := a.get (Reg.CAP_SUBSTAT_div s)
  let c := vat a.cap.subs s
  let fill := a.streamFill c.ctx c.ring
  let low := fill < a.get (Reg.CAP_SUB_lo s)
  if a.get (Reg.CAP_SUB_hi s) ≤ fill ∧ r < 4 ∧ a.since c.since (100 * tMs) then a.onSub s fun c => { c with next := some (r + 1), lowSince := none }
  else if !low then a.onSub s fun c => { c with lowSince := none }
  else
    match c.lowSince with
    | none => a.onSub s fun c => { c with lowSince := some a.tick }
    | some t => if a.since t tS then a.onSub s fun c => { c with next := if r = 0 then none else some (r - 1), lowSince := none } else a

/-- The block in progress is written, or dropped when it cannot be (R277, R279, R285). -/
def App.endBlock (a : App) (s : Nat) (descs : List StreamDesc) : App :=
  let c := vat a.cap.subs s
  if c.frames = [] then a
  else
    let f := c.frames.headD default
    let gap := match c.gapAt with
      | some m => [{ m with param := c.dropped % 2 ^ 32 }]
      | none => []
    let ready := (c.marks.filter (·.upTo f.tsc c.last) ++ gap).foldl (fun l m => insertMarkBy m l) []
    let later := c.marks.filter (fun m => !m.upTo f.tsc c.last)
    let now_ := ready.take 16
    let rest := (ready.drop 16).map (fun m => { m with deferred := true })
    let (a', ok) := a.streamWrite c.ctx c.ring c.seq.toNat (a.blockBytes s c now_) descs
    if ok then
      (a'.onSub s fun c => { c with frames := [], first := false, marks := rest ++ later, written := some (f.tsc, c.last), seq := c.seq + 1
                                    dropped := 0, gapAt := none }).rateRules s
    else
      let n := c.last + 1 - c.frame0
      let r := a.get (Reg.CAP_SUBSTAT_div s)
      (a'.onSub s fun c => { c with frames := [], marks := (c.marks.filter (·.upTo f.tsc c.last)).map (fun m => { m with late := true }) ++ later
                                    written := some (f.tsc, c.last), dropped := c.dropped + n, gapAt := c.gapAt.or (some (a.frameMark 5 0 { f with no := c.frame0 }))
                                    next := if r < 4 then some (r + 1) else none, lowSince := none }).satAdd (Reg.CAP_SUBSTAT_dropped s) n

/-- The base frames of an unfinished reduced frame are dropped at an early end. -/
def App.dropGroup (a : App) (s : Nat) : App :=
  let g := (vat a.cap.subs s).group
  (a.onSub s fun c => { c with group := [], dropped := c.dropped + g.length
                               gapAt := if g = [] then c.gapAt else c.gapAt.or (some (a.frameMark 5 0 (g.headD default))) }).satAdd (Reg.CAP_SUBSTAT_dropped s) g.length

/-- A subscription takes a base frame: a pending factor takes effect where its number allows, and the block ends when
it holds 32 frames (R277, R286). -/
def App.subFrame (a : App) (s : Nat) (f : CapFrame) (descs : List StreamDesc) : App :=
  let c := vat a.cap.subs s
  let a := match c.next with
    | some r =>
      if f.no % 2 ^ r = 0 ∧ c.group = [] then
        let a := a.endBlock s descs
        let a := a.set (Reg.CAP_SUBSTAT_div s) r
        a.onSub s fun c => { c with next := none, since := a.tick
                                    marks := c.marks ++ [a.frameMark 2 (r + 256 * r) f] }
      else a
    | none => a
  let r := a.get (Reg.CAP_SUBSTAT_div s)
  if (vat a.cap.subs s).group = [] ∧ f.no % 2 ^ r ≠ 0 then
    (a.onSub s fun c => { c with dropped := c.dropped + 1, gapAt := c.gapAt.or (some (a.frameMark 5 0 f)) }).satAdd (Reg.CAP_SUBSTAT_dropped s) 1
  else
    let g := (vat a.cap.subs s).group ++ [f]
    if g.length = 2 ^ r then
      let x := reduceFrame r g
      let a := a.onSub s fun c => { c with group := [], frame0 := if c.frames = [] then x.no else c.frame0, last := f.no, frames := c.frames ++ [x] }
      if (vat a.cap.subs s).frames.length = 32 then a.endBlock s descs else a
    else a.onSub s fun c => { c with group := g }

/-- An early end of the blocks of every subscription that is enabled (R277). -/
def App.breakBlocks (a : App) (descs : Nat → List StreamDesc) : App :=
  (upto 8).foldl (fun a s => if (vat a.cap.subs s).on then (a.endBlock s (descs s)).dropGroup s else a) a

/-- A mark of the first frame affected for every subscription that is enabled (R278). -/
def App.markAll (a : App) (kind : Nat) (f : CapFrame) : App :=
  (upto 8).foldl (fun a s => if (vat a.cap.subs s).on then a.onSub s fun c => { c with marks := c.marks ++ [a.frameMark kind 0 f] } else a) a

/-- The block in progress of a subscription that has been disabled is written (R277). -/
def App.subClose (a : App) (s : Nat) (descs : List StreamDesc) : App :=
  if (vat a.cap.subs s).closing then (a.endBlock s descs).onSub s fun c => { ({} : CapSub) with seq := c.seq } else a

/-- A subscription is enabled: its first block carries a kind-7 mark, and its factor starts at 1 (R285, R293). -/
def App.subStart (a : App) (s : Nat) : App :=
  (a.set (Reg.CAP_SUBSTAT_div s) 0).onSub s fun c =>
    { ({} : CapSub) with on := true, ctx := a.subCtx s, ring := a.get (Reg.CAP_SUB_ring s), seq := c.seq, since := a.tick }

/-- A subscription is disabled: its block ends, and is written with the next frame or the next call for one (R277). -/
def App.subStop (a : App) (s : Nat) : App := a.onSub s fun c => { c with on := false, closing := true }

/-- A subscription that waits for its first frame gets its kind-7 mark with it. -/
def App.subFirst (a : App) (s : Nat) (f : CapFrame) : App :=
  let c := vat a.cap.subs s
  if c.on && c.first && c.frames.isEmpty && c.group.isEmpty && !c.marks.any (fun m => m.kind == 7) then
    a.onSub s fun c => { c with marks := c.marks ++ [a.frameMark 7 s f] }
  else a

/-- Whether wall time has reached t_f + H for a window (R276). After a step the horizon of a frame from before it is counted by the
modulator, as wall time passed it at once or may not reach it for long (DESIGN CHOICE, log entry 192). -/
def App.frameDue (a : App) (r : PoolRow) : Bool :=
  if r.tsc = a.tsc then decide (r.t16 + 800000000 ≤ a.now16)
  else decide (800000000 ≤ (a.sig.periods - r.per) * 16000000000 / 230400 + hm16 (drefHm r.navg))

/-- The window whose frame is released next: the earliest one of those kept that the capture engine makes a frame of and has not
released (R271, R276). -/
def App.nextFrame (a : App) : Option PoolRow :=
  (a.sig.rows.filter (fun r => r.cap && (match a.cap.last with
    | some p => decide (p < r.per)
    | none => true))).getLast?

/-- The frame of a window (R273 to R275). -/
def App.frameFrom (a : App) (r : PoolRow) : CapFrame :=
  { no := r.no, t := r.t16, tq := r.tq, tsc := r.tsc, navg := r.navg, bay := r.words.toList, cis := a.cisWords r
    dig := (upto 64).map (a.digWord r) }

/-- A frame is released to the subscriptions. Blocks end early before the first frame after a DEC_ change or a step, and before one
that does not follow the last frame, as after a pause of the engine (R277; the last is a DESIGN CHOICE, log entry 193). -/
def App.frameOut (a : App) (r : PoolRow) (ds : Nat → List StreamDesc) : App :=
  let f := a.frameFrom r
  let was := a.cap
  let dec := was.last.isSome && was.gen != r.gen
  let stepped := was.last.isSome && was.tsc != r.tsc
  let follows := match was.last with
    | some p => p + r.navg == r.per
    | none => true
  let a := if dec || stepped || !follows then a.breakBlocks ds else a
  let a := if dec then a.markAll 6 f else a
  let a := if stepped then a.markAll 8 f else a
  let a := (a.access .capture .dram 384).onCap fun c => { c with last := some r.per, tsc := r.tsc, gen := r.gen }
  (upto 8).foldl (fun a s => if (vat a.cap.subs s).on then (a.subFirst s f).subFrame s f (ds s) else a) a

/-- FRAME_RELEASE (R276): frame `number`, whose bay words are the Pool words of its window, is released at t_f + H (R273);
`descs` are the stream descriptors that the module reads for each subscription, should it write a block. -/
def execFrameRelease (number : W64) (descs : Vector (List StreamDesc) 8) (s : State) : Outcome State Fault Refusal :=
  s.onApp fun a =>
    let ds := fun s => vat descs s
    let a := (upto 8).foldl (fun a s => a.subClose s (ds s)) a
    match a.nextFrame with
    | some r => if r.no = number.toNat ∧ a.frameDue r then a.frameOut r ds else a
    | none => a

/-! ### Capture groups (R287 to R291) -/

/-- A change to a group slot. -/
def App.onGrp (a : App) (g : Nat) (f : GrpSt → GrpSt) : App := a.onCap fun c => { c with grp := vup c.grp g f }

/-- The node number in Volith messages: the lower one of the pair while Primary or Standby (R580). -/
def App.msgNode (a : App) : Nat :=
  if a.role = Role.primary ∨ a.role = Role.standby then min a.node (a.get Reg.PAR_CFG_partner_node) else a.node

/-- Bytes followed by their CRC-32C. -/
def withCrc (b : List Byte) : List Byte := b ++ le 4 (crc32c b)

/-- Send a group message of a slot three times, from now (R288, R289); `tq` is the time quality at its instant. -/
def App.groupSend (a : App) (g msg unit instant tq : Nat) : App :=
  if a.node = 0 ∨ !a.pubPermit ∨ !a.on (Reg.CAP_GRP_en g) then a
  else
    let a := a.onGrp g fun x => { x with seq := x.seq + 1 }
    let b := withCrc (le 1 msg ++ le 1 1 ++ le 2 (a.get (Reg.CAP_GRP_group_id g)) ++ le 2 a.msgNode ++ le 1 unit ++ le 1 tq
      ++ le 4 (vat a.cap.grp g).seq.toNat ++ le 8 (instant % 2 ^ 64) ++ le 8 0)
    let p := a.get (Reg.CAP_GRP_port g)
    (a.volith 1 p b).onCap fun c => { c with repeats := c.repeats ++ [⟨1, p, b, a.tick, 1⟩] }

/-- The state of a slot set at an instant (R290). -/
def App.setArmed (a : App) (g : Nat) (on : Bool) (instant : Nat) : App :=
  (a.setB (Reg.CAP_GRPSTAT_armed g) on).onGrp g fun x => { x with stateAt := some instant }

/-- What every fire does, sent or accepted: a kind-3 mark, and with one_shot the slot is disarmed (R290, R291). -/
def App.fireMark (a : App) (g : Nat) (instant tq tsc node group seq : Nat) : App :=
  let a := a.insertMark { a.ownMark 3 g instant tq tsc seq 0 with node := node, group := group }
  if a.on (Reg.CAP_GRP_one_shot g) then a.setArmed g false instant else a

/-- Send a fire of a slot (R291). -/
def App.fireSend (a : App) (g unit instant tq tsc : Nat) : App :=
  if a.node = 0 ∨ !a.pubPermit ∨ !a.on (Reg.CAP_GRP_en g) then a
  else
    let a := a.groupSend g 3 unit instant tq
    a.fireMark g instant tq tsc a.msgNode (a.get (Reg.CAP_GRP_group_id g)) (vat a.cap.grp g).seq.toNat

/-- ARM_CAPTURE: the slot's state at once, and an arm or disarm message (R290). -/
def App.armSlot (a : App) (g : Nat) (on : Bool) : App := (a.setArmed g on a.now).groupSend g (if on then 1 else 2) 0 a.now a.tqc

/-- FIRE_CAPTURE: a kind-4 mark, and a fire when a slot is named (R291). -/
def App.fireSlot (a : App) (slot : Nat) : App :=
  let a := a.insertMark (a.ownMark 4 0 a.now a.tqc a.tsc 0 0)
  if slot < 4 then a.fireSend slot 0xFF a.now a.tqc a.tsc else a

/-- ARM_CAPTURE (R290). -/
def opArmCapture (slot arm : Byte) (a : App) : App × Reply := (a.armSlot slot.toNat (arm == 1#8), .final Status.ok [])

/-- FIRE_CAPTURE (R291). -/
def opFireCapture (slot : Byte) (a : App) : App × Reply := (a.fireSlot slot.toNat, .final Status.ok [])

/-- ARM_CAPTURE (R290). -/
def execArmCapture (h : CmdHdr) (slot arm : Byte) (s : State) : Outcome State Fault Refusal :=
  s.onApp fun a => a.process h (.armCapture slot arm) (firstFail [(0, slot.toNat ≤ 3), (1, arm.toNat ≤ 1)]) [] (opArmCapture slot arm)

/-- FIRE_CAPTURE (R291). -/
def execFireCapture (h : CmdHdr) (slot : Byte) (s : State) : Outcome State Fault Refusal :=
  s.onApp fun a => a.process h (.fireCapture slot) (firstFail [(0, slot.toNat ≤ 3 ∨ slot = 255#8)]) [] (opFireCapture slot)

/-- The slot of a group message: the one in use with its group_id. -/
def App.groupSlot (a : App) (id : Nat) : Option Nat :=
  (upto 4).find? (fun g => a.on (Reg.CAP_GRP_en g) && a.get (Reg.CAP_GRP_group_id g) == id)

/-- The last seq accepted from a node, replaced. -/
def heardPut (l : List (Nat × W32)) (n : Nat) (q : W32) : List (Nat × W32) :=
  match l with
  | [] => [(n, q)]
  | (m, p) :: t => if n < m then (n, q) :: (m, p) :: t else if n = m then (n, q) :: t else (m, p) :: heardPut t n q

/-- Whether a seq is later than another modulo 2^32 (R289). -/
def laterSeq (x y : W32) : Bool := x != y && (x - y).toNat < 2 ^ 31

/-- GROUP_MESSAGE_RX (R289 to R291). -/
def execGroupMessageRx (data : List Byte) (s : State) : Outcome State Fault Refusal :=
  s.onApp fun a =>
    match (if a.node = 0 then none else a.groupSlot (numAt data 2 2)) with
    | none => a
    | some g =>
      let node := numAt data 4 2
      let seq := BitVec.ofNat 32 (numAt data 8 4)
      let instant := numAt data 12 8
      let msg := numAt data 0 1
      let later : Bool := match (vat a.cap.grp g).heard.find? (fun e => e.1 == node) with
        | some e => laterSeq seq e.2
        | none => true
      if data.length == 32 && numAt data 28 4 == crc32c (data.take 28) && numAt data 1 1 == 1 && node != a.node && later && inR 1 3 msg then
        let a := a.onGrp g fun x => { x with heard := heardPut x.heard node seq }
        let a := if 255 < (vat a.cap.grp g).heard.length then a.setB (Reg.CAP_GRPSTAT_grp_oversize g) true else a
        if msg = 3 then
          (a.satAdd (Reg.CAP_GRPSTAT_fires_rx g) 1).fireMark g instant (numAt data 7 1 % 16) a.tsc node (numAt data 2 2) seq.toNat
        else
          let last := (vat a.cap.grp g).stateAt
          let takes : Bool := match last with
            | none => true
            | some t => decide (t < instant) || (t == instant && msg == 2)
          if takes then a.setArmed g (msg == 1) instant else a
      else a.satAdd (Reg.CAP_GRPSTAT_discarded g) 1

/-- The first message of a kind whose repeat is due is sent again: at 1 ms and at 3 ms (R289, R305). -/
def App.repeatDue (a : App) (kind : Nat) : App :=
  let due := fun (r : Repeat) => r.kind == kind && a.since r.at_ (if r.done = 1 then tMs else 3 * tMs)
  match a.cap.repeats.findIdx? due with
  | none => a
  | some i =>
    let r := a.cap.repeats.getD i default
    let l := if r.done = 1 then a.cap.repeats.set i { r with done := 2 } else a.cap.repeats.eraseIdx i
    let a := a.onCap fun c => { c with repeats := l }
    if a.pubPermit then a.volith r.kind r.port r.data else a

/-- GROUP_MESSAGE_REPEAT (R289). -/
def execGroupMessageRepeat (s : State) : Outcome State Fault Refusal := s.onApp fun a => a.repeatDue 1

/-! ### Trigger units (R280 to R284) -/

/-- Whether pattern units evaluate: Commissioning, Maintenance or Joining (R282). -/
def App.patternOn (a : App) : Bool := a.lcy == Lcy.commissioning || a.lcy == Lcy.maintenance || a.role == Role.joining

/-- suspended of every pattern unit, as the modes are (R282). -/
def App.showSuspended (a : App) : App :=
  (upto 32).foldl (fun a u => a.setB (Reg.CAP_TRG_STAT_suspended u)
    (a.on (Reg.CAP_TRG_CFG_en u) && a.get (Reg.CAP_TRG_CFG_type u) == 4 && !a.patternOn)) a

/-- The levels of a unit's source at an observation: whether it is high and whether it is low, with hysteresis from
what it was (R280). -/
def App.trigLevel (a : App) (u : Nat) (was : Bool × Bool) (w : W32) : Bool × Bool :=
  let pol := a.on (Reg.CAP_TRG_CFG_pol u)
  if a.on (Reg.CAP_TRG_CFG_dig u) then (let b := bitOf w.toNat 0 != pol; (b, !b))
  else
    let v := if pol then -wordValue w else wordValue w
    let hi := asSigned 24 (a.get (Reg.CAP_TRG_HI_level u))
    let lo := asSigned 24 (a.get (Reg.CAP_TRG_LO_level u))
    let hh : Int := a.get (Reg.CAP_TRG_HI_hyst u) * 1024
    let hl : Int := a.get (Reg.CAP_TRG_LO_hyst u) * 1024
    (if was.1 then decide (hi - hh ≤ v) else decide (hi ≤ v), if was.2 then decide (v < lo + hl) else decide (v < lo))

/-- Whether a measured time satisfies a unit: t1 ≤ m < t2; t2 is not read for a timeout (R281). -/
def App.trigFits (a : App) (u m : Nat) : Bool :=
  a.get (Reg.CAP_TRG_CFG_type u) == 2 || a.get (Reg.CAP_TRG_CFG_type u) == 4
    || (a.get (Reg.CAP_TRG_T1_t u) * 1000 ≤ m && m < a.get (Reg.CAP_TRG_T2_t u) * 1000)

/-- The aq of the capture window of a unit that contains an instant: that of the latest opening up to it (R283). -/
def App.inWindow (a : App) (u t : Nat) : Option Nat :=
  match (vat a.cap.trig u).opens.find? (fun x => decide (x.1 ≤ t)) with
  | some (o, q) => if t < o + a.get (Reg.CAP_TRG_WIN_win_len u) * 1000 then some q else none
  | none => none

/-- Whether an instant lies in the span of `len` ns from an earlier one on. -/
def inSpan (from_ : Option Nat) (len t : Nat) : Bool :=
  match from_ with
  | some f => decide (f ≤ t) && decide (t < f + len)
  | none => false

/-- A condition of a unit completes: holdoff, mark, and a group fire when its slot is armed, at most one in 10 ms (R283, R284,
R291). -/
def App.trigFire (a : App) (u : Nat) (d : TrigDone) (aq : Nat) : App :=
  let t := d.t
  let held := inSpan (vat a.cap.trig u).firedAt (a.get (Reg.CAP_TRG_CFG_holdoff u) * 10000000) t
  if held then a.satAdd (Reg.CAP_TRG_STAT_suppressed u) 1
  else
    let a := a.onCap fun c => { c with trig := vup c.trig u (fun x => { x with firedAt := some t }) }
    let a := a.satAdd (Reg.CAP_TRG_STAT_fires u) 1
    let a := a.insertMark (a.ownMark 1 u t d.tq d.tsc (a.get (Reg.CAP_TRG_CFG_type u) + 256 * min 0xFFFFFF (d.m / 1000)) aq)
    let g := a.get (Reg.CAP_TRG_CFG_grp u)
    if a.on (Reg.CAP_TRG_CFG_grp_en u) ∧ a.on (Reg.CAP_GRPSTAT_armed g) then
      if inSpan (vat a.cap.grp g).firedAt 10000000 t then a.satAdd (Reg.CAP_GRPSTAT_fire_limited g) 1
      else (a.onGrp g fun x => { x with firedAt := some t }).fireSend g u t d.tq d.tsc
    else a

/-- TRIGGER_FIRE (R281): the earliest condition that a unit has completed and not served. -/
def execTriggerFire (unit : Fin 32) (s : State) : Outcome State Fault Refusal :=
  s.onApp fun a =>
    match (vat a.sig.trig unit).done with
    | d :: rest =>
      let a := a.onSig fun s => { s with trig := vup s.trig unit (fun x => { x with done := rest }) }
      if a.on (Reg.CAP_TRG_CFG_gate unit) then
        match a.inWindow unit d.t with
        | some q => a.trigFire unit d q
        | none => a
      else a.trigFire unit d 0
    | [] => a

/-- A compare unit with dest 4 opens the capture window of a trigger unit; a scheduled unit fires with it (R281 to
R283). -/
def App.openWindow (a : App) (u aq : Nat) : App :=
  let t := a.now
  let a := a.onCap fun c => { c with trig := vup c.trig u (fun x => { x with opens := (t, aq) :: x.opens.take 63 }) }
  if a.on (Reg.CAP_TRG_CFG_en u) ∧ a.get (Reg.CAP_TRG_CFG_type u) = 5 then
    if a.on (Reg.CAP_TRG_CFG_gate u) ∧ (a.inWindow u t).isNone then a else a.trigFire u ⟨t, 0, a.tqc, a.tsc⟩ aq
  else a

end Sys2Proof.Machine
end

