-- ==== Sys2Proof/Machine/Point.lean ====
section
/-! DEFINITION. Instance data, the process image and forces (R345 to R348, R421 to R425). -/

namespace Sys2Proof.Machine

open Host

/-! ### Instance data -/

/-- The byte at an offset. -/
def Mem.get (m : Mem) (o : Nat) : Byte :=
  match m with
  | [] => 0
  | (p, b) :: t => if p = o then b else Mem.get t o

/-- The cells with the one at an offset removed. -/
def Mem.drop (m : Mem) (o : Nat) : Mem := m.filter (fun c => c.1 != o)

/-- The cells with one put at its place. -/
def Mem.insert (m : Mem) (o : Nat) (b : Byte) : Mem :=
  match m with
  | [] => [(o, b)]
  | (p, c) :: t => if o < p then (o, b) :: (p, c) :: t else if o = p then (o, b) :: t else (p, c) :: Mem.insert t o b

/-- A byte written: a cell is listed only for a byte other than 0. -/
def Mem.put (m : Mem) (o : Nat) (b : Byte) : Mem := if b = 0#8 then m.drop o else m.insert o b

/-- Bytes written from an offset on. -/
def Mem.write (m : Mem) (o : Nat) : List Byte → Mem
  | [] => m
  | b :: t => (m.put o b).write (o + 1) t

/-- `n` bytes read from an offset. -/
def Mem.read (m : Mem) (o n : Nat) : List Byte := (upto n).map (fun i => m.get (o + i))

/-- Offsets rise strictly. -/
def Mem.rising : Mem → Bool
  | [] => true
  | [_] => true
  | (p, _) :: (q, c) :: t => decide (p < q) && Mem.rising ((q, c) :: t)

/-- The canonical form: offsets rise strictly, and no listed byte is 0. -/
def Mem.wf (m : Mem) : Bool := m.rising && m.all (fun c => c.2 != 0#8)

/-! ### The process image (R345 to R348) -/

/-- A change to the control part. -/
def App.onCtl (a : App) (f : CtlSt → CtlSt) : App := { a with ctl := f a.ctl }

/-- The quality of bits 12:0 with bit 14 for a stamp whose tq is not 0 (R347). -/
def pointQual (q : W16) (tq : Nat) : W16 := BitVec.ofNat 16 (q.toNat % 2 ^ 13 + (if tq = 0 then 0 else 2 ^ 14))

/-- Whether a quality reads as invalid: validity 0b01, and 0b10, which counts as invalid (R347). -/
def qualInvalid (q : W16) : Bool := q.toNat % 4 == 1 || q.toNat % 4 == 2

/-- A record after its writer writes: a new stamp only where value or quality changes (R346). -/
def PointVal.write (v : PointVal) (value : W64) (q : W16) (stamp tq tsc : Nat) : PointVal :=
  if v.value = value ∧ v.quality.toNat % 2 ^ 13 = q.toNat % 2 ^ 13 then v
  else ⟨value, BitVec.ofNat 64 stamp, pointQual q tq, BitVec.ofNat 8 tq, BitVec.ofNat 8 tsc⟩

/-- The active force of a point (R422). -/
def App.forceOf (a : App) (i : Nat) : Option Force := a.ctl.forces.find? (fun f => !f.orphan && f.point == i)

/-- A point of the process image. -/
def App.point (a : App) (i : Nat) : Point := a.ctl.points.getD i {}

/-- A trip request reaches its matrix input; an invalid point reads as deasserted, and so do the requests of a faulted
task and all requests in Stop (R355, R363, R609). -/
def App.showTrip (a : App) (i : Nat) : App :=
  let p := a.point i
  match p.trip with
  | some n => a.setInp (0x840 + n) (p.v.value != 0#64 && !qualInvalid p.v.quality
      && a.get (Reg.CSC_TSTAT_tstate p.writer) != 2 && a.cstate != 0)
  | none => a

/-- The record of a point replaced. -/
def App.setRecord (a : App) (i : Nat) (v : PointVal) : App :=
  (a.onCtl fun c => { c with points := c.points.modify i (fun p => { p with v := v }) }).showTrip i

/-- A change to the active force of a point. -/
def App.onForce (a : App) (i : Nat) (f : Force → Force) : App :=
  a.onCtl fun c => { c with forces := c.forces.map (fun x => if !x.orphan && x.point == i then f x else x) }

/-- The writer of a point writes: into the shadow while the point is forced (R345, R422). -/
def App.putPoint (a : App) (i : Nat) (value : W64) (q : W16) (stamp tq tsc : Nat) : App :=
  if a.ctl.points.length ≤ i then a
  else
    match a.forceOf i with
    | some f => a.onForce i fun x => { x with shadow := some ((f.shadow.getD {}).write value q stamp tq tsc) }
    | none => a.setRecord i ((a.point i).v.write value q stamp tq tsc)

/-- What the writer of a point wrote last: the shadow of a forced point, else its record. -/
def App.written (a : App) (i : Nat) : PointVal :=
  match a.forceOf i with
  | some f => f.shadow.getD {}
  | none => (a.point i).v

/-- The points of a writer. -/
def App.pointsOf (a : App) (kind writer : Nat) : List Nat :=
  (upto a.ctl.points.length).filter (fun i => (a.point i).kind == kind && (a.point i).writer == writer)

/-- The points of a writer take a value, a quality and a stamp. -/
def App.putWriter (a : App) (kind writer : Nat) (value : W64) (q : W16) (stamp tq tsc : Nat) : App :=
  (a.pointsOf kind writer).foldl (fun a i => a.putPoint i (typeValue (a.point i).typ value) q stamp tq tsc) a

/-- The points of a writer keep their value under another quality, from now. -/
def App.qualWriter (a : App) (kind writer : Nat) (f : W16 → W16) : App :=
  (a.pointsOf kind writer).foldl (fun a i => a.putPoint i (a.written i).value (f (a.written i).quality) a.w64 a.tqc a.tsc) a

/-- A quality with another validity, and with a bit set or cleared (R347). -/
def qualValid (q : W16) (v : Nat) : W16 := BitVec.ofNat 16 (q.toNat / 4 * 4 + v)
def qualBit (q : W16) (i : Nat) (b : Bool) : W16 := BitVec.ofNat 16 (putBit q.toNat i b)

/-- The points of a silent writer: oldData set, validity invalid or questionable. -/
def qualOld (v : Nat) (q : W16) : W16 := qualValid (qualBit q 7 true) v

/-- The quality of a point that takes its value from a sample word (R348). -/
def qualOfWord (w : W32) : W16 :=
  let q := wordQual w
  BitVec.ofNat 16 ((if q = 1 then 3 else if q = 2 then 1 else 0) + 4 * (wordOvr w).toNat + 8 * (wordFs w).toNat
    + 2 ^ 10 * (wordSub w).toNat + 2 ^ 11 * (q == 3).toNat + 2 ^ 9 * (wordHold w).toNat)

/-- The 24 bytes of a point record (R346). -/
def Point.bytes (p : Point) : List Byte :=
  le 8 p.v.value.toNat ++ le 8 p.v.stamp.toNat ++ le 2 p.v.quality.toNat ++ le 1 p.v.tq.toNat ++ le 1 p.v.tsc.toNat
    ++ le 1 p.typ ++ le 1 p.kind ++ le 2 p.writer

/-- WRITE_POINT (R345, R500): only a point whose writer is the host. -/
def opWritePoint (quality : W16) (point : W32) (value : W64) (a : App) : App × Reply :=
  let i := point.toNat
  (a.putPoint i (typeValue (a.point i).typ value) quality a.w64 a.tqc a.tsc, .final Status.ok [])

/-- WRITE_POINT (R345). -/
def execWritePoint (h : CmdHdr) (quality : W16) (point : W32) (value : W64) (s : State) : Outcome State Fault Refusal :=
  s.onApp fun a => a.process h (.writePoint quality point value)
    (firstFail [(0, quality.toNat < 2 ^ 13), (1, point.toNat < a.ctl.points.length ∧ (a.point point.toNat).kind = 5)]) []
    (opWritePoint quality point value)

/-- READ_POINTS (R346, R500). -/
def opReadPoints (h : CmdHdr) (out : Out) (first count : W32) (a : App) : App × Reply :=
  a.outData h out ((upto count.toNat).flatMap (fun i => (a.point (first.toNat + i)).bytes))

/-- READ_POINTS (R346). -/
def execReadPoints (h : CmdHdr) (out : Out) (first count : W32) (s : State) : Outcome State Fault Refusal :=
  s.onApp fun a => a.process h (.readPoints out first count)
    (firstFail [(0, out.addr.toNat % 64 = 0), (2, first.toNat ≤ a.ctl.points.length),
                (3, first.toNat + count.toNat ≤ a.ctl.points.length)]) [] (opReadPoints h out first count)

/-! ### Forces (R421 to R425) -/

/-- The counts of CSC_FSTAT. -/
def App.showForces (a : App) : App :=
  let n := (a.ctl.forces.filter (fun f => f.orphan)).length
  (a.set Reg.CSC_FSTAT_active (a.ctl.forces.length - n)).set Reg.CSC_FSTAT_orphans n

/-- The record of a forced point (R422). -/
def forcedVal (f : Force) (tsc : Nat) : PointVal :=
  ⟨f.value, f.setAt, qualBit (pointQual f.quality f.tq) 13 true, BitVec.ofNat 8 f.tq, BitVec.ofNat 8 tsc⟩

/-- A force set on a point: a new one starts with an empty shadow, an old one keeps its shadow (R422). -/
def App.forcePut (a : App) (i : Nat) (q : W16) (value : W64) (tag : W32) (origin : Nat) : App :=
  let typ := (a.point i).typ
  let f : Force := { point := i, origin := origin, tq := a.tqc, value := typeValue typ value, setAt := BitVec.ofNat 64 a.now,
                     quality := BitVec.ofNat 16 (q.toNat % 2 ^ 13), typ := typ, tag := tag }
  let a := match a.forceOf i with
    | some g => a.onForce i fun _ => { f with shadow := g.shadow }
    | none => a.onCtl fun c => { c with forces := c.forces ++ [f] }
  (a.setRecord i (forcedVal f a.tsc)).showForces

/-- A point runs unforced: it takes its shadow with the stamp of the clear, or validity invalid (R422). -/
def App.forceDrop (a : App) (i : Nat) : App :=
  match a.forceOf i with
  | none => a
  | some f =>
    let a := a.onCtl fun c => { c with forces := c.forces.filter (fun x => x.orphan || x.point != i) }
    let v := match f.shadow with
      | some v => (v.value, v.quality)
      | none => (f.value, 1#16)
    (a.setRecord i ⟨v.1, BitVec.ofNat 64 a.now, pointQual v.2 a.tqc, BitVec.ofNat 8 a.tqc, BitVec.ofNat 8 a.tsc⟩).showForces

/-- The effect of FORCE_SET (R421, R422). -/
def opForceSet (k : Nat) (quality : W16) (point : W32) (value : W64) (tag : W32) (a : App) : App × Reply :=
  let i := point.toNat
  if (a.forceOf i).isNone ∧ 4096 ≤ a.ctl.forces.length then (a, .final Status.full [])
  else (a.forcePut i quality value tag (k % 4 + 8 * (k / 4)), .final Status.ok [])

/-- FORCE_SET (R421). -/
def execForceSet (h : CmdHdr) (quality : W16) (point : W32) (value : W64) (tag : W32) (s : State) : Outcome State Fault Refusal :=
  s.onApp fun a => a.process h (.forceSet quality point value tag)
    (firstFail [(0, quality.toNat < 2 ^ 13), (1, point.toNat < a.ctl.points.length)]) [] (opForceSet h.ctx quality point value tag)

/-- The effect of FORCE_CLEAR: a force, or with `orphan` an orphan by its last index (R422, R500). -/
def opForceClear (orphan : Byte) (point : W32) (a : App) : App × Reply :=
  let i := point.toNat
  if orphan = 1#8 then
    if a.ctl.forces.any (fun f => f.orphan && f.point == i) then
      ((a.onCtl fun c => { c with forces := c.forces.filter (fun f => !(f.orphan && f.point == i)) }).showForces, .final Status.ok [])
    else (a, .final Status.notFound [])
  else if (a.forceOf i).isSome then (a.forceDrop i, .final Status.ok [])
  else (a, .final Status.notFound [])

/-- FORCE_CLEAR (R422). -/
def execForceClear (h : CmdHdr) (orphan : Byte) (point : W32) (s : State) : Outcome State Fault Refusal :=
  s.onApp fun a => a.process h (.forceClear orphan point) (firstFail [(0, orphan.toNat ≤ 1)]) [] (opForceClear orphan point)

/-- The 32 bytes of a force record (R425). -/
def Force.bytes (f : Force) : List Byte :=
  le 4 f.point ++ le 1 f.orphan.toNat ++ le 1 f.reason ++ le 1 f.origin ++ le 1 f.tq ++ le 8 f.value.toNat ++ le 8 f.setAt.toNat
    ++ le 2 f.quality.toNat ++ le 1 f.typ ++ le 1 0 ++ le 4 f.tag.toNat

/-- READ_FORCES (R425). -/
def opReadForces (h : CmdHdr) (out : Out) (a : App) : App × Reply := a.outData h out (a.ctl.forces.flatMap Force.bytes)

/-- READ_FORCES (R425). -/
def execReadForces (h : CmdHdr) (out : Out) (s : State) : Outcome State Fault Refusal :=
  s.onApp fun a => a.process h (.readForces out) (outRange out) [] (opReadForces h out)

end Sys2Proof.Machine
end

