-- ==== Sys2Proof/Machine/FieldIO.lean ====
section
/-! DEFINITION. Field channels: debounced inputs with their supervision, outputs with permit, safe state and
overload, and the field supplies (R427 to R452). -/

namespace Sys2Proof.Machine

open Host

/-- A change to a field channel and to a field supply. -/
def App.onFio (a : App) (f : Nat) (g : FioCh → FioCh) : App := { a with fio := { a.fio with ch := vup a.fio.ch f g } }
def App.onSup (a : App) (s : Nat) (g : FioSupply → FioSupply) : App := { a with fio := { a.fio with sup := vup a.fio.sup s g } }

/-- The flags and settings of a supply, 0 FSA and 1 FSB (R452). -/
def Reg.fsLow (s : Nat) : Fld := if s = 0 then Reg.FIO_FSSTAT_fs_low_a else Reg.FIO_FSSTAT_fs_low_b
def Reg.fsDead (s : Nat) : Fld := if s = 0 then Reg.FIO_FSSTAT_fs_dead_a else Reg.FIO_FSSTAT_fs_dead_b
def Reg.fsLatched (s : Nat) : Fld := if s = 0 then Reg.FIO_FSSTAT_latched_a else Reg.FIO_FSSTAT_latched_b
def Reg.fsCount (s : Nat) : Fld := if s = 0 then Reg.FIO_FSCNT_dead_a else Reg.FIO_FSCNT_dead_b
def Reg.fsRearm (s : Nat) : Fld := if s = 0 then Reg.FIO_CTL_rearm_a else Reg.FIO_CTL_rearm_b

/-- Whether a channel is an enabled input or an enabled output (R427). -/
def App.fioIn (a : App) (f : Nat) : Bool := a.on (Reg.FIO_CFG_en f) && !a.on (Reg.FIO_CFG_dir f)
def App.fioOut (a : App) (f : Nat) : Bool := a.on (Reg.FIO_CFG_en f) && a.on (Reg.FIO_CFG_dir f)

/-- The times of a channel in ticks: debounce, diag_time and settle. -/
def App.fioDeb (a : App) (f : Nat) : Nat := a.get (Reg.FIO_DEB_debounce f) * tUs
def App.fioDiagTime (a : App) (f : Nat) : Nat := a.get (Reg.FIO_SUP_diag_time f) * 10 * tMs

/-- Whether a tick is set and `n` ticks have passed since. -/
def App.passed (a : App) (t : Option Nat) (n : Nat) : Bool :=
  match t with
  | some t => a.since t n
  | none => false

/-- The present stamp. -/
def App.edgeNow (a : App) : EdgeStamp := ⟨BitVec.ofNat 64 a.now, BitVec.ofNat 8 a.tqc, BitVec.ofNat 8 a.tsc⟩

/-! ### Groups (R442) -/

/-- The lead of the group of a channel; a channel in no group is its own. -/
def App.fioLead (a : App) (f : Nat) : Nat :=
  match [1, 2, 3].find? (fun d => d ≤ f && a.on (Reg.FIO_CFG_dir (f - d)) && d ≤ a.get (Reg.FIO_CFG_par (f - d))
      && f / 16 == (f - d) / 16) with
  | some d => if a.on (Reg.FIO_CFG_dir f) then f - d else f
  | none => f

/-- The channels of the group that a channel leads, lowest first. -/
def App.fioGroup (a : App) (l : Nat) : List Nat :=
  if a.on (Reg.FIO_CFG_dir l) then (upto (a.get (Reg.FIO_CFG_par l) + 1)).map (l + ·) else [l]

/-- Whether FIO_CFG of a channel would be refused: the joined channels cross to the other supply, are no outputs, lead
channels of their own, or belong to another group (R442); and safe 0b11 (R6). -/
def App.fioCfgBad (a : App) (f v : Nat) : Bool :=
  let k := bitsOf v 6 2
  bitsOf v 4 2 == 3 || (k != 0 && ((f + k) / 16 != f / 16 || a.fioLead f != f
    || (upto k).any (fun i => !a.on (Reg.FIO_CFG_dir (f + 1 + i)) || a.get (Reg.FIO_CFG_par (f + 1 + i)) != 0
         || (a.fioLead (f + 1 + i) != f + 1 + i && a.fioLead (f + 1 + i) != f))))

/-! ### Quality, level and diagnosis (R439, R452) -/

/-- Whether the supply of a channel counts as dead for it: fs_dead, or for an input until its next debounce (R449). -/
def App.fioDead (a : App) (f : Nat) : Bool :=
  a.on (Reg.fsDead (f / 16)) || (a.fioIn f && (vat a.fio.ch f).deadWait.isSome)

/-- The quality of a channel's point: the first row governs validity, every row sets its detail bits (R439). -/
def App.fioQual (a : App) (f : Nat) : W16 :=
  let c := vat a.fio.ch f
  let inp := a.fioIn f
  let rows : List (Bool × Nat × Nat) :=
    [(!a.on (Reg.FIO_CFG_en f) || c.settleAt.isSome, 1, 0), (c.islandOff, 1, 0xC0), (a.fioDead f, 1, 0x40),
     (inp && c.wireBreak, 1, 0x40), (inp && (c.held.isSome || c.loopHigh), 3, 0),
     (inp && a.on (Reg.FIO_STAT_chatter f), 3, 0x20), (inp && c.stuck, 3, 0x80)]
  let hit := rows.filter (·.1)
  let v := match hit with
    | r :: _ => r.2.1
    | [] => 0
  BitVec.ofNat 16 (v + hit.foldl (fun d r => d ||| r.2.2) 0)

/-- The diagnosis code of a channel (R452). -/
def App.fioDiag (a : App) (f : Nat) : Nat :=
  let c := vat a.fio.ch f
  if c.islandOff then 7
  else if a.fioDead f then 8
  else if a.fioOut f then
    if c.srcBad then 9 else if c.overload then 5 else if c.extDrive then 4 else if c.openLoad then 6 else 0
  else if c.wireBreak then 1 else if c.held.isSome then 3 else if c.loopHigh then 2 else 0

/-- What a channel shows: its status fields, its matrix input, and its points, with the stamp of the last change or
of now (R432, R439, R247). -/
def App.fioShow (a : App) (f : Nat) (edge : Bool) : App :=
  let c := vat a.fio.ch f
  let q := a.fioQual f
  let a := ((a.set (Reg.FIO_STAT_validity f) (q.toNat % 4)).setB (Reg.FIO_STAT_oscillatory f) (bitOf q.toNat 5)).setB (Reg.FIO_STAT_failure f) (bitOf q.toNat 6)
  let a := (a.setB (Reg.FIO_STAT_oldData f) (bitOf q.toNat 7)).set (Reg.FIO_STAT_diag f) (a.fioDiag f)
  let a := a.setInp (0x820 + f) (c.shown && !qualInvalid q)
  let t := if edge then c.last else a.edgeNow
  a.putWriter 1 f (if c.shown then 1 else 0) q t.w64.toNat t.tq.toNat t.tsc.toNat

/-- Post a field event record (R451). -/
def App.fioPost (a : App) (chan event level quality param : Nat) (t : EdgeStamp) : App :=
  let n := a.fio.seq + 1
  let a := { a with fio := { a.fio with seq := n } }
  a.post 3 (le 1 chan ++ le 1 event ++ le 1 level ++ le 1 t.tq.toNat ++ le 8 t.w64.toNat ++ le 1 t.tsc.toNat ++ le 1 0
    ++ le 2 quality ++ le 4 param ++ le 8 0 ++ le 4 n.toNat)

/-- Post the record of a channel event. -/
def App.fioRecord (a : App) (f event param : Nat) (t : EdgeStamp) : App :=
  a.fioPost f event (a.get (Reg.FIO_STAT_level f) + 2 * a.get (Reg.FIO_STAT_cmd f) + 4 * a.get (Reg.FIO_STAT_on f))
    (pointQual (a.fioQual f) t.tq.toNat).toNat param t

/-- An edge of a routed source lands in the next dispatcher cycle; the entry of a SUPERVISED input only counts
(R395, R396, R433). A module that follows notes the set for a takeover (R579). -/
def App.route (a : App) (i : Nat) (rise supervised : Bool) : App :=
  let e := a.get (Reg.CSC_ROUTE_edge i)
  if a.on (Reg.CSC_ROUTE_en i) && (e == 2 || e == (if rise then 0 else 1)) then
    if supervised then a.satAdd Reg.CSC_CIGN_ignored 1
    else
      let x := (a.get (Reg.CSC_ROUTE_task i), a.get (Reg.CSC_ROUTE_flag i))
      let a := if a.leads then a else { a with par := { a.par with ownSets := a.par.ownSets ++ [x] } }
      a.onCtl fun c => { c with sets := c.sets ++ [x] }
  else a

/-- The Cascade takes an edge of an input whose quality is not invalid (R396). -/
def App.fioRoute (a : App) (f : Nat) : App :=
  if qualInvalid (a.fioQual f) then a
  else a.route (24 + f) (vat a.fio.ch f).shown (a.on (Reg.FIO_CFG_class f))

/-! ### Inputs (R430 to R438) -/

/-- A change of an EVENT input is reported: its record and its edge (R433). -/
def App.fioReport (a : App) (f param : Nat) : App :=
  let c := vat a.fio.ch f
  if qualInvalid (a.fioQual f) then a
  else ((a.fioRecord f 0 param c.last).onFio f fun c => { c with reported := a.on (Reg.FIO_STAT_level f) }).fioRoute f

/-- The debounced level of an input has changed (R430 to R438). -/
def App.fioChange (a : App) (f : Nat) (level : Bool) (t : EdgeStamp) : App :=
  let c := vat a.fio.ch f
  let sup := a.on (Reg.FIO_CFG_class f)
  let was := a.on (Reg.FIO_STAT_chatter f)
  let recent := c.stamps.filter (fun s => t.w64.toNat ≤ s + 1000000000 && s < t.w64.toNat)
  let osc := a.get (Reg.FIO_DEB_chatter_max f) != 0 && a.get (Reg.FIO_DEB_chatter_max f) ≤ recent.length
  let hold := sup && !level && decide (a.get (Reg.FIO_MEAS_i_loop f) < a.get (Reg.FIO_SUP_win_lo f))
  let a := (a.satAdd (Reg.FIO_CNT_changes f) 1).setB (Reg.FIO_STAT_chatter f) (was || osc)
  let a := a.onFio f fun c =>
    { c with last := t, lastAt := a.tick, stamps := t.w64.toNat :: recent, stuck := c.stuck && level
             highAt := if level then a.tick else c.highAt, held := if hold then some a.tick else none
             shown := if hold then c.shown else level, suppressed := if osc && !was then 0 else c.suppressed }
  let a := a.fioShow f true
  let a := if osc && !was then a.fioRecord f 1 recent.length a.edgeNow else a
  if was || osc then (a.satAdd (Reg.FIO_CNT_suppressed f) 1).onFio f fun c => { c with suppressed := c.suppressed + 1 }
  else if sup then if hold then a else a.fioRoute f
  else a.fioReport f 0

/-- DEBOUNCE_COMPLETE (R430, R428, R449): the raw level has held for the debounce window. -/
def execDebounceComplete (ch : Fin 32) (level : Bool) (t : EdgeStamp) (s : State) : Outcome State Fault Refusal :=
  s.onApp fun a =>
    let f := ch.val
    let c := vat a.fio.ch f
    if !a.on (Reg.FIO_CFG_en f) || c.islandOff || (c.settleAt.isSome && !a.passed c.settleAt (a.fioDeb f)) then a
    else
      let ends := c.settleAt.isSome || a.passed c.deadWait (a.fioDeb f)
      let was := a.on (Reg.FIO_STAT_level f)
      if was == level && !ends then a
      else
        let a := (a.setB (Reg.FIO_STAT_level f) level).onFio f fun c =>
          { c with settleAt := none, deadWait := if a.passed c.deadWait (a.fioDeb f) then none else c.deadWait }
        if a.fioOut f then
          let a := a.onFio f fun c => { c with shown := level, last := t }
          (if was == level then a else a.satAdd (Reg.FIO_CNT_changes f) 1).fioShow f true
        else if was == level then (a.onFio f fun c => { c with last := t }).fioShow f true
        else a.fioChange f level t

/-- A held-back change becomes a wire break once diag_time has passed with the current outside the window (R435). -/
def App.heldOut (a : App) (f current : Nat) : App :=
  let c := vat a.fio.ch f
  if !a.passed c.held (a.fioDiagTime f) then a
  else
    let a := (a.onFio f fun c => { c with held := none, wireBreak := true }).fioShow f false
    if c.wireBreak then a else a.fioRecord f 3 current a.edgeNow

/-- SUPERVISION_DIAGNOSIS (R434, R435): a measurement of the loop current, in 0.01 mA; a diagnosis sets or clears once
its condition has lasted diag_time. -/
def execSupervisionDiagnosis (ch : Fin 32) (current : Nat) (s : State) : Outcome State Fault Refusal :=
  s.onApp fun a =>
    let f := ch.val
    if !a.fioIn f || !a.on (Reg.FIO_CFG_class f) || (vat a.fio.ch f).islandOff then a
    else
      let a := a.set (Reg.FIO_MEAS_i_loop f) (min 255 current)
      if a.on (Reg.FIO_STAT_level f) then a.onFio f fun c => { c with region := 3, regionAt := a.tick }
      else
        let a := a.heldOut f current
        let r := if current < a.get (Reg.FIO_SUP_win_lo f) then 0 else if current < a.get (Reg.FIO_SUP_win_hi f) then 1 else 2
        let a := a.onFio f fun c => if c.region = r then c else { c with region := r, regionAt := a.tick }
        let a := if r = 1 ∧ (vat a.fio.ch f).held.isSome then
            ((a.onFio f fun c => { c with held := none, shown := false }).fioShow f true).fioRoute f
          else a
        let c := vat a.fio.ch f
        if !a.since c.regionAt (a.fioDiagTime f) then a
        else if r = 0 then
          if c.wireBreak then a
          else ((a.onFio f fun c => { c with wireBreak := true, held := none }).fioShow f false).fioRecord f 3 current a.edgeNow
        else if r = 2 then
          if c.loopHigh then a
          else ((a.onFio f fun c => { c with loopHigh := true }).fioShow f false).fioRecord f 5 current a.edgeNow
        else
          let a := if c.wireBreak then
              ((a.onFio f fun c => { c with wireBreak := false, shown := false }).fioShow f c.shown).fioRecord f 4 current a.edgeNow
            else a
          if c.loopHigh then
            ((a.onFio f fun c => { c with loopHigh := false }).fioShow f false).fioRecord f 6 current a.edgeNow
          else a

/-- HELD_CHANGE_TIMEOUT (R435): diag_time has passed over a held-back change, whose current did not enter the window. -/
def execHeldChangeTimeout (ch : Fin 32) (s : State) : Outcome State Fault Refusal :=
  s.onApp fun a => a.heldOut ch (a.get (Reg.FIO_MEAS_i_loop ch))

/-- CHATTER_SETTLED (R437): no change for settle ends chatter. -/
def execChatterSettled (ch : Fin 32) (s : State) : Outcome State Fault Refusal :=
  s.onApp fun a =>
    let f := ch.val
    let c := vat a.fio.ch f
    if a.on (Reg.FIO_STAT_chatter f) && a.since c.lastAt (a.get (Reg.FIO_DEB_settle f) * 100 * tMs) then
      let a := ((a.setB (Reg.FIO_STAT_chatter f) false).fioShow f false).fioRecord f 2 c.suppressed a.edgeNow
      if !a.on (Reg.FIO_CFG_class f) && c.reported != a.on (Reg.FIO_STAT_level f) then a.fioReport f c.suppressed else a
    else a

/-- STUCK_TIME (R438): a high level that has lasted stuck_time. -/
def execStuckTime (ch : Fin 32) (s : State) : Outcome State Fault Refusal :=
  s.onApp fun a =>
    let f := ch.val
    let c := vat a.fio.ch f
    let n := a.get (Reg.FIO_STUCK_stuck_time f)
    if a.fioIn f && a.on (Reg.FIO_STAT_level f) && n != 0 && !c.stuck && a.since c.highAt (n * tS) then
      ((a.onFio f fun c => { c with stuck := true }).fioShow f false).fioRecord f 7 n a.edgeNow
    else a

/-- ISLAND_SILENT (R439): no valid island frame for 50 µs. -/
def execIslandSilent (ch : Fin 32) (s : State) : Outcome State Fault Refusal :=
  s.onApp fun a => (a.onFio ch fun c => { c with islandOff := true }).fioShow ch false

/-- ISLAND_FRAMES_RESUMED (R439). -/
def execIslandFramesResumed (ch : Fin 32) (s : State) : Outcome State Fault Refusal :=
  s.onApp fun a => (a.onFio ch fun c => { c with islandOff := false }).fioShow ch false

/-! ### Outputs (R441 to R448) -/

/-- The command of a lead from its source: the level, whether the source is bad, and whether the safe state is
commanded (R441, R606). -/
def App.fioCommand (a : App) (l : Nat) : Bool × Bool × Bool :=
  if a.on (Reg.FIO_CFG_src l) then
    (bitOf a.trp.rows (8 + l), false, bitOf a.trp.linked (8 + l) && !a.on Reg.GLB_MODE_test_f)
  else
    let i := a.get (Reg.FIO_OUT_out_pt l)
    let p := a.point i
    let ok := a.ctl.running.isSome && decide (i < a.ctl.points.length) && p.typ == 1 && p.kind == 0
    (ok && p.v.value != 0#64, !ok, ok && qualInvalid p.v.quality)

/-- Whether the slot of a channel's group after fs_dead has passed (R450). -/
def App.fioSlotPassed (a : App) (f : Nat) : Bool :=
  let l := a.fioLead f
  let top := ((a.fioGroup l).getLast?).getD f
  a.on (Reg.fsLatched (f / 16)) && a.since (vat a.fio.sup (f / 16)).deadAt ((15 - top % 16) * 20 * tUs)

/-- The reasons for the safe state: silence, not permitted, src_bad (R451). -/
def App.fioWhy (a : App) (f : Nat) : Nat :=
  let c := vat a.fio.ch f
  c.silent.toNat + 2 * (!a.on (Reg.FIO_STAT_permitted f)).toNat + 4 * c.srcBad.toNat

/-- Whether a channel's output is in its safe state, and what it drives: the first row of R448 that applies. -/
def App.fioLevel (a : App) (f : Nat) : Bool × Bool :=
  let c := vat a.fio.ch f
  let s := a.get (Reg.FIO_CFG_safe (a.fioLead f))
  if !a.fioOut f || c.settleAt.isSome || c.off || c.retryAt.isSome || !c.once then (false, false)
  else if a.fioWhy f != 0 || c.wantSafe then
    (true, if s = 1 then true else if s = 2 then (if a.on (Reg.FIO_STAT_safe_active f) then c.hold else a.on (Reg.FIO_STAT_on f)) else false)
  else (false, a.on (Reg.FIO_STAT_cmd f))

/-- The island drives its output, and an entered or left safe state is recorded (R446, R448, R451). -/
def App.fioDrive (a : App) (f : Nat) : App :=
  let a := if a.fioSlotPassed f then a.onFio f fun c => { c with off := true } else a
  let (safe, out) := a.fioLevel f
  let was := a.on (Reg.FIO_STAT_safe_active f)
  let why := a.fioWhy f
  let a := (a.setB (Reg.FIO_STAT_on f) out).setB (Reg.FIO_STAT_safe_active f) safe
  if safe == was then a
  else if safe then (a.onFio f fun c => { c with hold := out, why := why }).fioRecord f 14 why a.edgeNow
  else a.fioRecord f 15 (vat a.fio.ch f).why a.edgeNow

/-- A frame from the logic side reaches an island: command, permit bit and source state (R427, R446, R448). -/
def App.fioFrame (a : App) (f : Nat) : App :=
  if !a.fioOut f || (vat a.fio.ch f).silent then a
  else
    let l := a.fioLead f
    let (cmd, bad, want) := a.fioCommand l
    let permit := a.fieldPermit (a.get (Reg.FIO_CFG_src l)) && !bad
    let a := (a.setB (Reg.FIO_STAT_cmd f) cmd).setB (Reg.FIO_STAT_permitted f) permit
    let a := a.onFio f fun c => { c with srcBad := bad, wantSafe := want, once := c.once || permit }
    a.set (Reg.FIO_STAT_diag f) (a.fioDiag f)

/-- One exchange of frames with one channel: a configuration that has settled takes effect, then command and drive
(R427, R428). -/
def App.fioStep (a : App) (f : Nat) : App :=
  let a := if a.passed (vat a.fio.ch f).settleAt (a.fioDeb f) then
      (a.onFio f fun c => { c with settleAt := none, reported := a.on (Reg.FIO_STAT_level f) }).fioShow f false
    else a
  if a.fioOut f then (a.fioFrame f).fioDrive f else a

/-- One exchange with every channel. -/
def App.fioAll (a : App) : App := (upto 32).foldl App.fioStep a

/-- The interruption by a configuration change: the output off, the debounced state invalid until it has settled,
chatter, stuck and diagnosis cleared (R428, R427). -/
def App.fioRestart (a : App) (f : Nat) : App :=
  let a := a.setB (Reg.FIO_STAT_chatter f) false
  let a := if a.on (Reg.FIO_CFG_en f) then a
    else ((a.setB (Reg.FIO_STAT_level f) false).setB (Reg.FIO_STAT_cmd f) false).setB (Reg.FIO_STAT_permitted f) false
  let level := a.on (Reg.FIO_STAT_level f)
  let a := a.onFio f fun c =>
    { c with settleAt := some a.tick, held := none, wireBreak := false, loopHigh := false, region := 3, regionAt := a.tick
             stuck := false, highAt := a.tick, shown := level, reported := level, suppressed := 0, stamps := [], srcBad := false
             wantSafe := false, overload := false, retryAt := none, retries := 0, limit := {}, ext := {}, extDrive := false
             openW := {}, openLoad := false }
  (a.fioDrive f).fioShow f false

/-- A watched condition at one measurement. -/
def Watch.step (w : Watch) (on : Bool) (tick : Nat) : Watch := if w.on == on then w else ⟨on, tick⟩

/-- A group opens for the retry interval (R442, R445). -/
def App.fioTrip (a : App) (f : Nat) : App :=
  let l := a.fioLead f
  let until_ := a.tick + a.get (Reg.FIO_OUT_retry l) * 100 * tMs
  (a.fioGroup l).foldl (fun a g => (a.onFio g fun c => { c with retryAt := some until_ }).fioDrive g) a

/-- A measurement of an output is shown, and the watched conditions take it (R444, R445). -/
def App.fioMeasure (a : App) (f : Nat) (m : OutMeas) : App :=
  let a := (a.set (Reg.FIO_MEAS_v_term f) (min 255 m.vTerm)).set (Reg.FIO_MEAS_i_out f) (min 65535 m.iOut)
  let on := a.on (Reg.FIO_STAT_on f)
  let high := decide (50 ≤ m.vTerm)
  a.onFio f fun c =>
    { c with limit := c.limit.step (on && m.limit) a.tick
             ext := c.ext.step ((!on && c.retryAt.isNone && high) || (on && !high && !m.limit)) a.tick
             openW := c.openW.step (on && decide (m.iOut < 5) && a.on (Reg.FIO_CFG_open_det f)) a.tick }

/-- Overload: set after 2 ms of current limit or at thermal shutdown, cleared after diag_time without (R445); `c` is the channel
as the measurement left it. -/
def App.fioOverload (a : App) (f : Nat) (thermal : Bool) (c : FioCh) : App :=
  let on := a.on (Reg.FIO_STAT_on f)
  if on && (thermal || (c.limit.on && a.since c.limit.at_ (2 * tMs))) then
    ((a.onFio f fun c => { c with overload := true }).fioTrip f).fioRecord f 10 c.retries a.edgeNow
  else if c.overload && on && !c.limit.on && a.since c.limit.at_ (a.fioDiagTime f) then
    (a.onFio f fun c => { c with overload := false, retries := 0 }).fioRecord f 11 c.retries a.edgeNow
  else a

/-- External drive, set or cleared once its condition has lasted diag_time (R444). -/
def App.fioExt (a : App) (f vTerm : Nat) (c : FioCh) : App :=
  if c.ext.on != c.extDrive && a.since c.ext.at_ (a.fioDiagTime f) then
    (a.onFio f fun x => { x with extDrive := c.ext.on }).fioRecord f (if c.ext.on then 8 else 9) vTerm a.edgeNow
  else a

/-- Open load, set or cleared once its condition has lasted diag_time (R444). -/
def App.fioOpen (a : App) (f iOut : Nat) (c : FioCh) : App :=
  if c.openW.on != c.openLoad && a.since c.openW.at_ (a.fioDiagTime f) then
    (a.onFio f fun x => { x with openLoad := c.openW.on }).fioRecord f (if c.openW.on then 12 else 13) iOut a.edgeNow
  else a

/-- OUTPUT_DIAGNOSIS (R444, R445): a measurement of an output, and the diagnoses that it sets or clears. -/
def execOutputDiagnosis (ch : Fin 32) (meas : OutMeas) (s : State) : Outcome State Fault Refusal :=
  s.onIsland fun a =>
    if !a.fioOut ch || (vat a.fio.ch ch).islandOff then a
    else
      let a := a.fioMeasure ch meas
      let c := vat a.fio.ch ch
      let a := ((a.fioOverload ch meas.thermal c).fioExt ch meas.vTerm c).fioOpen ch meas.iOut c
      a.set (Reg.FIO_STAT_diag ch) (a.fioDiag ch)

/-- OVERLOAD_RETRY (R445): after the retry interval the group closes again if its command is still on. -/
def execOverloadRetry (ch : Fin 32) (s : State) : Outcome State Fault Refusal :=
  s.onIsland fun a =>
    if a.passed (vat a.fio.ch ch).retryAt 0 then
      (a.fioGroup (a.fioLead ch)).foldl (fun a g =>
        (a.onFio g fun c => { c with retryAt := none, retries := if c.overload && a.on (Reg.FIO_STAT_cmd g) then c.retries + 1 else c.retries,
                                     limit := ⟨false, a.tick⟩ }).fioDrive g) a
    else a

/-- FIELD_SILENCE (R447): the island has heard no valid logic frame for the silence time. -/
def execFieldSilence (ch : Fin 32) (s : State) : Outcome State Fault Refusal :=
  s.onIsland fun a => if a.fioOut ch then (a.onFio ch fun c => { c with silent := true }).fioDrive ch else a

/-- FIELD_SILENCE_END (R447): a logic frame reaches the island, which follows its permit bit. -/
def execFieldSilenceEnd (ch : Fin 32) (s : State) : Outcome State Fault Refusal :=
  s.onApp fun a =>
    if (vat a.fio.ch ch).silent then ((a.onFio ch fun c => { c with silent := false }).fioFrame ch).fioDrive ch else a

/-- FIELD_SUPPLY_RISE (R448): the island starts with its output off until it is first permitted. -/
def execFieldSupplyRise (ch : Fin 32) (s : State) : Outcome State Fault Refusal :=
  s.onIsland fun a =>
    (a.onFio ch fun c => { c with once := false, hold := false, retryAt := none, retries := 0, overload := false }).fioDrive ch

/-! ### Field supplies (R449, R450) -/

/-- A supply event waits for the urgent conversion that it asks for (R449). -/
def App.fsEvent (a : App) (s event : Nat) : App :=
  let t := a.edgeNow
  ({ a with fio := { a.fio with waiting := a.fio.waiting ++ [(s, event, t)] } }).auxUrgent (4 + s)

/-- The urgent conversion of a supply has ended: the records that waited for it carry its result (R449, R451). -/
def App.fsConverted (a : App) (s : Nat) : App :=
  let v := if s = 0 then a.get Reg.FIO_FSVAL_fsa else a.get Reg.FIO_FSVAL_fsb
  let l := a.fio.waiting.filter (fun e => e.1 == s)
  let a := { a with fio := { a.fio with waiting := a.fio.waiting.filter (fun e => e.1 != s) } }
  l.foldl (fun a e => a.fioPost (0x40 + s) e.2.1 0 0 v e.2.2) a

/-- The channels of a supply. -/
def fsChannels (s : Nat) : List Nat := (upto 16).map (16 * s + ·)

/-- FS_LOW (R449): a supply crosses the fs_low threshold. -/
def execFsLow (supply : Fin 2) (low : Bool) (s : State) : Outcome State Fault Refusal :=
  s.onApp fun a =>
    if a.on (Reg.fsLow supply) == low then a
    else
      let a := a.setB (Reg.fsLow supply) low
      let a := if low then a else a.onSup supply fun x => { x with lowClearAt := a.tick }
      a.fsEvent supply (if low then 16 else 17)

/-- FS_DEAD (R449, R450): the supply is latched off and its inputs are invalid. -/
def execFsDead (supply : Fin 2) (s : State) : Outcome State Fault Refusal :=
  s.onApp fun a =>
    if a.on (Reg.fsDead supply) then a
    else
      let a := ((a.setB (Reg.fsDead supply) true).setB (Reg.fsLatched supply) true).satAdd (Reg.fsCount supply) 1
      let a := a.onSup supply fun x => { x with deadAt := a.tick, enableAt := none }
      ((fsChannels supply).foldl (fun a f => a.fioShow f false) a).fsEvent supply 18

/-- FS_DEAD_CLEAR (R449): each input becomes valid again when its next debounce completes. -/
def execFsDeadClear (supply : Fin 2) (s : State) : Outcome State Fault Refusal :=
  s.onApp fun a =>
    if a.on (Reg.fsDead supply) then
      (fsChannels supply).foldl (fun a f => (a.onFio f fun c => { c with deadWait := some a.tick }).fioShow f false)
        (a.setB (Reg.fsDead supply) false)
    else a

/-- OUTPUT_SHUTDOWN_SLOT (R450): a group switches off in the slot of its highest member. -/
def execOutputShutdownSlot (ch : Fin 32) (s : State) : Outcome State Fault Refusal :=
  s.onIsland fun a => (a.fioGroup (a.fioLead ch)).foldl App.fioDrive a

/-- LATCH_RELEASE (R450): fs_low has stayed clear for recover. -/
def execLatchRelease (supply : Fin 2) (s : State) : Outcome State Fault Refusal :=
  s.onApp fun a =>
    if a.on (Reg.fsLatched supply) && !a.on (Reg.fsLow supply) && !a.on (Reg.fsDead supply)
        && a.since (vat a.fio.sup supply).lowClearAt (a.get Reg.FIO_CTL_recover * 10 * tMs) then
      let a := a.setB (Reg.fsLatched supply) false
      let a := if a.on (Reg.fsRearm supply) then a else a.onSup supply fun x => { x with enableAt := some (a.tick, false) }
      a.fioPost (0x40 + supply) 19 0 0 0 a.edgeNow
    else a

/-- CHANNEL_REENABLE (R450): a group is re-enabled in the slot of its lowest member. -/
def execChannelReenable (ch : Fin 32) (s : State) : Outcome State Fault Refusal :=
  s.onApp fun a =>
    let l := a.fioLead ch
    match (vat a.fio.sup (ch.val / 16)).enableAt with
    | some (t, manual) =>
      if (vat a.fio.ch ch).off && !a.on (Reg.fsLatched (ch.val / 16)) && a.since t (l % 16 * tMs) then
        let a := (a.fioGroup l).foldl (fun a g => (a.onFio g fun c => { c with off := false }).fioDrive g) a
        a.fioRecord l 20 manual.toNat a.edgeNow
      else a
    | none => a

/-- The effect of FIELD_REARM: refused until the latch of the supply has been released (R450). -/
def opFieldRearm (supply : Byte) (a : App) : App × Reply :=
  let s := supply.toNat
  if a.on (Reg.fsLatched s) then (a, .final Status.state [])
  else if (vat a.fio.sup s).enableAt.isSome then (a, .final Status.ok [])
  else (a.onSup s fun x => { x with enableAt := some (a.tick, true) }, .final Status.ok [])

/-- FIELD_REARM (R450). -/
def execFieldRearm (h : CmdHdr) (supply : Byte) (s : State) : Outcome State Fault Refusal :=
  s.onApp fun a => a.process h (.fieldRearm supply) (firstFail [(0, supply.toNat ≤ 1)]) [] (opFieldRearm supply)

end Sys2Proof.Machine
end

