-- ==== Sys2Proof/Machine/Program.lean ====
section
/-! DEFINITION. The control program: releases, faults, program start and stop, retained copies (R339, R343, R344,
R351 to R364, R391, R397 to R399, R422, R423). -/

namespace Sys2Proof.Machine

open Host

/-! ### Slots, images and tasks -/

/-- The slot states (R339, R366). -/
def Slot.empty : Nat := 0
def Slot.loaded : Nat := 1
def Slot.verified : Nat := 2
def Slot.running : Nat := 3
def Slot.invalid : Nat := 4

/-- The state field of a slot. -/
def Reg.slotState (s : Nat) : Fld := if s = 0 then Reg.CSC_PSTAT_slot_a else Reg.CSC_PSTAT_slot_b

/-- The image of a slot, of the running program, and the one whose code the cores execute (R351). -/
def App.img (a : App) (s : Nat) : Image := vat a.ctl.slots s
def App.runImage (a : App) : Image := match a.ctl.running with
  | some s => a.img s
  | none => []
def App.code (a : App) : Image := match a.ctl.init with
  | some i => a.img i.slot
  | none => a.runImage

/-- The task-table entry of a task in the running image; without one, all zero. -/
def App.entry (a : App) (t : Nat) : List Byte := (a.runImage.task t).getD []

/-- Whether the running image has a task that is released (R642). -/
def App.released (a : App) (t : Nat) : Bool :=
  match a.runImage.task t with
  | some e => tkEnabled e
  | none => false

/-- A change to a task and to a core. -/
def App.onTask (a : App) (t : Nat) (f : TaskSt → TaskSt) : App := a.onCtl fun c => { c with tasks := vup c.tasks t f }
def App.onCore (a : App) (k : Nat) (f : CtlCore → CtlCore) : App := a.onCtl fun c => { c with cores := vup c.cores k f }
def App.task (a : App) (t : Nat) : TaskSt := vat a.ctl.tasks t
def App.core (a : App) (k : Nat) : CtlCore := vat a.ctl.cores k

/-- The state of a core: 0 Idle, 1 Busy, 2 Testing, 3 Offline (R368, R405). -/
def App.coreState (a : App) (k : Nat) : Nat := bitsOf (a.get Reg.CSC_CSTAT_cores) (2 * k) 2
def App.setCore (a : App) (k v : Nat) : App :=
  let x := a.get Reg.CSC_CSTAT_cores
  a.set Reg.CSC_CSTAT_cores (x - bitsOf x (2 * k) 2 * 4 ^ k + v * 4 ^ k)

/-- The dispatcher states (R399, R405). -/
def Disp.idle : Nat := 0
def Disp.pending : Nat := 1
def Disp.inService : Nat := 2
def Disp.replay : Nat := 3
def Disp.faulted : Nat := 4

def App.disp (a : App) (t : Nat) : Nat := a.get (Reg.CSC_TDSP_dstate t)

/-- The counts of items waiting and in service. -/
def App.showItems (a : App) : App :=
  let l := (upto 64).map a.disp
  (a.set Reg.CSC_CSTAT_pending (l.filter (fun d => d == 1 || d == 3)).length).set Reg.CSC_CSTAT_in_service (l.filter (· == 2)).length

/-- A task takes a dispatcher state; the core field shows the core of an item in service. -/
def App.setDisp (a : App) (t d core : Nat) : App :=
  ((a.set (Reg.CSC_TDSP_dstate t) d).set (Reg.CSC_TDSP_core t) core).showItems

/-- A core gives up its item. -/
def App.clearCore (a : App) (k st : Nat) : App := (a.onCore k fun _ => { testAt := a.tick }).setCore k st

/-- Whether an item of task `t` stands on a core. -/
def CtlCore.runs (c : CtlCore) (t : Nat) : Bool := c.item == some (.task t)

/-! ### Points of tasks (R363) -/

/-- The task-written points of one task, or of all. -/
def App.taskPoints (a : App) (t : Option Nat) : List Nat :=
  (upto a.ctl.points.length).filter (fun i => (a.point i).kind == 0 && (t.all (fun t => (a.point i).writer == t)))

/-- Output points keep their values with oldData and validity questionable; trip requests read deasserted (R363). -/
def App.stalePoints (a : App) (t : Option Nat) : App :=
  (a.taskPoints t).foldl (fun a i =>
    (a.putPoint i (a.written i).value (qualOld 3 (a.written i).quality) a.w64 a.tqc a.tsc).showTrip i) a

/-! ### Skim: leaving a change (R408, R419) -/

/-- The running long operation of a Skim command. -/
def App.skimLong (a : App) : Option LongOp :=
  (a.cmd.long.toList.filterMap id).find? (fun l => match l.op with
    | .skimPrepare .. | .skimRollback => true
    | _ => false)

/-- A change in progress is left: its commands conclude, the image runs as before. -/
def App.skimLeave (a : App) (st : Nat) (result : List Byte) : App :=
  match a.ctl.skim with
  | none => a
  | some k =>
    let a := match a.skimLong with
      | some l => a.endLong l st result
      | none => a
    let a := match k.switchCmd with
      | some h => a.conclude h (.skimSwitch 0) (.final st result)
      | none => a
    let a := a.onCtl fun c => { c with skim := none, stopSel := false }
    (a.set Reg.CSC_SKSTAT_phase (if a.ctl.window.isSome then 4 else 0)).setB Reg.CSC_SKSTAT_reverse false

/-- A change that has not switched is abandoned, with its record (R408). -/
def App.skimDrop (a : App) (why : Nat) : App :=
  if a.ctl.skim.isNone then a
  else
    let steps := (a.skimLong.map (·.steps)).getD 0
    ((a.skimLeave Status.cancelled (le 4 steps)).set Reg.CSC_SKSTAT_last 3).record 0x0044 why 0 0 0

/-- A change becomes final: its image's slot is Running, the slot of the old image Verified (R419). -/
def App.skimFinal (a : App) : App :=
  match a.ctl.window, a.ctl.running with
  | some w, some s =>
    let a := a.onCtl fun c => { c with window := none }
    let a := (a.set (Reg.slotState w.slot) Slot.verified).set (Reg.slotState s) Slot.running
    (a.set Reg.CSC_SKSTAT_phase 0).set Reg.CSC_SKSTAT_last 1
  | _, _ => a

/-! ### Control state (R364, R399) -/

/-- A skipped release, which counts in overruns (R344). -/
def App.countSkip (a : App) (t : Nat) : App := a.satAdd (Reg.CSC_TSTAT_overruns t) 1

/-- The control state changes: a pending release is skipped on Stop and Hold (R364, R399). -/
def App.setCstate (a : App) (v : Nat) : App :=
  let old := a.cstate
  if old = v then a
  else
    let a := (a.set Reg.CSC_PSTAT_cstate v).postMode 2 0 old v
    if v = 0 ∨ v = 2 then
      (upto 64).foldl (fun a t =>
        if a.disp t = Disp.pending then ((a.onTask t fun x => { x with pend := none }).countSkip t).setDisp t Disp.idle 0 else a) a
    else a

/-- Every task Idle, or still Faulted with `keep`, with its flows and slot free; the cores drop their items (R399). -/
def App.dropItems (a : App) (keep : Bool) : App :=
  let a := (upto 64).foldl (fun a t =>
    if keep && a.disp t == Disp.faulted then a
    else (a.onTask t fun x => { x with pend := none, scan := none }).set (Reg.CSC_TDSP_dstate t) 0 |>.set (Reg.CSC_TDSP_core t) 0) a
  ((upto 8).foldl (fun a k => if a.coreState k = 1 then a.clearCore k 0 else a) a).showItems

/-- The control state goes to Stop by a task fault: every task stops (R363, R408). -/
def App.faultStop (a : App) : App :=
  (((a.skimDrop 2).dropItems true).setCstate 0).stalePoints none

/-! ### Faults (R362, R363, R391, R392) -/

/-- A task fault: no release, stale points, trip requests deasserted, and Stop under fault_stop (R363). -/
def App.taskFault (a : App) (t code sub : Nat) : App :=
  let stop := tkFaultStop (a.entry t)
  let old := a.disp t
  let a := (a.set (Reg.CSC_TSTAT_tstate t) 2).set (Reg.CSC_TSTAT_fault t) code
  let a := (a.onTask t fun x => { x with pend := none, scan := none }).setDisp t Disp.faulted 0
  let a := (a.postState 22 t old Disp.faulted sub).stalePoints (some t)
  if stop then a.faultStop else a

/-- A skipped release that counts toward ovr_limit (R344). -/
def App.skip (a : App) (t : Nat) : App :=
  let a := (a.countSkip t).onTask t fun x => { x with skips := x.skips + 1 }
  if tkOvrLimit (a.entry t) ≤ (a.task t).skips then (a.record 0x0042 0 t 0 0).taskFault t 4 0 else a

/-- A scan is abandoned and its release counts as skipped: the run of skipped releases goes on through it (R344,
R391). -/
def App.abandon (a : App) (t : Nat) : App :=
  let a := a.onTask t fun x => { x with scan := none, skips := x.before + x.skips }
  (a.setDisp t Disp.idle 0).skip t

/-- A program start ends without a program: the instance whose routine failed, if one did (R351). -/
def App.initFail (a : App) (st : Nat) (result : List Byte) : App :=
  match a.ctl.init with
  | none => a
  | some i =>
    let a := (upto 8).foldl (fun a k => if a.coreState k = 1 then a.clearCore k 0 else a) a
    let a := a.onCtl fun c => { c with init := none }
    match i.cmd with
    | some h => a.conclude h (.startProgram (BitVec.ofNat 8 i.slot) 0) (.final st result)
    | none => a

/-- A fault of the item on a core (R391): its record, and by its class a replay, an abandoned scan or a task fault.
A core whose fault is of class Replay enters Testing; any other is Idle again. -/
def App.scanFault (a : App) (k sub : Nat) : App :=
  let c := a.core k
  let replay := sub == 1 || sub == 2
  match c.item with
  | none => a
  | some (.task t) =>
    let a := (a.record 0x0042 k t c.pc sub).clearCore k (if replay then 2 else 0)
    if replay then
      match (a.task t).scan with
      | some s =>
        if s.replay then a.taskFault t 1 sub
        else (a.onTask t fun x => { x with scan := some { s with replay := true, badCore := some k } }).setDisp t Disp.replay 0
      | none => a
    else if sub = 3 then a.abandon t
    else a.taskFault t (if sub = 4 then 2 else 3) sub
  | some (.init j) =>
    let a := (a.record 0x0042 k 64 c.pc sub).clearCore k (if replay then 2 else 0)
    if replay && !c.replay then a.onCtl fun x => { x with init := x.init.map (fun i => { i with queue := (j, some k) :: i.queue }) }
    else a.initFail Status.check (le 4 j)

/-! ### Releases (R343, R344, R397) -/

/-- The first release of a program since the reset (R596, R601). -/
def App.firstRelease (a : App) : App :=
  if a.life.ctlDone then a
  else { a with life := { a.life with ctlDone := true } }.set Reg.LCY_BOOT_ctl_ms (min 65535 ((a.tick - a.life.bootAt) / tMs))

/-- A release of a task (R344, R399): accepted by an Idle task in Run and Skim, else skipped. A module that follows its
partner releases nothing of its own (R575). -/
def App.releaseTask (a : App) (t : Nat) (r : Release) : App :=
  if !a.released t || a.disp t == Disp.faulted || !a.leads then a
  else
    let a := a.onTask t fun x => { x with cycle := x.cycle + 1 }
    if a.cstate = 0 ∨ a.cstate = 2 then a.countSkip t
    else if a.disp t = Disp.idle then
      let a := a.firstRelease
      (a.onTask t fun x => { x with pend := some { r with cycle := x.cycle }, pendAt := a.tick, before := x.skips, skips := 0 }).setDisp t Disp.pending 0
    else a.skip t

/-- Whether the flags of an event task meet its condition (R397). -/
def App.condition (a : App) (t : Nat) : Bool :=
  let e := a.entry t
  let m := tkMask e
  let f := a.get (Reg.CSC_FLAG_flags t) &&& m
  m != 0 && (if tkAll e then f == m else f != 0)

/-- Whether the running image has an event task of an index. -/
def App.isEvent (a : App) (t : Nat) : Bool :=
  match a.runImage.task t with
  | some e => tkTrigger e == 1
  | none => false

/-- An Idle event task whose condition is met is released, with this cycle's wall time (R397). -/
def App.evaluate (a : App) (t : Nat) : App :=
  if a.isEvent t && a.released t && a.disp t == Disp.idle && (a.cstate == 1 || a.cstate == 3) && a.condition t then
    a.releaseTask t { ts := a.w64, tq := a.tqc, tsc := a.tsc }
  else a

/-! ### Compare units of a program (R71, R105, R365) -/

/-- The supervisor writes a wall compare unit and sets its own bit (R71). -/
def App.takeWall (a : App) (n tgt per dest idx : Nat) : App :=
  let a := (a.set (Reg.TIM_CMP_TGT_S_tgt_s n) (tgt / 1000000000)).set (Reg.TIM_CMP_TGT_NS_tgt_ns n) (tgt % 1000000000)
  let a := ((a.set (Reg.TIM_CMP_PER_period_ns n) per).set (Reg.TIM_CMP_CTL_dest n) dest).set (Reg.TIM_CMP_CTL_dest_index n) idx
  let a := (a.setB (Reg.TIM_CMP_CTL_own n) true).setB (Reg.TIM_CMP_CTL_en n) true
  a.onTim fun t => { t with served := vput t.served n false, lateReq := vput t.lateReq n false }

/-- A free wall unit: neither enabled nor owned. -/
def App.freeWall (a : App) : Option Nat :=
  (upto 16).find? (fun n => !a.on (Reg.TIM_CMP_CTL_en n) && !a.on (Reg.TIM_CMP_CTL_own n))

/-- The first release instant of a cyclic task at or after an instant (R343). -/
def firstAt (e : List Byte) (t : Nat) : Nat :=
  let p := tkPeriod e * 1000
  let ph := tkPhase e * 1000
  if p = 0 then t else t + (ph + p - t % p) % p

/-- The units of tasks and CAN cycles that the program holds are released (R71, R105). -/
def App.dropUnits (a : App) : App :=
  let a := (upto 16).foldl (fun a n =>
    if a.on (Reg.TIM_CMP_CTL_own n) then
      ((a.setB (Reg.TIM_CMP_CTL_en n) false).set (Reg.TIM_CMP_CTL_dest n) 0).setB (Reg.TIM_CMP_CTL_own n) false
    else a) a
  (upto 4).foldl (fun a b => (upto 8).foldl (fun a u =>
    if a.on (Reg.ANG_CMP_CTL_own b u) && a.get (Reg.ANG_CMP_CTL_dest b u) == 3 then a.freeUnitOf b u else a) a) a

/-- The unit of one released task: cyclic from an instant, angle from its clock's next pass of the target (R343). -/
def App.taskUnit (a : App) (from_ : Nat) (e : List Byte) : App :=
  let t := numAt e 0 1
  if !tkEnabled e then a
  else if tkTrigger e = 0 then
    match a.freeWall with
    | some n => a.takeWall n (firstAt e from_) (tkPeriod e * 1000) 2 t
    | none => a
  else if tkTrigger e = 2 then
    match a.freeUnit (tkBay e) with
    | some u =>
      let now := a.a48 (tkBay e)
      let x := now / 65536 * 65536 + tkAngTgt e
      a.takeUnit (tkBay e) u ((if x ≤ now then x + 65536 else x) % 2 ^ 48) (if tkAngPer e = 0 then 65536 else tkAngPer e) 3 t false
    | none => a
  else a

/-- The basic-cycle unit of a CAN schedule whose owner is cyclic (R365). -/
def App.canUnit (a : App) (from_ : Nat) (m : Image) (i : Nat) : App :=
  let e := m.remoteEnt i
  match m.task (numAt e 1 1), a.freeWall with
  | some k, some n => if numAt e 0 1 = 1 ∧ tkEnabled k = true then a.takeWall n (firstAt k from_) (tkPeriod k * 1000) 3 (numAt e 2 2) else a
  | _, _ => a

/-- The units that an image assigns, from the first instants after now or from `from_` on. -/
def App.takeUnits (a : App) (from_ : Nat) : App :=
  let m := a.runImage
  let a := m.tasks.foldl (fun a e => a.taskUnit from_ e) a
  (upto m.nremote).foldl (fun a i => if (m.sect 9).isEmpty then a else a.canUnit from_ m i) a

/-! ### Retained data (R357, R358, R360) -/

/-- The bytes of the retained ranges, in layout order, and their restoration into instance data. -/
def retBytes (m : Image) (d : Mem) : List Byte := m.retRanges.flatMap (fun r => d.read r.1 r.2)
def retRestore (d : Mem) (bytes : List Byte) : List (Nat × Nat) → Mem
  | [] => d
  | (o, n) :: t => retRestore (d.write o (bytesAt bytes 0 n)) (bytes.drop n) t

/-- The offset in instance data of a place in the retained bytes, or that place's own when it lies past them. -/
def retPlace (m : Image) (p : Nat) : Option Nat :=
  let rec go : List (Nat × Nat) → Nat → Option Nat
    | [], _ => none
    | (o, n) :: t, p => if p < n then some (o + p) else go t (p - n)
  go m.retRanges p

/-- A changed range of the journal put back: its offset counts in the retained bytes. -/
def applyRange (m : Image) (d : Mem) (r : Nat × List Byte) : Mem :=
  (upto r.2.length).foldl (fun d i => match retPlace m (r.1 + i) with
    | some o => d.put o (r.2.getD i 0)
    | none => d) d

/-- The journal records after a copy that an image's warm start applies, oldest first: up to a Skim record that leaves
the image (R360, R420). -/
def replayRecords (m : Image) (seq : Nat) : List JRec → List JRec
  | [] => []
  | .skim o n ts s :: t => if o = m.fp ∧ seq ≤ s then [] else .skim o n ts s :: replayRecords m seq t
  | .commit k tq tsc s cy ts sc oc rs ac :: t =>
    if seq < s then .commit k tq tsc s cy ts sc oc rs ac :: replayRecords m seq t else replayRecords m seq t

/-- Instance data from a retained copy and the records later than it. -/
def warmData (m : Image) (d : Mem) (c : RetCopy) (journal : List JRec) : Mem :=
  (replayRecords m c.seq journal.reverse).foldl (fun d r => match r with
    | .commit _ _ _ _ _ _ _ _ rs _ => rs.foldl (applyRange m) d
    | .skim .. => d) (retRestore d c.data m.retRanges)

/-- The runtime records of an instance: offset, whether retained, whether an edge record (R351). -/
def instRecords (m : Image) (j : Nat) : List (Nat × Bool × Bool) :=
  let e := m.inst j
  ((m.records e.typ).getD []).map (fun w => (e.off + w % 2 ^ 20, bitOf w 30, bitOf w 31))

/-- The timer and edge records at a start: those that a warm start restores stay (R357, R358). -/
def startRecords (m : Image) (warm : Bool) (d : Mem) : Mem :=
  ((upto m.ninst).flatMap (instRecords m)).foldl (fun d r =>
    if warm && r.2.1 then d
    else if r.2.2 then d.put r.1 (BitVec.ofNat 8 (putBit (d.get r.1).toNat 1 false))
    else d.put (r.1 + 16) (BitVec.ofNat 8 ((d.get (r.1 + 16)).toNat / 4 * 4))) d

/-- The restart policy of one retained timer at the first scan of its task (R357). -/
def warmTimer (r : Release) (last : Option (Nat × Nat × Nat)) (d : Mem) (o : Nat) : Mem :=
  let fl := (d.get (o + 16)).toNat
  let policy := bitsOf fl 2 2
  let start := numAt (d.read o 8) 0 8
  let preset := numAt (d.read (o + 8) 8) 0 8
  let (tq, tsc) := ((d.get (o + 17)).toNat, (d.get (o + 18)).toNat)
  if policy = 0 then d.put (o + 16) (BitVec.ofNat 8 (fl / 4 * 4))
  else if !bitOf fl 0 then d
  else
    let elapsed := match last with
      | some (ts, _, _) => min preset (ts - start)
      | none => 0
    let d1 := d.write o (le 8 ((r.ts + 2 ^ 64 - elapsed) % 2 ^ 64))
    if policy = 1 then d1
    else if tq ≤ 4 ∧ r.tq ≤ 4 ∧ (last.map (fun l => l.2.2)) = some tsc ∧ r.tsc = 0 then d
    else (d1.put (o + 17) (BitVec.ofNat 8 r.tq)).put (o + 18) (BitVec.ofNat 8 r.tsc)

/-- The first scan after a warm start: the retained timers of the task's instances take their policy (R357). -/
def App.warmTimers (a : App) (t : Nat) (r : Release) : App :=
  if !(a.task t).warmFix then a
  else
    let m := a.runImage
    let own := (upto m.ninst).filter (fun j => (m.inst j).owner == t)
    let recs := (own.flatMap (instRecords m)).filter (fun x => x.2.1 && !x.2.2)
    let last := (a.ctl.lastScan.find? (fun l => l.1 == t)).map (·.2)
    let a := a.onTask t fun x => { x with warmFix := false }
    a.onCtl fun c => { c with inst := vup c.inst c.region (fun d => recs.foldl (fun d x => warmTimer r last d x.1) d) }

/-! ### Program start (R351, R358, R359, R423) -/

/-- The points of an image at a start (R352, R358). -/
def App.startPoints (a : App) (m : Image) : List Point :=
  (upto m.npoints).map (fun i =>
    let p := m.point i
    let v : PointVal := if ptKind p = 5 then
        ⟨typeValue (ptType p) (BitVec.ofNat 64 (numAt p 8 8)), BitVec.ofNat 64 a.now, pointQual (BitVec.ofNat 16 (numAt p 16 2)) a.tqc,
         BitVec.ofNat 8 a.tqc, BitVec.ofNat 8 a.tsc⟩
      else ⟨0, BitVec.ofNat 64 a.now, pointQual 1#16 a.tqc, BitVec.ofNat 8 a.tqc, BitVec.ofNat 8 a.tsc⟩
    { v := v, typ := ptType p, kind := ptKind p, writer := ptWriter p, trip := ptTrip p })

/-- A force matched against a point table, with its index kept (R423). -/
def matchForce (pts : List Point) (f : Force) : Force :=
  if pts.length ≤ f.point then { f with orphan := true, reason := 1, shadow := none }
  else if (pts.getD f.point {}).typ ≠ f.typ then { f with orphan := true, reason := 2, shadow := none }
  else { f with orphan := false, reason := 0, shadow := none }

/-- The forces that remain when several stand on one point: an orphan that becomes active again yields to an active
one. -/
def dedupForces : List Force → List Force
  | [] => []
  | f :: t => if !f.orphan && t.any (fun g => !g.orphan && g.point == f.point) then dedupForces t else f :: dedupForces t

/-- One entry of an image's force table (R353, R423). -/
def App.tableForce (a : App) (e : List Byte) : App :=
  let i := numAt e 0 4
  if (a.forceOf i).isSome ∨ 4096 ≤ a.ctl.forces.length then a.raise Reg.CSC_FSTAT_table_ignored
  else a.forcePut i (BitVec.ofNat 16 (numAt e 4 2)) (BitVec.ofNat 64 (numAt e 8 8)) (BitVec.ofNat 32 (numAt e 20 4)) 16

/-- The entries of an image's force table. -/
def App.tableForces (a : App) (m : Image) : App :=
  if (m.sect 8).isEmpty then a else (upto m.nforces).foldl (fun a i => a.tableForce (m.forceEnt i)) a

/-- The points of an auxiliary slot take its last record (R345, R348). -/
def App.auxPoints (a : App) (w : Nat) : App :=
  match a.ana.aux.recs.find? (fun e => e.1 == w) with
  | none => a
  | some (_, r) => a.putWriter 2 w (BitVec.ofInt 64 r.value.toInt) (BitVec.ofNat 16 (8 * (bitOf r.flags.toNat 1).toNat)) r.stamp.toNat r.tq.toNat r.tsc.toNat

/-- Points and forces at a start. -/
def App.loadPoints (a : App) (m : Image) : App :=
  let pts := a.startPoints m
  let a := a.onCtl fun c => { c with points := pts, forces := dedupForces (c.forces.map (matchForce pts)) }
  let a := (upto 64).foldl (fun a n => a.setInp (0x840 + n) false) a
  let a := a.ctl.forces.foldl (fun a f => if f.orphan then a else a.setRecord f.point (forcedVal f a.tsc)) a
  let a := (a.showForces).tableForces m
  let a := (upto 32).foldl (fun a f => a.fioShow f true) a
  (upto 256).foldl App.auxPoints a

/-- The initialisation routines are through, or there are none: the program runs (R351, R359). -/
def App.startDone (a : App) : App :=
  match a.ctl.init with
  | none => a
  | some i =>
    let m := a.img i.slot
    let a := a.onCtl fun c => { c with init := none, running := some i.slot, copyAt := a.tick }
    let a := (a.set (Reg.slotState i.slot) Slot.running).set Reg.CSC_PSTAT_slot i.slot
    let a := (a.setB Reg.CSC_PSTAT_warm i.warm).set Reg.CSC_FPRINT_fingerprint m.fp
    let a := m.tasks.foldl (fun a e => if tkEnabled e then a.set (Reg.CSC_TSTAT_tstate (numAt e 0 1)) 1 else a) a
    let a := ((a.setCstate 1).takeUnits (a.now + 1)).record 0x0043 i.slot i.warm.toNat i.reason 0
    match i.cmd with
    | some h => a.conclude h (.startProgram (BitVec.ofNat 8 i.slot) 0) (.final Status.ok (le 1 i.warm.toNat))
    | none => a

/-- Start the image of a slot: instance data, points and forces, then the initialisation routines (R351, R357 to R359).
The program that ran before ends. -/
def App.startProgram (a : App) (slot : Nat) (warm : Bool) (cmd : Option CmdHdr) : App :=
  let m := a.img slot
  let a := match a.ctl.running with
    | some s => a.set (Reg.slotState s) Slot.verified
    | none => a
  let a := ((a.dropItems false).setCstate 0).dropUnits
  let a := (upto 64).foldl (fun a t =>
    ((((a.set (Reg.CSC_FLAG_flags t) 0).set (Reg.CSC_TSTAT_tstate t) 0).set (Reg.CSC_TSTAT_fault t) 0).set (Reg.CSC_TSTAT_replays t) 0).set
      (Reg.CSC_TSTAT_overruns t) 0 |>.set (Reg.CSC_TDSP_peak_wait t) 0) a
  let copy := a.ctl.copies.find? (fun c => c.fpRetain == m.fpRetain)
  let doWarm := warm && copy.isSome
  let reason := if warm && !doWarm then (if a.ctl.copies.isEmpty then 1 else 2) else 0
  let d0 := Mem.write [] 0 (m.sect 5)
  let d := match copy with
    | some c => if doWarm then warmData m d0 c a.ctl.journal else d0
    | none => d0
  let d := startRecords m doWarm d
  let routines := (upto m.ninst).filter (fun j => (m.typ (m.inst j).typ).2.2.1 != 0xFFFFFFFF)
  let a := a.onCtl fun c =>
    { c with inst := vput c.inst c.region d, running := none, sets := [], cancels := [], actions := [], stopSel := false
             tasks := Vector.ofFn fun t => { warmFix := doWarm && (m.task t.val).isSome }
             init := some { queue := routines.map (fun j => (j, none)), cmd := cmd, warm := doWarm, slot := slot, reason := reason } }
  let a := (a.set Reg.CSC_FPRINT_fingerprint 0).loadPoints m
  if routines.isEmpty then a.startDone else a

/-- The effect of START_PROGRAM (R339, R359). -/
def opStartProgram (h : CmdHdr) (slot warm : Byte) (a : App) : App × Reply :=
  let st := a.get (Reg.slotState slot.toNat)
  if a.cstate = 3 ∨ a.ctl.window.isSome ∨ a.ctl.skim.isSome ∨ a.ctl.init.isSome ∨ ¬(st = Slot.verified ∨ st = Slot.running) then
    (a, .final Status.state [])
  else (a.startProgram slot.toNat (warm == 1#8) (some h), .later)

/-- START_PROGRAM (R359). -/
def execStartProgram (h : CmdHdr) (slot warm : Byte) (s : State) : Outcome State Fault Refusal :=
  s.onApp fun a => a.process h (.startProgram slot warm) (firstFail [(0, slot.toNat ≤ 1), (1, warm.toNat ≤ 1)]) [8]
    (opStartProgram h slot warm)

/-- The program ends: no image Running, its units released, its points stale (R339, R363, R399, R408, R419). -/
def App.stopProgram (a : App) : App :=
  match a.ctl.running with
  | none => a
  | some s =>
    let a := ((a.skimDrop 1).skimFinal).dropItems false
    let a := (((a.setCstate 0).dropUnits).stalePoints none).set (Reg.slotState s) Slot.verified
    let a := (upto 64).foldl (fun a t => (a.set (Reg.CSC_FLAG_flags t) 0).set (Reg.CSC_TSTAT_tstate t) 0) a
    (a.onCtl fun c => { c with running := none, sets := [], cancels := [] }).set Reg.CSC_FPRINT_fingerprint 0

/-- The effect of STOP_PROGRAM: it ends a start in progress too (R339). -/
def opStopProgram (a : App) : App × Reply :=
  if a.ctl.init.isSome then (a.initFail Status.cancelled [], .final Status.ok [])
  else if a.ctl.running.isNone then (a, .final Status.state [])
  else (a.stopProgram, .final Status.ok [])

/-- STOP_PROGRAM (R339). -/
def execStopProgram (h : CmdHdr) (s : State) : Outcome State Fault Refusal :=
  s.onApp fun a => a.process h .stopProgram none [8] opStopProgram

/-- The effect of HOLD_PROGRAM: Run to Hold, or Hold to Run (R364). -/
def opHoldProgram (hold : Byte) (a : App) : App × Reply :=
  if a.cstate = 1 ∨ a.cstate = 2 then (a.setCstate (if hold = 1#8 then 2 else 1), .final Status.ok [])
  else (a, .final Status.state [])

/-- HOLD_PROGRAM (R364). -/
def execHoldProgram (h : CmdHdr) (hold : Byte) (s : State) : Outcome State Fault Refusal :=
  s.onApp fun a => a.process h (.holdProgram hold) (firstFail [(0, hold.toNat ≤ 1)]) [8] (opHoldProgram hold)

/-! ### Retained copies (R360, R414) -/

/-- The bytes of a journal record. -/
def JRec.size : JRec → Nat
  | .commit _ _ _ _ _ _ _ _ rs ac => 52 + rs.foldl (fun n r => n + 8 + r.2.length) 0 + 16 * ac.length
  | .skim .. => 40

/-- The number a record carries. -/
def JRec.seq : JRec → Nat
  | .commit _ _ _ s _ _ _ _ _ _ => s
  | .skim _ _ _ s => s

/-- The bytes of the command journal and of the tag records in the journal region, each entry as it also goes to the partner
(R28, R490, R492). -/
def App.cmdBytes (a : App) : Nat :=
  a.cmd.journal.foldl (fun n e => n + (journalBytes e.hdr e.op).length) 0 + a.cmd.tags.toList.foldl (fun n l => n + 60 * l.length) 0

/-- Free journal space, of 32 MiB shared by tasks and commands (R28). -/
def App.journalFree (a : App) : Nat := Region.journal.size - a.ctl.journal.foldl (fun n r => n + r.size) 0 - a.cmdBytes

/-- A copy into the area with the oldest copy, or within a rollback window into the third area; records not later than
the second-newest copy may go (R360, R414). -/
def App.takeCopy (a : App) : App :=
  let m := a.runImage
  let c : RetCopy := ⟨m.fpRetain, a.get Reg.CSC_COMMIT_commit_seq, retBytes m (vat a.ctl.inst a.ctl.region)⟩
  let rest := if a.ctl.window.isSome then a.ctl.copies.drop 1 else a.ctl.copies.take 2
  let keep := match rest with
    | x :: _ => x.seq
    | [] => 0
  (a.onCtl fun x => { x with copies := c :: rest, copyAt := a.tick
                             journal := if rest.isEmpty then x.journal else x.journal.filter (fun r => keep < r.seq) }).setB
    Reg.CSC_PSTAT_ret_valid true

/-- Whether the power-fail sequence has run for `n` ticks (R38). -/
def App.failedFor (a : App) (n : Nat) : Bool := match a.life.failAt with
  | some t => a.since t n
  | none => false

/-- RETAINED_COPY (R38, R360): every retain_period, and at once when the free journal space falls below 4 MiB. -/
def execRetainedCopy (s : State) : Outcome State Fault Refusal :=
  s.onApp fun a =>
    if a.ctl.running.isSome && !a.failedFor tMs && (a.since a.ctl.copyAt (a.get Reg.CSC_PCTL_retain_period * 100 * tMs)
        || decide (a.journalFree < 4 * 2 ^ 20)) then a.takeCopy
    else a

end Sys2Proof.Machine
end

