-- ==== Sys2Proof/Machine/Can.lean ====
section
/-! DEFINITION. The CAN FD buses: objects and points, the schedule of C0 to C9, the message memory of C10 and C11, bus
states, stamps and subscriptions (R541 to R563). -/

namespace Sys2Proof.Machine

open Host

/-! ### Parts (R541, R556, R557, R563) -/

/-- A change to the CAN part, to a bus and to a subscription. -/
def App.onCan (a : App) (f : CanSt → CanSt) : App := { a with can := f a.can }
def App.onBus (a : App) (b : Nat) (f : CanBus → CanBus) : App := a.onCan fun c => { c with bus := vup c.bus b f }
def App.onCanSub (a : App) (s : Nat) (f : CanSubSt → CanSubSt) : App := a.onCan fun c => { c with sub := vup c.sub s f }
def App.bus (a : App) (b : Nat) : CanBus := vat a.can.bus b

/-- The objects of a bus, and where one begins in the table space. -/
def canObjects (b : Nat) : Nat := if b < 10 then 64 else 100
def objAt (b o : Nat) : Nat := 0x2000 * b + 0x40 * o

/-- The bytes of an object, and its fields (R556). -/
def App.canObj (a : App) (b o : Nat) : List Byte := a.can.tbl.bytes (objAt b o) 64
def coOn (e : List Byte) : Bool := bitOf (numAt e 0 1) 0
def coTx (e : List Byte) : Bool := bitOf (numAt e 0 1) 1
def coIde (e : List Byte) : Bool := bitOf (numAt e 0 1) 2
def coFdf (e : List Byte) : Bool := bitOf (numAt e 0 1) 3
def coBrs (e : List Byte) : Bool := bitOf (numAt e 0 1) 4
def coTrig (e : List Byte) : Bool := bitOf (numAt e 0 1) 5
def coSendInv (e : List Byte) : Bool := bitOf (numAt e 0 1) 6
def coDlc (e : List Byte) : Nat := bitsOf (numAt e 1 1) 0 4
def coNmem (e : List Byte) : Nat := bitsOf (numAt e 1 1) 4 4
def coRxTo (e : List Byte) : Nat := numAt e 2 1
def coId (e : List Byte) : Nat := numAt e 4 4
def coMask (e : List Byte) : Nat := numAt e 8 4

/-- The payload length of a DLC. -/
def dlcLen (d : Nat) : Nat := if d ≤ 8 then d else [12, 16, 20, 24, 32, 48, 64].getD (d - 9) 64

/-- The used member words of an object, and the fields of one (R557). -/
def coMembers (e : List Byte) : List Nat := ((upto (coNmem e)).map (fun i => numAt e (16 + 4 * i) 4)).filter (fun w => bitOf w 26)
def mwPoint (w : Nat) : Nat := w % 65536
def mwByte (w : Nat) : Nat := bitsOf w 16 6
def mwBit (w : Nat) : Nat := bitsOf w 22 3
def mwBe (w : Nat) : Bool := bitOf w 25

/-- The used columns of a scheduled bus, as column and offset in ticks, from a column on (R550, R563). -/
def App.canColumns (a : App) (b j : Nat) : List (Nat × Nat) :=
  ((upto 64).filter (fun i => decide (j ≤ i) && bitOf (a.can.tbl.get (0x2000 * b + 0x1000 + 4 * i)) 24)).map
    (fun i => (i, a.can.tbl.get (0x2000 * b + 0x1000 + 4 * i) % 2 ^ 24 * tUs))

/-- A cell: its type and object (R551). -/
def App.canCell (a : App) (b c j : Nat) : Nat × Nat :=
  let o := 0x2000 * b + 0x1400 + 0x40 * c + j
  let v := bitsOf (a.can.tbl.get (o / 4 * 4)) (8 * (o % 4)) 8
  (v / 64, v % 64)

/-- The status word of an object: a frame sent or accepted, a fail, and the state (R556). -/
def App.canStat (a : App) (b o : Nat) : Nat := a.can.stat.get (objAt b o)
def App.setCanStat (a : App) (b o v : Nat) : App := a.onCan fun c => { c with stat := c.stat.put (objAt b o) v }
def App.canCount (a : App) (b o : Nat) : App :=
  let v := a.canStat b o
  a.setCanStat b o (v / 65536 * 65536 + (v + 1) % 65536)
def App.canFail (a : App) (b o : Nat) : App :=
  let v := a.canStat b o
  if bitsOf v 16 8 = 255 then a else a.setCanStat b o (v + 65536)
def App.canState (a : App) (b o st : Nat) : App := a.setCanStat b o (a.canStat b o % 2 ^ 24 + st * 2 ^ 24)

/-- What is kept of a receive object. -/
def App.canObjSt (a : App) (b o : Nat) : CanObjSt := (((a.bus b).objs.find? (fun x => x.1 == o)).map (·.2)).getD {}
def App.setCanObj (a : App) (b o : Nat) (x : CanObjSt) : App :=
  a.onBus b fun y => { y with objs := y.objs.filter (fun z => z.1 != o) ++ [(o, x)] }

/-- The writer index of the points of an object (R345). -/
def canWriter (b o : Nat) : Nat := 128 * b + o

/-- Whether a bus is in restricted operation or monitoring (R547, R609). -/
def App.canLimited (a : App) (b : Nat) : Bool := a.on (Reg.CAN_CFG_restricted b) || a.on (Reg.CAN_CFG_mon b) || !a.canPermit

/-- Whether a bus takes part in traffic: enabled and not bus-off (R546). -/
def App.canUp (a : App) (b : Nat) : Bool := a.on (Reg.CAN_CFG_en b) && a.get (Reg.CAN_STAT_state b) != 2

/-- CAN_STAT.limited of every bus. -/
def App.canShow (a : App) : App := (upto 12).foldl (fun a b => a.setB (Reg.CAN_STAT_limited b) (a.canLimited b)) a

/-! ### Stamps (R558 to R560) -/

/-- A pair latched at this tick. -/
def App.canPairNow (a : App) : CanPair := ⟨a.tick % 2 ^ 32, a.w64, a.tim.incr, a.tqc, a.tsc⟩
def App.canLatchPair (a : App) (b : Nat) : App := a.onBus b fun x => { x with pairs := (a.canPairNow :: x.pairs).take 8 }

/-- The latest pair latched at or before a stamp. -/
def App.canPair (a : App) (b ts : Nat) : CanPair :=
  ((a.bus b).pairs.find? (fun p => decide ((ts + 2 ^ 32 - p.ts) % 2 ^ 32 < 2 ^ 31))).getD a.canPairNow

/-- W64 of a stamp, rounded to 1 ns (R560). -/
def pairW64 (p : CanPair) (ts : Nat) : Nat :=
  (p.w64 + (((ts + 2 ^ 32 - p.ts) % 2 ^ 32) * p.incr.toNat + 2 ^ 31) / 2 ^ 32) % 2 ^ 64

/-! ### Subscriptions (R561) -/

/-- The block of a subscription ends. -/
def App.canBlockEnd (a : App) (s : Nat) : App :=
  a.onCanSub s fun x => if x.recs = [] then x else { x with recs := [], ready := x.ready ++ [(x.pair, x.recs)] }

/-- A record put in order of ts. -/
def insertRec (ts : Nat) (r : List Byte) : List (Nat × List Byte) → List (Nat × List Byte)
  | [] => [(ts, r)]
  | x :: t => if decide (2 ^ 31 ≤ (ts + 2 ^ 32 - x.1) % 2 ^ 32) then (ts, r) :: x :: t else x :: insertRec ts r t

/-- The bytes of the records of a block. -/
def recsSize (l : List (Nat × List Byte)) : Nat := l.foldl (fun n r => n + r.2.length) 0

/-- A record of a bus to the subscriptions that include it. -/
def App.canRecord (a : App) (b ts : Nat) (r : List Byte) : App :=
  let p := a.canPair b ts
  (upto 4).foldl (fun a s =>
    let x := vat a.can.sub s
    if !x.on || !bitOf (a.get (Reg.CAN_SUB_bus_mask s)) b then a
    else
      let a := if x.recs != [] && (x.pair.tsc != p.tsc || decide (16384 < 64 + recsSize x.recs + r.length)) then a.canBlockEnd s else a
      a.onCanSub s fun x => if x.recs = [] then { x with recs := [(ts, r)], pair := p, at_ := a.tick } else { x with recs := insertRec ts r x.recs }) a

/-- The column and the cycle index in force. -/
def App.canPlace (a : App) (b : Nat) : List Byte :=
  let x := a.bus b
  (match x.win with
   | some w => le 1 w.col
   | none => [0xFF]) ++ (if x.startAt.isSome then le 1 x.cyc else [0xFF])

/-- A frame record, kind 0 or 1. -/
def App.canFrameRec (a : App) (b kind ts id fmt : Nat) (data : List Byte) : App :=
  a.canRecord b ts (le 2 (16 + (data.length + 7) / 8 * 8) ++ le 1 b ++ le 1 kind ++ le 4 ts ++ le 4 id ++ le 1 fmt ++ le 1 data.length ++ a.canPlace b
    ++ padTo ((data.length + 7) / 8 * 8) data)

/-- An error or bus-state record, kind 2 or 3, with its bytes 8 to 11. -/
def App.canBusRec (a : App) (b kind ts w : Nat) : App :=
  a.canRecord b ts (le 2 16 ++ le 1 b ++ le 1 kind ++ le 4 ts ++ le 4 w ++ le 2 0 ++ a.canPlace b)

/-- The bytes of a block. -/
def App.canBlockBytes (a : App) (s : Nat) (p : CanPair) (recs : List (Nat × List Byte)) : List Byte :=
  let x := vat a.can.sub s
  le 1 3 ++ le 1 s ++ le 2 recs.length ++ le 4 x.seq.toNat ++ le 4 p.ts ++ le 4 0 ++ le 8 p.w64 ++ le 8 p.incr.toNat ++ le 1 p.tq ++ le 1 p.tsc
    ++ le 1 ((decide (0 < x.dropped)).toNat + 2 * x.first.toNat) ++ le 1 0 ++ le 4 x.dropped ++ le 4 (64 + recsSize recs) ++ le 20 0
    ++ recs.flatMap (·.2)

/-- CAN_BLOCK_FLUSH (R561): a block ends flush ms after its first record, and the first ended block is written, or discarded
where no descriptor takes it. -/
def execCanBlockFlush (sub : Fin 4) (descs : List StreamDesc) (s : State) : Outcome State Fault Refusal :=
  s.onApp fun a =>
    let x := vat a.can.sub sub
    let a := if x.recs != [] && a.since x.at_ (a.get (Reg.CAN_SUB_flush sub) * tMs) then a.canBlockEnd sub else a
    match (vat a.can.sub sub).ready with
    | [] => a
    | (p, recs) :: more =>
      let k := 4 * a.get (Reg.CAN_SUB_port sub) + a.get (Reg.CAN_SUB_ctx sub)
      let (a, ok) := a.streamWrite k (a.get (Reg.CAN_SUB_ring sub)) (vat a.can.sub sub).seq.toNat (a.canBlockBytes sub p recs) descs
      if ok then a.onCanSub sub fun x => { x with ready := more, seq := x.seq + 1, first := false, dropped := 0 }
      else (a.onCanSub sub fun x => { x with ready := more, dropped := x.dropped + recs.length }).satAdd (Reg.CAN_SUBSTAT_dropped sub) recs.length

/-- CAN_CORRELATION (R559): a pair for every bus. -/
def execCanCorrelation (s : State) : Outcome State Fault Refusal := s.onApp fun a => (upto 12).foldl App.canLatchPair a

/-! ### Bus states (R546), the counters as ISO 11898-1 has them: PRESUMED -/

/-- The bus state that the counters give. -/
def canStateOf (tec rec_ : Nat) : Nat := if 255 < tec then 2 else if 127 < tec ∨ 127 < rec_ then 1 else 0

/-- New counters, with the change of state and its record. In restricted operation they do not change (R547). -/
def App.canCounters (a : App) (b ts tec rec_ : Nat) : App :=
  if !a.on (Reg.CAN_CFG_mon b) && a.canLimited b then a
  else
    let old := a.get (Reg.CAN_STAT_state b)
    let st := canStateOf tec rec_
    let a := ((a.set (Reg.CAN_STAT_tec b) (min 255 tec)).set (Reg.CAN_STAT_rec b) (min 255 rec_)).set (Reg.CAN_STAT_state b) st
    if st = old then a else a.canBusRec b 3 ts (st + 256 * old + 65536 * a.get (Reg.CAN_MISC_recoveries b))

/-- The error count of a code. -/
def Reg.canErr (b code : Nat) : Fld :=
  match code with
  | 1 => Reg.CAN_ERR_bit_err b
  | 2 => Reg.CAN_ERR_stuff_err b
  | 3 => Reg.CAN_ERR_form_err b
  | 4 => Reg.CAN_ERR_ack_err b
  | _ => Reg.CAN_ERR_crc_err b

/-- An error with the counters after it: its count, the counters and state, and its record. -/
def App.canError (a : App) (b ts code data tec rec_ : Nat) : App :=
  let a := (a.satAdd (Reg.canErr b code) 1).canCounters b ts tec rec_
  a.canBusRec b 2 ts (code + 256 * data + 65536 * a.get (Reg.CAN_STAT_tec b) + 2 ^ 24 * a.get (Reg.CAN_STAT_rec b))

/-- BUS_OFF_RECOVERY (R546). -/
def execBusOffRecovery (bus : Fin 12) (s : State) : Outcome State Fault Refusal :=
  s.onApp fun a =>
    if a.get (Reg.CAN_STAT_state bus) = 2 then
      let a := (((a.set (Reg.CAN_STAT_tec bus) 0).set (Reg.CAN_STAT_rec bus) 0).set (Reg.CAN_STAT_state bus) 0).satAdd (Reg.CAN_MISC_recoveries bus) 1
      a.canBusRec bus 3 (a.tick % 2 ^ 32) (0 + 256 * 2 + 65536 * a.get (Reg.CAN_MISC_recoveries bus))
    else a

/-! ### Payloads (R552, R554, R556, R557) -/

/-- The bytes of a member's value in its byte order. -/
def memberBytes (w typ : Nat) (v : W64) : List Byte :=
  let n := typeWidth typ
  if mwBe w then be n v.toNat else le n v.toNat

/-- A value put into a payload, and read from one. -/
def putBytes (d : List Byte) (o : Nat) (b : List Byte) : List Byte := d.take o ++ b ++ d.drop (o + b.length)
def App.memberPut (a : App) (d : List Byte) (w : Nat) : List Byte :=
  let p := a.point (mwPoint w)
  if p.typ = 1 then
    d.modify (mwByte w) (fun x => BitVec.ofNat 8 (putBit x.toNat (mwBit w) (p.v.value != 0#64)))
  else putBytes d (mwByte w) (memberBytes w p.typ p.v.value)
def memberGet (d : List Byte) (w typ : Nat) : W64 :=
  if typ = 1 then BitVec.ofNat 64 (bitOf (numAt d (mwByte w) 1) (mwBit w)).toNat
  else
    let b := bytesAt d (mwByte w) (typeWidth typ)
    typeValue typ (BitVec.ofNat 64 (ofLe (if mwBe w then b.reverse else b)))

/-- Whether an object sends: enabled, in a format that the bus carries, and no member invalid unless send_inv is set (R552). -/
def App.canSends (a : App) (b : Nat) (e : List Byte) : Bool :=
  coOn e && coTx e && (!coFdf e || a.on (Reg.CAN_CFG_fd_en b))
    && (coSendInv e || (coMembers e).all (fun w => !qualInvalid (a.point (mwPoint w)).v.quality))

/-- The payload of a transmit object from the points as they stand; bits of no member are 0. -/
def App.canPayload (a : App) (e : List Byte) : List Byte := (coMembers e).foldl a.memberPut (le (dlcLen (coDlc e)) 0)

/-- The identifier with bit 29 IDE and bit 30 RTR, and the format byte (R561). -/
def canIdWord (id : Nat) (ide rtr : Bool) : Nat := id % 2 ^ 29 + 2 ^ 29 * ide.toNat + 2 ^ 30 * rtr.toNat
def canFmt (dlc : Nat) (fdf brs esi : Bool) : Nat := dlc + 16 * fdf.toNat + 32 * brs.toNat + 64 * esi.toNat

/-! ### Sending (R548, R551, R554) -/

/-- Whether the attempt that waits may start: inside its window, for a scheduled one (R551). -/
def App.canInWindow (a : App) (b : Nat) (t : CanTx) : Bool :=
  match t.col with
  | none => true
  | some j =>
    match (a.bus b).win with
    | some w => w.col == j && (match w.endAt with
      | some e => decide (a.tick < e)
      | none => true)
    | none => false

/-- The first SOF opportunity: the waiting attempt starts (R551). -/
def App.canGo (a : App) (b : Nat) : App :=
  let x := a.bus b
  match x.cur, x.due with
  | none, some t =>
    if !a.canUp b || a.canLimited b || !a.canInWindow b t then a
    else
      let e := a.canObj b t.obj
      let fmt := canFmt (coDlc e) (coFdf e) (coBrs e) (a.get (Reg.CAN_STAT_state b) == 1)
      ((a.access (.can (Fin.ofNat 12 b)) .sharedSram (16 + t.data.length)).onBus b fun x => { x with cur := some t, due := none }).send
        ⟨7, b, le 4 (canIdWord (coId e) (coIde e) false) ++ le 1 fmt ++ t.data⟩
  | _, _ => a

/-- The window in force closes: a miss of a receive cell, or an attempt that could not start (R551, R553). -/
def App.canClose (a : App) (b : Nat) : App :=
  match (a.bus b).win with
  | none => a
  | some w =>
    let a := a.onBus b fun x => { x with win := none }
    if w.typ = 3 then
      if w.got then a
      else
        let e := a.canObj b w.obj
        let x := a.canObjSt b w.obj
        let n := x.misses + 1
        let a := a.setCanObj b w.obj { x with misses := n }
        if coOn e && !coTx e && decide (0 < coRxTo e) && decide (coRxTo e ≤ n) && bitsOf (a.canStat b w.obj) 24 2 != 2 then
          (a.canState b w.obj 2).qualWriter 4 (canWriter b w.obj) (qualOld 1)
        else a
    else
      match (a.bus b).due with
      | some t => (a.onBus b fun x => { x with due := none }).canFail b t.obj
      | none => a

/-- A window opens (R550, R551): the object of an exclusive or arbitrating cell waits for its first SOF opportunity. -/
def App.canOpen (a : App) (b j : Nat) (endAt : Option Nat) (idle : Bool) : App :=
  let a := a.canClose b
  let c := a.canCell b (a.bus b).cyc j
  let a := (a.onBus b fun x => { x with next := j + 1, win := some { col := j, typ := c.1, obj := c.2, endAt := endAt } }).set (Reg.CAN_SCH_window b) j
  if c.1 = 1 ∨ c.1 = 2 then
    if a.canLimited b then a.satAdd (Reg.CAN_STAT_blocked b) 1
    else
      match (a.bus b).latched.find? (fun l => l.1 == c.2) with
      | some l =>
        let a := a.onBus b fun x => { x with due := some { obj := c.2, data := l.2, col := some j } }
        if idle then a.canGo b else a
      | none => a
  else a

/-- CAN_WINDOW_START (R550, R551). -/
def execCanWindowStart (bus : Fin 10) (idle : Bool) (s : State) : Outcome State Fault Refusal :=
  s.onApp fun a =>
    match (a.bus bus).startAt, a.canColumns bus (a.bus bus).next with
    | some t, (j, o) :: more =>
      if a.on (Reg.CAN_CFG_en bus) && a.on (Reg.CAN_CFG_sched_en bus) && a.since t o then
        a.canOpen bus j (more.head?.map (fun m => t + m.2)) idle
      else a
    | _, _ => a

/-- CAN_WINDOW_END (R551, R553): the window in force ends at the offset of the next used column. -/
def execCanWindowEnd (bus : Fin 10) (s : State) : Outcome State Fault Refusal :=
  s.onApp fun a =>
    match (a.bus bus).win with
    | some w => (match w.endAt with
      | some e => if e ≤ a.tick then a.canClose bus else a
      | none => a)
    | none => a

/-- The transmit objects of a cycle (R552). -/
def App.canCycleObjs (a : App) (b c : Nat) : List Nat :=
  (((a.canColumns b 0).map (fun j => a.canCell b c j.1)).filter (fun x => x.1 == 1 || x.1 == 2)).map (·.2) |>.eraseDups

/-- A basic cycle starts (R549 to R552): the last window closes, columns that did not open and a frame still on the wire are
counted, a pair is latched, and so are the payloads. -/
def App.canCycle (a : App) (b target period : Nat) : App :=
  if b ≥ 10 ∨ !a.on (Reg.CAN_CFG_en b) ∨ !a.on (Reg.CAN_CFG_sched_en b) then a
  else
    let a := a.canClose b
    let x := a.bus b
    let skipped := match x.startAt with
      | some t => ((a.canColumns b x.next).filter (fun j => decide (a.tick ≤ t + j.2))).length
      | none => 0
    let a := (a.satAdd (Reg.CAN_SCH_win_skip b) skipped).satAdd (Reg.CAN_SCH_overruns b) x.cur.isSome.toNat
    let c := target / period % 2 ^ a.get (Reg.CAN_CFG_ncyc b)
    let a := (a.canLatchPair b).set (Reg.CAN_SCH_cycle b) c
    let objs := a.canCycleObjs b c
    let sends := objs.filter (fun o => a.canSends b (a.canObj b o))
    let a := (objs.filter (fun o => coOn (a.canObj b o) && coTx (a.canObj b o) && !sends.contains o)).foldl (fun a o => a.canFail b o) a
    a.onBus b fun x => { x with startAt := some a.tick, cyc := c, next := 0, latched := sends.map (fun o => (o, a.canPayload (a.canObj b o))) }

/-- After a takeover a scheduled bus sends from the first basic cycle that starts then: what the cycle that runs had latched
is dropped (R579). -/
def App.canResume (a : App) : App := (upto 10).foldl (fun a b => a.onBus b fun x => { x with due := none, latched := [] }) a

/-! ### Message memory (R554, R555) -/

/-- The order of transmission: a base identifier counts as its 11 bits followed by 18 zeros. -/
def App.canKey (a : App) (b : Nat) (t : CanTx) : Nat :=
  let e := a.canObj b t.obj
  (if coIde e then coId e % 2 ^ 29 else coId e % 2 ^ 11 * 2 ^ 18) * 128 + t.obj

/-- An object becomes pending with its payload, in place of pending data. -/
def App.canPend (a : App) (b o : Nat) : App :=
  let e := a.canObj b o
  if !coOn e || !coTx e then a
  else if !a.canSends b e then a.canFail b o
  else
    let old := (a.bus b).pend.any (fun t => t.obj == o)
    let t : CanTx := { obj := o, data := a.canPayload e }
    let a := if old then a.satAdd (Reg.CAN_MISC_overwritten b) 1 else a
    a.onBus b fun x => { x with pend := x.pend.filter (fun y => y.obj != o) ++ [t] }

/-- What a commit of task `t` makes pending, by the triggers of the objects it owns; `before` is the state before it. -/
def App.canCommit (a before : App) (t : Nat) : App :=
  let m := a.runImage
  if (m.sect 9).isEmpty then a
  else
    (upto m.nremote).foldl (fun a i =>
      let e := m.remoteEnt i
      if numAt e 0 1 ≠ 2 ∨ numAt e 1 1 ≠ t then a
      else
        let b := numAt e 2 2 / 128
        let o := numAt e 2 2 % 128
        let ob := a.canObj b o
        let moved := (coMembers ob).any (fun w =>
          (before.point (mwPoint w)).v.value != (a.point (mwPoint w)).v.value || (before.point (mwPoint w)).v.quality != (a.point (mwPoint w)).v.quality)
        if a.on (Reg.CAN_CFG_en b) && (!coTrig ob || moved) then a.canPend b o else a) a

/-- CAN_MESSAGE_TRANSMIT (R554): the pending object of C10 or C11 with the lowest identifier starts; in restricted operation or
monitoring it sends nothing. -/
def execCanMessageTransmit (bus : Fin 2) (idle : Bool) (s : State) : Outcome State Fault Refusal :=
  s.onApp fun a =>
    let b := 10 + bus.val
    let x := a.bus b
    match x.pend.foldl (fun best t => match best with
      | none => some t
      | some u => if a.canKey b t < a.canKey b u then some t else some u) (none : Option CanTx) with
    | none => a
    | some t =>
      if !a.on (Reg.CAN_CFG_en b) || x.cur.isSome || !idle then a
      else
        let drop := fun (a : App) => a.onBus b fun x => { x with pend := x.pend.filter (fun y => y.obj != t.obj) }
        if a.canLimited b then (drop a).satAdd (Reg.CAN_STAT_blocked b) 1
        else if !a.canUp b then a
        else ((drop a).onBus b fun x => { x with due := some t }).canGo b

/-- CAN_RX_TIMEOUT (R555). -/
def execCanRxTimeout (bus : Fin 2) (obj : Fin 100) (s : State) : Outcome State Fault Refusal :=
  s.onApp fun a =>
    let b := 10 + bus.val
    let e := a.canObj b obj
    if coOn e && !coTx e && decide (0 < coRxTo e) && bitsOf (a.canStat b obj) 24 2 == 1 && a.since (a.canObjSt b obj).at_ (coRxTo e * 10 * tMs) then
      (a.canState b obj 2).qualWriter 4 (canWriter b obj) (qualOld 1)
    else a

/-! ### Ends of attempts (R548) -/

/-- An attempt without success: it is made again while retry_lim and its window allow, else it is a fail (R548, R551, R554). -/
def App.canRetry (a : App) (b : Nat) (t : CanTx) : App :=
  let u := { t with tries := t.tries + 1 }
  if a.get (Reg.CAN_CFG_retry_lim b) ≤ t.tries then a.canFail b t.obj
  else if 10 ≤ b then
    if (a.bus b).pend.any (fun y => y.obj == t.obj) then a.satAdd (Reg.CAN_MISC_overwritten b) 1
    else a.onBus b fun x => { x with pend := x.pend ++ [u] }
  else if a.canInWindow b t then a.onBus b fun x => { x with due := some u }
  else a.canFail b t.obj

/-- CAN_FRAME_SENT (R546, R548, R558). A transmitter in error passive does not count an acknowledgement error. -/
def execCanFrameSent (bus : Fin 12) (ts : W32) (result : CanEnd) (s : State) : Outcome State Fault Refusal :=
  s.onApp fun a =>
    match (a.bus bus).cur with
    | none => a
    | some t =>
      let e := a.canObj bus t.obj
      let tec := a.get (Reg.CAN_STAT_tec bus)
      let rec_ := a.get (Reg.CAN_STAT_rec bus)
      let passive := a.get (Reg.CAN_STAT_state bus) == 1
      let a := a.onBus bus fun x => { x with cur := none }
      match result with
      | .sent =>
        let a := (a.canFrameRec bus 1 ts.toNat (canIdWord (coId e) (coIde e) false) (canFmt (coDlc e) (coFdf e) (coBrs e) passive) t.data).canCounters bus ts.toNat (tec - 1) rec_
        ((a.wrapAdd (Reg.CAN_CNT_tx bus) 1).canCount bus t.obj).canGo bus
      | .lost => a.canRetry bus t
      | .error code data =>
        let up := if code = 4#3 ∧ passive = true then 0 else 8
        ((a.canError bus ts.toNat code.toNat data.toNat (tec + up) rec_).canRetry bus t).canGo bus

/-- CAN_ERROR_DETECTED (R546): an error while receiving; `heavy` is one that ISO 11898-1 counts as 8. -/
def execCanErrorDetected (bus : Fin 12) (ts : W32) (code : BitVec 3) (data heavy : Bool) (s : State) : Outcome State Fault Refusal :=
  s.onApp fun a =>
    if a.canUp bus && inR 1 5 code.toNat then
      (a.canError bus ts.toNat code.toNat data.toNat (a.get (Reg.CAN_STAT_tec bus)) (a.get (Reg.CAN_STAT_rec bus) + (if heavy then 8 else 1))).canGo bus
    else a

/-! ### Receiving (R542, R553, R556) -/

/-- Whether a frame matches a receive object. -/
def canMatch (e : List Byte) (f : CanRx) : Bool :=
  coOn e && !coTx e && coIde e == f.ide && (f.id.toNat ^^^ coId e) &&& coMask e == 0

/-- A receive object takes a frame. -/
def App.canTake (a : App) (b o : Nat) (f : CanRx) : App :=
  let e := a.canObj b o
  let w := canWriter b o
  if f.payload.length < dlcLen (coDlc e) then
    (a.canFail b o).qualWriter 4 w (fun q => qualValid (qualBit q 8 true) 1)
  else
    let p := a.canPair b f.ts.toNat
    let t := pairW64 p f.ts.toNat
    let a := (coMembers e).foldl (fun a m =>
      let i := mwPoint m
      let pt := a.point i
      if pt.kind = 4 ∧ pt.writer = w ∧ i < a.ctl.points.length then a.putPoint i (memberGet f.payload m pt.typ) 0 t p.tq p.tsc else a) a
    let a := ((a.canCount b o).canState b o 1).setCanObj b o { misses := 0, at_ := a.tick }
    a.onBus b fun x => { x with win := x.win.map (fun v => if v.typ = 3 ∧ v.obj = o then { v with got := true } else v) }

/-- CAN_FRAME_RECEIVED (R546, R556, R558). -/
def execCanFrameReceived (bus : Fin 12) (frame : CanRx) (s : State) : Outcome State Fault Refusal :=
  s.onApp fun a =>
    let b := bus.val
    if !a.canUp b || (frame.fdf && !a.on (Reg.CAN_CFG_fd_en b)) then a
    else
      let r := a.get (Reg.CAN_STAT_rec b)
      let a := a.canFrameRec b 0 frame.ts.toNat (canIdWord frame.id.toNat frame.ide frame.rtr) (canFmt frame.dlc.toNat frame.fdf frame.brs frame.esi) frame.payload
      let a := (a.canCounters b frame.ts.toNat (a.get (Reg.CAN_STAT_tec b)) (if 127 < r then 127 else r - 1)).wrapAdd (Reg.CAN_CNT_rx b) 1
      let a := a.access (.can bus) .sharedSram (16 + frame.payload.length)
      let a := match (if frame.rtr then none else (upto (canObjects b)).find? (fun o => canMatch (a.canObj b o) frame)) with
        | some o => a.canTake b o frame
        | none => a
      a.canGo b

/-! ### Enabling, and writes of the table (R529, R544, R557, R563) -/

/-- A bus is enabled or disabled: it begins error active with nothing to send. -/
def App.canRestart (a : App) (b : Nat) : App :=
  ((((a.onBus b fun x => { pairs := x.pairs }).set (Reg.CAN_STAT_state b) 0).set (Reg.CAN_STAT_tec b) 0).set (Reg.CAN_STAT_rec b) 0).canShow

/-- The schedule of a bus stops. -/
def App.canSchedStop (a : App) (b : Nat) : App := a.onBus b fun x => { x with startAt := none, next := 0, win := none, due := none, latched := [] }

/-- A subscription is enabled or disabled (R561). -/
def App.canSubEnable (a : App) (s : Nat) (on : Bool) : App :=
  (a.canBlockEnd s).onCanSub s fun x => { x with on := on, first := x.first || on, dropped := if on then 0 else x.dropped }

/-- The owner task of a bus, or of an object of the message memory (R365). -/
def App.canOwner (a : App) (b o : Nat) : Option Nat :=
  let m := a.runImage
  let kind := if b < 10 then 1 else 2
  let idx := if b < 10 then b else 128 * b + o
  if (m.sect 9).isEmpty then none
  else ((upto m.nremote).find? (fun i => numAt (m.remoteEnt i) 0 1 == kind && numAt (m.remoteEnt i) 2 2 == idx)).map (fun i => numAt (m.remoteEnt i) 1 1)

/-- Whether a member word of an object passes (R557). -/
def App.canMemberOk (a : App) (b o len : Nat) (tx : Bool) (w : Nat) : Bool :=
  let p := a.point (mwPoint w)
  decide (w < 2 ^ 27) && decide (mwPoint w < a.ctl.points.length)
    && (if p.typ = 1 then decide (mwByte w < len) else decide (mwByte w + typeWidth p.typ ≤ len))
    && (if tx then p.kind == 0 && a.canOwner b o == some p.writer else p.kind == 4 && p.writer == canWriter b o)

/-- The check of an object on a write that sets en. -/
def App.canObjOk (a : App) (b o : Nat) (e : List Byte) : Bool :=
  !bitOf (numAt e 0 1) 7 && numAt e 3 1 == 0 && decide (coNmem e ≤ 12) && decide (coId e < 2 ^ 29) && decide (coMask e < 2 ^ 29)
    && (!coTx e || coMask e == 0) && (coFdf e || (decide (coDlc e ≤ 8) && !coBrs e))
    && (coMembers e).all (fun w => a.canMemberOk b o (dlcLen (coDlc e)) (coTx e) w)

/-- A table word written: none where it is refused with reason 5. Addresses that hold nothing ignore it. -/
def App.canWrite (a : App) (o v : Nat) : Option App :=
  let b := o / 0x2000
  let r := o % 0x2000
  let put := fun (a : App) (v : Nat) => a.onCan fun c => { c with tbl := c.tbl.put o v }
  if r < 0x40 * canObjects b then
    let n := r / 0x40
    let on := coOn (a.canObj b n)
    if r % 0x40 = 12 then some a
    else if r % 0x40 ≠ 0 then (if on then none else some (put a v))
    else if bitOf v 0 = true ∧ a.canObjOk b n (le 4 v ++ (a.canObj b n).drop 4) = false then none
    else
      let a := put a v
      some (if on == bitOf v 0 then a else (a.canState b n 0).setCanObj b n {})
  else if b < 10 ∧ 0x1000 ≤ r ∧ r < 0x1100 then (if a.on (Reg.CAN_CFG_sched_en b) then none else some (put a (v % 2 ^ 25)))
  else if b < 10 ∧ 0x1400 ≤ r ∧ r < 0x1800 then (if a.on (Reg.CAN_CFG_sched_en b) then none else some (put a v))
  else some a

/-- A table word as it reads. -/
def App.canRead (a : App) (o : Nat) : Nat :=
  let b := o / 0x2000
  let r := o % 0x2000
  if r < 0x40 * canObjects b ∧ r % 0x40 = 12 then a.canStat b (r / 0x40) else a.can.tbl.get o

/-- A bit-timing write passes: nominal at most 1 Mb/s, data at most 8 Mb/s and not below nominal, sjw at most tseg2, and the bus
not enabled (R543, R544). The fields hold their values minus 1. -/
def canTimingOk (nbrp nt1 nt2 nsjw dbrp dt1 dt2 dsjw : Nat) : Bool :=
  let n := (nbrp + 1) * (3 + nt1 + nt2)
  let d := (dbrp + 1) * (3 + dt1 + dt2)
  decide (nsjw ≤ nt2) && decide (dsjw ≤ dt2) && decide (1 ≤ nt1) && decide (1 ≤ nt2) && decide (80 ≤ n) && decide (10 ≤ d) && decide (d ≤ n)

end Sys2Proof.Machine
end

