-- ==== Sys2Proof/Machine/Follow.lean ====
section
/-! DEFINITION. Redundancy roles, and what a module does that follows its partner's scans (R569, R573 to R579). -/

namespace Sys2Proof.Machine

open Host

/-- A change to the redundancy part. -/
def App.onPar (a : App) (f : ParSt → ParSt) : App := { a with par := f a.par }

/-- A role change: registers, event-recorder record, class-24 event, and the mode dimension (R502, R569, R602). -/
def App.setRole (a : App) (role phase reason : Nat) : App :=
  let old := a.role
  let a := ((a.set Reg.PAR_STAT_role role).set Reg.PAR_STAT_phase phase).set Reg.PAR_STAT_reason reason
  let a := a.onPar fun p => { p with roleAt := a.tick, offBad := 0, wasActive := p.wasActive || role == Role.standby || role == Role.primary }
  let a := (a.record 0x0060 old role phase reason).postState 24 0 old role 0
  if old = role then a else a.postMode 3 0 old role

/-- Whether the module executes streamed scans (R575). -/
def App.follows (a : App) : Bool := a.role == Role.standby || (a.role == Role.joining && a.get Reg.PAR_STAT_phase == 3)

/-- The program ends as a module stops running it for its role; its image is the one that a later start takes (R359,
R568, R569). -/
def App.leaveProgram (a : App) : App :=
  match a.ctl.running with
  | none => a
  | some s =>
    let a := ((a.skimDrop 1).skimFinal).dropItems false
    let a := (((a.setCstate 0).dropUnits).stalePoints none).set (Reg.slotState s) Slot.verified
    let a := (upto 64).foldl (fun a t => ((a.set (Reg.CSC_FLAG_flags t) 0).set (Reg.CSC_TSTAT_tstate t) 0).onTask t fun x =>
      { x with stream := [], own := [], named := none }) a
    let a := (a.onCtl fun c => { c with running := none, sets := [], cancels := [], actions := [], stopSel := false }).set Reg.CSC_FPRINT_fingerprint 0
    { a with life := { a.life with autoSlot := some s } }

/-- The Verified or Running slot that holds a program fingerprint (R570, R573). -/
def App.slotWith (a : App) (fp : Nat) : Option Nat :=
  (upto 2).find? (fun s => inR 2 3 (a.get (Reg.slotState s)) && (a.img s).fp == fp)

/-- The partner's program fingerprint; 0 while it runs none. -/
def App.peerFp (a : App) : Nat := match a.par.peer with
  | some p => p.progFp.toNat
  | none => 0

/-- State copy begins on the joining module: the image with the partner's fingerprint starts without a restart, and what the
pages bring replaces the rest (R573). -/
def App.enterCopy (a : App) : App :=
  let a := a.leaveProgram
  let a := a.onPar fun p => { p with stage := [], commits := [], tracked := [], matched := [] }
  match (if a.peerFp = 0 then none else a.slotWith a.peerFp) with
  | none => a
  | some s =>
    let m := a.img s
    let a := a.onCtl fun c =>
      { c with running := some s, points := a.startPoints m, forces := [], inst := vput c.inst c.region (Mem.write [] 0 (m.sect 5))
               tasks := Vector.replicate 64 {} }
    let a := ((a.set (Reg.slotState s) Slot.running).set Reg.CSC_PSTAT_slot s).set Reg.CSC_FPRINT_fingerprint m.fp
    let a := m.tasks.foldl (fun a e => if tkEnabled e then a.set (Reg.CSC_TSTAT_tstate (numAt e 0 1)) 1 else a) a
    (a.setCstate 1).showForces

/-- A checksum mismatch or a backlog: state copy again, and at the third time in 3,600 s Joining-Blocked with reason state
(R569, R577). -/
def App.resync (a : App) : App :=
  let recent := a.par.resyncs.filter (fun t => !a.since t (3600 * tS))
  if recent.length < 2 then
    (((a.onPar fun p => { p with resyncs := a.tick :: recent }).satAdd Reg.PAR_CNT_resyncs 1).setRole Role.joining 2 0).enterCopy
  else ((a.onPar fun p => { p with resyncs := a.tick :: recent }).setRole Role.joining 4 8).leaveProgram

/-- Whether an entry is closed: both commits are known and no action waits for its notice. -/
def PeerCommit.closed (c : PeerCommit) : Bool := c.peer.isSome && c.own.isSome && c.acts.isEmpty

/-- The entry of a scan changed, or made with its actions. -/
def putCommit (f : PeerCommit → PeerCommit) (t ts : Nat) (acts : List Action) : List PeerCommit → List PeerCommit
  | [] => [f { task := t, ts := ts, acts := acts }]
  | c :: l => if c.task = t ∧ c.ts = ts then f c :: l else c :: putCommit f t ts acts l

/-- A commit of a streamed scan, the Primary's record or the own one: once both are known their CRCs are compared, and any
difference forces a resync (R577). -/
def App.followCommit (a : App) (own : Bool) (t ts : Nat) (crc : W32 × W32) (acts : List Action) : App :=
  if !a.follows then a
  else
    let l := putCommit (fun c => if own then { c with own := some crc } else { c with peer := some crc }) t ts acts a.par.commits
    let e := l.find? (fun c => c.task == t && c.ts == ts)
    let both := e.any (fun c => c.peer.isSome && c.own.isSome)
    if both && e.any (fun c => c.peer != c.own) then a.resync
    else a.onPar fun p => { p with commits := l.filter (fun c => !c.closed), matched := if both then insertNat t p.matched else p.matched }

/-- An effect notice reports a deferred action as applied: the oldest one of its task and service (R576). -/
def noticeAct (t svc : Nat) : List PeerCommit → List PeerCommit
  | [] => []
  | c :: l =>
    if c.task = t ∧ c.acts.any (fun x => x.svc == svc) then { c with acts := c.acts.eraseP (fun x => x.svc == svc) } :: l
    else c :: noticeAct t svc l

/-- Whether a takeover applies an action of a commit that the Primary had acknowledged: BREAKER and CAPTURE_FIRE are
recorded as expired (R579). -/
def App.expireActs (a : App) (acts : List Action) : App × List Action :=
  let dead := acts.filter (fun x => x.svc == 0x010 || x.svc == 0x013)
  (dead.foldl (fun a x => a.record 0x0062 x.task x.svc 0 0) a, acts.filter (fun x => !(x.svc == 0x010 || x.svc == 0x013)))

/-- The deferred actions that the commit of a scan applies on a module that leads: of a streamed scan whose record the former
Primary had sent, those that no notice reported (R579). -/
def App.commitActs (a : App) (t ts : Nat) (acts : List Action) : App × List Action :=
  match (if a.leads then a.par.commits.find? (fun c => c.task == t && c.ts == ts) else none) with
  | some c => (a.onPar fun p => { p with commits := p.commits.filter (fun x => !(x.task == t && x.ts == ts)) }).expireActs c.acts
  | none => (a, acts)

/-- While a state copy runs, the pages that a commit writes become dirty (R573). -/
def App.copyDirty (a : App) (offsets : List Nat) : App :=
  a.onPar fun p => { p with copy := p.copy.map (fun c =>
    { c with dirty := offsets.foldl (fun d o => if d.contains (o / 4096) then d else insertNat (o / 4096) d) c.dirty }) }

/-- A compare unit fires a task: it releases the task on a module that leads, and is noted for a takeover on one that
follows (R575, R579). -/
def App.unitRelease (a : App) (t : Nat) (r : Release) : App :=
  if a.follows then a.onTask t fun x => { x with own := r :: x.own } else a.releaseTask t r

end Sys2Proof.Machine
end

