-- ==== Sys2Proof/Machine/Goose.lean ====
section
/-! DEFINITION. GOOSE and sampled values: the entries of the Ethernet table space, publication and subscription
(R528 to R538, R606, R608, R609). -/

namespace Sys2Proof.Machine

open Host

/-! ### The table space (R528, R529) -/

/-- Where the entry that holds a table address begins, its size, and its kind: 0 GOOSE publication, 1 control block,
2 subscription entry, 3 and 4 sampled-value publication and subscription (R528). -/
def ethEntry (o : Nat) : Nat × Nat × Nat :=
  if o < 0x10000 then (o / 512 * 512, 512, 0)
  else if o < 0x12000 then (o / 256 * 256, 256, 1)
  else if o < 0x16000 then (o / 16 * 16, 16, 2)
  else if o < 0x16400 then (o / 256 * 256, 256, 3)
  else (o / 256 * 256, 256, 4)

/-- The bytes of an entry by kind and number. -/
def App.pubEntry (a : App) (d : Nat) : List Byte := a.eth.tbl.bytes (512 * d) 512
def App.cbEntry (a : App) (c : Nat) : List Byte := a.eth.tbl.bytes (0x10000 + 256 * c) 256
def App.subEntry (a : App) (s : Nat) : List Byte := a.eth.tbl.bytes (0x12000 + 16 * s) 16
def App.svPubEntry (a : App) (v : Nat) : List Byte := a.eth.tbl.bytes (0x16000 + 256 * v) 256
def App.svSubEntry (a : App) (v : Nat) : List Byte := a.eth.tbl.bytes (0x16400 + 256 * v) 256

/-- Whether an entry is enabled. -/
def entOn (e : List Byte) : Bool := bitOf (numAt e 0 1) 0

/-- A padded string without its padding (R530). -/
def strAt (e : List Byte) (o : Nat) : List Byte := (bytesAt e o 64).takeWhile (· != 0)

/-- Whether a string is ASCII, of 1 to 64 characters, padded with NUL. -/
def strOk (e : List Byte) (o : Nat) : Bool :=
  let s := strAt e o
  !s.isEmpty && s.all (fun b => decide (b.toNat < 128)) && ((bytesAt e o 64).drop s.length).all (· == 0)

/-- Whether bytes are reserved bytes as the table gives them, all 0. -/
def zeroAt (e : List Byte) (o n : Nat) : Bool := (bytesAt e o n).all (· == 0)

/-- Whether a destination address is in the range of GOOSE (1) or of sampled values (4) (R530, R537). -/
def dstOk (e : List Byte) (k : Byte) : Bool :=
  bytesAt e 4 4 == [0x01, 0x0C, 0xCD, k] && decide (numAt e 8 1 ≤ 1)

/-- The VLAN tag of a publication: sent when the entry says so; sampled values always have it (R530, R537). -/
def pubVlan (e : List Byte) (tagged : Bool) : Option Nat := if tagged then some (numAt e 12 2) else none

/-! ### BER, as IEC 61850-8-1 and IEC 61850-9-2 use it: PRESUMED -/

/-- Tag, length and content. -/
def tlv (tag : Byte) (c : List Byte) : List Byte :=
  let n := c.length
  tag :: ((if n < 128 then [BitVec.ofNat 8 n] else if n < 256 then [0x81, BitVec.ofNat 8 n] else 0x82 :: be 2 n) ++ c)

/-- An integer in the fewest bytes of two's complement. -/
def berInt (x : Int) : List Byte :=
  let k := ((upto 9).find? (fun k => decide (-(2 ^ (8 * k + 7) : Nat) ≤ x) && decide (x < (2 ^ (8 * k + 7) : Nat)))).getD 8 + 1
  be k (toBits (8 * k) x)

/-- A bit-string of `n` bits, bit i of the number as bit i of the string. -/
def berBits (n v : Nat) : List Byte :=
  let m := (n + 7) / 8
  BitVec.ofNat 8 (8 * m - n) ::
    (upto m).map (fun j => BitVec.ofNat 8 ((upto 8).foldl (fun x i => 2 * x + (if 8 * j + i < n ∧ bitOf v (8 * j + i) = true then 1 else 0)) 0))

/-- utc-time of a stamp with its tq: the offset of R43 and the TimeQuality octet of R530. -/
def App.utcTime (a : App) (stamp tq : Nat) : List Byte :=
  let s := toBits 32 ((stamp / 1000000000 : Int) - asSigned 16 a.tim.utcOffset.toNat)
  let f := stamp % 1000000000 * 2 ^ 24 / 1000000000
  be 4 s ++ be 3 f ++ [BitVec.ofNat 8 (128 * a.tim.utcValid.toNat + (if tq = 5 then 64 else 0) + (if tq = 0 then 20 else 63))]

/-! ### GOOSE publication (R530 to R532) -/

/-- Parts of a publication entry. -/
def pubPorts (e : List Byte) : Nat := bitsOf (numAt e 0 1) 1 5
def pubTagged (e : List Byte) : Bool := bitOf (numAt e 0 1) 6
def pubCount (e : List Byte) : Nat := numAt e 1 1
def pubT1 (e : List Byte) : Nat := numAt e 14 2
def pubT0 (e : List Byte) : Nat := numAt e 16 4

/-- The member words of an entry. -/
def pubMembers (e : List Byte) : List Nat := (upto (pubCount e)).map (fun i => numAt e (256 + 4 * i) 4)
def memPoint (w : Nat) : Bool := bitOf w 16

/-- The encoding of a value by its point type; a type that no point has is sent as boolean (R530). -/
def goValue (typ : Nat) (v : W64) : List Byte :=
  match typeTag typ with
  | 2 | 7 => tlv 0x85 (berInt v.toInt)
  | 3 => tlv 0x86 (berInt v.toNat)
  | 4 => tlv 0x87 (8 :: be 4 v.toNat)
  | 5 => tlv 0x87 (11 :: be 8 v.toNat)
  | 6 => tlv 0x84 (berBits (8 * typeWidth typ) v.toNat)
  | _ => tlv 0x83 [if v = 0 then 0 else 1]

/-- The elements of a member. -/
def App.goMember (a : App) (w : Nat) (v : PointVal × Nat) : List (List Byte) :=
  [goValue v.2 v.1.value]
    ++ (if bitOf w 17 then [tlv 0x84 (berBits 13 v.1.quality.toNat)] else [])
    ++ (if bitOf w 18 then [tlv 0x91 (a.utcTime v.1.stamp.toNat v.1.tq.toNat)] else [])

/-- Whether a dataset is published with test TRUE: a linked row, Safe, or Commissioning (R606, R609). -/
def App.pubTest (a : App) (e : List Byte) : Bool :=
  a.lcy == Lcy.commissioning || !a.outEnabled || (pubMembers e).any (fun w => !memPoint w && bitOf a.trp.linked (w % 65536))

/-- A GOOSE frame from its EtherType on: APPID, length, the two reserved words, and the PDU. The module never sets the
simulation bit (R608). -/
def App.goBody (a : App) (e : List Byte) (p : PubSt) : List Byte :=
  let els := ((pubMembers e).zip p.vals).flatMap (fun x => a.goMember x.1 x.2)
  let pdu := tlv 0x61 (tlv 0x80 (strAt e 24) ++ tlv 0x81 (berInt (2 * p.gap : Nat)) ++ tlv 0x82 (strAt e 88) ++ tlv 0x83 (strAt e 152)
    ++ tlv 0x84 (a.utcTime p.t p.tq) ++ tlv 0x85 (berInt p.st) ++ tlv 0x86 (berInt p.sq) ++ tlv 0x87 [if a.pubTest e then 1 else 0]
    ++ tlv 0x88 (berInt (numAt e 20 4)) ++ tlv 0x89 [0] ++ tlv 0x8A (berInt els.length) ++ tlv 0xAB els.flatten)
  be 2 0x88B8 ++ be 2 (numAt e 10 2) ++ be 2 (pdu.length + 8) ++ be 2 0 ++ be 2 0 ++ pdu

/-- The longest value of a type. -/
def widestOf (typ : Nat) : W64 := typeValue typ (if typeTag typ = 2 then BitVec.ofNat 64 (2 ^ (8 * typeWidth typ - 1)) else BitVec.allOnes 64)

/-- The length of the longest frame of an entry, from destination address to FCS (R520); a point that is not loaded counts
as the longest type. -/
def App.pubLength (a : App) (e : List Byte) : Nat :=
  let typ := fun w => if !memPoint w then 1 else if w % 65536 < a.ctl.points.length then (a.point (w % 65536)).typ else 9
  let vals := (pubMembers e).map (fun w => (({ value := widestOf (typ w) } : PointVal), typ w))
  let p : PubSt := { st := 2 ^ 32 - 1, sq := 2 ^ 32 - 1, gap := pubT0 e, vals := vals }
  12 + (if pubTagged e then 4 else 0) + (if pubPorts e % 8 = 0 then 0 else 6) + (a.goBody e p).length + 4

/-- The check of a publication entry (R529, R530). -/
def App.pubOk (a : App) (e : List Byte) : Bool :=
  inR 1 64 (pubCount e) && !bitOf (numAt e 0 1) 7 && numAt e 2 2 == 0 && dstOk e 1 && decide (numAt e 10 2 < 0x4000)
    && !bitOf (numAt e 12 2) 12 && inR 1 100 (pubT1 e) && inR 100 60000 (pubT0 e) && decide (pubT1 e ≤ pubT0 e)
    && strOk e 24 && strOk e 88 && strOk e 152 && zeroAt e 216 40
    && (pubMembers e).all (fun w => decide (w < 2 ^ 19) && (memPoint w || inR 40 103 (w % 65536)))
    && decide (a.pubLength e ≤ 1528)

/-- The publication state of a dataset, and a change to it. -/
def App.pub (a : App) (d : Nat) : PubSt := ((a.eth.pubs.find? (fun p => p.1 == d)).map (·.2)).getD {}
def App.setPub (a : App) (d : Nat) (p : PubSt) : App := a.onEth fun e => { e with pubs := (e.pubs.filter (fun x => x.1 != d)) ++ [(d, p)] }

/-- The enabled datasets. -/
def App.pubsOn (a : App) : List Nat :=
  (a.eth.tbl.filter (fun c => decide (c.1 < 0x10000) && c.1 % 512 == 0 && bitOf c.2 0)).map (·.1 / 512)

/-- A member as it is now: a row as boolean with quality good, stamped when it changed (R530). -/
def App.readRow (a : App) (w : Nat) (old : PointVal) : PointVal :=
  old.write (BitVec.ofNat 64 (bitOf a.trp.rows (w % 65536)).toNat) 0 a.w64 a.tqc a.tsc
def App.readMember (a : App) (w : Nat) (pts : Bool) (old : PointVal × Nat) : PointVal × Nat :=
  if !memPoint w then (a.readRow w old.1, 1)
  else if pts then ((a.point (w % 65536)).v, (a.point (w % 65536)).typ)
  else old

/-- Whether what a frame shows of a member differs: its value, or the quality that follows it. -/
def memChanged (w : Nat) (x y : PointVal × Nat) : Bool :=
  x.1.value != y.1.value || x.2 != y.2 || (bitOf w 17 && x.1.quality.toNat % 2 ^ 13 != y.1.quality.toNat % 2 ^ 13)

/-- The members read again, points with `pts`, and a change noted (R531). -/
def App.pubRead (a : App) (d : Nat) (pts : Bool) : App :=
  let p := a.pub d
  if !p.begun then a
  else
    let ms := (pubMembers (a.pubEntry d)).zip p.vals
    let vals := ms.map (fun m => a.readMember m.1 pts m.2)
    a.setPub d { p with vals := vals, dirty := p.dirty || (ms.zip vals).any (fun x => memChanged x.1.1 x.1.2 x.2) }

/-- A frame of a dataset leaves. -/
def App.pubSend (a : App) (d : Nat) : App :=
  let e := a.pubEntry d
  a.ethSendAll 3 (pubPorts e) (bytesAt e 4 6) (pubVlan e (pubTagged e)) (a.goBody e (a.pub d))

/-- The number after one of stNum or sqNum (R531). -/
def goNext (x : Nat) : Nat := if x = 0xFFFFFFFF then 1 else x + 1

/-- The first frame with a new state (R531, R532). -/
def App.pubChange (a : App) (d st : Nat) : App :=
  let e := a.pubEntry d
  let gap := min (pubT1 e) (pubT0 e)
  (a.setPub d { a.pub d with dirty := false, st := st, sq := 0, t := a.w64, tq := a.tqc, gap := gap, nextAt := a.tick + gap * tMs }).pubSend d

/-- Publication of a dataset begins with a stNum: every member is read (R531, R580). -/
def App.pubBeginAt (a : App) (d st : Nat) : App :=
  let vals := (pubMembers (a.pubEntry d)).map (fun w => a.readMember w true (({ quality := 0, stamp := BitVec.ofNat 64 a.w64, tq := BitVec.ofNat 8 a.tqc,
                                                                                 tsc := BitVec.ofNat 8 a.tsc } : PointVal), 1))
  (a.setPub d { begun := true, vals := vals }).pubChange d st

/-- Publication of a dataset begins with stNum 1 (R531). -/
def App.pubBegin (a : App) (d : Nat) : App := a.pubBeginAt d 1

/-- What a matrix scan does for publication: members are read, and one frame carries what changed (R531, R609). In Stop the
points carry the quality of R363. -/
def App.pubScan (a : App) : App :=
  a.pubsOn.foldl (fun a d =>
    let a := a.pubRead d (a.cstate == 0)
    if !a.pubPermit then a
    else if !(a.pub d).begun then a.pubBegin d
    else if (a.pub d).dirty then a.pubChange d (goNext (a.pub d).st)
    else a) a

/-- The datasets of a task (R365). -/
def App.pubsOf (a : App) (t : Nat) : List Nat :=
  let m := a.runImage
  if (m.sect 9).isEmpty then []
  else ((upto m.nremote).filter (fun i => numAt (m.remoteEnt i) 0 1 == 3 && numAt (m.remoteEnt i) 1 1 == t)).map (fun i => numAt (m.remoteEnt i) 2 2)

/-- Point members are read at each commit of the owner (R531). -/
def App.pubCommit (a : App) (t : Nat) : App := (a.pubsOf t).foldl (fun a d => a.pubRead d true) a

/-- GOOSE_RETRANSMISSION (R532): the next frame of a dataset repeats its state. -/
def execGooseRetransmission (dataset : Fin 128) (s : State) : Outcome State Fault Refusal :=
  s.onApp fun a =>
    let p := a.pub dataset
    let e := a.pubEntry dataset
    if entOn e && p.begun && a.pubPermit && decide (p.nextAt ≤ a.tick) then
      let gap := min (2 * p.gap) (pubT0 e)
      (a.setPub dataset { p with sq := goNext p.sq, gap := gap, nextAt := a.tick + gap * tMs }).pubSend dataset
    else a

/-! ### GOOSE subscription (R533 to R535) -/

/-- A change to a control block and to a stream. -/
def App.onCb (a : App) (c : Nat) (f : CbSt → CbSt) : App := a.onEth fun e => { e with cbs := vup e.cbs c f }
def App.onSv (a : App) (v : Nat) (f : SvSt → SvSt) : App := a.onEth fun e => { e with sv := vup e.sv v f }

/-- A status word. -/
def App.stat (a : App) (o : Nat) : Nat := a.eth.stat.get o
def App.setStat (a : App) (o v : Nat) : App := a.onEth fun e => { e with stat := e.stat.put o (v % 2 ^ 32) }
def cbAt (c : Nat) : Nat := 0x10000 + 256 * c + 240
def svAt (v : Nat) : Nat := 0x16400 + 256 * v + 240

/-- The enabled subscription entries of a control block. -/
def App.subsOf (a : App) (c : Nat) : List Nat :=
  (a.eth.tbl.filter (fun x => decide (0x12000 ≤ x.1) && decide (x.1 < 0x16000) && x.1 % 16 == 0 && bitOf x.2 0 && x.2 / 65536 == c)).map
    (fun x => (x.1 - 0x12000) / 16)

/-- A control block takes a state; while it is not valid, its points are invalid and its inputs deasserted (R534, R535). -/
def App.cbState (a : App) (c st : Nat) : App :=
  let a := a.setStat (cbAt c) st
  if st = 1 then a
  else
    (a.subsOf c).foldl (fun a s => (a.setInp (0xA00 + s) false).qualWriter 3 s (fun q =>
      qualValid (if st = 2 then qualBit q 7 true else if st = 3 then qualBit q 8 true else q) 1)) a

/-- Parts of a subscription entry. -/
def subDecode (e : List Byte) : Nat := bitsOf (numAt e 0 2) 1 3
def subHasQ (e : List Byte) : Bool := bitOf (numAt e 0 2) 4
def subHasT (e : List Byte) : Bool := bitOf (numAt e 0 2) 5

/-- The checks of a control block and of a subscription entry (R529, R533, R535). -/
def cbOk (e : List Byte) : Bool :=
  decide (1 ≤ numAt e 1 1) && !bitOf (numAt e 0 1) 7 && numAt e 2 2 == 0 && dstOk e 1 && decide (numAt e 10 2 < 0x4000)
    && (bitOf (numAt e 0 1) 6 || decide (numAt e 12 2 < 4096)) && zeroAt e 14 2 && strOk e 20 && strOk e 84 && zeroAt e 148 92
def App.subOk (a : App) (e : List Byte) : Bool :=
  let n := numAt (a.cbEntry (numAt e 2 2)) 1 1
  decide (numAt e 0 2 < 64) && subDecode e != 7 && decide (numAt e 2 2 < 32) && decide (numAt e 4 2 < n)
    && (!subHasQ e || decide (numAt e 6 2 < n)) && (!subHasT e || decide (numAt e 8 2 < n)) && zeroAt e 10 6

/-- A bit-string as a number, and a decoded value: none where Dbpos reads '00' or '11' (R535). -/
def bitsNum (l : List Bool) : Nat := l.foldr (fun b x => 2 * x + b.toNat) 0
def decodeGo (d : Nat) : GooseVal → Option (Option W64)
  | .bool b => if d = 0 then some (some (BitVec.ofNat 64 b.toNat)) else none
  | .bits l =>
    if d = 1 then
      (match l with
       | [true, false] => some (some 1)
       | [false, true] => some (some 0)
       | [_, _] => some none
       | _ => none)
    else if d = 6 ∧ l.length ≤ 64 then some (some (BitVec.ofNat 64 (bitsNum l))) else none
  | .int x => if d = 2 then some (some (BitVec.ofInt 64 x)) else none
  | .uint x => if d = 3 then some (some (BitVec.ofNat 64 x)) else none
  | .real x => if d = 4 then some (some (BitVec.ofNat 64 x.toNat)) else none
  | .lreal x => if d = 5 then some (some x) else none
  | .time _ => none

/-- utc-time as a wall instant in ns (R43, R535). -/
def App.taiOf (a : App) (t : W64) : Nat :=
  let s := ((t.toNat / 2 ^ 32 : Nat) : Int) + asSigned 16 a.tim.utcOffset.toNat
  (s * 1000000000 + ((t.toNat / 256 % 2 ^ 24 * 1000000000 / 2 ^ 24 : Nat) : Int)).toNat % 2 ^ 64

/-- What an entry takes of a frame: value, quality and stamp; none where an element does not suit it (R534, R535). -/
def App.subTake (a : App) (e : List Byte) (f : GooseRx) : Option (Option W64 × W16 × Nat) := do
  let x ← f.allData[numAt e 4 2]?
  let v ← decodeGo (subDecode e) x
  let q ← if subHasQ e then
      (match f.allData[numAt e 6 2]? with
       | some (.bits l) => if l.length = 13 then some (bitsNum l) else none
       | _ => none)
    else some 0
  let t ← if subHasT e then
      (match f.allData[numAt e 8 2]? with
       | some (.time t) => some (a.taiOf t)
       | _ => none)
    else some (a.rxStamp f.head)
  let q := qualBit (BitVec.ofNat 16 q) 11 (bitOf q 11 || f.test)
  return (v, if v.isNone then qualValid q 1 else q, t)

/-- An entry takes an accepted frame (R535). -/
def App.subPut (a : App) (s : Nat) (f : GooseRx) : App :=
  let e := a.subEntry s
  match a.subTake e f with
  | none => a
  | some (v, q, t) =>
    let a := (a.pointsOf 3 s).foldl (fun a i => a.putPoint i (match v with
      | some v => typeValue (a.point i).typ v
      | none => (a.written i).value) q t a.tqc a.tsc) a
    a.setInp (0xA00 + s) (subDecode e ≤ 1 && v == some 1 && !qualInvalid q)

/-- Whether frames of a subscription come by this port, address and VLAN (R526, R534). -/
def headMatches (e : List Byte) (h : RxHead) (appid : W16) (vidAny : Nat) : Bool :=
  entOn e && bitOf (bitsOf (numAt e 0 1) 1 5) (portGroup h.port) && bytesAt e 4 6 == be 6 h.dst.toNat && numAt e 10 2 == appid.toNat
    && (bitOf (numAt e 0 1) vidAny || numAt e 12 2 % 4096 == h.vid.toNat)
def App.cbMatches (a : App) (f : GooseRx) (c : Nat) : Bool :=
  let e := a.cbEntry c
  headMatches e f.head f.appid 6 && strAt e 20 == f.gocbRef && strAt e 84 == f.datSet

/-- Whether any bay is in Simulation (R608). -/
def App.simOn (a : App) : Bool := (upto 4).any (fun b => a.prot b == 3)

/-- An accepted frame (R534). -/
def App.cbAccept (a : App) (c : Nat) (f : GooseRx) : App :=
  let a := a.onCb c fun x => { x with last := some (f.stNum.toNat, f.sqNum.toNat), until_ := a.rxStamp f.head + f.tal.toNat * 1000000 }
  let a := ((a.setStat (cbAt c + 4) f.stNum.toNat).setStat (cbAt c + 8) f.sqNum.toNat).setStat (cbAt c + 12) (a.stat (cbAt c + 12) + 1)
  (a.subsOf c).foldl (fun a s => a.subPut s f) (a.cbState c 1)

/-- A frame at a control block it belongs to (R534, R608). -/
def App.cbTake (a : App) (f : GooseRx) (c : Nat) : App :=
  let b := vat a.eth.cbs c
  let e := a.cbEntry c
  if (f.sim && !a.simOn) || (!f.sim && b.sim) then a
  else
    let a := if f.sim then (a.onCb c fun x => { x with sim := true }).setB Reg.GLB_MODE_sim_rx true else a
    let a := if a.stat (cbAt c) = 1 ∧ b.until_ ≤ a.rxStamp f.head then a.cbState c 2 else a
    if numAt e 16 4 ≠ f.confRev.toNat ∨ f.ndsCom = true ∨ f.allData.length ≠ numAt e 1 1
        ∨ (a.subsOf c).any (fun s => (a.subTake (a.subEntry s) f).isNone) = true then a.cbState c 3
    else
      let old := match b.last with
        | some (st, sq) => st == f.stNum.toNat && decide (f.sqNum.toNat ≤ sq)
        | none => false
      if old then a else a.cbAccept c f

/-- A received frame past its port and the duplicate discard (R520, R524). -/
def App.rxTake (a : App) (h : RxHead) : App × Bool :=
  let (a, ok) := a.rxPort h
  if ok then a.ddTake h else (a, false)

/-- GOOSE_FRAME_RX (R534). -/
def execGooseFrameRx (frame : GooseRx) (s : State) : Outcome State Fault Refusal :=
  s.onApp fun a =>
    let (a, ok) := (a.access .gooseSv .dram 64).rxTake frame.head
    if !ok then a
    else
      let l := (upto 32).filter (a.cbMatches frame)
      if l.isEmpty then a.rxDrop frame.head else l.foldl (fun a c => a.cbTake frame c) a

/-- GOOSE_EXPIRY (R534): no accepted frame before r + TAL. -/
def execGooseExpiry (cb : Fin 32) (s : State) : Outcome State Fault Refusal :=
  s.onApp fun a =>
    if entOn (a.cbEntry cb) ∧ a.stat (cbAt cb) = 1 ∧ (vat a.eth.cbs cb).until_ ≤ a.w64 then a.cbState cb 2 else a

/-! ### Sampled values (R536 to R538) -/

/-- Samples per second, and ASDUs in a frame, of an entry. -/
def svRate (e : List Byte) : Nat := if bitOf (numAt e 0 1) 6 then 14400 else 4800
def svAsdus (e : List Byte) : Nat := bitsOf (numAt e 1 1) 0 3

/-- The checks of a publication and of a subscription (R529, R537, R538). -/
def svPubOk (e : List Byte) : Bool :=
  !bitOf (numAt e 0 1) 7 && numAt e 2 2 == 0 && decide (numAt e 1 1 < 8)
    && (if svRate e = 4800 then [1, 2] else [1, 3, 6]).contains (svAsdus e) && dstOk e 4 && inR 0x4000 0x7FFF (numAt e 10 2)
    && !bitOf (numAt e 12 2) 12 && zeroAt e 14 2 && strOk e 20 && zeroAt e 116 140
def svSubOk (e : List Byte) : Bool :=
  inR 1 16 (numAt e 1 1) && numAt e 2 2 == 0 && dstOk e 4 && inR 0x4000 0x7FFF (numAt e 10 2)
    && (bitOf (numAt e 0 1) 7 || decide (numAt e 12 2 < 4096)) && zeroAt e 14 2 && strOk e 20 && zeroAt e 84 156

/-- The second that a sample belongs to: its instant is the nearest to the frame's ingress. -/
def svSecond (rate cnt ingress : Nat) : Nat :=
  let s := ingress / 1000000000
  let f := ingress % 1000000000
  let x := cnt * 1000000000 / rate
  if f + 500000000 < x then s - 1 else if x + 500000000 < f then s + 1 else s

/-- An ASDU at a stream it belongs to; the latest 1,024 samples are kept (R208, R536, R538, R608). -/
def App.svTake (a : App) (d : SvRx) (v : Nat) : App :=
  let x := vat a.eth.sv v
  let e := a.svSubEntry v
  let rate := svRate e
  let cnt := d.smpCnt.toNat
  if (d.sim && !a.simOn) || (!d.sim && x.sim) then a
  else
    let a := if d.sim then (a.onSv v fun x => { x with sim := true }).setB Reg.GLB_MODE_sim_rx true else a
    if numAt e 16 4 ≠ d.confRev.toNat ∨ rate ≤ cnt ∨ d.pairs.length ≠ bitsOf (numAt e 1 1) 0 5 then a.setStat (svAt v) 3
    else
      let sec := svSecond rate cnt (a.rxStamp d.head)
      let x := if sec = x.sec + 1 then { x with sec := sec, prev := x.seen, seen := 0 }
               else if sec = x.sec ∨ sec + 1 = x.sec then x else { x with sec := sec, prev := 0, seen := 0 }
      if bitOf (if sec = x.sec then x.seen else x.prev) cnt then a.onSv v fun y => { x with sim := y.sim }
      else
        let no := sec * rate + cnt
        let gap := match x.top with
          | some t => no - t - 1
          | none => 0
        let x := if sec = x.sec then { x with seen := x.seen + 2 ^ cnt } else { x with prev := x.prev + 2 ^ cnt }
        let r : SvSample := { no := no, synch := d.smpSynch, pairs := d.pairs, at_ := a.rxStamp d.head }
        let a := a.onSv v fun y => { x with sim := y.sim, top := some (max no (x.top.getD 0)), at_ := a.tick, recent := (r :: x.recent).take 1024 }
        let a := ((a.setStat (svAt v) 1).setStat (svAt v + 4) cnt).setStat (svAt v + 8) (a.stat (svAt v + 8) + 1)
        a.setStat (svAt v + 12) (a.stat (svAt v + 12) + gap)

/-- SV_ASDU_RX (R536). -/
def execSvAsduRx (asdu : SvRx) (s : State) : Outcome State Fault Refusal :=
  s.onApp fun a =>
    let (a, ok) := (a.access .gooseSv .dram 64).rxTake asdu.head
    if !ok then a
    else
      let l := (upto 16).filter (fun v => headMatches (a.svSubEntry v) asdu.head asdu.appid 7 && strAt (a.svSubEntry v) 20 == asdu.svId)
      if l.isEmpty then a.rxDrop asdu.head else l.foldl (fun a v => a.svTake asdu v) a

/-- SV_STREAM_LOST (R538): no ASDU accepted for 10 ms. -/
def execSvStreamLost (stream : Fin 16) (s : State) : Outcome State Fault Refusal :=
  s.onApp fun a =>
    if entOn (a.svSubEntry stream) ∧ a.stat (svAt stream) = 1 ∧ a.since (vat a.eth.sv stream).at_ (10 * tMs) = true then a.setStat (svAt stream) 2 else a

/-- A published value with its quality: rounded, saturated with overflow, test as R609 has it (R537). -/
def svValue (w : W32) (scale : Nat) (test : Bool) : List Byte :=
  let x := divRound (wordValue w * scale) 65536
  let y := satSigned 32 x
  let q := qualBit (qualBit (qualOfWord w) 2 (wordOvr w || x != y)) 11 (wordQual w == 3 || test)
  be 4 (toBits 32 y) ++ be 4 q.toNat

/-- A sampled-value frame from its EtherType on, of the samples from number `no` (R537). -/
def App.svBody (a : App) (v no : Nat) (e : List Byte) (words : List (Vector W32 8)) : List Byte :=
  let test := a.inTest v || a.lcy == Lcy.commissioning
  let synch : Byte := if a.tqc ≤ 1 then 2 else if a.tqc ≤ 4 then 1 else 0
  let asdu := fun (x : Vector W32 8 × Nat) =>
    tlv 0x30 (tlv 0x80 (strAt e 20) ++ tlv 0x82 (be 2 ((no + x.2) % svRate e)) ++ tlv 0x83 (be 4 (numAt e 16 4)) ++ tlv 0x85 [synch]
      ++ tlv 0x87 ((upto 8).flatMap (fun c => svValue (vat x.1 c) (numAt e (84 + 4 * c) 4) test)))
  let pdu := tlv 0x60 (tlv 0x80 (berInt words.length) ++ tlv 0xA2 (words.zipIdx.flatMap asdu))
  be 2 0x88BA ++ be 2 (numAt e 10 2) ++ be 2 (pdu.length + 8) ++ be 2 0 ++ be 2 0 ++ pdu

/-- How many CIC words the filter of a published stream takes on either side of an instant: its length is not given (R537; DESIGN
CHOICE, log entry 196). -/
def svHalf : Nat := 174

/-- The CIC period of a bay's own converters whose word is the last one stamped at or before sample `no` of its stream, S + k / rate,
and how far the sample lies beyond the stamp (R164, R537). -/
def App.svPlace (a : App) (b rate no : Nat) : Nat × Nat :=
  let pos := a.axis - (a.now16 - no * 16000000000 / rate) * 230400 / 16
  ((pos + a.ownBack b) / 1000000000, (pos + a.ownBack b) % 1000000000)

/-- Whether the span of a sample has been produced. -/
def App.svProduced (a : App) (b rate no : Nat) : Bool :=
  match vat a.sig.pubHist b with
  | r :: _ => decide ((a.svPlace b rate no).1 + svHalf ≤ r.per)
  | [] => false

/-- Sample `no` of a bay's stream on channel `c`: the filter over the CIC words of its span, with their worst word (R537). -/
def App.svSample (a : App) (b rate no c : Nat) : W32 :=
  let p := a.svPlace b rate no
  let ws := ((vat a.sig.pubHist b).filter (fun r => decide (p.1 ≤ r.per + svHalf) && decide (r.per ≤ p.1 + svHalf))).map (fun r => vat r.ch c)
  let q := ws.foldl (fun q w => worseQual q w.qual) (if ws.length = 2 * svHalf + 1 then 0 else 2)
  sampleWord (BitVec.ofInt 24 (satSigned 24 (Config.svFir rate p.2 (ws.map (·.v))))) (ws.any (·.ovr)) (ws.any (·.full)) false false false q

/-- The samples of frame `g` of a bay's stream, `n` in a frame. -/
def App.svWords (a : App) (b rate n g : Nat) : List (Vector W32 8) :=
  (upto n).map (fun i => Vector.ofFn fun c : Fin 8 => a.svSample b rate (g * n + i) c.val)

/-- SV_PUBLICATION (R537): once the last sample of frame `frame`, counted from wall time 0, has been taken, and it is the next, it
leaves; frames that were not sent within a second are passed over. -/
def execSvPublication (bay : Fin 4) (frame : W64) (s : State) : Outcome State Fault Refusal :=
  s.onApp fun a =>
    let e := a.svPubEntry bay
    let n := svAsdus e
    let ready := (a.now * svRate e / 1000000000 + 1) / n
    let sent := vat a.eth.svNext bay
    let second := svRate e / n
    let near := sent ≤ ready + second && decide (ready ≤ sent + second)
    let g := if near then sent else ready - 1
    if frame.toNat == g && entOn e && a.pubPermit && decide (1 ≤ ready) && !(near && decide (ready ≤ sent)) && a.svProduced bay (svRate e) (g * n + n - 1) then
      let a := a.onEth fun x => { x with svNext := vput x.svNext bay (g + 1) }
      a.ethSendAll 4 (pubPorts e) (bytesAt e 4 6) (some (numAt e 12 2)) (a.svBody bay (g * n) e (a.svWords bay (svRate e) n g))
    else a

/-! ### Simulation ends (R608) -/

/-- Blocks that took simulated frames wait again when no bay is in Simulation. -/
def App.simEnd (a : App) : App :=
  if a.simOn then a
  else
    let a := (upto 32).foldl (fun a c => if (vat a.eth.cbs c).sim then (a.onCb c fun _ => {}).cbState c 0 else a) a
    let a := (upto 16).foldl (fun a v => if (vat a.eth.sv v).sim then (a.onSv v fun _ => {}).setStat (svAt v) 0 else a) a
    a.setB Reg.GLB_MODE_sim_rx false

/-! ### Writes of the table (R529) -/

/-- Whether an entry passes its check with a new first word. -/
def App.ethCheck (a : App) (base size kind v : Nat) : Bool :=
  let e := le 4 v ++ (a.eth.tbl.bytes base size).drop 4
  match kind with
  | 0 => a.pubOk e
  | 1 => cbOk e
  | 2 => a.subOk e
  | 3 => svPubOk e
  | _ => svSubOk e

/-- What starts and stops with the enable of an entry: stNum from 1, a block or a stream that waits, an input that is no
longer driven (R531, R534, R535, R538). -/
def App.ethEnable (a : App) (base kind : Nat) : App :=
  match kind with
  | 0 => a.onEth fun e => { e with pubs := e.pubs.filter (fun p => p.1 != base / 512) }
  | 1 =>
    let c := (base - 0x10000) / 256
    (a.onCb c fun _ => {}).cbState c 0
  | 2 => a.setInp (0xA00 + (base - 0x12000) / 16) false
  | 3 => a.onEth fun e => { e with svNext := vput e.svNext ((base - 0x16000) / 256) 0 }
  | _ =>
    let v := (base - 0x16400) / 256
    (a.onSv v fun _ => {}).setStat (svAt v) 0

/-- A table word written: none where it is refused with reason 5 (R529). -/
def App.ethWrite (a : App) (o v : Nat) : Option App :=
  let (base, size, kind) := ethEntry o
  let on := bitOf (a.eth.tbl.get base) 0
  let put := fun (a : App) => a.onEth fun e => { e with tbl := e.tbl.put o v }
  if (kind = 1 ∨ kind = 4) ∧ base + 240 ≤ o then some a
  else if o ≠ base then (if on then none else some (put a))
  else if bitOf v 0 = true ∧ a.ethCheck base size kind v = false then none
  else if on == bitOf v 0 then some (put a)
  else some ((put a).ethEnable base kind)

/-- A table word as it reads. -/
def App.ethRead (a : App) (o : Nat) : Nat :=
  let (base, _, kind) := ethEntry o
  if (kind = 1 ∨ kind = 4) ∧ base + 240 ≤ o then a.stat o else a.eth.tbl.get o

end Sys2Proof.Machine
end

