-- ==== Sys2Proof/Machine/Soft.lean ====
section
/-! DEFINITION. IEEE 754-2019 arithmetic of binary32 and binary64, rounded to nearest with ties to even (R374). -/

namespace Sys2Proof.Machine

/-- A binary format: its precision with the hidden bit, the width of its exponent field, and the exponent of its least
subnormal. -/
structure Fmt where
  p : Nat
  ew : Nat
  emin : Int
  deriving DecidableEq, Repr

/-- binary32 and binary64. -/
def f32 : Fmt := ⟨24, 8, -149⟩
def f64 : Fmt := ⟨53, 11, -1074⟩

/-- What a float stands for: a NaN, an infinity, or ± m × 2^e. -/
inductive FVal where
  | nan
  | inf (neg : Bool)
  | fin (neg : Bool) (m : Nat) (e : Int)
  deriving DecidableEq, Repr

/-- The all-ones exponent field. -/
def Fmt.top (f : Fmt) : Nat := 2 ^ f.ew - 1

/-- The sign bit as a number. -/
def Fmt.sign (f : Fmt) (neg : Bool) : Nat := if neg then 2 ^ (f.p + f.ew - 1) else 0

/-- The canonical quiet NaN (R374). -/
def Fmt.nan (f : Fmt) : Nat := f.top * 2 ^ (f.p - 1) + 2 ^ (f.p - 2)

/-- An infinity. -/
def Fmt.inf (f : Fmt) (neg : Bool) : Nat := f.sign neg + f.top * 2 ^ (f.p - 1)

/-- What the bits of a float stand for. -/
def Fmt.decode (f : Fmt) (x : Nat) : FVal :=
  let neg := bitOf x (f.p + f.ew - 1)
  let ex := bitsOf x (f.p - 1) f.ew
  let fr := x % 2 ^ (f.p - 1)
  if ex = f.top then (if fr = 0 then .inf neg else .nan)
  else if ex = 0 then .fin neg fr f.emin
  else .fin neg (fr + 2 ^ (f.p - 1)) (f.emin + (ex - 1 : Nat))

/-- m × 2^e rounded to the format; the lowest bit of m may stand for a non-zero remainder below it when m has at least
two bits more than the precision. -/
def Fmt.round (f : Fmt) (neg : Bool) (m : Nat) (e : Int) : Nat :=
  if m = 0 then f.sign neg
  else
    let q := max (e + (Nat.log2 m + 1 : Nat) - f.p) f.emin
    let r : Nat :=
      if q ≤ e then m * 2 ^ (e - q).toNat
      else
        let k := (q - e).toNat
        let h := m / 2 ^ k
        let rest := m % 2 ^ k
        if 2 * rest > 2 ^ k ∨ (2 * rest = 2 ^ k ∧ h % 2 = 1) then h + 1 else h
    if r = 0 then f.sign neg
    else if r < 2 ^ (f.p - 1) then f.sign neg + r
    else
      let b := (q - f.emin).toNat + 1
      let x := b * 2 ^ (f.p - 1) + (r - 2 ^ (f.p - 1))
      if x ≥ f.top * 2 ^ (f.p - 1) then f.inf neg else f.sign neg + x

/-- The bits of what a float stands for. -/
def Fmt.encode (f : Fmt) : FVal → Nat
  | .nan => f.nan
  | .inf s => f.inf s
  | .fin s m e => f.round s m e

/-- A sum. -/
def fAdd (x y : FVal) : FVal :=
  match x, y with
  | .nan, _ | _, .nan => .nan
  | .inf s, .inf t => if s = t then .inf s else .nan
  | .inf s, .fin .. => .inf s
  | .fin .., .inf t => .inf t
  | .fin s m e, .fin t n d =>
    let b := min e d
    let v : Int := (if s then -1 else 1) * ((m * 2 ^ (e - b).toNat : Nat) : Int) + (if t then -1 else 1) * ((n * 2 ^ (d - b).toNat : Nat) : Int)
    if v = 0 then .fin (s && t) 0 b else .fin (decide (v < 0)) v.natAbs b

/-- The negation. -/
def fNeg : FVal → FVal
  | .nan => .nan
  | .inf s => .inf (!s)
  | .fin s m e => .fin (!s) m e

/-- The absolute value. -/
def fAbs : FVal → FVal
  | .nan => .nan
  | .inf _ => .inf false
  | .fin _ m e => .fin false m e

/-- A product. -/
def fMul (x y : FVal) : FVal :=
  match x, y with
  | .nan, _ | _, .nan => .nan
  | .inf s, .inf t => .inf (s != t)
  | .inf s, .fin t n _ => if n = 0 then .nan else .inf (s != t)
  | .fin s m _, .inf t => if m = 0 then .nan else .inf (s != t)
  | .fin s m e, .fin t n d => .fin (s != t) (m * n) (e + d)

/-- A quotient: 64 bits beyond both operands, with the remainder in the lowest bit. -/
def fDiv (x y : FVal) : FVal :=
  match x, y with
  | .nan, _ | _, .nan => .nan
  | .inf _, .inf _ => .nan
  | .inf s, .fin t _ _ => .inf (s != t)
  | .fin s _ _, .inf t => .fin (s != t) 0 0
  | .fin s m e, .fin t n d =>
    if n = 0 then (if m = 0 then .nan else .inf (s != t))
    else
      let k : Nat := 128
      let q := m * 2 ^ k / n
      let r := if m * 2 ^ k % n = 0 then 0 else 1
      .fin (s != t) (2 * q + r) (e - d - (k : Int) - 1)

/-- A square root: 64 bits of it, with the remainder in the lowest bit. -/
def fSqrt (x : FVal) : FVal :=
  match x with
  | .nan => .nan
  | .inf s => if s then .nan else .inf false
  | .fin s m e =>
    if m = 0 then .fin s 0 e
    else if s then .nan
    else
      let k : Nat := 128 - Nat.log2 m
      let k : Nat := if (e - (k : Int)) % 2 = 0 then k else k + 1
      let v := m * 2 ^ k
      let r := isqrt v
      .fin false (2 * r + (if r * r = v then 0 else 1)) ((e - (k : Int)) / 2 - 1)

/-- Whether x < y; false with a NaN. -/
def fLt (x y : FVal) : Bool :=
  match x, y with
  | .nan, _ | _, .nan => false
  | .inf s, .inf t => s && !t
  | .inf s, .fin .. => s
  | .fin .., .inf t => !t
  | .fin s m e, .fin t n d =>
    let b := min e d
    let v : Int := (if s then -1 else 1) * ((m * 2 ^ (e - b).toNat : Nat) : Int)
    let w : Int := (if t then -1 else 1) * ((n * 2 ^ (d - b).toNat : Nat) : Int)
    decide (v < w)

/-- Whether a value is a NaN. -/
def fNan : FVal → Bool
  | .nan => true
  | _ => false

/-- Whether x = y: neither is a NaN and neither is less. -/
def fEq (x y : FVal) : Bool := !fNan x && !fNan y && !fLt x y && !fLt y x

/-- Whether the sign is set. -/
def fSign : FVal → Bool
  | .nan => false
  | .inf s => s
  | .fin s _ _ => s

/-- The minimum and the maximum: a NaN when either is one, and −0 below +0. -/
def fMin (x y : FVal) : FVal :=
  if fNan x || fNan y then .nan else if fLt x y || (fEq x y && fSign x) then x else y
def fMax (x y : FVal) : FVal :=
  if fNan x || fNan y then .nan else if fLt y x || (fEq x y && !fSign x) then x else y

/-- The integer part toward zero, held within bounds; 0 for a NaN (R374). -/
def fTrunc (lo hi : Int) : FVal → Int
  | .nan => 0
  | .inf s => if s then lo else hi
  | .fin s m e =>
    let v : Nat := if 0 ≤ e then m * 2 ^ e.toNat else m / 2 ^ (-e).toNat
    max lo (min hi (if s then -(v : Int) else v))

/-- A float from an integer. -/
def Fmt.ofInt (f : Fmt) (x : Int) : Nat := f.round (decide (x < 0)) x.natAbs 0

end Sys2Proof.Machine
end

