-- ==== Sys2Proof/Machine/Block.lean ====
section
/-! DEFINITION. Block code on the control cores: the instructions, service calls, commits, deferred actions and core
faults (R354 to R356, R361, R367 to R392, R394). -/

namespace Sys2Proof.Machine

open Host

/-! ### Words and their fields (R375 to R377) -/

/-- The word at an address of the code section; none outside it (R383). -/
def App.wordAt (a : App) (pc : Nat) : Option Nat :=
  let s := a.code.sect 3
  if pc + 4 ≤ s.length then some (numAt s pc 4) else none

def opOf (w : Nat) : Nat := bitsOf w 24 8
def fd (w : Nat) : Nat := bitsOf w 18 6
def fa (w : Nat) : Nat := bitsOf w 12 6
def fb (w : Nat) : Nat := bitsOf w 6 6
def fimm (w : Nat) : Nat := bitsOf w 0 12
def fidx (w : Nat) : Nat := bitsOf w 0 18
def fdisp (w : Nat) : Int := asSigned 18 (fidx w)
def fty (w : Nat) : Nat := bitsOf w 8 4
def fsvc (w : Nat) : Nat := bitsOf w 12 12

/-- The opcodes of the table (R377). -/
def opKnown (o : Nat) : Bool :=
  o ≤ 6 || (0x10 ≤ o && o ≤ 0x19) || (0x20 ≤ o && o ≤ 0x28) || (0x30 ≤ o && o ≤ 0x38) || (0x40 ≤ o && o ≤ 0x43)
    || (0x50 ≤ o && o ≤ 0x71) || (0x78 ≤ o && o ≤ 0x7C) || (0x80 ≤ o && o ≤ 0x88) || o == 0x90 || o == 0xF0 || o == 0xFF

/-- The service calls of the table (R386). -/
def svcKnown (v : Nat) : Bool := (1 ≤ v && v ≤ 4) || (0x10 ≤ v && v ≤ 0x16)

/-! ### Execution of one instruction -/

/-- What an instruction does to its core: a new core state, or a fault subcode (R391). -/
abbrev CoreStep := Except Nat CtlCore

/-- Execute the instruction at a core's PC when it is the one that `mine` names. The core must be Busy with a scan that
has not ended. A fetch outside the code section, a reserved opcode and an undefined service call fault (R376, R383,
R386). -/
def App.runInstr (a : App) (k : Nat) (mine : Nat → Bool) (f : Nat → CtlCore → CoreStep) : App :=
  let c := a.core k
  if a.coreState k ≠ 1 ∨ c.ended = true ∨ c.item.isNone then a
  else
    match a.wordAt c.pc with
    | none => a.scanFault k 27
    | some w =>
      if !opKnown (opOf w) then a.scanFault k 16
      else if opOf w == 0x90 && !svcKnown (fsvc w) then a.scanFault k 24
      else if mine w then
        match f w { c with pc := c.pc + 4 } with
        | .ok c' => a.onCore k fun _ => c'
        | .error sub => a.scanFault k sub
      else a

/-- Whether a word has an opcode. -/
def isOp (o : Nat) (w : Nat) : Bool := opOf w == o

/-- The register tags (R371). -/
def Tag.empty : Nat := 0
def Tag.bool : Nat := 1
def Tag.int : Nat := 2
def Tag.uint : Nat := 3
def Tag.real : Nat := 4
def Tag.lreal : Nat := 5
def Tag.bits : Nat := 6
def Tag.time : Nat := 7
def Tag.lcnt : Nat := 8

/-- A register. -/
def CtlCore.reg (c : CtlCore) (i : Nat) : CReg := vat c.regs i

/-- A register written. -/
def CtlCore.put (c : CtlCore) (d : Nat) (v : W64) (tag : Nat) : CtlCore := { c with regs := vput c.regs d ⟨v, tag⟩ }

/-- A register read with the tags that the instruction accepts; Empty is none of them (R373). -/
def CtlCore.need (c : CtlCore) (i : Nat) (tags : List Nat) : Except Nat CReg :=
  if tags.contains (c.reg i).tag then .ok (c.reg i) else .error 17

/-- Two operands of equal accepted tags (R373). -/
def CtlCore.need2 (c : CtlCore) (i j : Nat) (tags : List Nat) : Except Nat (CReg × CReg) :=
  match c.need i tags, c.need j tags with
  | .ok x, .ok y => if x.tag = y.tag then .ok (x, y) else .error 17
  | .error e, _ => .error e
  | _, .error e => .error e

/-- A condition that must hold, else a fault. -/
def orFault (ok : Bool) (sub : Nat) : Except Nat Unit := if ok then .ok () else .error sub

/-- Format R with two operands: bits 5:0 are 0. -/
def rForm (w : Nat) : Except Nat Unit := orFault (bitsOf w 0 6 == 0) 16
/-- Format R with one operand: b is 0 as well. -/
def rForm1 (w : Nat) : Except Nat Unit := orFault (bitsOf w 0 12 == 0) 16

/-- An R-format instruction of two operands with equal tags. -/
def binary (tags : List Nat) (f : Nat → W64 → W64 → W64) (w : Nat) (c : CtlCore) : CoreStep := do
  rForm w
  let (x, y) ← c.need2 (fa w) (fb w) tags
  .ok (c.put (fd w) (f x.tag x.v y.v) x.tag)

/-- An R-format instruction of one operand. -/
def unary (tags : List Nat) (f : Nat → W64 → W64) (w : Nat) (c : CtlCore) : CoreStep := do
  rForm1 w
  let x ← c.need (fa w) tags
  .ok (c.put (fd w) (f x.tag x.v) x.tag)

/-- An R-format comparison. -/
def compare2 (tags : List Nat) (f : Nat → W64 → W64 → Bool) (w : Nat) (c : CtlCore) : CoreStep := do
  rForm w
  let (x, y) ← c.need2 (fa w) (fb w) tags
  .ok (c.put (fd w) (if f x.tag x.v y.v then 1 else 0) Tag.bool)

/-- An R-format shift: the count's tag is INT or UINT (R377). -/
def shift (tag : Nat) (f : W64 → Nat → W64) (w : Nat) (c : CtlCore) : CoreStep := do
  rForm w
  let x ← c.need (fa w) [tag]
  let y ← c.need (fb w) [Tag.int, Tag.uint]
  .ok (c.put (fd w) (f x.v (y.v.toNat % 64)) x.tag)

/-! ### Values (R374) -/

/-- A register value as the number that its tag makes it. -/
def numOf (tag : Nat) (v : W64) : Int := if tag = Tag.int ∨ tag = Tag.time then v.toInt else v.toNat

/-- DIV and MOD: truncation toward zero; by zero 0 and the dividend (R374). -/
def divOf (tag : Nat) (x y : W64) : W64 := if y = 0#64 then 0 else BitVec.ofInt 64 ((numOf tag x).tdiv (numOf tag y))
def modOf (tag : Nat) (x y : W64) : W64 := if y = 0#64 then x else BitVec.ofInt 64 ((numOf tag x).tmod (numOf tag y))

/-- The floating format of a tag, and its value. -/
def fmtOf (tag : Nat) : Fmt := if tag = Tag.real then f32 else f64
def fltOf (tag : Nat) (v : W64) : FVal := (fmtOf tag).decode (v.toNat % 2 ^ (if tag = Tag.real then 32 else 64))
def fltBits (tag : Nat) (x : FVal) : W64 := BitVec.ofNat 64 ((fmtOf tag).encode x)
def isFlt (tag : Nat) : Bool := tag == Tag.real || tag == Tag.lreal

/-- Equality and order of two values of one tag. -/
def eqOf (tag : Nat) (x y : W64) : Bool := if isFlt tag then fEq (fltOf tag x) (fltOf tag y) else x == y
def ltOf (tag : Nat) (x y : W64) : Bool :=
  if isFlt tag then fLt (fltOf tag x) (fltOf tag y) else decide (numOf tag x < numOf tag y)

/-- The range of an integer tag. -/
def tagLo (tag : Nat) : Int := if tag = Tag.uint then 0 else -(2 ^ 63)
def tagHi (tag : Nat) : Int := if tag = Tag.uint then 2 ^ 64 - 1 else 2 ^ 63 - 1

/-- CVT (R374). -/
def cvtOf (src dst : Nat) (v : W64) : W64 :=
  if src = dst then v
  else if dst = Tag.bool then
    if isFlt src then (if fEq (fltOf src v) (fltOf src 0) then 0 else 1) else if v = 0#64 then 0 else 1
  else if isFlt dst then
    if isFlt src then fltBits dst (fltOf src v) else BitVec.ofNat 64 ((fmtOf dst).ofInt (numOf src v))
  else if isFlt src then BitVec.ofInt 64 (fTrunc (tagLo dst) (tagHi dst) (fltOf src v))
  else BitVec.ofInt 64 (max (tagLo dst) (min (tagHi dst) (numOf src v)))

/-! ### Moves and constants -/

/-- MOV (R377). -/
def instrMov (w : Nat) (c : CtlCore) : CoreStep := do
  rForm1 w
  let x ← c.need (fa w) [1, 2, 3, 4, 5, 6, 7, 8]
  .ok (c.put (fd w) x.v x.tag)

/-- LDI (R377). -/
def instrLdi (w : Nat) (c : CtlCore) : CoreStep := .ok (c.put (fd w) (BitVec.ofInt 64 (asSigned 18 (fidx w))) Tag.int)

/-- LDC (R377, R383): 8 bytes of the code section. -/
def instrLdc (code : List Byte) (w : Nat) (c : CtlCore) : CoreStep := do
  let ty := bitsOf w 14 4
  orFault (1 ≤ ty && ty ≤ 7) 16
  let p : Int := c.pc + 4 * asSigned 14 (bitsOf w 0 14)
  orFault (decide (0 ≤ p) && decide (p + 8 ≤ code.length)) 27
  .ok (c.put (fd w) (BitVec.ofNat 64 (numAt code p.toNat 8)) ty)

/-- TAG (R374). -/
def instrTag (w : Nat) (c : CtlCore) : CoreStep := do
  orFault (bitsOf w 0 8 == 0 && 1 ≤ fty w && fty w ≤ 8) 16
  let x ← c.need (fa w) [2, 3, 6, 7]
  orFault ([2, 3, 6, 7].contains (fty w) || (fty w == 1 && decide (x.v.toNat ≤ 1))) 17
  .ok (c.put (fd w) x.v (fty w))

/-- CVT (R374). -/
def instrCvt (w : Nat) (c : CtlCore) : CoreStep := do
  orFault (bitsOf w 0 8 == 0 && 1 ≤ fty w && fty w ≤ 8) 16
  let x ← c.need (fa w) [1, 2, 3, 4, 5, 7]
  orFault ([1, 2, 3, 4, 5, 7].contains (fty w)) 17
  .ok (c.put (fd w) (cvtOf x.tag (fty w) x.v) (fty w))

/-- SEL (R377). -/
def instrSel (w : Nat) (c : CtlCore) : CoreStep := do
  rForm w
  let p ← c.need (fd w) [1]
  let (x, y) ← c.need2 (fa w) (fb w) [1, 2, 3, 4, 5, 6, 7, 8]
  let z := if p.v = 0#64 then y else x
  .ok (c.put (fd w) z.v z.tag)

/-- ADDI (R374, R375). -/
def instrAddi (w : Nat) (c : CtlCore) : CoreStep := do
  let x ← c.need (fa w) [2, 3, 7]
  .ok (c.put (fd w) (x.v + BitVec.ofInt 64 (asSigned 12 (fimm w))) x.tag)

/-! ### Instance data (R378 to R381) -/

/-- Width, tag and sign extension of kind k (R378). -/
def kindOf (k : Nat) : Nat × Nat × Bool :=
  match k with
  | 0 => (1, 1, false)
  | 1 => (1, 2, true)
  | 2 => (2, 2, true)
  | 3 => (4, 2, true)
  | 4 => (8, 2, true)
  | 5 => (1, 3, false)
  | 6 => (2, 3, false)
  | 7 => (4, 3, false)
  | 8 => (8, 3, false)
  | 9 => (4, 4, false)
  | 10 => (8, 5, false)
  | 11 => (1, 6, false)
  | 12 => (2, 6, false)
  | 13 => (4, 6, false)
  | 14 => (8, 6, false)
  | _ => (8, 7, true)

/-- The address of an instance access, within [IB, IL) and aligned (R379). -/
def instAddr (width w : Nat) (c : CtlCore) : Except Nat Nat := do
  let i : Nat ← if fa w = 63 then pure 0 else (c.need (fa w) [Tag.int, Tag.uint]).map (fun x => x.v.toNat)
  let p := c.ib + i + fimm w * width
  orFault (p % width == 0 && decide (p + width ≤ c.il)) 18
  .ok p

/-- The byte at an offset as the scan sees it: the log first, then the committed value (R354, R381). -/
def logByte (l : WriteLog) (mem : Mem) (o : Nat) : Byte :=
  match l.stores.find? (fun e => e.1 == o / 8) with
  | some (_, m, v) => if bitOf m (o % 8) then BitVec.ofNat 8 (v.toNat / 256 ^ (o % 8)) else mem.get o
  | none => mem.get o

/-- One byte into the log: a later store to a word merges into its entry (R381). -/
def logPut (l : List (Nat × Nat × W64)) (o : Nat) (b : Byte) : List (Nat × Nat × W64) :=
  let sh := 8 * (o % 8)
  match l with
  | [] => [(o / 8, 2 ^ (o % 8), BitVec.ofNat 64 (b.toNat * 2 ^ sh))]
  | (k, m, v) :: t =>
    if k = o / 8 then
      (k, putBit m (o % 8) true, BitVec.ofNat 64 (v.toNat - bitsOf v.toNat sh 8 * 2 ^ sh + b.toNat * 2 ^ sh)) :: t
    else (k, m, v) :: logPut t o b

/-- The bytes of a write log (R381). -/
def WriteLog.size (l : WriteLog) : Nat := 16 * (l.stores.length + l.outs.length + l.acts.length)

/-- A core with a new write log, unless the log would exceed its limit (R381). -/
def CtlCore.withLog (c : CtlCore) (limit : Nat) (l : WriteLog) : CoreStep :=
  if l.size ≤ limit then .ok { c with log := l } else .error 23

/-- LDk (R378, R379). -/
def instrLdk (mem : Mem) (w : Nat) (c : CtlCore) : CoreStep := do
  let (n, tag, sx) := kindOf (opOf w % 16)
  let p ← instAddr n w c
  let v := ofLe ((upto n).map (fun i => logByte c.log mem (p + i)))
  let x : W64 := if tag = 1 then (if v = 0 then 0 else 1) else if sx then BitVec.ofInt 64 (asSigned (8 * n) v) else BitVec.ofNat 64 v
  .ok (c.put (fd w) x tag)

/-- STk (R378, R379, R381). -/
def instrStk (limit : Nat) (w : Nat) (c : CtlCore) : CoreStep := do
  let (n, tag, _) := kindOf (opOf w % 16)
  let x ← c.need (fd w) [tag]
  let p ← instAddr n w c
  let l := (upto n).foldl (fun l i => logPut l (p + i) (BitVec.ofNat 8 (x.v.toNat / 256 ^ i))) c.log.stores
  c.withLog limit { c.log with stores := l }

/-! ### Frames and calls (R380, R383) -/

/-- LDF (R383). -/
def instrLdf (w : Nat) (c : CtlCore) : CoreStep := do
  orFault (fa w == 0) 16
  orFault (decide (fimm w < c.slots.length)) 22
  let x := c.slots.getD (fimm w) {}
  .ok (c.put (fd w) x.v x.tag)

/-- STF (R383). -/
def instrStf (w : Nat) (c : CtlCore) : CoreStep := do
  orFault (fa w == 0) 16
  let x ← c.need (fd w) [1, 2, 3, 4, 5, 6, 7, 8]
  orFault (decide (fimm w < c.slots.length)) 22
  .ok { c with slots := c.slots.set (fimm w) x }

/-- FRAME (R383). -/
def instrFrame (w : Nat) (c : CtlCore) : CoreStep := do
  orFault (fd w == 0 && fa w == 0) 16
  let used := c.calls.foldl (fun n f => n + 32 + 16 * f.slots.length) (16 * fimm w)
  orFault (decide (used ≤ 65536)) 22
  .ok { c with slots := (c.slots ++ List.replicate (fimm w) default).take (fimm w) }

/-- A jump to a target in the code section (R383). -/
def jump (n : Nat) (p : Int) (c : CtlCore) : CoreStep :=
  if 0 ≤ p ∧ p + 4 ≤ n then .ok { c with pc := p.toNat } else .error 27

/-- A forward branch taken or not (R383). -/
def branch (n : Nat) (take : Bool) (w : Nat) (c : CtlCore) : CoreStep :=
  if fdisp w < 0 then .error 21 else if take then jump n (c.pc + 4 * fdisp w) c else .ok c

/-- BR, BT and BF. -/
def instrBr (n : Nat) (w : Nat) (c : CtlCore) : CoreStep := do
  orFault (fd w == 0) 16
  branch n true w c
def instrBcond (n : Nat) (on : Bool) (w : Nat) (c : CtlCore) : CoreStep := do
  let x ← c.need (fd w) [1]
  branch n ((x.v != 0#64) == on) w c

/-- LPC (R377, R383). -/
def instrLpc (w : Nat) (c : CtlCore) : CoreStep := do
  orFault (fimm w != 0) 16
  let x ← c.need (fa w) [Tag.int, Tag.uint]
  .ok (c.put (fd w) (BitVec.ofInt 64 (min (max (numOf x.tag x.v) 0) (fimm w))) Tag.lcnt)

/-- LOOP (R383). -/
def instrLoop (n : Nat) (w : Nat) (c : CtlCore) : CoreStep := do
  orFault ((c.reg (fd w)).tag == Tag.lcnt && decide (fdisp w < 0)) 21
  let v := (c.reg (fd w)).v.toNat - 1
  let c := c.put (fd w) (BitVec.ofNat 64 v) Tag.lcnt
  if v = 0 then .ok c else jump n (c.pc + 4 * fdisp w) c

/-- A call pushes PC, IB, IL and the frame (R380, R383). -/
def CtlCore.push (c : CtlCore) (ib il : Nat) : CtlCore :=
  { c with calls := ⟨c.pc, c.ib, c.il, c.slots⟩ :: c.calls, slots := [], ib := ib, il := il }

/-- CALL (R383). -/
def instrCall (n : Nat) (w : Nat) (c : CtlCore) : CoreStep := do
  orFault (fd w == 0) 16
  orFault (decide (c.calls.length < 64)) 21
  jump n (c.pc + 4 * fdisp w) (c.push c.ib c.il)

/-- CALLB (R380): the instance must exist and belong to the task of the scan. -/
def instrCallb (m : Image) (task : Option Nat) (w : Nat) (c : CtlCore) : CoreStep := do
  orFault (fd w == 0 && bitsOf w 0 12 == 0) 16
  let x ← c.need (fa w) [Tag.uint]
  let e := m.inst x.v.toNat
  orFault (decide (x.v.toNat < m.ninst) && task == some e.owner) 19
  orFault (decide (c.calls.length < 64)) 21
  jump (m.sect 3).length ((m.typ e.typ).1 : Nat) (c.push e.off (e.off + e.size))

/-- RET (R380, R383). -/
def instrRet (w : Nat) (c : CtlCore) : CoreStep := do
  orFault (bitsOf w 0 24 == 0) 16
  match c.calls with
  | f :: t => .ok { c with pc := f.pc, ib := f.ib, il := f.il, slots := f.slots, calls := t }
  | [] => .error 21

/-- END (R390): the checker confirms it, and the commit may begin. -/
def instrEnd (w : Nat) (c : CtlCore) : CoreStep := do
  orFault (bitsOf w 0 24 == 0) 16
  orFault c.calls.isEmpty 25
  .ok { c with ended := true }

/-! ### Points (R382) -/

/-- The task, its entry and its scan on a core; an initialisation routine has none (R351). -/
def App.taskOf (a : App) (k : Nat) : Option Nat :=
  match (a.core k).item with
  | some (.task t) => some t
  | _ => none
def App.scanOf (a : App) (k : Nat) : Scan := (((a.taskOf k).map (fun t => (a.task t).scan)).getD none).getD default
def App.entryOf (a : App) (k : Nat) : List Byte := ((a.taskOf k).map a.entry).getD []

/-- The limit of a core's write log (R381). -/
def App.logLimit (a : App) (k : Nat) : Nat :=
  match a.taskOf k with
  | some t => min 262144 (tkLogMax (a.entry t))
  | none => 262144

/-- The point records at input position idx, by their points (R382). -/
def App.inputAt (a : App) (k idx : Nat) : Except Nat (Nat × PointVal) :=
  let e := a.entryOf k
  if idx < tkInCount e then .ok ((a.code.inList e).getD idx 0, (a.scanOf k).snap.getD idx {}) else .error 20

/-- LDP, LDPQ and LDPS (R382). -/
def instrLdp (a : App) (k w : Nat) (c : CtlCore) : CoreStep := do
  let (p, v) ← a.inputAt k (fidx w)
  .ok (c.put (fd w) v.value (typeTag (ptType (a.code.point p))))
def instrLdpq (a : App) (k w : Nat) (c : CtlCore) : CoreStep := do
  let (_, v) ← a.inputAt k (fidx w)
  .ok (c.put (fd w) (BitVec.ofNat 64 (v.quality.toNat + v.tq.toNat % 16 * 2 ^ 16 + v.tsc.toNat * 2 ^ 24)) Tag.bits)
def instrLdps (a : App) (k w : Nat) (c : CtlCore) : CoreStep := do
  let (_, v) ← a.inputAt k (fidx w)
  .ok (c.put (fd w) v.stamp Tag.uint)

/-- The entry of an output position with a value or a quality merged in (R381). -/
def outMerge (l : List (Nat × Option W64 × Option W16)) (i : Nat) (v : Option W64) (q : Option W16) : List (Nat × Option W64 × Option W16) :=
  match l with
  | [] => [(i, v, q)]
  | (j, x, y) :: t => if j = i then (j, v.orElse (fun _ => x), q.orElse (fun _ => y)) :: t else (j, x, y) :: outMerge t i v q

/-- The point of an output position (R382). -/
def App.outputAt (a : App) (k idx : Nat) : Except Nat Nat :=
  let e := a.entryOf k
  if idx < tkOutCount e then .ok ((a.code.outList e).getD idx 0) else .error 20

/-- STP and STPQ (R382). -/
def instrStp (a : App) (k w : Nat) (c : CtlCore) : CoreStep := do
  let p ← a.outputAt k (fidx w)
  let ty := ptType (a.code.point p)
  let x ← c.need (fd w) [typeTag ty]
  c.withLog (a.logLimit k) { c.log with outs := outMerge c.log.outs (fidx w) (some (typeValue ty x.v)) none }
def instrStpq (a : App) (k w : Nat) (c : CtlCore) : CoreStep := do
  let _ ← a.outputAt k (fidx w)
  let x ← c.need (fd w) [Tag.bits]
  c.withLog (a.logLimit k) { c.log with outs := outMerge c.log.outs (fidx w) none (some (BitVec.ofNat 16 (x.v.toNat % 2 ^ 13))) }

/-! ### Service calls (R386, R387) -/

/-- d and a of a service call. -/
def sd (w : Nat) : Nat := bitsOf w 6 6
def sa (w : Nat) : Nat := bitsOf w 0 6
def isSvc (v : Nat) (w : Nat) : Bool := opOf w == 0x90 && fsvc w == v

/-- An immediate call: no argument, a value of the snapshot header (R386). -/
def instrNow (v : W64) (tag : Nat) (w : Nat) (c : CtlCore) : CoreStep := do
  orFault (sa w == 0) 16
  .ok (c.put (sd w) v tag)

/-- The arguments of a service call as unsigned numbers. -/
def svcArgs (w : Nat) (c : CtlCore) : Nat → Nat → Except Nat (List Nat)
  | 0, _ => .ok []
  | n + 1, i => do
    let x ← c.need (sa w + i) [Tag.bool, Tag.int, Tag.uint, Tag.bits]
    let r ← svcArgs w c n (i + 1)
    .ok (x.v.toNat :: r)

/-- A deferred call of `n` arguments: an action queued and TRUE, or FALSE for arguments out of range; an initialisation
routine has no deferred actions (R351, R386, R387). -/
def instrDefer (a : App) (k svc n : Nat) (ok : List Nat → Bool) (w : Nat) (c : CtlCore) : CoreStep := do
  orFault (decide (sa w + n ≤ 64)) 16
  let t ← match a.taskOf k with
    | some t => pure t
    | none => .error 24
  let args ← svcArgs w c n 0
  if ok args then
    orFault (decide (c.log.acts.length < 64)) 23
    let c ← c.withLog (a.logLimit k) { c.log with acts := c.log.acts ++ [⟨svc, t, args⟩] }
    .ok (c.put (sd w) 1 Tag.bool)
  else .ok (c.put (sd w) 0 Tag.bool)

/-- Whether argument `i` is at most a limit. -/
def argMax (l : List Nat) (i n : Nat) : Bool := decide (l.getD i 0 ≤ n)

/-! ### The instruction rows -/

/-- NOP (R377). -/
def execNopInstruction (core : Fin 8) (s : State) : Outcome State Fault Refusal :=
  s.onApp fun a => a.runInstr core (isOp 0x00) fun w c => do orFault (bitsOf w 0 24 == 0) 16; .ok c
/-- MOV (R377). -/
def execMov (core : Fin 8) (s : State) : Outcome State Fault Refusal := s.onApp fun a => a.runInstr core (isOp 0x01) instrMov
/-- LDI (R377). -/
def execLdi (core : Fin 8) (s : State) : Outcome State Fault Refusal := s.onApp fun a => a.runInstr core (isOp 0x02) instrLdi
/-- LDC (R377). -/
def execLdc (core : Fin 8) (s : State) : Outcome State Fault Refusal :=
  s.onApp fun a => a.runInstr core (isOp 0x03) (instrLdc (a.code.sect 3))
/-- TAG (R374). -/
def execTag (core : Fin 8) (s : State) : Outcome State Fault Refusal := s.onApp fun a => a.runInstr core (isOp 0x04) instrTag
/-- CVT (R374). -/
def execCvt (core : Fin 8) (s : State) : Outcome State Fault Refusal := s.onApp fun a => a.runInstr core (isOp 0x05) instrCvt
/-- SEL (R377). -/
def execSel (core : Fin 8) (s : State) : Outcome State Fault Refusal := s.onApp fun a => a.runInstr core (isOp 0x06) instrSel
/-- ADD (R374). -/
def execAdd (core : Fin 8) (s : State) : Outcome State Fault Refusal :=
  s.onApp fun a => a.runInstr core (isOp 0x10) (binary [2, 3, 7] fun _ x y => x + y)
/-- SUB (R374). -/
def execSub (core : Fin 8) (s : State) : Outcome State Fault Refusal :=
  s.onApp fun a => a.runInstr core (isOp 0x11) (binary [2, 3, 7] fun _ x y => x - y)
/-- MUL (R374). -/
def execMul (core : Fin 8) (s : State) : Outcome State Fault Refusal :=
  s.onApp fun a => a.runInstr core (isOp 0x12) (binary [2, 3] fun _ x y => x * y)
/-- DIV (R374). -/
def execDiv (core : Fin 8) (s : State) : Outcome State Fault Refusal :=
  s.onApp fun a => a.runInstr core (isOp 0x13) (binary [2, 3, 7] divOf)
/-- MOD (R374). -/
def execMod (core : Fin 8) (s : State) : Outcome State Fault Refusal :=
  s.onApp fun a => a.runInstr core (isOp 0x14) (binary [2, 3, 7] modOf)
/-- NEG (R377). -/
def execNeg (core : Fin 8) (s : State) : Outcome State Fault Refusal :=
  s.onApp fun a => a.runInstr core (isOp 0x15) (unary [2, 7] fun _ x => -x)
/-- ABS (R377): wrapping, so the most negative value stays (R374). -/
def execAbs (core : Fin 8) (s : State) : Outcome State Fault Refusal :=
  s.onApp fun a => a.runInstr core (isOp 0x16) (unary [2, 7] fun _ x => if x.toInt < 0 then -x else x)
/-- MIN (R377). -/
def execMin (core : Fin 8) (s : State) : Outcome State Fault Refusal :=
  s.onApp fun a => a.runInstr core (isOp 0x17) (binary [2, 3, 7] fun t x y => if ltOf t y x then y else x)
/-- MAX (R377). -/
def execMax (core : Fin 8) (s : State) : Outcome State Fault Refusal :=
  s.onApp fun a => a.runInstr core (isOp 0x18) (binary [2, 3, 7] fun t x y => if ltOf t x y then y else x)
/-- ADDI (R374). -/
def execAddi (core : Fin 8) (s : State) : Outcome State Fault Refusal := s.onApp fun a => a.runInstr core (isOp 0x19) instrAddi
/-- AND (R377). -/
def execAnd (core : Fin 8) (s : State) : Outcome State Fault Refusal :=
  s.onApp fun a => a.runInstr core (isOp 0x20) (binary [1, 6] fun _ x y => x &&& y)
/-- OR (R377). -/
def execOr (core : Fin 8) (s : State) : Outcome State Fault Refusal :=
  s.onApp fun a => a.runInstr core (isOp 0x21) (binary [1, 6] fun _ x y => x ||| y)
/-- XOR (R377). -/
def execXor (core : Fin 8) (s : State) : Outcome State Fault Refusal :=
  s.onApp fun a => a.runInstr core (isOp 0x22) (binary [1, 6] fun _ x y => x ^^^ y)
/-- NOT (R377): the other truth value of a BOOL. -/
def execNot (core : Fin 8) (s : State) : Outcome State Fault Refusal :=
  s.onApp fun a => a.runInstr core (isOp 0x23) (unary [1, 6] fun t x => if t = Tag.bool then x ^^^ 1 else ~~~x)
/-- SHL (R377). -/
def execShl (core : Fin 8) (s : State) : Outcome State Fault Refusal :=
  s.onApp fun a => a.runInstr core (isOp 0x24) (shift Tag.bits fun x n => x <<< n)
/-- SHR (R377). -/
def execShr (core : Fin 8) (s : State) : Outcome State Fault Refusal :=
  s.onApp fun a => a.runInstr core (isOp 0x25) (shift Tag.bits fun x n => x >>> n)
/-- SAR (R377). -/
def execSar (core : Fin 8) (s : State) : Outcome State Fault Refusal :=
  s.onApp fun a => a.runInstr core (isOp 0x26) (shift Tag.int fun x n => x.sshiftRight n)
/-- ROL (R377). -/
def execRol (core : Fin 8) (s : State) : Outcome State Fault Refusal :=
  s.onApp fun a => a.runInstr core (isOp 0x27) (shift Tag.bits fun x n => x.rotateLeft n)
/-- ROR (R377). -/
def execRor (core : Fin 8) (s : State) : Outcome State Fault Refusal :=
  s.onApp fun a => a.runInstr core (isOp 0x28) (shift Tag.bits fun x n => x.rotateRight n)

/-- A floating operation of two operands, and of one. -/
def float2 (f : FVal → FVal → FVal) (t : Nat) (x y : W64) : W64 := fltBits t (f (fltOf t x) (fltOf t y))
def float1 (f : FVal → FVal) (t : Nat) (x : W64) : W64 := fltBits t (f (fltOf t x))

/-- FADD (R374). -/
def execFadd (core : Fin 8) (s : State) : Outcome State Fault Refusal :=
  s.onApp fun a => a.runInstr core (isOp 0x30) (binary [4, 5] (float2 fAdd))
/-- FSUB (R374). -/
def execFsub (core : Fin 8) (s : State) : Outcome State Fault Refusal :=
  s.onApp fun a => a.runInstr core (isOp 0x31) (binary [4, 5] (float2 fun x y => fAdd x (fNeg y)))
/-- FMUL (R374). -/
def execFmul (core : Fin 8) (s : State) : Outcome State Fault Refusal :=
  s.onApp fun a => a.runInstr core (isOp 0x32) (binary [4, 5] (float2 fMul))
/-- FDIV (R374). -/
def execFdiv (core : Fin 8) (s : State) : Outcome State Fault Refusal :=
  s.onApp fun a => a.runInstr core (isOp 0x33) (binary [4, 5] (float2 fDiv))
/-- FSQRT (R374). -/
def execFsqrt (core : Fin 8) (s : State) : Outcome State Fault Refusal :=
  s.onApp fun a => a.runInstr core (isOp 0x34) (unary [4, 5] (float1 fSqrt))
/-- FABS (R377). -/
def execFabs (core : Fin 8) (s : State) : Outcome State Fault Refusal :=
  s.onApp fun a => a.runInstr core (isOp 0x35) (unary [4, 5] (float1 fAbs))
/-- FNEG (R377). -/
def execFneg (core : Fin 8) (s : State) : Outcome State Fault Refusal :=
  s.onApp fun a => a.runInstr core (isOp 0x36) (unary [4, 5] (float1 fNeg))
/-- FMIN (R377). -/
def execFmin (core : Fin 8) (s : State) : Outcome State Fault Refusal :=
  s.onApp fun a => a.runInstr core (isOp 0x37) (binary [4, 5] (float2 fMin))
/-- FMAX (R377). -/
def execFmax (core : Fin 8) (s : State) : Outcome State Fault Refusal :=
  s.onApp fun a => a.runInstr core (isOp 0x38) (binary [4, 5] (float2 fMax))
/-- CEQ (R377). -/
def execCeq (core : Fin 8) (s : State) : Outcome State Fault Refusal :=
  s.onApp fun a => a.runInstr core (isOp 0x40) (compare2 [1, 2, 3, 4, 5, 6, 7] eqOf)
/-- CNE (R377). -/
def execCne (core : Fin 8) (s : State) : Outcome State Fault Refusal :=
  s.onApp fun a => a.runInstr core (isOp 0x41) (compare2 [1, 2, 3, 4, 5, 6, 7] fun t x y => !eqOf t x y)
/-- CLT (R377). -/
def execClt (core : Fin 8) (s : State) : Outcome State Fault Refusal :=
  s.onApp fun a => a.runInstr core (isOp 0x42) (compare2 [2, 3, 4, 5, 7] ltOf)
/-- CLE (R377). -/
def execCle (core : Fin 8) (s : State) : Outcome State Fault Refusal :=
  s.onApp fun a => a.runInstr core (isOp 0x43) (compare2 [2, 3, 4, 5, 7] fun t x y => ltOf t x y || eqOf t x y)

/-- The instance data of the running program. -/
def App.instMem (a : App) : Mem := vat a.ctl.inst a.ctl.region

/-- LDk (R379). -/
def execLdk (core : Fin 8) (s : State) : Outcome State Fault Refusal :=
  s.onApp fun a => a.runInstr core (fun w => opOf w / 16 == 5) (instrLdk a.instMem)
/-- STk (R381). -/
def execStk (core : Fin 8) (s : State) : Outcome State Fault Refusal :=
  s.onApp fun a => a.runInstr core (fun w => opOf w / 16 == 6) (instrStk (a.logLimit core))
/-- LDF (R383). -/
def execLdf (core : Fin 8) (s : State) : Outcome State Fault Refusal := s.onApp fun a => a.runInstr core (isOp 0x70) instrLdf
/-- STF (R383). -/
def execStf (core : Fin 8) (s : State) : Outcome State Fault Refusal := s.onApp fun a => a.runInstr core (isOp 0x71) instrStf
/-- LDP (R382). -/
def execLdp (core : Fin 8) (s : State) : Outcome State Fault Refusal :=
  s.onApp fun a => a.runInstr core (isOp 0x78) (instrLdp a core)
/-- LDPQ (R382). -/
def execLdpq (core : Fin 8) (s : State) : Outcome State Fault Refusal :=
  s.onApp fun a => a.runInstr core (isOp 0x79) (instrLdpq a core)
/-- LDPS (R382). -/
def execLdps (core : Fin 8) (s : State) : Outcome State Fault Refusal :=
  s.onApp fun a => a.runInstr core (isOp 0x7A) (instrLdps a core)
/-- STP (R382). -/
def execStp (core : Fin 8) (s : State) : Outcome State Fault Refusal :=
  s.onApp fun a => a.runInstr core (isOp 0x7B) (instrStp a core)
/-- STPQ (R382). -/
def execStpq (core : Fin 8) (s : State) : Outcome State Fault Refusal :=
  s.onApp fun a => a.runInstr core (isOp 0x7C) (instrStpq a core)
/-- BR (R383). -/
def execBr (core : Fin 8) (s : State) : Outcome State Fault Refusal :=
  s.onApp fun a => a.runInstr core (isOp 0x80) (instrBr (a.code.sect 3).length)
/-- BT (R383). -/
def execBt (core : Fin 8) (s : State) : Outcome State Fault Refusal :=
  s.onApp fun a => a.runInstr core (isOp 0x81) (instrBcond (a.code.sect 3).length true)
/-- BF (R383). -/
def execBf (core : Fin 8) (s : State) : Outcome State Fault Refusal :=
  s.onApp fun a => a.runInstr core (isOp 0x82) (instrBcond (a.code.sect 3).length false)
/-- LPC (R383). -/
def execLpc (core : Fin 8) (s : State) : Outcome State Fault Refusal := s.onApp fun a => a.runInstr core (isOp 0x83) instrLpc
/-- LOOP (R383). -/
def execLoop (core : Fin 8) (s : State) : Outcome State Fault Refusal :=
  s.onApp fun a => a.runInstr core (isOp 0x84) (instrLoop (a.code.sect 3).length)
/-- CALL (R383). -/
def execCall (core : Fin 8) (s : State) : Outcome State Fault Refusal :=
  s.onApp fun a => a.runInstr core (isOp 0x85) (instrCall (a.code.sect 3).length)
/-- CALLB (R380). -/
def execCallb (core : Fin 8) (s : State) : Outcome State Fault Refusal :=
  s.onApp fun a => a.runInstr core (isOp 0x86) (instrCallb a.code (a.taskOf core))
/-- RET (R380). -/
def execRet (core : Fin 8) (s : State) : Outcome State Fault Refusal := s.onApp fun a => a.runInstr core (isOp 0x87) instrRet
/-- FRAME (R383). -/
def execFrame (core : Fin 8) (s : State) : Outcome State Fault Refusal := s.onApp fun a => a.runInstr core (isOp 0x88) instrFrame
/-- END (R390). -/
def execEndScan (core : Fin 8) (s : State) : Outcome State Fault Refusal := s.onApp fun a => a.runInstr core (isOp 0xFF) instrEnd

/-- SCAN_TIME (R386). -/
def execScanTime (core : Fin 8) (s : State) : Outcome State Fault Refusal :=
  s.onApp fun a => a.runInstr core (isSvc 0x001) (instrNow (BitVec.ofNat 64 (a.scanOf core).rel.ts) Tag.uint)
/-- SCAN_QUAL (R386). -/
def execScanQual (core : Fin 8) (s : State) : Outcome State Fault Refusal :=
  s.onApp fun a =>
    let r := (a.scanOf core).rel
    a.runInstr core (isSvc 0x002) (instrNow (BitVec.ofNat 64 (r.tq % 16 + r.tsc % 256 * 2 ^ 8 + r.aq % 16 * 2 ^ 16)) Tag.bits)
/-- SCAN_ANGLE (R386). -/
def execScanAngle (core : Fin 8) (s : State) : Outcome State Fault Refusal :=
  s.onApp fun a => a.runInstr core (isSvc 0x003) (instrNow (BitVec.ofNat 64 (a.scanOf core).rel.a48) Tag.uint)
/-- SCAN_CYCLE (R386). -/
def execScanCycle (core : Fin 8) (s : State) : Outcome State Fault Refusal :=
  s.onApp fun a => a.runInstr core (isSvc 0x004) (instrNow (BitVec.ofNat 64 (a.scanOf core).rel.cycle) Tag.uint)
/-- BREAKER (R386, R387). -/
def execBreaker (core : Fin 8) (s : State) : Outcome State Fault Refusal :=
  s.onApp fun a => a.runInstr core (isSvc 0x010) (instrDefer a core 0x010 3 fun l =>
    argMax l 0 3 && argMax l 1 3 && argMax l 2 65535 && (bitOf (l.getD 1 0) 1 || l.getD 2 0 == 0))
/-- GROUP (R386, R387). -/
def execGroup (core : Fin 8) (s : State) : Outcome State Fault Refusal :=
  s.onApp fun a => a.runInstr core (isSvc 0x011) (instrDefer a core 0x011 2 fun l => argMax l 0 3 && argMax l 1 7)
/-- CAPTURE_ARM (R386, R387). -/
def execCaptureArm (core : Fin 8) (s : State) : Outcome State Fault Refusal :=
  s.onApp fun a => a.runInstr core (isSvc 0x012) (instrDefer a core 0x012 2 fun l => argMax l 0 3 && argMax l 1 1)
/-- CAPTURE_FIRE (R386, R387). -/
def execCaptureFire (core : Fin 8) (s : State) : Outcome State Fault Refusal :=
  s.onApp fun a => a.runInstr core (isSvc 0x013) (instrDefer a core 0x013 1 fun l => argMax l 0 3 || l.getD 0 0 == 255)
/-- AUX_SEQ (R386, R387). -/
def execAuxSeq (core : Fin 8) (s : State) : Outcome State Fault Refusal :=
  s.onApp fun a => a.runInstr core (isSvc 0x014) (instrDefer a core 0x014 1 fun l => argMax l 0 15)
/-- FLAG_SET as a service call (R386, R387). -/
def execSvcFlagSet (core : Fin 8) (s : State) : Outcome State Fault Refusal :=
  s.onApp fun a => a.runInstr core (isSvc 0x015) (instrDefer a core 0x015 2 fun l => argMax l 0 63 && argMax l 1 31)
/-- FLAG_CANCEL as a service call (R386, R387). -/
def execSvcFlagCancel (core : Fin 8) (s : State) : Outcome State Fault Refusal :=
  s.onApp fun a => a.runInstr core (isSvc 0x016) (instrDefer a core 0x016 2 fun l => argMax l 0 63 && argMax l 1 (2 ^ 32 - 1))

/-! ### Hand-over, faults from outside and the self-test (R370, R372, R385, R389) -/

/-- The state of a core at hand-over (R372), and the dispatch latency (R403). -/
def App.handOver (a : App) (k : Nat) : App :=
  let c := a.core k
  let a := a.set Reg.CSC_CLAT_peak_lat (max (a.get Reg.CSC_CLAT_peak_lat) (min 65535 (4 * (a.tick - c.handAt))))
  let m := a.code
  let (j, pc) := match c.item with
    | some (.task t) => (tkRoot (a.entry t), tkEntry (a.entry t))
    | some (.init j) => (j, (m.typ (m.inst j).typ).2.2.1)
    | none => (0, 0)
  let e := m.inst j
  (a.onCore k fun c =>
    { item := c.item, replay := c.replay, handAt := c.handAt, startAt := a.tick, pc := pc, ib := e.off, il := e.off + e.size }).setCore k 1

/-- WAIT_WORK (R372, R389): an Idle core takes the item handed to it and enters Busy; a Busy core that executes the
instruction faults, at offset 0 as elsewhere. -/
def execWaitWork (core : Fin 8) (s : State) : Outcome State Fault Refusal :=
  s.onApp fun a =>
    if a.coreState core = 0 then (if (a.core core).item.isSome then a.handOver core else a)
    else a.runInstr core (isOp 0xF0) fun w _ => do orFault (bitsOf w 0 24 == 0) 16; .error 25

/-- LOCKSTEP_MISMATCH (R369, R370): a mismatch, or an uncorrectable error at an address of the local SRAM (R32). The
core enters Testing; a scan on it is discarded, unless END has been confirmed. -/
def execLockstepMismatch (core : Fin 8) (sram : Option W32) (s : State) : Outcome State Fault Refusal :=
  s.onApp fun a =>
    if (a.core core).ended || 2 ≤ a.coreState core then a
    else
      let a := match sram with
        | some p => a.record 0x0040 0 p.toNat 0 0
        | none => a
      if (a.core core).item.isSome then a.scanFault core (if sram.isSome then 2 else 1) else a.clearCore core 2

/-- SELF_TEST_END (R370): after 2 ms the core is Idle again, or Offline. -/
def execSelfTestEnd (core : Fin 8) (pass : Bool) (s : State) : Outcome State Fault Refusal :=
  s.onApp fun a =>
    if a.coreState core = 2 ∧ a.since (a.core core).testAt (2 * tMs) = true then
      if pass then a.setCore core 0 else (a.setCore core 3).record 0x0041 core 0 0 0
    else a

/-- SCAN_BUDGET_EXPIRY (R385): 2 × wcet_ns after its hand-over. -/
def execScanBudgetExpiry (core : Fin 8) (s : State) : Outcome State Fault Refusal :=
  s.onApp fun a =>
    let c := a.core core
    match c.item with
    | some (.task t) =>
      if a.coreState core = 1 ∧ ¬ c.ended = true ∧ 2 * tkWcet (a.entry t) ≤ 4 * (a.tick - c.startAt) then a.scanFault core 26 else a
    | _ => a

/-- INIT_BUDGET_EXPIRY (R351): 1 ms after its hand-over. -/
def execInitBudgetExpiry (core : Fin 8) (s : State) : Outcome State Fault Refusal :=
  s.onApp fun a =>
    let c := a.core core
    match c.item with
    | some (.init _) => if a.coreState core = 1 ∧ ¬ c.ended = true ∧ a.since c.startAt tMs = true then a.scanFault core 26 else a
    | _ => a

/-! ### Commit (R355, R361) -/

/-- The bytes that a write log stores, as offset and byte, in rising order of the words. -/
def logBytes (l : List (Nat × Nat × W64)) : List (Nat × Byte) :=
  l.flatMap (fun e => ((upto 8).filter (fun i => bitOf e.2.1 i)).map (fun i => (8 * e.1 + i, BitVec.ofNat 8 (e.2.2.toNat / 256 ^ i))))

/-- The place of an offset of instance data in the retained bytes, if it is retained. -/
def retIndex (m : Image) (o : Nat) : Option Nat :=
  let rec go : List (Nat × Nat) → Nat → Option Nat
    | [], _ => none
    | (p, n) :: t, b => if p ≤ o ∧ o < p + n then some (b + (o - p)) else go t (b + n)
  go m.retRanges 0

/-- One byte joined to the ranges: it extends a range that ends before it. -/
def joinRange (l : List (Nat × List Byte)) (o : Nat) (b : Byte) : List (Nat × List Byte) :=
  match l with
  | [] => [(o, [b])]
  | (p, bs) :: t => if o = p + bs.length then (p, bs ++ [b]) :: t else (p, bs) :: joinRange t o b

/-- The changed retained ranges of a commit (R360, R361). -/
def changedRanges (m : Image) (l : List (Nat × Byte)) : List (Nat × List Byte) :=
  l.foldl (fun r x => match retIndex m x.1 with
    | some o => joinRange r o x.2
    | none => r) []

/-- The old ranges of a change's map that hold an offset make its 4 KiB page dirty (R411). -/
def skimTouches (map : List Byte) (o : Nat) : Bool :=
  (upto (numAt map 24 4)).any (fun i =>
    let e := bytesAt map (48 + 16 * i) 16
    let k := numAt e 0 1
    let n := if k = 1 then numAt e 12 4 else if k = 2 then 24 else if k = 4 then 1 else 0
    numAt e 4 4 ≤ o && decide (o < numAt e 4 4 + n))

/-- The pages that a commit makes dirty for a change in progress. -/
def App.dirtyPages (a : App) (l : List (Nat × Byte)) : App :=
  a.onCtl fun c => { c with skim := c.skim.map (fun k =>
    { k with dirty := l.foldl (fun d x => if skimTouches k.map x.1 then insertNat (x.1 / 4096) d else d) k.dirty }) }

/-- The snapshot and the write log as numbers, for their CRCs (R361). -/
def snapNums (s : Scan) : List Nat :=
  [s.rel.ts, s.rel.tq, s.rel.tsc, s.rel.a48, s.rel.aq, s.rel.cycle, s.snapSeq] ++
    s.snap.flatMap (fun v => [v.value.toNat, v.stamp.toNat, v.quality.toNat, v.tq.toNat, v.tsc.toNat])
def logNums (l : WriteLog) : List Nat :=
  l.stores.flatMap (fun e => [e.1, e.2.1, e.2.2.toNat])
    ++ l.outs.flatMap (fun e => [e.1, (e.2.1.getD 0).toNat, e.2.1.isSome.toNat, (e.2.2.getD 0).toNat, e.2.2.isSome.toNat])
    ++ l.acts.flatMap (fun e => [e.svc, e.task] ++ e.args)

/-- One output position of a commit: validity good unless a quality was written, stamped with the scan (R355, R382). -/
def App.commitOut (a : App) (outs : List Nat) (r : Release) (o : Nat × Option W64 × Option W16) : App :=
  let i := outs.getD o.1 0
  let w := a.written i
  let q : W16 := match o.2.2, o.2.1 with
    | some q, _ => q
    | none, some _ => 0
    | none, none => w.quality
  a.putPoint i (o.2.1.getD w.value) q r.ts r.tq r.tsc

/-- The bytes of a commit record, as the journal holds them and as they go to the partner (R361, R387, R575). -/
def commitBytes (t seq : Nat) (r : Release) (snapCrc outCrc : W32) (ranges : List (Nat × List Byte)) (acts : List Action) : List Byte :=
  let n := 52 + ranges.foldl (fun n x => n + 8 + x.2.length) 0 + 16 * acts.length
  withCrc (le 1 2 ++ le 1 t ++ le 1 r.tq ++ le 1 r.tsc ++ le 4 n ++ le 8 seq ++ le 8 r.cycle ++ le 8 r.ts ++ le 4 snapCrc.toNat ++ le 4 outCrc.toNat
    ++ le 2 ranges.length ++ le 2 acts.length ++ le 4 0 ++ ranges.flatMap (fun x => le 4 x.1 ++ le 4 x.2.length ++ x.2)
    ++ acts.flatMap (fun x => le 2 x.svc ++ le 1 x.task ++ le 1 x.args.length ++ le 4 (x.args.getD 0 0) ++ le 4 (x.args.getD 1 0) ++ le 4 (x.args.getD 2 0)))

/-- The commit of a task's scan (R355, R361): journal record (none in the power-fail sequence, R38), instance data, output points, trip requests, actions; the
task is Idle, and an event task is evaluated at once (R397). -/
def App.commitScan (a : App) (k t : Nat) (s : Scan) : App :=
  let c := a.core k
  let m := a.runImage
  let r := s.rel
  let seq := a.get Reg.CSC_COMMIT_commit_seq + 1
  let bytes := logBytes c.log.stores
  let snapCrc := Config.scanCrc (snapNums s)
  let outCrc := Config.scanCrc (logNums c.log)
  let ranges := changedRanges m bytes
  let rec_ : JRec := .commit t r.tq r.tsc seq r.cycle r.ts snapCrc outCrc ranges c.log.acts
  let a := a.onCtl fun x => { x with journal := if a.failing then x.journal else rec_ :: x.journal, lastScan := (t, r.ts, r.tq, r.tsc) :: x.lastScan.filter (fun l => l.1 != t)
                                     inst := vup x.inst x.region (fun d => bytes.foldl (fun d b => d.put b.1 b.2) d) }
  let a := ((a.dirtyPages bytes).copyDirty (bytes.map (·.1))).set Reg.CSC_COMMIT_commit_seq seq
  let old := a
  let a := ((c.log.outs.foldl (fun a o => a.commitOut (m.outList (a.entry t)) r o) a).pubCommit t).canCommit old t
  let waits := a.streams && !c.log.acts.isEmpty
  let a := a.stream 3 (commitBytes t seq r snapCrc outCrc ranges c.log.acts)
  let wait := if waits then some a.par.seq else none
  let (a, acts) := a.commitActs t r.ts c.log.acts
  let a := if a.leads then a.onCtl fun x => { x with actions := x.actions ++ acts.map (fun p => (p, wait)) } else a
  let a := (a.onTask t fun x => { x with scan := none }).clearCore k 0
  ((a.setDisp t Disp.idle 0).evaluate t).followCommit true t r.ts (snapCrc, outCrc) c.log.acts

/-- The commit of an initialisation routine: only its instance, at a warm start without its retained ranges; after the
last one the program runs (R351). -/
def App.commitInit (a : App) (k j : Nat) (i : InitSt) : App :=
  let c := a.core k
  let m := a.code
  let e := m.inst j
  let bytes := (logBytes c.log.stores).filter (fun b => e.off ≤ b.1 && b.1 < e.off + e.size && !(i.warm && m.retAt b.1))
  let a := (a.onCtl fun x => { x with inst := vup x.inst x.region (fun d => bytes.foldl (fun d b => d.put b.1 b.2) d) }).clearCore k 0
  let busy := (upto 8).any (fun n => match (a.core n).item with
    | some (.init _) => true
    | _ => false)
  if i.queue.isEmpty && !busy then a.startDone else a

/-- The commit of the item that has ended on a core: one access of the core to the process image, which no snapshot interleaves
(R36, R355). -/
def App.commitCore (a : App) (core : Nat) : App :=
  let c := a.core core
  if !c.ended then a
  else
    let a := a.access (.core (Fin.ofNat 8 core)) .sharedSram (32 * c.log.outs.length)
    match c.item with
    | some (.task t) =>
      match (a.task t).scan with
      | some s => a.commitScan core t s
      | none => a
    | some (.init j) =>
      match a.ctl.init with
      | some i => a.commitInit core j i
      | none => a
    | none => a

/-- COMMIT (R355): the commit of the scan that has ended on a core completes. -/
def execCommit (core : Fin 8) (s : State) : Outcome State Fault Refusal := s.onApp fun a => a.commitCore core

/-! ### Deferred actions (R387, R394) -/

/-- A deferred action as the matching host command, with the task as issuer: the status and the state after it. -/
def App.applyAction (a : App) (x : Action) : App × Nat :=
  let arg := fun i => x.args.getD i 0
  match x.svc with
  | 0x010 =>
    if (a.ownerOf (arg 0)).isSome then (a, Status.owned)
    else
      let (a, r) := a.brkAccept none (arg 0) (bitOf (arg 1) 0) (bitOf (arg 1) 1) (arg 2)
      (a, match r with
        | some (st, _) => st
        | none => Status.ok)
  | 0x011 =>
    if (a.ownerOf (4 + arg 0)).isSome then (a, Status.owned)
    else
      let (a, st, _) := a.requestGroup (arg 0) (arg 1)
      (a, st)
  | 0x012 => (a.armSlot (arg 0) (arg 1 == 1), Status.ok)
  | 0x013 => (a.fireSlot (arg 0), Status.ok)
  | 0x014 => (a.auxStartSeq (arg 0), Status.ok)
  | 0x015 => (a.onCtl fun c => { c with sets := c.sets ++ [(arg 0, arg 1)] }, Status.ok)
  | _ => (a.onCtl fun c => { c with cancels := c.cancels ++ [(arg 0, arg 1)] }, Status.ok)

/-- A deferred action takes effect, with a record when it is refused and a notice to the partner (R387, R576). -/
def App.doAction (a : App) (x : Action) : App :=
  let (a, st) := a.applyAction x
  let a := if st = Status.ok then a else a.record 0x0045 x.task x.svc st 0
  a.stream 7 (le 1 255 ++ le 1 x.task ++ le 2 x.svc)

/-- Whether an action is a FLAG_SET or FLAG_CANCEL (R394). -/
def Action.isFlag (x : Action) : Bool := x.svc == 0x015 || x.svc == 0x016

/-- The first action that may be applied now, with those that stay: the actions of a task in call order, none while the
acknowledgement of its commit record is awaited (R576), and one flag action of a task in a dispatcher cycle (R394). -/
def nextAction (flagged : List Nat) : List Nat → List (Action × Option Nat) → Option (Action × List (Action × Option Nat))
  | _, [] => none
  | seen, (x, w) :: t =>
    if w.isNone && !seen.contains x.task && !(x.isFlag && flagged.contains x.task) then some (x, t)
    else (nextAction flagged (x.task :: seen) t).map (fun r => (r.1, (x, w) :: r.2))

/-- DEFERRED_ACTION (R387, R394): the next deferred action. -/
def execDeferredAction (s : State) : Outcome State Fault Refusal :=
  s.onApp fun a =>
    match nextAction a.ctl.flagged [] a.ctl.actions with
    | some (x, t) =>
      (a.onCtl fun c => { c with actions := t, flagged := if x.isFlag then insertNat x.task c.flagged else c.flagged }).doAction x
    | none => a

end Sys2Proof.Machine
end

