-- ==== Sys2Proof/Machine/Lifecycle.lean ====
section
/-! DEFINITION. Changes of the life-cycle state, the session wipe, and the commands that lead to a reset or to removal
(R581, R585 to R591). -/

namespace Sys2Proof.Machine

open Host

/-- A change to the life-cycle part. -/
def App.onLife (a : App) (f : LifeSt → LifeSt) : App := { a with life := f a.life }

/-- A transition of the life cycle: whether its wipe is full, and the roles that may ask for it (R586). -/
def lcyRow (from_ next : Nat) : Option (Bool × List Nat) :=
  match from_, next with
  | 0, 1 => some (true, [1])
  | 1, 2 => some (false, [1])
  | 2, 3 | 3, 2 => some (false, [1, 4])
  | 3, 1 | 1, 4 | 2, 4 | 3, 4 | 4, 1 => some (true, [1])
  | _, _ => none

/-- Whether another command of any context is fetched and not final, a long operation runs, a breaker operation is pending, or
the control state is Skim (R587). -/
def App.lcyBusy (a : App) (h : CmdHdr) : Bool :=
  (upto 8).any (fun k => (vat a.ctxs k).fetched.any (fun f => !(k == h.ctx.val && f.index == h.index)))
    || a.cmd.journal.any (fun e => !(e.hdr.ctx == h.ctx && e.hdr.tag == h.tag))
    || a.anyLong || a.trp.ops.toList.any (·.isSome) || a.cstate == 3

/-- The learned times of a bay start again from their initial values (R267, R588). -/
def App.unlearn (a : App) (b : Nat) : App :=
  (upto 2).foldl (fun a j =>
    (a.set (Reg.TRP_BKTOP_t_op b j) (16 * a.get (Reg.TRP_BKINIT_init_us b j))).setB (Reg.TRP_BKTOP_learn_alarm b j) false) a

/-- Every force is cleared, orphans included (R422, R588). -/
def App.clearForces (a : App) : App :=
  let a := (a.ctl.forces.filter (fun f => !f.orphan)).foldl (fun a f => a.forceDrop f.point) a
  (a.onCtl fun c => { c with forces := [] }).showForces

/-- The life-cycle state becomes another one: its record, and the class-16 event with the mode dimension (R588, R602). -/
def App.lcySet (a : App) (new k : Nat) : App :=
  let old := a.lcy
  (((a.set Reg.LCY_STAT_state new).record 0x0004 old new 0 k).postState 16 0 old new 0).postMode 0 0 old new

/-- A session wipe, in the order of R588. -/
def App.sessionWipe (a : App) (new k : Nat) : App :=
  let a := a.clearForces
  let a := (upto 9).foldl (fun a i => a.release i 3) a
  let a := (upto 4).foldl App.unlearn a
  let a := { a with cmd := { a.cmd with tags := Vector.replicate 8 [], journal := [] } }
  a.lcySet new k

/-- The effect of LIFECYCLE_SET (R586, R587, R590, R611): a session wipe at once, or the marker of a full wipe and a reset
once the command is final. -/
def opLifecycleSet (h : CmdHdr) (target : Byte) (a : App) : App × Reply :=
  let t := target.toNat
  if t = a.lcy then (a, .final Status.ok [])
  else
    match lcyRow a.lcy t with
    | none => (a, .final Status.state (le 4 a.lcy))
    | some (full, roles) =>
      if !roles.contains (a.get (Reg.HCX_ROLE_active_role h.ctx)) then (a, .final Status.role (le 4 (a.get (Reg.HCX_ROLE_active_role h.ctx))))
      else if t = Lcy.operational ∧ (upto 4).any (fun b => 2 ≤ a.prot b) = true then (a, .final Status.state (le 4 a.lcy))
      else if full = true ∧ a.role ≠ Role.solo then (a, .final Status.state (le 4 a.lcy))
      else if a.lcyBusy h then (a, .final Status.busy [])
      else if full then
        (((a.onLife fun l => { l with wipePending := some t, resetReq := some (4, 0) }).record 0x0004 a.lcy t 1 h.ctx), .final Status.ok [])
      else (a.sessionWipe t h.ctx, .final Status.ok [])

/-- The effect of RESET_MODULE: the reset follows once the command is final (R500, R591). -/
def opResetModule (kind : Byte) (a : App) : App × Reply :=
  (a.onLife fun l => { l with resetReq := some (3, kind.toNat) }, .final Status.ok [])

/-- The module is Leaving: its program stops, its outputs are no longer permitted, and it is ready for removal (R568, R581). -/
def App.leave (a : App) : App := ((a.setRole Role.leaving 0 0).leaveProgram).setB Reg.PAR_STAT_ready true

/-- The effect of REQUEST_REMOVAL (R569, R581): a Standby, or a Solo in Maintenance, is Leaving at once; a Primary with a
Standby begins a handover, unless a long operation or a breaker operation is pending. -/
def opRequestRemoval (h : CmdHdr) (a : App) : App × Reply :=
  if a.role = Role.standby ∨ (a.role = Role.solo ∧ a.lcy = Lcy.maintenance) then (a.leave, .final Status.ok [])
  else if a.role = Role.primary ∧ a.get Reg.PAR_STAT_partner_role = Role.standby then
    if a.anyLong || a.trp.ops.toList.any (·.isSome) || a.par.removal.isSome then (a, .final Status.busy [])
    else ((a.onPar fun p => { p with removal := some h }).onCtl fun c => { c with stopSel := true }, .later)
  else (a, .final Status.state (le 4 a.lcy))

end Sys2Proof.Machine
end

