-- ==== Sys2Proof/Machine/Status.lean ====
section
/-! DEFINITION. The module status block, for the command and for the points that show it (R352, R501). -/

namespace Sys2Proof.Machine

open Host

/-- Writes as % of a budget, saturating at 255 (R29, R501). -/
def wearPct (writes budget : Nat) : Nat := min 255 (100 * writes / budget)

/-- The bytes that the capture cache may take in 30 years of 365.25 days: 58 GB per day (R29). -/
def cacheBudget : Nat := 58000000000 * 10957

/-- The hottest temperature sensor, 0.01 °C, from the last housekeeping results of inputs 0 to 3 (R139, R145). -/
def App.hottest (a : App) : Int :=
  let t := (upto 4).map (fun j => (vat a.ana.aux.hk j).value.toInt)
  divRound (t.foldl max (t.getD 0 0)) 10

/-- The 32 bytes of MODULE_STATUS (R501); the tag records are those of a context, none for a point. -/
def App.statusBytes (a : App) (ctx : Option Nat) : List Byte :=
  let prog := (a.ctl.writes.toList).foldl (· + ·) 0
  let fw := (a.life.fw.toList.map (·.writes)).foldl (· + ·) 0
  let open_ := (a.ctxs.toList.map (fun c => c.fetched.length)).foldl (· + ·) 0
  let tags := match ctx with
    | some k => (vat a.cmd.tags k).length
    | none => 0
  le 1 a.lcy ++ le 1 a.trp.prot ++ le 1 (a.get Reg.CSC_PSTAT_cstate)
    ++ le 1 (a.role + 8 * a.get Reg.GLB_MODE_outen + 16 * a.get Reg.CIS_STAT_sealed)
    ++ le 1 (wearPct prog 60000) ++ le 1 (wearPct fw 60000) ++ le 1 (wearPct a.life.cacheBytes cacheBudget) ++ le 1 (wearPct a.life.spareBytes Region.spare.size)
    ++ le 2 (toBits 16 (satSigned 16 a.hottest)) ++ le 2 0 ++ le 4 a.ot ++ le 4 a.bkp.pc.toNat
    ++ le 8 (a.get Reg.CSC_FPRINT_fingerprint) ++ le 2 open_ ++ le 2 tags

/-- The points that show a status item take its present value (R352). -/
def App.statusPoints (a : App) : App :=
  let pts := (upto a.ctl.points.length).filter (fun i => (a.point i).kind == 7)
  if pts.isEmpty then a
  else
    let b := a.statusBytes none
    pts.foldl (fun a i =>
      let o := (a.point i).writer
      a.putPoint i (typeValue (a.point i).typ (BitVec.ofNat 64 (numAt b o (statusWidth o)))) 0 a.w64 a.tqc a.tsc) a

/-- The effect of MODULE_STATUS (R501). -/
def opModuleStatus (k : Nat) (a : App) : App × Reply := (a, .final Status.ok (a.statusBytes (some k)))

/-- MODULE_STATUS (R501). -/
def execModuleStatus (h : CmdHdr) (s : State) : Outcome State Fault Refusal :=
  s.onApp fun a => a.process h .moduleStatus none [] (opModuleStatus h.ctx)

end Sys2Proof.Machine
end

