-- ==== Sys2Proof/Machine/Cascade.lean ====
section
/-! DEFINITION. The Cascade dispatcher: flags, releases and selection (R393 to R404). -/

namespace Sys2Proof.Machine

open Host

/-- One flag set: merged when already set, ignored when the task is no event task (R395). -/
def App.flagSet (a : App) (t f : Nat) : App :=
  if !a.isEvent t then a.satAdd Reg.CSC_CIGN_ignored 1
  else
    let x := a.get (Reg.CSC_FLAG_flags t)
    if bitOf x f then a.satAdd (Reg.CSC_TCNT_merged t) 1 else a.set (Reg.CSC_FLAG_flags t) (putBit x f true)

/-- One flag cancel: exactly the flags of its mask (R398). -/
def App.flagCancel (a : App) (t mask : Nat) : App :=
  let x := a.get (Reg.CSC_FLAG_flags t)
  a.set (Reg.CSC_FLAG_flags t) (x - (x &&& mask))

/-- After the cancels: an activation of this cycle that is gone again, or a pending release whose condition is gone, is
suppressed (R398). -/
def App.suppress (a : App) (before after : App) (t : Nat) : App :=
  if !a.isEvent t || a.condition t then a
  else if a.disp t = Disp.idle then
    if (a.cstate == 1 || a.cstate == 3) && a.released t && !before.condition t && after.condition t then a.satAdd (Reg.CSC_TCNT_suppressed t) 1 else a
  else if a.disp t = Disp.pending ∧ after.condition t = true then
    ((a.onTask t fun x => { x with pend := none }).satAdd (Reg.CSC_TCNT_suppressed t) 1).setDisp t Disp.idle 0
  else a

/-- The flows that a task belongs to (R400). -/
def App.flowsOf (a : App) (t : Nat) : List Nat :=
  ((upto 4).filter (fun j => a.on (Reg.CSC_FLOW_en t j))).map (fun j => a.get (Reg.CSC_FLOW_flow t j))

/-- An item that waits: its scan timestamp, task, priority, flows, and for a replay the core that may not take it. -/
structure Item where
  ts : Nat
  t : Nat
  prio : Nat
  flows : List Nat
  replay : Bool
  bad : Option Nat
  deriving DecidableEq, Repr, Inhabited

/-- The item of a task, if one waits. -/
def App.itemOf (a : App) (t : Nat) : Option Item :=
  let x := a.task t
  let p := tkPriority (a.entry t)
  if a.disp t = Disp.pending then x.pend.map (fun r => ⟨r.ts, t, p, a.flowsOf t, false, none⟩)
  else if a.disp t = Disp.replay then x.scan.map (fun s => ⟨s.rel.ts, t, p, s.flows, true, s.badCore⟩)
  else none

/-- The total order of items (R401). -/
def Item.before (x y : Item) : Bool := x.ts < y.ts || (x.ts == y.ts && decide (x.t < y.t))

/-- The flows held by items In service or Replay-pending. -/
def App.heldFlows (a : App) : List Nat :=
  (upto 64).flatMap (fun t => match (a.task t).scan with
    | some s => s.flows
    | none => [])

/-- Whether two lists have a flow in common. -/
def meets (l m : List Nat) : Bool := l.any m.contains

/-- Whether an item is eligible: its flows are free, and no item of them comes before it; a replay holds its own (R401,
R404). -/
def eligible (held : List Nat) (items : List Item) (x : Item) : Bool :=
  x.replay || (!meets x.flows held && !items.any (fun y => y.before x && meets x.flows y.flows))

/-- Whether one eligible item is served before another: priority, then a replay, then the total order (R401). -/
def Item.served (x y : Item) : Bool :=
  decide (y.prio < x.prio) || (x.prio == y.prio && ((x.replay && !y.replay) || (x.replay == y.replay && x.before y)))

/-- The item served first. -/
def bestItem (l : List Item) : Option Item :=
  l.foldl (fun b x => match b with
    | none => some x
    | some y => if x.served y then some x else some y) none

/-- The snapshot of a task's input list (R354, R402). -/
def App.snapshot (a : App) (t : Nat) : List PointVal := (a.runImage.inList (a.entry t)).map (fun p => (a.point p).v)

/-- The snapshot and header as they go to the partner (R565, R575). -/
def scanBytes (t : Nat) (s : Scan) : List Byte :=
  le 1 t ++ le 1 s.rel.tq ++ le 1 s.rel.tsc ++ le 1 s.rel.aq ++ le 8 s.rel.ts ++ le 8 s.rel.a48 ++ le 8 s.rel.cycle ++ le 8 s.snapSeq
    ++ s.snap.flatMap (fun v => le 8 v.value.toNat ++ le 8 v.stamp.toNat ++ le 2 v.quality.toNat ++ le 1 v.tq.toNat ++ le 1 v.tsc.toNat ++ le 4 0)

/-- A core is handed an item (R399, R402): the snapshot is taken and the flows held; a replay keeps both. -/
def App.handItem (a : App) (k : Nat) (x : Item) : App :=
  let t := x.t
  let a := a.onCore k fun _ => { item := some (.task t), handAt := a.tick }
  if x.replay then
    (((a.onTask t fun y => { y with scan := y.scan.map (fun s => { s with badCore := none }) }).satAdd (Reg.CSC_TSTAT_replays t) 1)).setDisp t Disp.inService k
  else
    let st := a.task t
    let r := st.pend.getD default
    let a := a.warmTimers t r
    let a := a.access .cascade .sharedSram (32 * (a.runImage.inList (a.entry t)).length)
    let snap := match st.stream with
      | (_, v) :: _ => v
      | [] => a.snapshot t
    let s : Scan := { rel := r, snap := snap, snapSeq := a.get Reg.CSC_COMMIT_commit_seq, flows := x.flows }
    let us := (a.tick - st.pendAt) / tUs
    let a := a.set (Reg.CSC_TDSP_peak_wait t) (max (a.get (Reg.CSC_TDSP_peak_wait t)) (min 65535 us))
    let a := if a.isEvent t then a.flagCancel t (tkMask (a.entry t)) else a
    let a := a.onTask t fun y => { y with pend := none, scan := some s, stream := y.stream.drop 1 }
    (a.setDisp t Disp.inService k).stream 2 (scanBytes t s)

/-- Whether a stopped selection still serves an item: replays finish, and in a Skim pause so do the old image's items
from before t_sw (R417, R574). -/
def App.mayServe (a : App) (x : Item) : Bool :=
  !a.ctl.stopSel || x.replay || (a.get Reg.CSC_SKSTAT_phase == 3 && decide (x.ts < a.get Reg.CSC_SKTSW_t_sw))

/-- One Idle core takes an initialisation routine, else the best eligible item that it may take (R351, R401). -/
def App.serveCore (a : App) (k : Nat) : App :=
  if a.coreState k ≠ 0 ∨ (a.core k).item.isSome = true then a
  else
    match a.ctl.init with
    | some i =>
      match i.queue with
      | (j, bad) :: q =>
        if bad = some k then a
        else (a.onCtl fun c => { c with init := some { i with queue := q } }).onCore k fun _ => { item := some (.init j), handAt := a.tick, replay := bad.isSome }
      | [] => a
    | none =>
      let items := (upto 64).filterMap a.itemOf
      match bestItem (items.filter (fun x => eligible a.heldFlows items x && x.bad != some k && a.mayServe x)) with
      | some x => a.handItem k x
      | none => a

/-- The next streamed scan of a task of a module that follows is Pending (R575). -/
def App.nextStream (a : App) (t : Nat) : App :=
  match (a.task t).stream with
  | (r, _) :: _ =>
    if a.disp t = Disp.idle then (a.firstRelease.onTask t fun x => { x with pend := some r, pendAt := a.tick, cycle := r.cycle }).setDisp t Disp.pending 0 else a
  | [] => a

/-- One dispatcher cycle: the commits asked for by then, which come before its snapshots (R36); then status items, flag sets, cancels, evaluation, selection (R352, R393). -/
def App.cycle (a : App) : App :=
  let a := ((upto 8).foldl App.commitCore a).statusPoints
  let before := a
  let after := (a.ctl.sets.foldl (fun a x => a.flagSet x.1 x.2) a).onCtl fun c => { c with sets := [] }
  let a := (after.ctl.cancels.foldl (fun a x => a.flagCancel x.1 x.2) after).onCtl fun c => { c with cancels := [], flagged := [] }
  let a := if after.ctl.cancels.isEmpty then a else (upto 64).foldl (fun a t => a.suppress before after t) a
  let a := (upto 64).foldl (fun a t => (a.evaluate t).nextStream t) a
  (upto 8).foldl App.serveCore a

/-- DISPATCHER_CYCLE (R393). -/
def execDispatcherCycle (s : State) : Outcome State Fault Refusal := s.onApp App.cycle

/-- The effect of the host command FLAG_SET: the set lands in the next dispatcher cycle (R393, R395). -/
def opFlagSet (task flag : Byte) (a : App) : App × Reply :=
  (a.onCtl fun c => { c with sets := c.sets ++ [(task.toNat, flag.toNat)] }, .final Status.ok [])

/-- FLAG_SET (R395). -/
def execFlagSet (h : CmdHdr) (task flag : Byte) (s : State) : Outcome State Fault Refusal :=
  s.onApp fun a => a.process h (.flagSet task flag) (firstFail [(0, task.toNat ≤ 63), (1, flag.toNat ≤ 31)]) [] (opFlagSet task flag)

/-- The effect of the host command FLAG_CANCEL (R398). -/
def opFlagCancel (task : Byte) (mask : W32) (a : App) : App × Reply :=
  (a.onCtl fun c => { c with cancels := c.cancels ++ [(task.toNat, mask.toNat)] }, .final Status.ok [])

/-- FLAG_CANCEL (R398). -/
def execFlagCancel (h : CmdHdr) (task : Byte) (mask : W32) (s : State) : Outcome State Fault Refusal :=
  s.onApp fun a => a.process h (.flagCancel task mask) (firstFail [(0, task.toNat ≤ 63)]) [] (opFlagCancel task mask)

end Sys2Proof.Machine
end

