-- ==== Sys2Proof/Machine/Long.lean ====
section
/-! DEFINITION. Long operations and the on-line change of the program (R339, R341, R406 to R420, R497, R498). -/

namespace Sys2Proof.Machine

open Host

/-! ### The migration map (R409, R410) -/

/-- Entries of a map: count, entry, kind and fields. -/
def mapCount (m : List Byte) : Nat := numAt m 24 4
def mapEntry (m : List Byte) (i : Nat) : List Byte := bytesAt m (48 + 16 * i) 16
def mapEntries (m : List Byte) : List (List Byte) := (upto (mapCount m)).map (mapEntry m)
def meKind (e : List Byte) : Nat := numAt e 0 1
def meOld (e : List Byte) : Nat := numAt e 4 4
def meNew (e : List Byte) : Nat := numAt e 8 4
def meSize (e : List Byte) : Nat := numAt e 12 4

/-- The tasks marked unchanged (R415). -/
def mapUnchanged (m : List Byte) (t : Nat) : Bool := bitOf (numAt m 32 8) t

/-- The bytes of instance data that an entry reads and writes. -/
def meBytes (e : List Byte) : Nat :=
  match meKind e with
  | 1 => meSize e
  | 2 | 3 => 24
  | 4 | 5 => 1
  | _ => 0

/-- Whether a range lies inside one instance of an image. -/
def insideInst (m : Image) (o n : Nat) : Bool :=
  (upto m.ninst).any (fun i => (m.inst i).off ≤ o && decide (o + n ≤ (m.inst i).off + (m.inst i).size))

/-- Whether an entry meets the checks that concern it alone. -/
def meOk (old new : Image) (e : List Byte) : Bool :=
  let k := meKind e
  numAt e 1 3 == 0 && 1 ≤ k && k ≤ 6
    && (if k = 1 then 1 ≤ meSize e && decide (meSize e ≤ 2 ^ 20) else meSize e == 0)
    && (if k = 1 ∨ k = 2 ∨ k = 4 then insideInst old (meOld e) (meBytes e) else if k = 6 then decide (meOld e < old.npoints) else meOld e == 0)
    && (if k = 6 then decide (meNew e < new.npoints) || meNew e == 0xFFFFFFFF else insideInst new (meNew e) (meBytes e))
    && (k != 2 || (meOld e % 8 == 0 && meNew e % 8 == 0)) && (k != 3 || meNew e % 8 == 0)

/-- Whether two entries write a same new byte. -/
def meClash (x y : List Byte) : Bool :=
  meBytes x != 0 && meBytes y != 0 && decide (meNew x < meNew y + meBytes y) && decide (meNew y < meNew x + meBytes x)

/-- The header and the tasks marked unchanged. -/
def mapHeadOk (old new : Image) (m : List Byte) : Bool :=
  numAt m 0 4 == 0x50414D53 && numAt m 4 2 == 1 && numAt m 6 2 == 0 && numAt m 28 4 == 0 && numAt m 44 4 == 0
    && mapCount m ≤ 1048576 && m.length == 48 + 16 * mapCount m && numAt m 40 4 == crc32c (m.take 40 ++ m.drop 48)
    && numAt m 8 8 == old.fp && numAt m 16 8 == new.fp
    && (upto 64).all (fun t => !mapUnchanged m t || ((old.task t).isSome && old.task t == new.task t))

/-- The number of the first failing entry; 0 for a failing header (R410). -/
def mapCheck (old new : Image) (m : List Byte) : Option Nat :=
  if !mapHeadOk old new m then some 0
  else (upto (mapCount m)).find? (fun i =>
    !meOk old new (mapEntry m i) || (upto i).any (fun j => meClash (mapEntry m j) (mapEntry m i)))

/-- The map of the reverse change: old and new exchanged, what was new alone left out (R419). -/
def reverseMap (m : List Byte) : List Byte :=
  let es := ((mapEntries m).filter (fun e => meKind e != 3 && meKind e != 5)).map
    (fun e => le 4 (meKind e) ++ le 4 (meNew e) ++ le 4 (meOld e) ++ le 4 (meSize e))
  m.take 8 ++ bytesAt m 16 8 ++ bytesAt m 8 8 ++ le 4 es.length ++ bytesAt m 28 20 ++ es.flatten

/-! ### Building the new instance data (R411 to R413) -/

/-- One entry applied: ranges and records copied, the policy of a timer from the new image's initial record, new timers
idle, new edge records with bit 1 clear. -/
def applyEntry (init : List Byte) (src : Mem) (d : Mem) (e : List Byte) : Mem :=
  let o := meOld e
  let n := meNew e
  let policy := (init.getD (n + 16) 0).toNat / 4 % 4 * 4
  match meKind e with
  | 1 => d.write n (src.read o (meSize e))
  | 2 =>
    let fl := (src.get (o + 16)).toNat
    (d.write n (src.read o 24)).put (n + 16) (BitVec.ofNat 8 (fl - fl / 4 % 4 * 4 + policy))
  | 3 => (d.write n (le 24 0)).put (n + 16) (BitVec.ofNat 8 policy)
  | 4 => d.put n (src.get o)
  | 5 => d.put n (BitVec.ofNat 8 (putBit (init.getD n 0).toNat 1 false))
  | _ => d

/-- Entries in the order kind 1, kinds 2 and 3, kinds 4 and 5. -/
def applyEntries (init : List Byte) (src d : Mem) (es : List (List Byte)) : Mem :=
  let pass := fun (d : Mem) (ks : List Nat) => (es.filter (fun e => ks.contains (meKind e))).foldl (applyEntry init src) d
  pass (pass (pass d [1]) [2, 3]) [4, 5]

/-- The region that the running image does not use is built: initial data, then the entries; a reverse change brings
timers and edge records back idle (R411, R419). -/
def App.buildRegion (a : App) (k : SkimSt) (reverse : Bool) : App :=
  let m := a.img k.slot
  let base := Mem.write [] 0 (m.sect 5)
  let base := if reverse then startRecords m false base else base
  let d := applyEntries (m.sect 5) (vat a.ctl.inst a.ctl.region) base (mapEntries k.map)
  a.onCtl fun c => { c with inst := vput c.inst (1 - c.region) d, skim := some { k with built := true, work := [], dirty := [] } }

/-- The pages whose entries the new data does not yet follow: those of the pass under way and those marked since. -/
def SkimSt.behind (k : SkimSt) : List Nat := k.work ++ k.dirty.filter (fun p => !k.work.contains p)

/-- Every entry that touches one of the pages is applied again (R411). -/
def App.reapply (a : App) (k : SkimSt) (pages : List Nat) : App :=
  let hit := fun (e : List Byte) => meBytes e != 0 && meKind e != 3 && meKind e != 5 &&
    pages.any (fun p => decide (meOld e < 4096 * (p + 1)) && decide (4096 * p < meOld e + meBytes e))
  let src := vat a.ctl.inst a.ctl.region
  let d := applyEntries ((a.img k.slot).sect 5) src (vat a.ctl.inst (1 - a.ctl.region)) ((mapEntries k.map).filter hit)
  a.onCtl fun c => { c with inst := vput c.inst (1 - c.region) d }

/-- A migration pass ends: its pages are re-applied, and what commits marked while it ran is dirty and the next pass's
work (R411). -/
def App.passEnd (a : App) (k : SkimSt) : App :=
  let a := (a.reapply k k.work).onCtl fun c => { c with skim := some { k with work := k.dirty, dirty := [] } }
  (a.satAdd Reg.CSC_SKSTAT_passes 1).set Reg.CSC_SKSTAT_dirty_kib (min 65535 (4 * k.dirty.length))

/-! ### The switch instant (R415, R416) -/

/-- Bezout: the greatest common divisor with the factor of the first number. -/
def egcd : Nat → Int → Int → Int × Int
  | 0, x, _ => (x, 1)
  | n + 1, x, y =>
    if y = 0 then (x, 1)
    else
      let (g, s) := egcd n y (x % y)
      -- g = s * y + t * (x mod y), with t from g
      (g, if x % y = 0 then 0 else (g - s * y) / (x % y))

/-- Two congruences as one, when they agree. -/
def joinCong (c : Option (Int × Int)) (r m : Nat) : Option (Int × Int) :=
  match c with
  | none => none
  | some (q, n) =>
    let (g, s) := egcd 64 n m
    if ((r : Int) - q) % g ≠ 0 then none
    else
      let k := (((r : Int) - q) / g * s) % ((m : Int) / g)
      some ((q + n * k) % (n * m / g), n * m / g)

/-- The congruences of the affected cyclic tasks that both images have. -/
def switchCong (old new : Image) (map : List Byte) : Option (Int × Int) :=
  (upto 64).foldl (fun c t =>
    match old.task t, new.task t with
    | some x, some y =>
      if mapUnchanged map t then c
      else
        let c := if tkTrigger x = 0 then joinCong c (tkPhase x * 1000) (tkPeriod x * 1000) else c
        if tkTrigger y = 0 then joinCong c (tkPhase y * 1000) (tkPeriod y * 1000) else c
    | _, _ => c) (some (0, 1))

/-- The first qualifying instant from `t0` on, at most 60 s after `now` (R416). -/
def switchAt (old new : Image) (map : List Byte) (now t0 : Nat) : Option Nat :=
  match switchCong old new map with
  | none => none
  | some (r, m) =>
    let t := t0 + ((r - t0) % m).toNat
    if t ≤ now + 60000000000 then some t else none

/-- The switch instant for a change from `t0` on. -/
def App.findSwitch (a : App) (k : SkimSt) (t0 : Nat) : Option Nat :=
  switchAt a.runImage (a.img k.slot) k.map a.now t0

/-- The notice of a chosen switch instant, as it goes to the partner (R416, R576). -/
def App.switchNotice (a : App) (h : CmdHdr) (t : Nat) : App := a.stream 7 (le 1 h.ctx ++ le 8 h.tag.toNat ++ le 8 t)

/-- A change to the long operation of a context. -/
def App.onLong (a : App) (k : Nat) (f : LongOp → LongOp) : App :=
  { a with cmd := { a.cmd with long := vup a.cmd.long k (·.map f) } }

/-- The phase of a change, with a progress completion of the long operation that makes it (R426, R497). -/
def App.skimPhase (a : App) (v : Nat) : App :=
  let a := a.set Reg.CSC_SKSTAT_phase v
  match a.skimLong with
  | some l => (a.onLong l.hdr.ctx fun x => { x with phase := v }).progress { l with phase := v }
  | none => a

/-- A reverse change takes the first qualifying instant once its data is built (R419); a module that follows takes the
Primary's. -/
def App.armReverse (a : App) : App :=
  match a.ctl.skim with
  | some k =>
    if a.on Reg.CSC_SKSTAT_reverse && a.leads then
      match a.findSwitch k (a.now + 10000000) with
      | some t =>
        let a := (a.set Reg.CSC_SKTSW_t_sw t).skimPhase 2
        match a.skimLong with
        | some l => a.switchNotice l.hdr t
        | none => a
      | none => (match a.skimLong with
        | some l => a.endLong l Status.noBoundary []
        | none => a).skimLeave Status.noBoundary []
    else a
  | none => a

/-- MIGRATION_PASS (R411): a pass ends. With at most 256 KiB dirty SKIM_PREPARE completes, and a reverse change chooses its
instant. -/
def execMigrationPass (s : State) : Outcome State Fault Refusal :=
  s.onApp fun a =>
    match a.ctl.skim with
    | none => a
    | some k =>
      if !k.built || a.get Reg.CSC_SKSTAT_phase == 3 then a
      else
        let a := a.passEnd k
        if 64 < k.dirty.length then a
        else if a.on Reg.CSC_SKSTAT_reverse then (if a.get Reg.CSC_SKSTAT_phase = 5 then a.armReverse else a)
        else
          match a.skimLong with
          | some l => (a.set Reg.CSC_SKSTAT_phase 2).endLong l Status.ok []
          | none => a

/-! ### The commands of a change (R406, R408, R416, R419) -/

/-- The slot that no image runs from. -/
def App.freeSlot (a : App) : Nat := match a.ctl.running with
  | some s => 1 - s
  | none => 0

/-- Bytes in blocks of 4 KiB; the fuel bounds their number. -/
def chunks (fuel : Nat) (d : List Byte) : List (List Byte) :=
  match fuel with
  | 0 => []
  | f + 1 => if d.isEmpty then [] else d.take 4096 :: chunks f (d.drop 4096)

/-- The image of a slot, or a migration map, goes to a partner that follows (R408). -/
def App.sendTransfer (a : App) (kind : Nat) (d : List Byte) : App :=
  (chunks (d.length / 4096 + 1) d).foldl (fun a c => a.stream 9 (le 1 kind ++ le 4 d.length ++ c)) a
def App.sendImage (a : App) (s : Nat) : App := if a.streams then a.sendTransfer 0 (a.img s) else a

/-- The effect of SKIM_PREPARE: accepted in Run with the free slot Verified (R406). -/
def opSkimPrepare (h : CmdHdr) (op : HostOp) (len : W32) (a : App) : App × Reply :=
  if a.cstate ≠ 1 ∨ a.ctl.running.isNone = true ∨ a.ctl.window.isSome = true ∨ a.get (Reg.slotState a.freeSlot) ≠ Slot.verified then
    (a, .final Status.state [])
  else
    match a.startLong h op (len.toNat / 65536 + 1) with
    | (a', .later) =>
      let a := (a'.onCtl fun c => { c with skim := some { slot := a'.freeSlot } }).setCstate 3
      let a := a.sendImage a'.freeSlot
      (((a.set Reg.CSC_SKSTAT_phase 1).setB Reg.CSC_SKSTAT_reverse false).set Reg.CSC_SKSTAT_passes 0, .later)
    | r => r

/-- SKIM_PREPARE (R410). -/
def execSkimPrepare (h : CmdHdr) (len : W32) (map : W64) (s : State) : Outcome State Fault Refusal :=
  s.onApp fun a => a.process h (.skimPrepare len map) (firstFail [(0, 48 ≤ len.toNat ∧ len.toNat ≤ 48 + 16 * 1048576)]) [8]
    (opSkimPrepare h (.skimPrepare len map) len)

/-- The effect of SKIM_SWITCH (R416). -/
def opSkimSwitch (h : CmdHdr) (earliest : W64) (a : App) : App × Reply :=
  match a.ctl.skim with
  | some k =>
    if a.get Reg.CSC_SKSTAT_phase ≠ 2 ∨ k.switchCmd.isSome = true ∨ a.on Reg.CSC_SKSTAT_reverse = true then (a, .final Status.state [])
    else
      match a.findSwitch k (max (a.now + 10000000) earliest.toNat) with
      | some t =>
        let a := (a.onCtl fun c => { c with skim := some { k with switchCmd := some h, putOff := none } }).set Reg.CSC_SKTSW_t_sw t
        (a.switchNotice h t, .later)
      | none => (a, .final Status.noBoundary [])
  | none => (a, .final Status.state [])

/-- SKIM_SWITCH (R416). -/
def execSkimSwitch (h : CmdHdr) (earliest : W64) (s : State) : Outcome State Fault Refusal :=
  s.onApp fun a => a.process h (.skimSwitch earliest) none [8] (opSkimSwitch h earliest)

/-- In Skim with neither a change nor a window left, tasks run as in Run (R406). -/
def App.endSkim (a : App) : App :=
  if a.cstate = 3 ∧ a.ctl.skim.isNone = true ∧ a.ctl.window.isNone = true then a.setCstate 1 else a

/-- The effect of SKIM_ABORT (R408). -/
def opSkimAbort (a : App) : App × Reply :=
  if a.ctl.skim.isSome then ((a.skimDrop 0).endSkim, .final Status.ok []) else (a, .final Status.state [])

/-- SKIM_ABORT (R408). -/
def execSkimAbort (h : CmdHdr) (s : State) : Outcome State Fault Refusal :=
  s.onApp fun a => a.process h .skimAbort none [8] opSkimAbort

/-- Whether an instant lies in the rollback window (R419). -/
def App.inRollback (a : App) : Bool := a.ctl.window.isSome && decide (a.now < a.get Reg.CSC_SKTSW_t_sw + 30000000000)

/-- The effect of SKIM_ROLLBACK: a reverse change (R419). -/
def opSkimRollback (h : CmdHdr) (a : App) : App × Reply :=
  match a.ctl.window with
  | some w =>
    if a.inRollback && a.ctl.skim.isNone then
      match a.startLong h .skimRollback (w.map.length / 65536 + 1) with
      | (a, .later) =>
        let a := a.onCtl fun c => { c with skim := some { map := reverseMap w.map, slot := w.slot } }
        (((a.set Reg.CSC_SKSTAT_phase 5).setB Reg.CSC_SKSTAT_reverse true).set Reg.CSC_SKSTAT_passes 0, .later)
      | r => r
    else (a, .final Status.state [])
  | none => (a, .final Status.state [])

/-- SKIM_ROLLBACK (R419). -/
def execSkimRollback (h : CmdHdr) (s : State) : Outcome State Fault Refusal :=
  s.onApp fun a => a.process h .skimRollback none [8] (opSkimRollback h)

/-- The effect of SKIM_CONFIRM (R419). -/
def opSkimConfirm (a : App) : App × Reply :=
  if a.inRollback && a.ctl.skim.isNone then ((a.skimFinal).endSkim, .final Status.ok []) else (a, .final Status.state [])

/-- SKIM_CONFIRM (R419). -/
def execSkimConfirm (h : CmdHdr) (s : State) : Outcome State Fault Refusal :=
  s.onApp fun a => a.process h .skimConfirm none [8] opSkimConfirm

/-- ROLLBACK_WINDOW_END (R419): the end of the window makes the change final, unless a reverse change is under way. -/
def execRollbackWindowEnd (s : State) : Outcome State Fault Refusal :=
  s.onApp fun a => if a.ctl.window.isSome && !a.inRollback && a.ctl.skim.isNone then (a.skimFinal).endSkim else a

/-! ### The switch (R416 to R418, R424, R441) -/

/-- Whether a switch is asked for and its instant is there. -/
def App.switchDue (a : App) : Bool :=
  match a.ctl.skim with
  | some k => a.get Reg.CSC_SKSTAT_phase == 2 && (k.switchCmd.isSome || a.on Reg.CSC_SKSTAT_reverse)
      && decide (a.get Reg.CSC_SKTSW_t_sw ≤ a.now)
  | none => false

/-- SWITCH_INSTANT (R416, R417): selection stops, unless more than 256 KiB are dirty: then the switch is put off. -/
def execSwitchInstant (s : State) : Outcome State Fault Refusal :=
  s.onApp fun a =>
    match a.ctl.skim with
    | none => a
    | some k =>
      if !a.switchDue then a
      else if 64 < k.behind.length then
        let a := a.onCtl fun c => { c with skim := some { k with putOff := some (k.putOff.getD a.tick) } }
        match a.findSwitch k (a.now + 1) with
        | some t => a.set Reg.CSC_SKTSW_t_sw t
        | none => a
      else (a.onCtl fun c => { c with stopSel := true, skim := some { k with pauseAt := a.tick } }).skimPhase 3

/-- DIRTY_TIMEOUT (R416): 10 s without a switch; the change stays prepared. -/
def execDirtyTimeout (s : State) : Outcome State Fault Refusal :=
  s.onApp fun a =>
    match a.ctl.skim with
    | some k =>
      match k.switchCmd, k.putOff with
      | some h, some t =>
        if a.since t (10 * tS) ∧ a.get Reg.CSC_SKSTAT_phase = 2 then
          (a.onCtl fun c => { c with skim := some { k with switchCmd := none, putOff := none } }).conclude h (.skimSwitch 0)
            (.final Status.dirty (le 4 (4 * k.behind.length)))
        else a
      | _, _ => a
    | none => a

/-- Where a kind-6 entry moves a point; none when it is removed. -/
def movedTo (map : List Byte) (npoints i : Nat) : Option Nat :=
  match (mapEntries map).find? (fun e => meKind e == 6 && meOld e == i) with
  | some e => if meNew e = 0xFFFFFFFF then none else some (meNew e)
  | none => if i < npoints then some i else none

/-- Where a point of the new table comes from. -/
def movedFrom (map : List Byte) (oldPoints i : Nat) : Option Nat :=
  match (mapEntries map).find? (fun e => meKind e == 6 && meNew e == i) with
  | some e => if meOld e < oldPoints then some (meOld e) else none
  | none => if i < oldPoints ∧ ¬ (mapEntries map).any (fun e => meKind e == 6 && meOld e == i) then some i else none

/-- The points of the new image: those kept carry their records with them. -/
def App.switchPoints (a : App) (m : Image) (map : List Byte) : List Point :=
  let old := a.ctl.points
  (a.startPoints m).zipIdx.map (fun (p, i) => match movedFrom map old.length i with
    | some j => let q := old.getD j {}
                if q.typ = p.typ then { p with v := q.v } else p
    | none => p)

/-- A force follows its point (R424); `old` is the point table it stood in. The point of an orphan that was removed returns
where the new table has a point of its index that no old point moves to. -/
def switchForce (map : List Byte) (old new : List Point) (f : Force) : Force :=
  let here := if f.orphan ∧ f.reason = 1 then
                (if f.point < new.length ∧ movedFrom map old.length f.point = none ∧ (new.getD f.point {}).typ = f.typ then some f.point else none)
              else movedTo map new.length f.point
  match here with
  | none => if f.orphan then f else { f with orphan := true, reason := 1, shadow := none }
  | some i =>
    let p := new.getD i {}
    let q := old.getD f.point {}
    if p.typ ≠ f.typ then (if f.orphan then { f with point := i } else { f with orphan := true, reason := 2, point := i, shadow := none })
    else if f.orphan then { f with orphan := false, reason := 0, point := i, shadow := none }
    else { f with point := i, shadow := if p.kind = q.kind ∧ p.writer = q.writer then f.shadow else none }

/-- A point that a force leaves because its type changed runs unforced; the others keep their forced record. -/
def App.switchForces (a : App) (m : Image) (map : List Byte) : App :=
  let old := a.ctl.points
  let new := a.switchPoints m map
  let a := a.onCtl fun c => { c with points := new, forces := dedupForces (c.forces.map (switchForce map old new)) }
  let a := (upto 64).foldl (fun a n => a.setInp (0x840 + n) false) a
  let a := a.ctl.forces.foldl (fun a f => if f.orphan then a else a.setRecord f.point (forcedVal f a.tsc)) a
  let a := (upto new.length).foldl App.showTrip a
  (a.showForces).tableForces m

/-- A release unit that an affected task, or a CAN schedule it owns, holds in the old image goes (R71, R417). -/
def App.dropAffected (a : App) (map : List Byte) : App :=
  let m := a.runImage
  let a := (upto 16).foldl (fun a n =>
    let i := a.get (Reg.TIM_CMP_CTL_dest_index n)
    let d := a.get (Reg.TIM_CMP_CTL_dest n)
    let owner := ((upto m.nremote).find? (fun j => numAt (m.remoteEnt j) 0 1 == 1 && numAt (m.remoteEnt j) 2 2 == i)).map
      (fun j => numAt (m.remoteEnt j) 1 1)
    let gone := a.on (Reg.TIM_CMP_CTL_own n) && ((d == 2 && !mapUnchanged map i) || (d == 3 && !owner.any (mapUnchanged map)))
    if gone then ((a.setB (Reg.TIM_CMP_CTL_en n) false).set (Reg.TIM_CMP_CTL_dest n) 0).setB (Reg.TIM_CMP_CTL_own n) false else a) a
  (upto 4).foldl (fun a b => (upto 8).foldl (fun a u =>
    if a.on (Reg.ANG_CMP_CTL_own b u) && a.get (Reg.ANG_CMP_CTL_dest b u) == 3
        && !mapUnchanged map (a.get (Reg.ANG_CMP_CTL_dest_index b u)) then a.freeUnitOf b u else a) a) a

/-- The instant from which a task's first release is still to come: t_sw, or past a release of the pause that is Pending. -/
def App.releasedFrom (a : App) (tsw t : Nat) : Nat :=
  if a.disp t = Disp.pending then max tsw (((a.task t).pend.map (·.ts + 1)).getD tsw) else tsw

/-- The units that the new image assigns to its affected tasks, from t_sw on (R416, R417). -/
def App.takeAffected (a : App) (map : List Byte) (tsw : Nat) : App :=
  let m := a.runImage
  let a := m.tasks.foldl (fun a e => if mapUnchanged map (numAt e 0 1) then a else a.taskUnit (a.releasedFrom tsw (numAt e 0 1)) e) a
  if (m.sect 9).isEmpty then a
  else (upto m.nremote).foldl (fun a i => if mapUnchanged map (numAt (m.remoteEnt i) 1 1) then a else a.canUnit tsw m i) a

/-- The dispatcher state of one task at the switch (R418). -/
def App.switchTask (a : App) (old new : Image) (map : List Byte) (t : Nat) : App :=
  if mapUnchanged map t then a
  else
    let live := fun (e : List Byte) => if tkEnabled e then 1 else 0
    match old.task t, new.task t with
    | some x, some y =>
      let a := if tkMask x = tkMask y then a else a.set (Reg.CSC_FLAG_flags t) 0
      let a := (a.set (Reg.CSC_TSTAT_tstate t) (live y)).set (Reg.CSC_TSTAT_fault t) 0
      if a.disp t = Disp.pending then a else (a.onTask t fun s => { s with pend := none, scan := none }).setDisp t Disp.idle 0
    | none, some y =>
      let a := (a.set (Reg.CSC_FLAG_flags t) 0).set (Reg.CSC_TSTAT_tstate t) (live y)
      (a.onTask t fun _ => {}).setDisp t Disp.idle 0
    | some _, none =>
      let a := (a.set (Reg.CSC_FLAG_flags t) 0).set (Reg.CSC_TSTAT_tstate t) 0
      (a.onTask t fun _ => {}).setDisp t Disp.idle 0
    | none, none => a

/-- The output source of an F channel follows its point (R441). -/
def App.switchOut (a : App) (map : List Byte) (npoints f : Nat) : App :=
  if a.on (Reg.FIO_CFG_src f) then a
  else match movedTo map npoints (a.get (Reg.FIO_OUT_out_pt f)) with
    | some i => a.set (Reg.FIO_OUT_out_pt f) i
    | none => a.set (Reg.FIO_OUT_out_pt f) 0xFFFF

/-- Whether the pause has drained: nothing In service or Replay-pending, nothing Pending from before t_sw (R417). -/
def App.drained (a : App) : Bool :=
  (upto 64).all (fun t => a.disp t != Disp.inService && a.disp t != Disp.replay
    && !(a.disp t == Disp.pending && (a.task t).pend.any (fun r => decide (r.ts < a.get Reg.CSC_SKTSW_t_sw))))

/-- SWITCH_DRAIN_END (R414, R417 to R419, R424): the final pass, the Skim record, the images and regions exchanged, units
and dispatcher states set, and the Cascade resumes. -/
def execSwitchDrainEnd (s : State) : Outcome State Fault Refusal :=
  s.onApp fun a =>
    match a.ctl.skim, a.ctl.running with
    | some k, some from_ =>
      if a.get Reg.CSC_SKSTAT_phase ≠ 3 ∨ ¬ a.drained = true then a
      else
        let reverse := a.on Reg.CSC_SKSTAT_reverse
        let tsw := a.get Reg.CSC_SKTSW_t_sw
        let old := a.runImage
        let new := a.img k.slot
        let a := a.reapply k k.behind
        let a := a.onCtl fun c => { c with journal := .skim old.fp new.fp tsw (a.get Reg.CSC_COMMIT_commit_seq) :: c.journal }
        let a := a.dropAffected k.map
        let a := a.onCtl fun c => { c with running := some k.slot, region := 1 - c.region, skim := none }
        let a := (a.set Reg.CSC_PSTAT_slot k.slot).set Reg.CSC_FPRINT_fingerprint new.fp
        let a := a.switchForces new k.map
        let a := (upto 32).foldl (fun a f => a.switchOut k.map new.npoints f) a
        let a := (upto 64).foldl (fun a t => a.switchTask old new k.map t) a
        let a := (a.takeAffected k.map tsw).takeCopy
        let a := a.onCtl fun c => { c with stopSel := false, window := if reverse then none else some { map := k.map, slot := from_ } }
        let a := a.set Reg.CSC_SKPAUSE_peak_pause (max (a.get Reg.CSC_SKPAUSE_peak_pause) (4 * (a.tick - k.pauseAt)))
        let a := (a.set Reg.CSC_SKSTAT_phase (if reverse then 0 else 4)).setB Reg.CSC_SKSTAT_reverse false
        if reverse then
          let a := ((a.set Reg.CSC_SKSTAT_last 2).record 0x0044 0 0 0 0).endSkim
          match a.skimLong with
          | some l => a.endLong l Status.ok (le 8 tsw)
          | none => a
        else
          match k.switchCmd with
          | some h => a.conclude h (.skimSwitch 0) (.final Status.ok (le 8 tsw))
          | none => a
    | _, _ => a

/-! ### Slots and firmware (R339, R341, R590, R594) -/

/-- Whether the engines execute from a slot's image: it is Running, or its initialisation routines run (R25). -/
def App.slotInUse (a : App) (n : Nat) : Bool :=
  a.get (Reg.slotState n) == Slot.running || (match a.ctl.init with
    | some i => i.slot == n
    | none => false)

/-- A slot of the NAND written: what fails of its blocks is replaced by spare ones (R29). -/
def App.slotWritten (a : App) : App :=
  let (i, a) := a.fresh
  { a with life := { a.life with spareBytes := a.life.spareBytes + (Config.replaced i).toNat } }

/-- The effect of LOAD_IMAGE: into a slot that is not Running, not in Skim (R339, R406). -/
def opLoadImage (h : CmdHdr) (op : HostOp) (slot : Byte) (size : W32) (a : App) : App × Reply :=
  if a.cstate = 3 ∨ a.slotInUse slot.toNat then (a, .final Status.state [])
  else
    match a.startLong h op (size.toNat / 2 ^ 20 + 1) with
    | (a, .later) => ((a.onCtl fun c => { c with slots := vput c.slots slot.toNat [] }).set (Reg.slotState slot.toNat) Slot.empty, .later)
    | r => r

/-- LOAD_IMAGE (R339): the slot holds at most 1 GiB (R29). -/
def execLoadImage (h : CmdHdr) (slot : Byte) (size : W32) (src : W64) (s : State) : Outcome State Fault Refusal :=
  s.onApp fun a => a.process h (.loadImage slot size src)
    (firstFail [(0, slot.toNat ≤ 1), (1, 1 ≤ size.toNat ∧ size.toNat ≤ 2 ^ 30)]) [8] (opLoadImage h (.loadImage slot size src) slot size)

/-- The effect of VERIFY_IMAGE (R341, R406). -/
def opVerifyImage (h : CmdHdr) (slot : Byte) (a : App) : App × Reply :=
  let st := a.get (Reg.slotState slot.toNat)
  if a.cstate = 3 ∨ st = Slot.empty ∨ st = Slot.running then (a, .final Status.state [])
  else a.startLong h (.verifyImage slot) ((a.img slot.toNat).length / 2 ^ 20 + 1)

/-- VERIFY_IMAGE (R341). -/
def execVerifyImage (h : CmdHdr) (slot : Byte) (s : State) : Outcome State Fault Refusal :=
  s.onApp fun a => a.process h (.verifyImage slot) (firstFail [(0, slot.toNat ≤ 1)]) [8] (opVerifyImage h slot)

/-- The effect of ERASE_SLOT: not of a Running slot, nor of one that a change uses (R339). -/
def opEraseSlot (h : CmdHdr) (slot : Byte) (a : App) : App × Reply :=
  if a.cstate = 3 ∨ a.slotInUse slot.toNat then (a, .final Status.state [])
  else
    match a.startLong h (.eraseSlot slot) 512 with
    | (a, .later) => ((a.onCtl fun c => { c with slots := vput c.slots slot.toNat [] }).set (Reg.slotState slot.toNat) Slot.empty, .later)
    | r => r

/-- ERASE_SLOT (R339). -/
def execEraseSlot (h : CmdHdr) (slot : Byte) (s : State) : Outcome State Fault Refusal :=
  s.onApp fun a => a.process h (.eraseSlot slot) (firstFail [(0, slot.toNat ≤ 1)]) [8] (opEraseSlot h slot)

/-- A change to a firmware slot. -/
def App.onFw (a : App) (i : Nat) (f : FwSlot → FwSlot) : App := { a with life := { a.life with fw := vup a.life.fw i f } }

/-- The version of the running supervisor firmware. -/
def App.fwVersion (a : App) : Nat := (vat a.life.fw (a.get Reg.LCY_STAT_fw_slot)).version.toNat

/-- The effect of LOAD_FIRMWARE: the slot is invalid until the load ends (R498, R594). -/
def opLoadFirmware (h : CmdHdr) (op : HostOp) (slot : Byte) (size : W32) (a : App) : App × Reply :=
  match a.startLong h op (size.toNat / 2 ^ 20 + 1) with
  | (a, .later) => (a.onFw slot.toNat fun f => { f with valid := false }, .later)
  | r => r

/-- LOAD_FIRMWARE (R594): a firmware slot holds 256 MiB (R29). -/
def execLoadFirmware (h : CmdHdr) (slot : Byte) (size : W32) (src : W64) (s : State) : Outcome State Fault Refusal :=
  s.onApp fun a => a.process h (.loadFirmware slot size src)
    (firstFail [(0, slot.toNat ≤ 1), (1, 1 ≤ size.toNat ∧ size.toNat ≤ 2 ^ 28)]) [] (opLoadFirmware h (.loadFirmware slot size src) slot size)

/-! ### Steps (R407, R497, R498, R517) -/

/-- What a cancelled operation leaves (R498). -/
def App.cancelLong (a : App) (l : LongOp) : App :=
  match l.op with
  | .skimPrepare .. | .skimRollback => (a.skimDrop 0).endSkim
  | .verifyImage s => (a.set (Reg.slotState s.toNat) Slot.loaded).endLong l Status.cancelled (le 4 l.steps)
  | _ => a.endLong l Status.cancelled (le 4 l.steps)

/-- The bytes that a source provides to a load. -/
def loadSize : HostOp → Nat
  | .loadImage _ z _ => z.toNat
  | .loadFirmware _ z _ => z.toNat
  | .skimPrepare n _ => n.toNat
  | _ => 0

/-- A load has all its bytes: the slot is Loaded, the firmware slot judged, or the map checked and the data built. -/
def App.loaded (a : App) (l : LongOp) : App :=
  match l.op with
  | .loadImage s _ _ =>
    let a := a.onCtl fun c => { c with slots := vput c.slots s.toNat l.buf, writes := vup c.writes s.toNat (· + 1) }
    ((a.slotWritten).set (Reg.slotState s.toNat) Slot.loaded).endLong l Status.ok []
  | .loadFirmware s _ _ =>
    (a.onFw s.toNat fun f => ⟨Config.fwValid l.buf, Config.fwVersion l.buf, l.buf.length, f.writes + 1⟩).slotWritten.endLong l Status.ok []
  | .skimPrepare .. =>
    match a.ctl.skim with
    | some k =>
      match mapCheck a.runImage (a.img k.slot) l.buf with
      | some i => (a.skimLeave Status.check (le 4 i)).endSkim
      | none => (a.buildRegion { k with map := l.buf } false).sendTransfer 1 l.buf
    | none => a
  | _ => a

/-- The record of a NAND image that fails its CRC-32C, with the address (R32, R600). -/
def App.nandRecord (a : App) (p : Nat) : App := a.record 0x0040 4 (p % 2 ^ 32) (p / 2 ^ 32) 0

/-- The end of VERIFY_IMAGE (R32, R341). -/
def App.verified (a : App) (l : LongOp) (s : Nat) : App :=
  match (a.img s).verify a.fwVersion with
  | none => (a.set (Reg.slotState s) Slot.verified).endLong l Status.ok (le 8 (a.img s).fp)
  | some n =>
    let a := if (a.img s).crcOk then a
      else
        let (i, a) := a.fresh
        a.nandRecord (((if s = 0 then Region.slot 0 else .slot 1).base) + (Config.badWord i).toNat)
    (a.set (Reg.slotState s) Slot.invalid).endLong l Status.check (le 4 n)

/-- LONG_OPERATION_STEP (R407, R497, R498): one step of a context's operation. `data` is what the step read from the
operation's source, none after a read that failed twice; `more` says that the work is not done with this step. -/
def execLongOperationStep (ctx : Fin 8) (data : Option (List Byte)) (more : Bool) (s : State) : Outcome State Fault Refusal :=
  s.onApp fun a =>
    match vat a.cmd.long ctx with
    | none => a
    | some l =>
      if l.cancel then a.cancelLong l
      else
        let l := { l with steps := l.steps + 1, phase := match l.op with
          | .skimPrepare .. | .skimRollback => a.get Reg.CSC_SKSTAT_phase
          | _ => l.phase }
        let a := a.onLong ctx fun _ => l
        let a := if l.steps = 1 ∨ l.steps % 64 = 0 then a.progress l else a
        match l.op with
        | .verifyImage x => if more then a else a.verified l x.toNat
        | .eraseSlot x => if more then a else (a.set (Reg.slotState x.toNat) Slot.empty).endLong l Status.ok []
        | .skimRollback =>
          match a.ctl.skim with
          | some k => if k.built then a else a.buildRegion k true
          | none => a
        | _ =>
          let n := loadSize l.op
          let waits : Bool := match l.op with
            | .loadImage .. => a.life.eraseLeft != 0
            | _ => false
          if waits then a.progress l
          else if n ≤ l.buf.length then a
          else
            match data with
            | none =>
              let res := le 8 0 ++ le 4 l.buf.length
              match l.op with
              | .skimPrepare .. => (a.skimLeave Status.buffer res).endSkim
              | _ => a.endLong l Status.buffer res
            | some d =>
              let l := { l with buf := (l.buf ++ d).take n }
              let a := a.onLong ctx fun _ => l
              if l.buf.length = n then a.loaded l else a

end Sys2Proof.Machine
end

