-- ==== Sys2Proof/Machine/Dma.lean ====
section
/-! DEFINITION. The DMA engine: descriptor rings, arbitration, bursts, chain CRC, errors, abort and restart
(R503 to R518). -/

namespace Sys2Proof.Machine

open Host

/-- A change to one channel. -/
def App.onDma (a : App) (c : Nat) (f : DmaCh → DmaCh) : App := { a with dma := { a.dma with ch := vup a.dma.ch c f } }
def App.dmaCh (a : App) (c : Nat) : DmaCh := vat a.dma.ch c

/-- The slots of a ring, 2^12, and the bytes of a slot (R506). -/
def dmaSlots : Nat := 4096
def DmaCh.slot (x : DmaCh) (i : Nat) : List Byte :=
  ((x.slots.find? (fun s => s.1 == i % dmaSlots)).map (·.2)).getD (le 32 0)
def DmaCh.put (x : DmaCh) (i : Nat) (d : List Byte) : DmaCh :=
  { x with slots := (x.slots.filter (fun s => s.1 != i % dmaSlots)) ++ [(i % dmaSlots, d)] }

/-- The fields of a descriptor (R507). -/
def dOwn (d : List Byte) : Bool := bitOf (numAt d 0 1) 0
def dLast (d : List Byte) : Bool := bitOf (numAt d 1 1) 0
def dIrq (d : List Byte) : Bool := bitOf (numAt d 1 1) 1
def dAppend (d : List Byte) : Bool := bitOf (numAt d 1 1) 2
def dConfirm (d : List Byte) : Bool := bitOf (numAt d 1 1) 3
def dSrcWrap (d : List Byte) : Nat := numAt d 2 1
def dDstWrap (d : List Byte) : Nat := numAt d 3 1
def dCount (d : List Byte) : Nat := numAt d 4 4
def dSrc (d : List Byte) : Nat := numAt d 8 8
def dDst (d : List Byte) : Nat := numAt d 16 8

/-- Whether an address names a host, and the port it names (R507). -/
def toHost (x : Nat) : Bool := bitOf x 63
def portOf (x : Nat) : Nat := bitsOf x 62 1

/-- The address of the byte at offset `i` of a side (R510). -/
def wrapAddr (x k i : Nat) : Nat := if k = 0 then x + i else x / 2 ^ k * 2 ^ k + (x + i) % 2 ^ k

/-- The ranges of addresses that `count` bytes of a side take: a circular side may wrap to its base (R510). -/
def ranges (x k count : Nat) : List (Nat × Nat) :=
  let room := if k = 0 then count else min count (2 ^ k - x % 2 ^ k)
  [(x, room), (wrapAddr x k room, count - room)]

/-- Whether a side fails the checks of R508: a reserved code, a circular block shorter than the count, a module address with
reserved bits, or one outside mapped memory. -/
def sideBad (x k count : Nat) : Bool :=
  decide (32 ≤ k) || (decide (1 ≤ k) && decide (k ≤ 5)) || (k != 0 && decide (2 ^ k < count))
    || (!toHost x && (bitsOf x 36 27 != 0 || !(ranges x k count).all (fun r => mapped regions.length r.1 r.2)))

/-- The regions from which code is executed: the image that runs or whose routines run, and the firmware (R25). -/
def App.codeRegions (a : App) : List Region :=
  let image := fun (s : Nat) => if s = 0 then Region.image 0 else .image 1
  (a.ctl.running.map image).toList ++ (a.ctl.init.map (fun i => image i.slot)).toList
    ++ [if a.get Reg.LCY_STAT_fw_slot = 0 then .firmware 0 else .firmware 1]

/-- Whether a descriptor fails its check (R508). -/
def App.descBad (a : App) (d : List Byte) : Bool :=
  decide (16 ≤ numAt d 0 1) || decide (16 ≤ numAt d 1 1) || dCount d == 0 || decide (0x80000000 < dCount d)
    || sideBad (dSrc d) (dSrcWrap d) (dCount d) || sideBad (dDst d) (dDstWrap d) (dCount d)
    || (!toHost (dDst d) && a.codeRegions.any (fun c =>
      (ranges (dDst d) (dDstWrap d) (dCount d)).any (fun r => decide (0 < r.2) && overlap r.1 r.2 c.base c.size)))

/-- A channel's state and index registers (R518). -/
def App.dmaShow (a : App) (c : Nat) : App :=
  let x := a.dmaCh c
  let st := if x.halted then 2 else if x.head < x.tail ∨ x.confirm = true then 1 else 0
  (a.set (Reg.DMA_CHSTAT_state c) st).set (Reg.DMA_CHSTAT_index c) (x.head % dmaSlots)

/-- The descriptor at the head written back with a status and its residue; a chain that ends with it leaves its CRC
(R506, R511 to R513). -/
def App.dmaBack (a : App) (c st residue : Nat) : App :=
  let x := a.dmaCh c
  let d := x.slot x.head
  let crc := x.crc ^^^ 0xFFFFFFFF
  let d' := le 1 (2 * st) ++ bytesAt d 1 23 ++ le 4 residue ++ le 4 crc
  let irq := if st = 1 ∨ dIrq d = true then 1 else 0
  let a := a.onDma c fun x => { x.put x.head d' with head := x.head + 1, pos := 0, confirm := false, irqs := x.irqs + irq
                                                     inChain := !dLast d, crc := if dLast d then 0xFFFFFFFF else x.crc }
  let a := if dLast d then a.set (Reg.DMA_CHCRC_chain_crc c) crc else a
  let a := a.set (Reg.DMA_CHSTAT_last_status c) st
  match st with
  | 1 => a.satAdd (Reg.DMA_CHERR_bad c) 1
  | 2 => a.satAdd (Reg.DMA_CHERR_aborted c) 1
  | 3 => a.satAdd (Reg.DMA_CHERR_unconfirmed c) 1
  | 5 => a.satAdd (Reg.DMA_CHERR_malformed c) 1
  | _ => a

/-- The descriptors at the head that are not the engine's or fail their check are written back malformed; at most `n` of
them (R506, R508). -/
def App.dmaSkip (a : App) (c : Nat) : Nat → App
  | 0 => a
  | n + 1 =>
    let x := a.dmaCh c
    let d := x.slot x.head
    if x.head < x.tail ∧ x.pos = 0 ∧ x.confirm = false ∧ (dOwn d = false ∨ a.descBad d = true) then
      (a.dmaBack c 5 (dCount d)).dmaSkip c n
    else a

/-- Whether a channel has work. -/
def App.dmaWork (a : App) (c : Nat) : Bool :=
  let x := a.dmaCh c
  !x.halted && !x.confirm && decide (x.head < x.tail)

/-- The channel that gets the next burst: of the highest priority with work, the next after the one served last there
(R505). -/
def App.dmaPick (a : App) : Option Nat :=
  [3, 2, 1, 0].findSome? (fun p =>
    ((upto 16).map (fun i => (vat a.dma.last p + 1 + i) % 16)).find? (fun c => a.get (Reg.DMA_CHCFG_prio c) == p && a.dmaWork c))

/-- Whether a side names a host whose port is down (R513). -/
def App.sideDown (a : App) (x : Nat) : Bool := toHost x && !a.on (Reg.HCX_PORT_link_up (portOf x))

/-- The bytes of a burst: those of the descriptor that fall in one 256-byte-aligned block of destination addresses (R504,
R510). -/
def burstLen (d : List Byte) (pos : Nat) : Nat :=
  let left := dCount d - pos
  let k := dDstWrap d
  if k = 6 ∨ k = 7 then left else min left (256 - wrapAddr (dDst d) k pos % 256)

/-- Bytes written into the capture cache wear it and replace what fails of its blocks (R29). -/
def App.nandWrite (a : App) (n : Nat) : App :=
  if n = 0 then a
  else
    let (i, a) := a.fresh
    { a with life := { a.life with cacheBytes := a.life.cacheBytes + n, spareBytes := a.life.spareBytes + (Config.replaced i).toNat } }

/-- The memory that holds a module address. -/
def memoryAt (x : Nat) : Memory := (regionAt x).elim .dram Region.memory

/-- The accesses of a burst: its source and its destination, each to its memory, or to the port of a host (R504). -/
def App.burstAccess (a : App) (c : Nat) (x n : Nat) : App :=
  if toHost x then a else a.access (.dma (Fin.ofNat 16 c)) (memoryAt x) n

/-- An uncorrectable word under a source read: the record names its memory, and the Jet ring keeps the damage (R32, R513). -/
def App.sourceEcc (a : App) (x : Nat) : App :=
  let a := a.record 0x0040 (memoryAt x).code (x % 2 ^ 32) (x / 2 ^ 32) 0
  if regionAt x = some .jetRing then a.damageJet ((x - Region.jetRing.base) / 64) else a

/-- Bytes delivered from offset `i` of the destination, in runs of rising addresses. -/
def App.dmaDeliver (a : App) (d : List Byte) (i : Nat) (data : List Byte) : App :=
  let k := dDstWrap d
  let at_ := wrapAddr (dDst d) k i
  let room := if k = 0 then data.length else 2 ^ k - at_ % 2 ^ k
  let runs := if data.length ≤ room then [(at_, data)] else [(wrapAddr (dDst d) k (i + room), data.drop room), (at_, data.take room)]
  let cached := (runs.map (fun r => if !toHost r.1 && regionAt r.1 == some .cache then r.2.length else 0)).foldl (· + ·) 0
  ({ a with dma := { a.dma with out := runs ++ a.dma.out } }).nandWrite cached

/-- One burst of the descriptor at the head of a channel (R504, R509 to R514). -/
def App.dmaStep (a : App) (c : Nat) (io : BurstIo) : App :=
  let x := a.dmaCh c
  let d := x.slot x.head
  let n := burstLen d x.pos
  let end_ := x.pos + n == dCount d
  let a := (a.burstAccess c (dSrc d) n).burstAccess c (dDst d) n
  let a := match io.ecc with
    | some w => if toHost (dSrc d) then a else a.sourceEcc w.toNat
    | none => a
  let err := io.readFails || (io.ecc.isSome && !toHost (dSrc d)) || a.sideDown (dSrc d) || a.sideDown (dDst d)
    || (io.writeFails && !toHost (dDst d))
  if err then a.dmaBack c 1 (dCount d - x.pos)
  else
    let data := padTo n io.data
    let a := a.dmaDeliver d x.pos data
    let a := a.onDma c fun x => { x with pos := x.pos + n, inChain := true, crc := data.foldl crcByte x.crc }
    if !end_ then a
    else
      let a := if dAppend d && dLast d then a.dmaDeliver d (dCount d) (le 4 ((a.dmaCh c).crc ^^^ 0xFFFFFFFF)) else a
      if io.lastFails && !toHost (dDst d) then a.dmaBack c 3 0
      else if dConfirm d && toHost (dDst d) then a.onDma c fun x => { x with confirm := true }
      else a.dmaBack c 0 0

/-- The rest of the chain is written back not run; at most `n` descriptors (R515). -/
def App.dmaNotRun (a : App) (c : Nat) : Nat → App
  | 0 => a
  | n + 1 =>
    let x := a.dmaCh c
    if x.inChain = true ∧ x.head < x.tail then
      let d := x.slot x.head
      (a.dmaBack c (if dOwn d then 4 else 5) (dCount d)).dmaNotRun c n
    else a

/-- The channel enters Halted, with an interrupt (R515). -/
def App.dmaHalt (a : App) (c : Nat) : App :=
  let a := a.dmaNotRun c dmaSlots
  (a.onDma c fun x => { x with halted := true, abort := false, pos := 0, inChain := false, crc := 0xFFFFFFFF, irqs := x.irqs + 1 }).dmaShow c

/-- An abort: it waits for an outstanding confirmation read; the descriptor in progress is aborted (R515, R516). -/
def App.dmaAbort (a : App) (c : Nat) : App :=
  let x := a.dmaCh c
  if x.halted then a
  else if x.confirm then a.onDma c fun x => { x with abort := true }
  else if x.pos = 0 then a.dmaHalt c
  else (a.dmaBack c 2 (dCount (x.slot x.head) - x.pos)).dmaHalt c

/-- The chains that carry out buffers and stream blocks of a context are aborted when it leaves Running (R517). -/
def App.dmaLeave (a : App) (k : Nat) : App :=
  (upto 16).foldl (fun a c => if (a.dmaCh c).forCtx = some k ∧ (a.dmaWork c = true ∨ (a.dmaCh c).confirm = true) then a.dmaAbort c else a) a

/-! ### The rows -/

/-- DMA_TAIL_ADVANCE (R506): the producer writes slots and advances the tail, no further than the ring has room. -/
def execDmaTailAdvance (channel : Fin 16) (slots : List (List Byte)) (forCtx : Option (Fin 8)) (s : State) : Outcome State Fault Refusal :=
  s.onApp fun a =>
    let x := a.dmaCh channel
    let new := (slots.take (dmaSlots - (x.tail - x.head))).map (padTo 32)
    let a := a.onDma channel fun x =>
      { (new.foldl (fun (y : DmaCh) d => { y.put y.tail d with tail := y.tail + 1 }) x) with
        forCtx := match forCtx with
          | some k => some k.val
          | none => x.forCtx }
    a.dmaShow channel

/-- DMA_BURST (R504, R505): the arbitrated channel's next burst. -/
def execDmaBurst (io : BurstIo) (s : State) : Outcome State Fault Refusal :=
  s.onApp fun a =>
    match a.dmaPick with
    | none => a
    | some c =>
      let p := a.get (Reg.DMA_CHCFG_prio c)
      let a := a.dmaSkip c dmaSlots
      if a.dmaWork c then
        let a := { a with dma := { a.dma with last := vput a.dma.last p c } }
        (a.dmaStep c io).dmaShow c
      else a.dmaShow c

/-- DMA_CONFIRMATION_READ (R514): the read returns; an abort that waited for it then acts. -/
def execDmaConfirmationRead (channel : Fin 16) (ok : Bool) (s : State) : Outcome State Fault Refusal :=
  s.onApp fun a =>
    let x := a.dmaCh channel
    if x.confirm then
      let a := a.dmaBack channel (if ok && !a.sideDown (dDst (x.slot x.head)) then 0 else 3) 0
      if x.abort then a.dmaHalt channel else a.dmaShow channel
    else a

/-- DMA_ABORT (R515). -/
def execDmaAbort (channel : Fin 16) (s : State) : Outcome State Fault Refusal := s.onApp fun a => a.dmaAbort channel

/-- DMA_RESTART (R515): a Halted channel runs again; its chain begins at the first descriptor taken. -/
def execDmaRestart (channel : Fin 16) (s : State) : Outcome State Fault Refusal :=
  s.onApp fun a =>
    if (a.dmaCh channel).halted then (a.onDma channel fun x => { x with halted := false }).dmaShow channel else a

end Sys2Proof.Machine
end

