-- ==== Sys2Proof/Machine/Rings.lean ====
section
/-! DEFINITION. Host contexts: doorbell fetches, context states, interrupt holdoff and refused setup writes
(R461 to R475, R484). -/

namespace Sys2Proof.Machine

open Host

/-! ### Refused writes (R461) -/

/-- A setup write of a context is refused for a reason: counted, latched, and posted at most once in each ms (R461). -/
def App.refuse (a : App) (k offset value width reason : Nat) : App :=
  let a := a.satAdd (Reg.HCX_CNT_refused k) 1
  let a := if a.on (Reg.HCX_RFSD_valid k) then a
    else ((a.set (Reg.HCX_RFSD_offset k) offset).set (Reg.HCX_RFSD_reason k) reason).raise (Reg.HCX_RFSD_valid k)
  let a := a.onCtx k fun c => { c with refusals := c.refusals + 1 }
  let free := match (vat a.ctxs k).class7At with
    | some t => a.since t tMs
    | none => true
  if a.get (Reg.HCX_STAT_state k) == 1 && bitOf (a.get (Reg.HCX_EVMASK_mask k)) 7 && free then
    (a.onCtx k fun c => { c with class7At := some a.tick }).postTo k 7
      (le 4 offset ++ le 8 value ++ le 1 width ++ le 1 reason ++ le 1 a.lcy ++ le 1 0 ++ le 8 a.w64 ++ le 1 a.tqc ++ le 1 a.tsc
        ++ le 2 0 ++ le 4 (vat a.ctxs k).refusals.toNat)
  else a

/-! ### Context states (R469, R470) -/

/-- The tags of a context's commands that are fetched, or in effect, and not final. -/
def App.openTags (a : App) (k : Nat) : List W64 :=
  let c := vat a.ctxs k
  (c.fetched.map (·.tag)) ++ ((a.cmd.journal.filter (fun e => e.hdr.ctx.val == k)).map (·.hdr.tag))
    ++ ((a.mbox.reqs.filter (fun q => q.hdr.ctx.val == k)).map (·.hdr.tag)) ++ c.stale

/-- A change of context state, with the cause of vector 3 (R484). -/
def App.setCtx (a : App) (k st : Nat) : App := (a.set (Reg.HCX_STAT_state k) st).raiseMsix k 3

/-- A context leaves Running or Stalled: the completions of its open commands are discarded, the DMA chains that carry its
buffers are aborted, and its ownerships end (R470, R495, R517). -/
def App.ctxLeave (a : App) (k st : Nat) : App :=
  let tags := a.openTags k
  let a := a.onTags k (fun l => l.map (fun r => { r with links := [] }))
  let a := a.onCtx k fun c => { c with stale := tags, fetched := [], fetchAsked := false }
  ((a.setCtx k st).dmaLeave k).releaseCtx k 2

/-- The positions of a context, all 0, with what its rings held (R469). -/
def App.ctxZero (a : App) (k : Nat) : App :=
  let a := a.onCtx k fun c =>
    { ({} : HostCtx) with stale := c.stale, latch := c.latch, readData := c.readData, msix := c.msix, refusals := c.refusals }
  let a := a.set (Reg.HCX_STAT_db_fail k) 0
  (upto 11).foldl (fun a r => a.set (Reg.HCX_RSTAT_bad k r) 0) a

/-- A context goes Off by a Function Level Reset or a hot reset (R469, R591). -/
def App.ctxReset (a : App) (k : Nat) : App :=
  let a := if a.ctxLive k then a.ctxLeave k 0 else if a.get (Reg.HCX_STAT_state k) = 3 then a.setCtx k 0 else a
  (a.ctxZero k).setB (Reg.HCX_CTL_en k) false

/-- Whether a context may become Running: its configured role, ring sizes, doorbell page and link (R469). -/
def App.ctxReady (a : App) (k : Nat) : Bool :=
  a.get (Reg.HCX_ROLE_role k) != 0 && (upto 11).all (fun r => decide (4 ≤ a.get (Reg.HCX_RCFG_log2size k r)) && decide (a.get (Reg.HCX_RCFG_log2size k r) ≤ 16))
    && a.get (Reg.HCX_DBADDR_db_addr k) != 0 && a.on (Reg.HCX_PORT_link_up (k / 4))

/-- A context becomes Running with its configured role and setup bit (R457, R469). -/
def App.ctxEnable (a : App) (k : Nat) : App :=
  let a := (a.set (Reg.HCX_ROLE_active_role k) (a.get (Reg.HCX_ROLE_role k))).set (Reg.HCX_ROLE_active_setup k) (a.get (Reg.HCX_ROLE_setup k))
  (((a.ctxZero k).setB (Reg.HCX_CTL_en k) true).setCtx k 1)

/-- en written 0: a Running or Stalled context goes Off (R469). -/
def App.ctxDisable (a : App) (k : Nat) : App :=
  (if a.ctxLive k then a.ctxLeave k 0 else a).setB (Reg.HCX_CTL_en k) false

/-- FUNCTION_LEVEL_RESET (R469). -/
def execFunctionLevelReset (ctx : Fin 8) (s : State) : Outcome State Fault Refusal := s.onApp fun a => a.ctxReset ctx

/-- HOT_RESET (R591): the contexts of a port. -/
def execHotReset (port : Fin 2) (s : State) : Outcome State Fault Refusal :=
  s.onApp fun a => (upto 4).foldl (fun a c => a.ctxReset (4 * port + c)) a

/-- LINK_DOWN (R469): the contexts of the port go Down, and the port counts. -/
def execLinkDown (port : Fin 2) (s : State) : Outcome State Fault Refusal :=
  s.onApp fun a =>
    if a.on (Reg.HCX_PORT_link_up port) then
      let a := ((a.setB (Reg.HCX_PORT_link_up port) false).set (Reg.HCX_PORT_speed port) 0).set (Reg.HCX_PORT_width port) 0
      let a := a.satAdd (Reg.HCX_PORT_link_downs port) 1
      (upto 4).foldl (fun a c => if a.ctxLive (4 * port + c) then a.ctxLeave (4 * port + c) 3 else a) a
    else a

/-- LINK_UP (R469): Down contexts go Off, with en cleared. -/
def execLinkUp (port : Fin 2) (speed width : BitVec 2) (s : State) : Outcome State Fault Refusal :=
  s.onApp fun a =>
    let a := ((a.setB (Reg.HCX_PORT_link_up port) true).set (Reg.HCX_PORT_speed port) speed.toNat).set (Reg.HCX_PORT_width port) width.toNat
    (upto 4).foldl (fun a c =>
      if a.get (Reg.HCX_STAT_state (4 * port + c)) = 3 then (a.setCtx (4 * port + c) 0).setB (Reg.HCX_CTL_en (4 * port + c)) false else a) a

/-- INTERRUPT_HOLDOFF_END (R484): the causes combined during holdoff raise the vector once. -/
def execInterruptHoldoffEnd (ctx : Fin 8) (vector : Fin 4) (s : State) : Outcome State Fault Refusal :=
  s.onApp fun a =>
    let m := vat (vat a.ctxs ctx).msix vector
    match m.lastAt with
    | some t =>
      if m.waiting && a.since t (a.get (Reg.HCX_CTL_holdoff ctx) * tUs) then
        a.onCtx ctx fun c => { c with msix := vput c.msix vector { lastAt := some a.tick, waiting := false, raised := m.raised + 1 } }
      else a
    | none => a

/-! ### Doorbell fetches (R466 to R468, R472 to R475) -/

/-- How following a chain ended: at its last extension, with the hop budget used up, at an unreadable extension, or at a
next that is not 64-byte aligned (R472 to R475). -/
inductive ChainEnd where
  | done
  | budget
  | unreadable (addr : Nat)
  | misaligned
  deriving DecidableEq, Repr

/-- A chain followed from `next` with the hops left: how it ended, the hops left, and the payloads in chain order. -/
def walkChain (hops next : Nat) : List (Option (List Byte)) → ChainEnd × Nat × List (List Byte)
  | [] => if next = 0 then (.done, hops, []) else if next % 64 ≠ 0 then (.misaligned, hops, [])
          else if hops = 0 then (.budget, 0, []) else (.unreadable next, hops - 1, [])
  | e :: t =>
    if next = 0 then (.done, hops, [])
    else if next % 64 ≠ 0 then (.misaligned, hops, [])
    else if hops = 0 then (.budget, 0, [])
    else
      match e with
      | none => (.unreadable next, hops - 1, [])
      | some b =>
        let (r, n, l) := walkChain (hops - 1) (numAt b 0 8) t
        (r, n, bytesAt b 8 56 :: l)

/-- Whether a slot is written for an index: its own bit is 1 on even laps and 0 on odd ones (R463). -/
def ownOk (n index : Nat) (b : List Byte) : Bool := bitOf (numAt b 0 1) 0 == ((index / 2 ^ n) % 2 == 0)

/-- The opcodes of the command table (R500). -/
def knownOps : List Nat :=
  [0x0001, 0x0002, 0x0003, 0x0004, 0x0005, 0x0101, 0x0102, 0x0103, 0x0104, 0x0105, 0x0201, 0x0202, 0x0203, 0x0204, 0x0205,
   0x0206, 0x0207, 0x0301, 0x0302, 0x0303, 0x0401, 0x0402, 0x0403, 0x0404, 0x0501, 0x0502, 0x0601, 0x0602, 0x0603, 0x0604,
   0x0605, 0x0606, 0x0607, 0x0608, 0x0609, 0x060A, 0x0701, 0x0702, 0x0703, 0x0704, 0x0705, 0x0706, 0x0707, 0x0708, 0x0801,
   0x0901, 0x0902, 0x0903, 0x0904]

/-- A slot consumed. -/
def App.consume (a : App) (k : Nat) : App := a.onCtx k fun c => { c with cmdHead := c.cmdHead + 1 }

/-- A consumed command that is complete without being executed. -/
def App.endFetch (a : App) (k st index opcode : Nat) (tag : W64) (result : List Byte) : App :=
  (a.consume k).complete k { status := BitVec.ofNat 16 st, cmdIndex := BitVec.ofNat 32 index, tag := tag,
                             opcode := BitVec.ofNat 16 opcode, tq := 0, tsc := 0, step := 0, posted := 0, result := result }

/-- A descriptor counted as marked bad. -/
def App.markBad (a : App) (k r : Nat) : App := a.satAdd (Reg.HCX_RSTAT_bad k r) 1

/-- Commands handled in index order from cmd_head, until one of the events of R472: what the reads return, whether the next
command is the first of the fetch, and the hops left. -/
def App.fetchCmds (a : App) (k : Nat) (first : Bool) (hops : Nat) : List SlotRead → App
  | [] => a
  | r :: t =>
    let c := vat a.ctxs k
    let i := c.cmdHead.toNat
    let n := a.get (Reg.HCX_RCFG_log2size k 0)
    if c.cmdHead = c.cmdTail ∨ 64 ≤ c.fetched.length ∨ a.ringSize k 1 - (c.cplWritten - c.cplHead).toNat ≤ c.fetched.length ∨ hops = 0 then a
    else
      match r with
      | .bad addr =>
        (((a.endFetch k Status.badDesc i 0 0 []).markBad k 0).ringFault k 0 1 i addr.toNat).fetchCmds k false (hops - 1) t
      | .slot b exts =>
        if !ownOk n i b then a.raise (Reg.HCX_STAT_db_early k)
        else
          let (e, left, payload) := walkChain (hops - 1) (numAt b 16 8) exts
          let op := numAt b 2 2
          let tag := BitVec.ofNat 64 (numAt b 8 8)
          let len := numAt b 4 2
          let args := bytesAt b 24 40 ++ payload.flatMap id
          match e with
          | .budget => if first then (a.endFetch k Status.chainLoop i op tag []).ringFault k 0 2 i 0 else a
          | .unreadable x => (((a.endFetch k Status.chainBad i op tag []).markBad k 0).ringFault k 0 3 i x).fetchCmds k false left t
          | .misaligned => ((a.endFetch k Status.malformed i op tag []).ringFault k 0 4 i 0).fetchCmds k false left t
          | .done =>
            if numAt b 0 1 / 2 ≠ 0 ∨ numAt b 1 1 ≠ 0 ∨ numAt b 6 2 ≠ 0 ∨ args.length < len then
              ((a.endFetch k Status.malformed i op tag []).ringFault k 0 4 i 0).fetchCmds k false left t
            else if !knownOps.contains op then (a.endFetch k Status.unknownOp i op tag []).fetchCmds k false left t
            else
              ((a.consume k).onCtx k fun c =>
                { c with fetched := c.fetched ++ [⟨BitVec.ofNat 32 i, BitVec.ofNat 16 op, tag, args.take len⟩] }).fetchCmds k false left t

/-- A doorbell field that fails its check: db_bad and a class-8 event of kind 5 (R467). -/
def App.dbBad (a : App) (k o : Nat) : App := (a.raise (Reg.HCX_STAT_db_bad k)).ringFault k 11 5 o 0

/-- Whether a position has moved back (R467). -/
def movedBack (old new : W32) : Bool := decide (2 ^ 31 ≤ (new - old).toNat)

/-- The fields of a fetched doorbell page, each checked (R467). -/
def App.takePage (a : App) (k : Nat) (p : List Byte) : App :=
  let f := fun (o : Nat) => BitVec.ofNat 32 (numAt p o 4)
  let c := vat a.ctxs k
  let a := if ((f 0) - c.cmdHead).toNat ≤ a.ringSize k 0 then a.onCtx k fun c => { c with cmdTail := f 0 } else a.dbBad k 0
  let a := if !movedBack c.cplHead (f 4) && decide ((c.cplWritten - f 4).toNat ≤ a.ringSize k 1) then
      a.onCtx k fun c => { c with cplHead := f 4 }
    else a.dbBad k 4
  let a := if !movedBack c.evtHead (f 8) && decide ((c.evtWritten - f 8).toNat ≤ a.ringSize k 2) then
      a.onCtx k fun c => { c with evtHead := f 8 }
    else a.dbBad k 8
  (upto 8).foldl (fun a s =>
    let o := 16 + 4 * s
    if !movedBack (vat c.streamPost s) (f o) && decide ((f o - vat c.streamW s).toNat ≤ a.ringSize k (3 + s)) then
      a.onCtx k fun c => { c with streamPost := vput c.streamPost s (f o) }
    else a.dbBad k o) a

/-- The 64 bytes of a write-back block (R468). -/
def WriteBack.bytes (w : WriteBack) : List Byte :=
  le 4 w.cmdHead.toNat ++ le 4 w.cplWritten.toNat ++ le 4 w.evtWritten.toNat ++ le 4 w.evtLost.toNat
    ++ padTo 32 (w.streamWritten.flatMap (fun x => le 4 x.toNat)) ++ le 8 w.stamp.toNat ++ le 1 w.state
    ++ le 1 (w.dbBad.toNat + 2 * w.dbEarly.toNat) ++ le 2 0 ++ le 4 w.seq.toNat

/-- The fields of a write-back block other than its stamp and count, as they stand. -/
def App.wbNow (a : App) (k : Nat) : WriteBack :=
  let c := vat a.ctxs k
  { cmdHead := c.cmdHead, cplWritten := c.cplWritten, evtWritten := c.evtWritten, evtLost := c.evtLost,
    streamWritten := c.streamW.toList, stamp := 0, state := a.get (Reg.HCX_STAT_state k), dbBad := a.on (Reg.HCX_STAT_db_bad k),
    dbEarly := a.on (Reg.HCX_STAT_db_early k), seq := 0 }

/-- The poll interval of a context in ticks. -/
def App.pollTicks (a : App) (k : Nat) : Nat := a.get (Reg.HCX_POLL_poll_us k) * tUs

/-- The write-back block after a fetch that changed one of its fields, at most once per poll interval (R468). -/
def App.writeBackDue (a : App) (k : Nat) : App :=
  let c := vat a.ctxs k
  let w := a.wbNow k
  let old := match c.writeBack with
    | some x => { x with stamp := 0, seq := 0 }
    | none => { w with cmdHead := 0, cplWritten := 0, evtWritten := 0, evtLost := 0, streamWritten := (Vector.replicate 8 0#32).toList, state := 0, dbBad := false, dbEarly := false }
  let due := match c.wbAt with
    | some t => a.since t (a.pollTicks k)
    | none => true
  if a.get (Reg.HCX_WBADDR_wb_addr k) = 0 ∨ w = old ∨ !due then a
  else
    let w := { w with stamp := BitVec.ofNat 64 a.w64, seq := c.wbSeq }
    (a.onCtx k fun c => { c with writeBack := some w, wbSeq := c.wbSeq + 1, wbAt := some a.tick }).writeHost k
      (BitVec.ofNat 64 (64 * a.get (Reg.HCX_WBADDR_wb_addr k))) w.bytes

/-- A doorbell page whose read failed: counted, and after 100 in a row the context is Stalled (R469, R474). -/
def App.pageFailed (a : App) (k : Nat) : App :=
  let a := a.satAdd (Reg.HCX_STAT_db_fail k) 1
  let a := a.ringFault k 11 1 0 (4096 * a.get (Reg.HCX_DBADDR_db_addr k))
  if a.get (Reg.HCX_STAT_state k) = 1 ∧ 100 ≤ a.get (Reg.HCX_STAT_db_fail k) then
    (((((a.set (Reg.HCX_STAT_state k) 2).record 0x0050 k 0 0 0).ringFault k 11 7 0 0).raiseMsix k 3).releaseCtx k 2).writeBackDue k
  else a

/-- Whether a doorbell fetch starts: a poll instant, or a completion posted since the last fetch (R466); the first one of a
boot follows the replay (R594), and none starts in the power-fail sequence (R38). -/
def App.fetchDue (a : App) (k : Nat) : Bool :=
  let c := vat a.ctxs k
  a.ctxLive k && !a.failing && (a.life.boot == .done || a.life.boot == .recovery) &&
    (c.fetchAsked || (match c.fetchAt with
      | some t => a.since t (a.pollTicks k)
      | none => true))

/-- DOORBELL_FETCH (R466): one fetch of a context, with what its reads of host memory return. -/
def execDoorbellFetch (ctx : Fin 8) (page : Option (List Byte)) (slots : List SlotRead) (s : State) : Outcome State Fault Refusal :=
  s.onApp fun a =>
    if !a.fetchDue ctx then a
    else
      let k := ctx.val
      let at_ := match (vat a.ctxs k).fetchAt with
        | some t => t + (a.tick - t) / max 1 (a.pollTicks k) * a.pollTicks k
        | none => a.tick
      let a := (a.onCtx k fun c => { c with fetchAsked := false, fetchAt := some at_ }).access (.host (if k < 4 then 0 else 1)) .dram
        (64 + 64 * slots.length)
      match page with
      | none => a.pageFailed k
      | some p =>
        let a := a.set (Reg.HCX_STAT_db_fail k) 0
        let a := if a.get (Reg.HCX_STAT_state k) = 2 then a.setCtx k 1 else a
        ((a.takePage k p).fetchCmds k true (a.get (Reg.HCX_POLL_hop_budget k)) slots).writeBackDue k

end Sys2Proof.Machine
end

