-- ==== Sys2Proof/Machine/Signal.lean ====
section
/-! DEFINITION. The signal paths of the bay inputs, from the modulator bits to Pool words and Jet frames (R114, R120,
R134, R150 to R165, R294, R295), and what takes its measure from each word: the fast detector, the trigger units and the
windows of a hand-over; substitution by a stream (R208 to R210). -/

namespace Sys2Proof.Machine

open Host

/-! ### CIC filters (R150, R151) -/

/-- The input of a filter: +1 or −1. -/
def bitStep {w : Nat} (b : Bool) : BitVec w := if b then 1 else -1

/-- One modulator period: each integrator adds what the one before it holds. -/
def Cic.clock {w : Nat} (c : Cic w) (x : BitVec w) : Cic w :=
  let i0 := vat c.integ 0 + x
  let i1 := vat c.integ 1 + i0
  let i2 := vat c.integ 2 + i1
  let i3 := vat c.integ 3 + i2
  { c with integ := #v[i0, i1, i2, i3, vat c.integ 4 + i3] }

/-- K combs in a row: the output, and what the combs hold from then on. -/
def combs {w : Nat} (x : BitVec w) : Nat → List (BitVec w) → BitVec w × List (BitVec w)
  | k + 1, d :: t => let r := combs (x - d) k t; (r.1, x :: r.2)
  | _, l => (x, l)

/-- A decimated output of order K. -/
def Cic.dump {w : Nat} (c : Cic w) (k : Nat) : Int × Cic w :=
  let r := combs (vat c.integ (k - 1)) k c.comb.toList
  (r.1.toInt, { c with comb := Vector.ofFn fun i : Fin 5 => r.2.getD i.val 0 })

/-- A raw Pool output in 1/64 Pool LSB, and a raw Jet output in 1/4 Jet LSB (R151). -/
def scalePool (k : Nat) (r : Int) : Int := if k ≤ 4 then r * 2 ^ (29 - 6 * k) else (r + 1) / 2
def scaleJet (k : Nat) (r : Int) : Int := r * 2 ^ (15 - 3 * k)

/-! ### Calibration (R120, R135) -/

/-- A Pool value in 1/64 LSB held within the full-scale codes (R135). -/
def holdPool (x : Int) : Int := max (-536870912) (min 536870848 x)

/-- One correction of a Pool value in 1/64 LSB, and of a Jet value in 1/4 LSB with the offset scaled by 2^-10. -/
def corrPool (gain : Nat) (ofs x : Int) : Int := ((x - 64 * ofs) * gain + 2 ^ 21) / 2 ^ 22
def corrJet (gain : Nat) (ofs x : Int) : Int := ((256 * x - ofs) * gain + 2 ^ 29) / 2 ^ 30

/-- The front-end factors of a channel and range: factory data (R120). -/
def frontGain : Nat := 0x400000
def frontOfs : Int := 0

/-- The factors of a slice (R120). -/
def App.sliceGain (a : App) (s : Nat) : Nat := a.get (Reg.ANA_CAL_GAIN_gain s)
def App.sliceOfs (a : App) (s : Nat) : Int := asSigned 24 (a.get (Reg.ANA_CAL_OFS_offset s))

/-- A raw Pool output of slice `s` of bay `b` as a calibrated word in 1/64 LSB, and a raw Jet output as one in Jet LSB. -/
def App.calPool (a : App) (b s : Nat) (r : Int) : Int :=
  holdPool (corrPool (a.sliceGain s) (a.sliceOfs s) (corrPool frontGain frontOfs (scalePool (a.poolK b) r)))
def App.calJet (a : App) (b s : Nat) (r : Int) : Int :=
  satSigned 14 ((corrJet (a.sliceGain s) (a.sliceOfs s) (corrJet frontGain frontOfs (scaleJet (a.jetK b) r)) + 2) / 4)

/-- Whether a channel is enabled (R137). -/
def App.chanOn (a : App) (b c : Nat) : Bool := bitOf (a.get (Reg.ANA_CHCFG_ch b)) (2 * c)

/-- Whether the comparator of slice `s` was active in one of the last `n` modulator periods (R134). -/
def App.overIn (a : App) (s n : Nat) : Bool :=
  match (vat a.sig.slices s).overAt with
  | some e => decide (a.sig.edges ≤ e + n)
  | none => false

/-! ### The Rogowski integrator (R154 to R157) -/

/-- 2π × fr / 230,400 as u0.32. -/
def integGain (f60 : Bool) : Nat := if f60 then 7027624 else 5856353

/-- One step of the integrator with leak 2^-L: its state in 2^-16 LSB over words in 1/64 LSB, in 40 bits. -/
def integStep (l gain : Nat) (y x before : Int) : Int :=
  let n := y * (2 ^ l - 1) * 2 ^ (23 - l) + gain * (x + before)
  satSigned 40 (n / 2 ^ 23 + if n % 2 ^ 23 ≠ 0 ∧ Config.integUp n then 1 else 0)

/-- The result of the integrator in 1/64 LSB, saturated at the full-scale codes (R157). -/
def integOut (y : Int) : Int := holdPool ((y + 512) / 1024)

/-! ### The modulator edge -/

/-- The modulator edges up to the present instant, edge 0 of each second at its nanosecond 0 (R72, R152). -/
def TimeSt.edgeCount (t : TimeSt) : Int := t.wall.modNs t.modErr * 14745600 / 1000000000

/-- The wall time of modulator edge `e` in 1/16 ns (R164). -/
def App.edge16 (a : App) (e : Nat) : Nat :=
  (((2 * e * 16000000000 + 14745600) / (2 * 14745600) : Nat) + a.modLag16).toNat

/-- One edge: every slice gives a bit to both of its filters. -/
def App.clockSlices (a : App) : App :=
  let n := a.sig.edges
  a.onSig fun s =>
    { s with edges := n + 1
             slices := Vector.ofFn fun i : Fin 36 =>
               let z := vat s.slices i.val
               let b := Config.modBit i.val n
               { pool := z.pool.clock (bitStep b), jet := z.jet.clock (bitStep b)
                 overAt := if Config.overRange i.val n then some n else z.overAt } }

/-! ### Jet words (R134, R162, R294, R295) -/

/-- The Jet word of a channel from the raw outputs of the slices (R12). -/
def App.jetWord (a : App) (raw : Nat → Int) (i : Nat) : W16 :=
  let b := i / 8
  let s := 9 * b + a.sliceOf b (i % 8)
  let v := if a.chanOn b (i % 8) then a.calJet b s (raw s) else 0
  let beyond := a.chanOn b (i % 8) && a.overIn s (7 * a.jetK b + 1)
  BitVec.ofNat 16 (toBits 14 v * 4 + beyond.toNat * 2 + (v == 8191 || v == -8192).toNat)

/-- Whether a frame gets an anchor: every 1,024 frames, the first one after a step, and the first one after a DEC_ change
(R295). -/
def App.anchorWhy (a : App) (n : Nat) : Option Bool :=
  let dec : Bool := match (vat a.ana.bays 0).decAt with
    | some t => !a.since t (tS / 1843200 + 1)
    | none => false
  match a.sig.anchors with
  | [] => some dec
  | x :: _ => if dec && !(x.dec && x.n + 1 == n) then some true else if n % 1024 = 0 ∨ x.tsc ≠ a.tsc then some false else none

/-- The raw Jet output of a slice (R150). -/
def App.jetRaw (a : App) (s : Nat) : Int := ((vat a.sig.slices s).jet.dump (a.jetK (s / 9))).1

/-- The frame of the Jet sample whose newest bit is that of edge `e` (R294). -/
def App.jetFrame (a : App) (e : Nat) : JetFrame :=
  { edge := a.edge16 e, tq := a.tqc, tsc := a.tsc, aq := Vector.ofFn fun b : Fin 4 => a.aq b.val, ang := Vector.ofFn fun b : Fin 4 => a.angleFx b.val
    words := Vector.ofFn fun i : Fin 32 => a.jetWord a.jetRaw i.val }

/-- A Jet sample: the frame enters the ring, of 2^25 frames, and its anchor the record-buffer region. -/
def App.jetSample (a : App) (e : Nat) : App :=
  let f := a.jetFrame e
  let n := a.sig.jetCount
  let why := a.anchorWhy n
  a.onSig fun s =>
    { s with slices := Vector.ofFn fun i : Fin 36 =>
               let z := vat s.slices i.val
               { z with jet := (z.jet.dump (a.jetK (i.val / 9))).2 }
             jetCount := n + 1
             ring := (f :: s.ring).take 33554432
             damaged := s.damaged.filter (fun m => decide (n < m + 33554432))
             anchors := match why with
               | some d => ({ n := n, edge := f.edge, tq := a.tqc, tsc := a.tsc, jetK := (upto 4).map (fun b => a.get (Reg.DEC_CFG_jet_k b)), dec := d }
                   :: s.anchors).filter (fun x => decide (n < x.n + 33555456))
               | none => s.anchors }

/-! ### Trigger units (R280 to R282) -/

/-- The settings under which a unit measures; a change of them restarts it. -/
def App.trigCfg (a : App) (u : Nat) : List Nat :=
  [a.get (Reg.CAP_TRG_CFG_en u), a.get (Reg.CAP_TRG_CFG_type u), a.get (Reg.CAP_TRG_CFG_pol u), a.get (Reg.CAP_TRG_CFG_dig u),
   a.get (Reg.CAP_TRG_CFG_src u), a.get (Reg.CAP_TRG_HI_level u), a.get (Reg.CAP_TRG_HI_hyst u), a.get (Reg.CAP_TRG_LO_level u),
   a.get (Reg.CAP_TRG_LO_hyst u), a.get (Reg.CAP_TRG_T1_t u), a.get (Reg.CAP_TRG_T2_t u)]
   ++ (upto 16).flatMap (fun i => [a.get (Reg.CAP_TRG_PAT_src u i), a.get (Reg.CAP_TRG_PAT_analog u i), a.get (Reg.CAP_TRG_PAT_want u i)])

/-- What a unit has measured, started again where its settings have changed. -/
def App.trigTrack (a : App) (u : Nat) : TrigTrack :=
  let x := vat a.sig.trig u
  if x.cfg = a.trigCfg u then x else { cfg := a.trigCfg u, done := x.done }

/-- A word or scan abandons what a unit was measuring (R280). -/
def TrigTrack.abandon (x : TrigTrack) : TrigTrack := { cfg := x.cfg, done := x.done }

/-- A level at an instant: what the unit measures from then on, and the measured time where the condition of its type
completes (R281). -/
def TrigTrack.take (x : TrigTrack) (type t1 t : Nat) (hi lo : Bool) : TrigTrack × Option Nat :=
  let since := if hi then (if x.high then x.since else if x.seen then some t else none) else none
  let told := hi && x.high && x.told
  let left := if hi || lo then none else if x.low then some t else x.left
  let lastLow := if lo then some t else if hi then none else x.lastLow
  let long : Bool := match since with
    | some s => !told && decide (s + t1 ≤ t)
    | none => false
  let m := match type with
    | 0 => if x.high && !hi then x.since.map (t - ·) else none
    | 1 => if lo && !x.low then x.left.map (t - ·) else none
    | 2 => if long then some t1 else none
    | 3 => if hi && !x.high then x.lastLow.map (t - ·) else none
    | _ => none
  ({ x with seen := true, high := hi, low := lo, since := since, told := told || (type == 2 && long), left := left, lastLow := lastLow }, m)

/-- A base frame of a pattern unit: a match counts from the first frame that matches after one that did not (R281, R282). -/
def TrigTrack.frame (x : TrigTrack) (t1 t : Nat) (hit : Bool) : TrigTrack × Option Nat :=
  let since := if hit then (if x.hit then x.since else some t) else none
  let told := hit && x.hit && x.told
  let long : Bool := match since with
    | some s => !told && decide (s + t1 ≤ t)
    | none => false
  ({ x with hit := hit, since := since, told := told || long }, if long then some t1 else none)

/-- What a unit measured enters the state; a measured time that satisfies the unit waits to fire. -/
def App.trigPut (a : App) (u t tq tsc : Nat) (r : TrigTrack × Option Nat) : App :=
  let x := match r.2 with
    | some m => if a.trigFits u m then { r.1 with done := r.1.done ++ [⟨t, m, tq, tsc⟩] } else r.1
    | none => r.1
  a.onSig fun s => { s with trig := vput s.trig u x }

/-- A unit takes a level of its source at an instant, with tq and tsc there. -/
def App.trigSee (a : App) (u t tq tsc : Nat) (w : W32) : App :=
  let x := a.trigTrack u
  let l := a.trigLevel u (x.high, x.low) w
  a.trigPut u t tq tsc (x.take (a.get (Reg.CAP_TRG_CFG_type u)) (a.get (Reg.CAP_TRG_T1_t u) * 1000) t l.1 l.2)

/-- The digital units at a scan (R280). -/
def App.trigScan (a : App) : App :=
  let l := match a.cap.scans with
    | x :: _ => x.set
    | [] => []
  (upto 32).foldl (fun a u =>
    if a.on (Reg.CAP_TRG_CFG_en u) && a.on (Reg.CAP_TRG_CFG_dig u) && a.get (Reg.CAP_TRG_CFG_type u) != 4 then
      a.trigSee u a.now a.tqc a.tsc (BitVec.ofNat 32 (l.contains (a.get (Reg.CAP_TRG_CFG_src u))).toNat)
    else a) a

/-- Whether every enabled term of a pattern matches at a base frame: an analog term is 1 at or above HI, a digital one where its
input was asserted in the frame's window (R282). -/
def App.patternHit (a : App) (u : Nat) (r : PoolRow) : Bool :=
  (upto 16).all (fun i =>
    let want := a.get (Reg.CAP_TRG_PAT_want u i)
    let src := a.get (Reg.CAP_TRG_PAT_src u i)
    let v := if a.on (Reg.CAP_TRG_PAT_analog u i) then decide (asSigned 24 (a.get (Reg.CAP_TRG_HI_level u)) ≤ wordValue (vat r.words src))
             else a.assertedIn src r
    2 ≤ want || v == (want == 1))

/-- A pattern unit at the words of a window. -/
def App.trigPattern (a : App) (r : PoolRow) (u : Nat) : App :=
  if a.patternOn then
    let t := ns16 r.t16
    a.trigPut u t r.tq r.tsc ((a.trigTrack u).frame (a.get (Reg.CAP_TRG_T1_t u) * 1000) t (a.patternHit u r))
  else a.onSig fun s => { s with trig := vput s.trig u (a.trigTrack u).abandon }

/-- An analog unit at the word of its source in a window. -/
def App.trigAnalog (a : App) (r : PoolRow) (u : Nat) : App :=
  let src := a.get (Reg.CAP_TRG_CFG_src u)
  if wordQual (vat r.words src) = 2 then a.onSig fun s => { s with trig := vput s.trig u (a.trigTrack u).abandon }
  else a.trigSee u (a.poolStamp src r.edge) r.tq r.tsc (vat r.words src)

/-- The analog units of the bays that `has` names at the words of a window, and the pattern units once the words of every bay are
there (R280 to R282). -/
def App.trigWords (a : App) (r : PoolRow) (has : Nat → Bool) (whole : Bool) : App :=
  (upto 32).foldl (fun a u =>
    if !a.on (Reg.CAP_TRG_CFG_en u) then a
    else if a.get (Reg.CAP_TRG_CFG_type u) = 4 then (if whole then a.trigPattern r u else a)
    else if a.on (Reg.CAP_TRG_CFG_dig u) || !has (a.get (Reg.CAP_TRG_CFG_src u) / 8) then a
    else a.trigAnalog r u) a

/-! ### The fast detector (R188, R189) -/

/-- One comparison of the disturbance function on channel `ch`: a word with the word M places earlier (R189). -/
def App.deltaHit (a : App) (b ch : Nat) (x y : W32) : Bool :=
  wordQual x != 2 && wordQual y != 2 &&
    decide ((if ch < 4 then a.get (Reg.SLU_FDDI_delta_i b) else a.get (Reg.SLU_FDDV_delta_v b)) ≤ (wordValue x - wordValue y).natAbs)

/-- The words M places before those of a window, M being the Pool rate over the nominal frequency, rounded (R189). -/
def App.cycleBack (a : App) (b : Nat) (r : PoolRow) : Option PoolRow :=
  let f := if a.on (Reg.ANG_CFG_fnom b) then 60 else 50
  (a.sig.rows.dropWhile (fun x => x.per != r.per))[(2 * a.poolRate + f) / (2 * f)]?

/-- The runs of a bay over one more word of each channel, and the words that complete them (R188 to R190). -/
def App.fastTake (a : App) (r : PoolRow) (b : Nat) : App :=
  let w := fun c => vat r.words (8 * b + c)
  let old := fun c => match a.cycleBack b r with
    | some o => vat o.words (8 * b + c)
    | none => 2#32
  let above := fun c => decide (a.get (Reg.SLU_FDTHR_thr b c) ≤ (wordValue (w c)).natAbs)
  let hit := (upto 8).any (fun c => a.deltaHit b c (w c) (old c))
  let valid := (upto 8).all (fun c => wordQual (w c) != 2 && wordQual (old c) != 2)
  let n := a.get (Reg.SLU_FDCTL_n_conf b)
  let dd := a.get (Reg.SLU_FDCTL_dd b)
  let by_ := fun c => ({ w := w c, edge := r.edge, tq := r.tq, tsc := r.tsc, aq := a.aq b } : FastWord)
  a.onSig fun s => { s with fast := vup s.fast b (fun x =>
    let distUp := if hit then x.distUp + 1 else 0
    let distDown := if hit then 0 else if valid then x.distDown + 1 else x.distDown
    { up := Vector.ofFn fun c : Fin 4 => if above c.val then vat x.up c.val + 1 else 0
      down := Vector.ofFn fun c : Fin 4 => if above c.val then 0 else vat x.down c.val + 1
      distUp := distUp, distDown := distDown
      upBy := Vector.ofFn fun c : Fin 4 => if above c.val && decide (vat x.up c.val < n) then by_ c.val else vat x.upBy c.val
      downBy := Vector.ofFn fun c : Fin 4 => if !above c.val && decide (vat x.down c.val < dd) then by_ c.val else vat x.downBy c.val
      distUpBy := if hit && decide (x.distUp < n) then by_ 0 else x.distUpBy
      distDownBy := if !hit && valid && decide (x.distDown < dd) then by_ 0 else x.distDownBy }) }

/-! ### Pool words (R153 to R161, R208) -/

/-- A channel's path over one CIC word, with its integrator and its averager (R154 to R158, R161); the value of a disabled channel is
0 (R137). -/
def PoolSig.take (int settling intF : Bool) (leak : Nat) (first : Bool) (x : Int) (beyond off : Bool) (q : Nat) (p : PoolSig) : PoolSig :=
  let y := if int then integStep (if settling then 12 else 16 + leak) (integGain intF) p.y x p.x else p.y
  let v := if off then 0 else if int then integOut y else x
  let q := if int && settling then worseQual q 1 else q
  let full := v == -536870912 || v == 536870848
  { x := x, y := y, bad := q == 2, acc := (if first then 0 else p.acc) + v, ovr := (!first && p.ovr) || beyond
    full := (!first && p.full) || full, qual := if first then q else worseQual p.qual q
    out := { v := v, ovr := beyond, full := full, qual := q } }

/-- The same with the settings of channel `i` at CIC sample `k`. -/
def App.chanStep (a : App) (i k : Nat) (settling : Bool) (x : Int) (beyond off : Bool) (q : Nat) (p : PoolSig) : PoolSig :=
  p.take (bitOf (a.get (Reg.DEC_CFG_int_en (i / 8))) (i % 8)) settling (a.on (Reg.DEC_CFG_int_f (i / 8))) (a.get (Reg.DEC_CFG_leak (i / 8)))
    (decide (k % a.navg = 0)) x beyond off q

/-- A channel takes the CIC word `x` of CIC sample `k`, already calibrated or substituted, with quality `q`: it passes the integrator
where one is set, which restarts after invalid samples, and enters the averager window in progress (R154 to R158, R161). -/
def App.chanTake (a : App) (i k : Nat) (x : Int) (beyond off : Bool) (q : Nat) : App :=
  let a := if (vat a.sig.chans i).bad && q != 2 then a.intRestart (i / 8) (i % 8) else a
  a.onSig fun z => { z with chans := vup z.chans i (a.chanStep i k (bitOf (a.get Reg.DEC_SETTLE_int_settle) i) x beyond off q) }

/-- The calibrated CIC word of a channel's own converter with OVR, whether the channel is off, and its quality. OVR is not set on the words of a disabled channel, of which the spec does not
speak there (R134; DESIGN CHOICE, log entry 190). -/
def App.ownIn (a : App) (raw : Nat → Int) (i : Nat) : Int × Bool × Bool × Nat :=
  let b := i / 8
  let c := i % 8
  let s := 9 * b + a.sliceOf b c
  let span := 63 * a.poolK b + 1
  let on := a.chanOn b c
  (if on then a.calPool b s (raw s) else 0, on && a.overIn s span, !on, a.anaQualIn b c (span * tS / 14745600 + 1))

/-- A channel takes a CIC sample of its own converter. -/
def App.ownTake (a : App) (raw : Nat → Int) (k i : Nat) : App :=
  let w := a.ownIn raw i
  a.chanTake i k w.1 w.2.1 w.2.2.1 w.2.2.2

/-- The own path of a channel of a substituted bay goes on beside the substitution, with its own restarts (R156, R208, R537). -/
def App.ownBeside (a : App) (raw : Nat → Int) (k i : Nat) : App :=
  let w := a.ownIn raw i
  let again := (vat a.sig.own i).bad && w.2.2.2 != 2
  let a := if again then a.onSig fun s => { s with own := vup s.own i (fun p => { p with y := 0 }), ownAt := vput s.ownAt i (some a.tick) } else a
  a.onSig fun s => { s with own := vup s.own i (a.chanStep i k (a.within (vat s.ownAt i) (tS / 5)) w.1 w.2.1 w.2.2.1 w.2.2.2) }

/-- The own path of a bay that is not substituted is the one that it works on. -/
def App.keepOwn (a : App) (b : Nat) : App :=
  a.onSig fun s => { s with own := Vector.ofFn fun i : Fin 32 => if i.val / 8 = b then vat s.chans i.val else vat s.own i.val }

/-- The CIC words of a bay's own converters enter the history from which its stream is published (R537). -/
def App.pubTake (a : App) (b : Nat) : App :=
  let r : CicRow := { per := a.sig.periods, ch := Vector.ofFn fun c : Fin 8 => (vat a.sig.own (8 * b + c.val)).out }
  a.onSig fun s => { s with pubHist := vup s.pubHist b (fun l => (r :: l).take 512) }

/-- A channel takes the substituted sample of CIC period `p` (R208). -/
def App.subTake1 (a : App) (k p i : Nat) : App :=
  let r := a.subSample (i / 8) (i % 8) p
  a.chanTake i k r.1 false false r.2

/-- The Pool word that a channel's window gives (R158, R161). -/
def App.poolWord (a : App) (i : Nat) : W32 :=
  let p := vat a.sig.chans i
  let shift := a.get Reg.DEC_AVG_shift
  let v := (p.acc * a.get Reg.DEC_AVG_trim + 2 ^ (21 + shift)) / 2 ^ (22 + shift)
  let b := BitVec.ofInt 24 (satSigned 24 v)
  let int := bitOf (a.get (Reg.DEC_CFG_int_en (i / 8))) (i % 8)
  sampleWord b p.ovr (atFullScale b || (int && p.full)) (vat (vat a.ana.bays (i / 8)).fltPool (i % 8)) (a.on (Reg.SLU_BAY_sub_active (i / 8))) false p.qual

/-- The word of a substituted channel until its samples have been taken. -/
def subBlank : W32 := sampleWord 0 false false false true false 2

/-- Whether a bay takes the samples of a stream. -/
def App.isSub (a : App) (b : Nat) : Bool := a.on (Reg.SLU_BAY_sub_active b)

/-- The words of window `w`, whose newest edge is `e`: those of a substituted bay follow once its samples have been taken (R160, R210). -/
def App.poolRow (a : App) (e w : Nat) : PoolRow :=
  { no := w, navg := a.navg, per := a.sig.periods, gen := a.ana.decGen, cap := a.on Reg.CAP_CTL_en, edge := a.edge16 e, tq := a.tqc, tsc := a.tsc
    words := Vector.ofFn fun i : Fin 32 => if a.isSub (i.val / 8) then subBlank else a.poolWord i.val }

/-- A window's words enter the staging region, as many kept as it holds frames (R27, R271). -/
def App.rowPut (a : App) (r : PoolRow) : App :=
  let a := (upto 4).foldl (fun a b => if a.isSub b then a else a.onBay b fun x => { x with fltPool := Vector.replicate 8 false }) a
  let a := (a.onSig fun s => { s with rows := (r :: s.rows).take 1290555 }).setB Reg.CAP_STAT_running r.cap
  (a.access .decimation .sharedSram 128).access .fast .sharedSram 128

/-- The fast detectors and the trigger units take a window's words, but for those of substituted bays (R188, R280). -/
def App.rowTake (a : App) (r : PoolRow) : App :=
  let own := (upto 4).filter (fun b => !a.isSub b)
  (own.foldl (fun a b => a.fastTake r b) a).trigWords r (fun b => own.contains b) (decide (own.length = 4))

/-- The words of window `w` are produced together (R160). -/
def App.poolWords (a : App) (e w : Nat) : App := (a.rowPut (a.poolRow e w)).rowTake (a.poolRow e w)

/-- The words of a substituted bay in the window that ended with CIC period `p`, which has been produced before. -/
def App.subWords (a : App) (b p : Nat) : App :=
  match a.sig.rows.find? (fun r => r.per == p) with
  | none => a
  | some r0 =>
    let fill := fun (x : PoolRow) => { x with words := Vector.ofFn fun i : Fin 32 => if i.val / 8 = b then a.poolWord i.val else vat x.words i.val }
    let r := fill r0
    let a := a.onSig fun s => { s with rows := s.rows.map (fun x => if x.per = p then fill x else x) }
    let whole := (upto 4).all (fun d => d == b || !a.isSub d || decide (p < (vat a.slu.sub d).next))
    (a.fastTake r b).trigWords r (fun d => d == b) whole

/-- The CIC words of a bay in period `p` enter its history, and the resampler works on them (R166). -/
def App.histTake (a : App) (b p : Nat) : App :=
  let r : CicRow := { per := p, ch := Vector.ofFn fun c : Fin 8 => (vat a.sig.chans (8 * b + c.val)).out }
  (a.onSig fun s => { s with hist := vup s.hist b (fun l => (r :: l).take 512) }).resample b

/-- A bay takes the substituted samples of CIC period `p`; `back` periods have passed since. -/
def App.subBay (a : App) (b k p : Nat) : App :=
  let a := (upto 8).foldl (fun a c => a.subTake1 k p (8 * b + c)) a
  let a := a.onSlu fun x => { x with sub := vup x.sub b (fun z => { z with next := p + 1 }) }
  let a := a.histTake b p
  if (k + 1) % a.navg = 0 then a.subWords b p else a

/-- A substituted bay takes the samples up to CIC period `last`; `k` is the number in its second of the sample of the present
period. -/
def App.subCatch (a : App) (b k last : Nat) : App :=
  let p0 := (vat a.slu.sub b).next
  (upto (last + 1 - p0)).foldl (fun a i => a.subBay b (k + 230400 - (a.sig.periods - (p0 + i)) % 230400) (p0 + i)) a

/-- The windows of a hand-over take the words of the old slice and of the Float slice (R125, R130). -/
def App.handTake (a : App) (raw : Nat → Int) (b : Nat) : App :=
  let c := a.get (Reg.ANA_FSTAT_next_ch b)
  let sa := 9 * b + a.sliceOf b c
  let sf := 9 * b + a.floatOf b
  let ya := a.calPool b sa (raw sa)
  let yf := a.calPool b sf (raw sf)
  let span := 63 * a.poolK b + 1
  let full := fun (v : Int) => v == -536870912 || v == 536870848
  let spoiled := a.overIn sa span || a.overIn sf span || full ya || full yf
  let put := fun (t n : Nat) => a.onSig fun s => { s with hand := vup s.hand b (fun h =>
    let h := if h.at_ = t then h else { at_ := t }
    if h.pairs.length < n then { h with pairs := (ya, yf) :: h.pairs, spoiled := h.spoiled || spoiled } else h) }
  match (vat a.ana.bays b).hand with
  | .compare t => if t ≤ a.sig.periods then put t 2048 else a
  | .verify t => if t ≤ a.sig.periods then put t 512 else a
  | _ => a

/-- A bay at CIC sample `k`: its own samples, or those of its stream that are due by now (R166, R208). -/
def App.bayTake (a : App) (raw : Nat → Int) (k b : Nat) : App :=
  if a.isSub b then (((upto 8).foldl (fun a c => a.ownBeside raw k (8 * b + c)) a).pubTake b).subCatch b k (a.sig.periods - a.subLag b)
  else ((((upto 8).foldl (fun a c => a.ownTake raw k (8 * b + c)) a).keepOwn b).pubTake b).histTake b a.sig.periods

/-- The outputs of the Pool filters of all slices, with what the filters hold from then on (R150). -/
def App.cicOuts (a : App) : Vector (Int × Cic 32) 36 := Vector.ofFn fun i : Fin 36 => (vat a.sig.slices i.val).pool.dump (a.poolK (i.val / 9))

/-- The filters give their outputs. -/
def App.cicDump (a : App) : App :=
  let outs := a.cicOuts
  a.onSig fun s => { s with slices := Vector.ofFn fun i : Fin 36 => { vat s.slices i.val with pool := (vat outs i.val).2 } }

/-- The hand-overs and the bays take the outputs `raw` of CIC sample `k`. -/
def App.cicBays (a : App) (raw : Nat → Int) (k : Nat) : App :=
  (upto 4).foldl (fun a b => a.bayTake raw k b) ((upto 4).foldl (fun a b => a.handTake raw b) a)

/-- CIC sample `k` of every slice, whose newest bit is that of edge `e` (R152). -/
def App.cicSample (a : App) (e k : Nat) : App :=
  let outs := a.cicOuts
  let a := a.cicDump.cicBays (fun s => (vat outs s).1) k
  if (k + 1) % a.navg = 0 then a.poolWords e (k / a.navg) else a

/-! ### Substitution (R208 to R210) -/

/-- The number in its second of the CIC sample of the present period. -/
def App.cicNow (a : App) : Nat := (a.tim.wall.modNs a.tim.modErr * 230400 / 1000000000 % 230400).toNat

/-- A change of substitution at the start of a bay's tick: the first full cycle of resampled samples is invalid (R210). The samples of
a stream that is left are taken up to the change. -/
def App.setSub (a : App) (b : Nat) (on : Bool) : App :=
  let a := if a.isSub b then a.subCatch b a.cicNow (a.sig.periods - 1) else a
  (a.setB (Reg.SLU_BAY_sub_active b) on).onSlu fun x =>
    { x with sub := vup x.sub b (fun z =>
        { z with pending := none, badFrom := some (8 * (vat a.clk b).tickNo % 2 ^ 40), lastAt := a.tick, next := a.nextCic }) }

/-- SUBSTITUTION_CHANGE (R210): a pending change applies at the start of the bay's next tick, a return to the bay's own converters
with sv_lost where the stream was lost. -/
def execSubstitutionChange (bay : Fin 4) (s : State) : Outcome State Fault Refusal :=
  s.onApp fun a =>
    match (vat a.slu.sub bay).pending with
    | some (on, lost, n) =>
      if n < (vat a.clk bay).tickNo then (if lost then (a.setSub bay on).setB (Reg.SLU_BAY_sv_lost bay) true else a.setSub bay on) else a
    | none => a

/-- Whether no frame of a bay's stream has arrived for sv_wait since substitution began (R210). -/
def App.svSilent (a : App) (b : Nat) : Bool :=
  a.since (max (vat a.slu.sub b).lastAt (vat a.eth.sv (a.get (Reg.SLU_BAY_sub_stream b))).at_) (a.get (Reg.SLU_SVCFG_sv_wait b) * 250 * tUs)

/-- SV_FALLBACK (R210): no frame of the stream for sv_wait. With sub_fallback the bay is to return to its own converters at its next
tick; without, it stays on the stream, whose missing samples are invalid. -/
def execSvFallback (bay : Fin 4) (s : State) : Outcome State Fault Refusal :=
  s.onApp fun a =>
    if a.isSub bay && a.svSilent bay && a.on (Reg.SLU_BAY_sub_fallback bay) && (vat a.slu.sub bay).pending.isNone then a.askSub bay false true else a

end Sys2Proof.Machine
end

