-- ==== Sys2Proof/Machine/Travel.lean ====
section
/-! DEFINITION. Travelling-wave fault location: the wavefront detectors, arrivals, records and double-ended location
(R294 to R308). -/

namespace Sys2Proof.Machine

open Host

/-- A change to the travelling-wave part, and to a bay of it. -/
def App.onTw (a : App) (f : TwSt → TwSt) : App := { a with tw := f a.tw }
def App.onTwBay (a : App) (b : Nat) (f : TwBay → TwBay) : App := a.onTw fun t => { t with bays := vup t.bays b f }

/-- The modal quantities of the three source words (R297). -/
def mAlpha (x : JetTriple) : Int := 2 * jetValue (vat x 0) - jetValue (vat x 1) - jetValue (vat x 2)
def mBeta (x : JetTriple) : Int := divRound ((jetValue (vat x 1) - jetValue (vat x 2)) * 28378) 16384

/-- A span of `n` Jet frames in ns, rounded up (R294). -/
def jetNs (n : Nat) : Nat := (n * 1000000000 + 1843199) / 1843200

/-- The line fit of R299 over points (stamp in 1/16 ns, 64 × (M − b)): where it meets the baseline; none where it is parallel to the
baseline. -/
def fitZero (l : List (Int × Int)) : Option Int :=
  let n : Int := l.length
  let sx := l.foldl (fun s p => s + p.1) 0
  let sy := l.foldl (fun s p => s + p.2) 0
  let sxy := l.foldl (fun s p => s + p.1 * p.2) 0
  let sxx := l.foldl (fun s p => s + p.1 * p.1) 0
  let num := n * sxy - sx * sy
  let den := n * sxx - sx * sx
  if num = 0 ∨ n = 0 then none
  else
    let p := sx * num - sy * den
    let q := n * num
    some (if 0 ≤ q then divRound p q.toNat else divRound (-p) (-q).toNat)

/-- The fit set of R299 among the frames [n_p − 8, n_p + 8), with values 64 × (M − b) and the peak on the same scale. -/
def fitSet (y : List (Int × Int)) (p : Int) : List (Int × Int) :=
  let band := y.filter (fun e => decide (p.natAbs ≤ 10 * e.2.natAbs) && decide (10 * e.2.natAbs ≤ 9 * p.natAbs))
  if 2 ≤ band.length then band
  else
    match y.findIdx? (fun e => decide (p.natAbs ≤ 2 * e.2.natAbs)) with
    | some i => ((y.take i).reverse.take 1) ++ (y.drop i).take 1
    | none => band

/-- The modal values over a run of frames. -/
def modal (used : Nat) (l : List JetTriple) : List Int := l.map (if used = 0 then mAlpha else mBeta)

/-- Whether a pickup is ignored: within 64 frames of a DEC_ or range change of a source channel, or with the clock Off
(R298). -/
def App.twIgnored (a : App) (b : Nat) : Bool :=
  let x := vat a.ana.bays b
  let recent := fun (t : Option Nat) => match t with
    | some t => !a.since t (jetNs 64 / 4 + 1)
    | none => false
  let src := if a.on (Reg.CAP_TWCFG_src b) then 4 else 0
  recent x.decAt || (upto 3).any (fun c => recent (vat x.rangeAt (src + c))) || (vat a.clk b).st == .off

/-- Room for a new record: below 3,072 with those still to be cut, or a record that host software has read for each more (R302). -/
def App.twRoom (a : App) : Bool := decide (a.tw.recs.length + a.tw.cuts.length < 3072 + (a.tw.recs.filter (·.read)).length)

/-- A record is asked for: its number, or 0xFFFFFFFF where none is cut (R302). -/
def App.twAsk (a : App) (c : TwCut) : App × Nat :=
  if a.twRoom then
    let n := a.tw.seq
    (a.onTw fun t => { t with seq := t.seq + 1, cuts := t.cuts ++ [{ c with seq := n.toNat }] }, n.toNat)
  else (a.satAdd Reg.CAP_TWCTL_rec_lost 1, 0xFFFFFFFF)

/-- The frame of a Jet count, while the ring holds it (R294, R296). -/
def App.frameAt (a : App) (n : Nat) : Option JetFrame := if n < a.sig.jetCount then a.sig.ring[a.sig.jetCount - 1 - n]? else none

/-- The words of a bay's source channels in the frames from count `n0` on; a slot that holds no frame reads as wiped (R297). -/
def App.triples (a : App) (b : Nat) (n0 : Int) (len : Nat) : List JetTriple :=
  let src := if a.on (Reg.CAP_TWCFG_src b) then 4 else 0
  (upto len).map fun i =>
    match (if 0 ≤ n0 + i then a.frameAt (n0 + i).toNat else none) with
    | some f => Vector.ofFn fun c : Fin 3 => vat f.words (8 * b + src + c.val)
    | none => Vector.replicate 3 0

/-- The quantity that a detector uses at the last of a run of frames, and |Δ| there (R297, R298). -/
def App.twDelta (a : App) (b : Nat) (l : List JetTriple) : Nat × Nat :=
  let at_ := fun (used i : Nat) => (modal used (l.drop i)).headD 0
  let delta := fun used => (at_ used (l.length - 1) - at_ used (l.length - 3)).natAbs
  let mode := a.get (Reg.CAP_TWCFG_mode b)
  let used := if mode = 2 then (if delta 0 < delta 1 then 1 else 0) else mode
  (used, delta used)

/-- The detector of a bay at a new Jet frame: the first frame at or above the threshold outside the dead time is a pickup (R298). -/
def App.twSee (a : App) (b : Nat) : App :=
  match a.sig.ring with
  | _ :: _ =>
    let n := a.sig.jetCount - 1
    let dead : Bool := match (vat a.sig.tw b).lastPick with
      | some m => decide ((n - m) * 5 < a.get (Reg.CAP_TWCFG_tw_dead b) * 9216)
      | none => false
    if a.on (Reg.CAP_TWCFG_en b) && 2 ≤ n && a.get (Reg.CAP_TWTHR_tw_thr b) ≤ (a.twDelta b (a.triples b (n - 2 : Nat) 3)).2 && !dead && !a.twIgnored b then
      a.onSig fun s => { s with tw := vup s.tw b (fun x => { lastPick := some n, picks := x.picks ++ [n] }) }
    else a
  | [] => a

/-- The detectors of the four bays at a new Jet frame. -/
def App.twTrack (a : App) : App := (upto 4).foldl App.twSee a

/-- The stamps of the frames [n_p − 8, n_p + 8) relative to that of frame n_p, in 1/16 ns: across a step, on the scale of n_p, by the
nominal spacing (R165, R299). -/
def App.twTimes (a : App) (np : Nat) (f : JetFrame) : List Int :=
  (upto 16).map fun i =>
    match a.frameAt (np + i - 8) with
    | some g => if g.tsc = f.tsc then (g.edge : Int) - f.edge else divRound (((i : Int) - 8) * 16000000000) 1843200
    | none => divRound (((i : Int) - 8) * 16000000000) 1843200

/-- The state of a bay's clock at an instant in ns of step count `tsc` (R80, R303): as it stood at the latest Jet frame up to it. -/
def App.aqAt (a : App) (b t : Nat) (f : JetFrame) : Nat :=
  vat ((a.sig.ring.find? (fun g => g.tsc == f.tsc && decide (g.edge ≤ 16 * t))).getD f).aq b

/-- The detection of a pickup at frame `np`, which is `f` (R298, R299), with tq and tsc of its newest edge (R165). -/
def App.twDetect (a : App) (bay : Nat) (np : Nat) (f : JetFrame) : App :=
  let edge := f.edge
  let frames := a.triples bay ((np : Int) - 72) 80
  let used := (a.twDelta bay (frames.take 73)).1
  let e := edge / 16
  let m := modal used frames
  let base := (m.take 64).foldl (· + ·) 0
  let y := (a.twTimes np f).zip ((m.drop 64).map (fun v => 64 * v - base))
  let peak := (y.drop 8).foldl (fun (q : Int) (p : Int × Int) => if q.natAbs < p.2.natAbs then p.2 else q) 0
  let src := if a.on (Reg.CAP_TWCFG_src bay) then 4 else 0
  let dj := (upto 8).map (fun c => a.get (Reg.DEC_JDLY_dj bay c))
  let mean := ((upto 3).foldl (fun t c => t + dj.getD (src + c) 0) 0 + 1) / 3
  let ofs := asSigned 16 (a.get (Reg.CAP_TWOFS_tw_ofs bay))
  let (x, a) := match fitZero (fitSet y peak) with
    | some x => (x, a)
    | none => let (i, a) := a.fresh; ((Config.flatArrival i).toInt * 16, a)
  let arr16 : Int := (edge : Int) - mean + x + 16 * ofs
  let arr := (divRound arr16 16).toNat
  let a := (a.access .wavefront .dram (64 * 80)).satAdd (Reg.CAP_TWSTAT_detections bay) 1
  let det : TwDet := { edge := e, arrival := arr, arrivalA := a.a48At bay arr, tq := f.tq, tsc := f.tsc, aq := a.aqAt bay arr f, peak := divRound peak 64
                       used := used, src := src / 4, ovr := (frames.drop 64).any (fun f => (upto 3).any (fun c => bitOf (vat f c).toNat 1)), dj := dj, ofs := ofs, recSeq := 0 }
  let (a, n) := a.twAsk { bay := bay, seq := 0, np := some np, edge := e, det := some det }
  a.onTwBay bay fun t => { t with dets := t.dets ++ [{ det with recSeq := n }] }

/-- WAVEFRONT_PICKUP (R298, R299): the earliest pickup of a bay whose eight frames for the peak are in the ring. -/
def execWavefrontPickup (bay : Fin 4) (s : State) : Outcome State Fault Refusal :=
  s.onApp fun a =>
    match (vat a.sig.tw bay).picks with
    | np :: rest =>
      if np + 8 ≤ a.sig.jetCount then
        let a := a.onSig fun s => { s with tw := vup s.tw bay (fun x => { x with picks := rest }) }
        match a.frameAt np with
        | some f => a.twDetect bay np f
        | none => a
      else a
    | [] => a

/-! ### Location (R305 to R308) -/

/-- A location event of class 5 (R308). -/
def App.locate (a : App) (b status : Nat) (endZone : Bool) (l : LocalArr) (remote : Option Remote) (dist : Nat) : App :=
  let n := a.tw.locSeq + 1
  let a := a.onTw fun t => { t with locSeq := n }
  let a := if status = 2 then a else a.satAdd (Reg.CAP_TWSTAT_located b) 1
  let (tr, qr) := match remote with
    | some r => (if status = 2 then 0 else r.t, r.tq)
    | none => (0, 0)
  a.post 5 (le 1 b ++ le 1 status ++ le 1 endZone.toNat ++ le 1 (l.tq + 16 * qr) ++ le 8 l.t ++ le 8 tr ++ le 4 dist ++ le 4 l.recSeq ++ le 4 n.toNat)

/-- The kept remote arrival of a bay nearest to a local one, within L / v + 10 µs (R307). -/
def App.fitRemote (a : App) (b : Nat) (l : LocalArr) : Option Remote :=
  let limit := a.get (Reg.CAP_TWLEN_length b) * 100000000 / a.get (Reg.CAP_TWVEL_velocity b) + 10000
  (vat a.tw.bays b).remotes.foldl (fun best r =>
    let d := ((l.t : Int) - r.t).natAbs
    if limit < d || a.since r.at_ (200 * tMs) then best
    else
      match best with
      | some o => if d < ((l.t : Int) - o.t).natAbs then some r else best
      | none => some r) none

/-- Pair a local arrival with a remote one: distance in 0.1 m, limited to the cable, and its event (R307, R308). -/
def App.pair (a : App) (b : Nat) (l : LocalArr) (r : Remote) : App :=
  let a := a.onTwBay b fun t => { t with remotes := t.remotes.erase r, locals := t.locals.erase l }
  let len : Int := a.get (Reg.CAP_TWLEN_length b)
  let x := divRound (len * 100000000 + (a.get (Reg.CAP_TWVEL_velocity b) : Int) * ((l.t : Int) - r.t)) 200000000
  let endZone := decide (x < 0) || decide (len < x)
  if l.tq = 0 ∧ r.tq = 0 then a.locate b 0 endZone l (some r) (max 0 (min len x)).toNat
  else if l.tq ≤ 2 ∧ r.tq ≤ 2 then a.locate b 1 endZone l (some r) (max 0 (min len x)).toNat
  else a.locate b 2 false l (some r) 0xFFFFFFFF

/-- Pair the local arrivals of a bay that a kept remote arrival fits. -/
def App.pairAll (a : App) (b : Nat) : App :=
  (vat a.tw.bays b).locals.foldl (fun a l => match a.fitRemote b l with
    | some r => a.pair b l r
    | none => a) a

/-- The arrival message of a qualified detection, sent three times (R305). -/
def App.arrivalSend (a : App) (b : Nat) (d : TwDet) : App :=
  let a := a.onTwBay b fun t => { t with sent := t.sent + 1 }
  let bays := b + 4 * a.get (Reg.CAP_TWPEER_peer_bay b) + (if d.peak < 0 then 16 else 0)
  let m := withCrc (le 1 4 ++ le 1 1 ++ le 2 a.msgNode ++ le 2 (a.get (Reg.CAP_TWPEER_peer_node b)) ++ le 1 bays ++ le 1 d.tq
    ++ le 4 (vat a.tw.bays b).sent.toNat ++ le 8 d.arrival ++ le 4 a.holdElapsed ++ le 4 0)
  let p := a.get Reg.CAP_TWCTL_port
  if a.pubPermit && a.node != 0 then (a.volith 2 p m).onCap fun c => { c with repeats := c.repeats ++ [⟨2, p, m, a.tick, 1⟩] } else a

/-- The class-4 event of a detection (R480). -/
def App.postDetection (a : App) (b : Nat) (d : TwDet) (qualified own : Bool) : App :=
  a.post 4 (le 1 b ++ le 1 (qualified.toNat + 2 * own.toNat + (if d.peak < 0 then 4 else 0)) ++ le 1 d.tq ++ le 1 d.tsc ++ le 8 d.arrival
    ++ le 6 d.arrivalA ++ le 1 d.aq ++ le 1 0 ++ le 4 (toBits 32 d.peak) ++ le 4 d.recSeq ++ le 4 0)

/-- QUALIFICATION (R300): decided at t_arr + confirm, or as soon as the disturbance function picks up. -/
def execQualification (bay : Fin 4) (s : State) : Outcome State Fault Refusal :=
  s.onApp fun a =>
    match (vat a.tw.bays bay).dets with
    | [] => a
    | d :: rest =>
      let stop := d.arrival + a.get (Reg.CAP_TWCFG_confirm bay) * 1000000
      let seen : Bool := match (vat a.slu.fast bay).distAt with
        | some t => decide (d.arrival ≤ t) && decide (t < stop)
        | none => false
      if seen || stop ≤ a.now then
        let wait := a.get (Reg.TRP_BKTIM_op_timeout bay) * 1000000
        let own := (vat a.trp.execs bay).any (fun e => decide (e ≤ d.arrival + 1000000) && decide (d.arrival < e + wait))
        let ok := seen && !own
        let a := a.onTwBay bay fun t => { t with dets := rest }
        let a := a.onTw fun t => { t with cuts := t.cuts.map (fun (c : TwCut) => if c.seq == d.recSeq then { c with qualified := ok, own := own } else c) }
        let a := a.postDetection bay d ok own
        if ok && a.on (Reg.CAP_TWCFG_peer_en bay) then
          ((a.arrivalSend bay d).onTwBay bay fun t => { t with locals := t.locals ++ [⟨d.arrival, d.tq, d.recSeq⟩] }).pairAll bay
        else a
      else a

/-- ARRIVAL_MESSAGE_RX (R306); node 0 takes no part in peer protection (R2). The far end of a pair names its lower node
number (R580; DEDUCED, log 197). -/
def execArrivalMessageRx (data : List Byte) (s : State) : Outcome State Fault Refusal :=
  s.onApp fun a =>
    let b := numAt data 6 1 / 4 % 4
    let from_ := numAt data 6 1 % 4
    let node := numAt data 2 2
    let seq := BitVec.ofNat 32 (numAt data 8 4)
    let key := 4 * node + from_
    let later : Bool := match (vat a.tw.bays b).heard.find? (fun e => e.1 == key) with
      | some e => laterSeq seq e.2
      | none => true
    if data.length == 32 && numAt data 28 4 == crc32c (data.take 28) && numAt data 0 1 == 4 && numAt data 1 1 == 1 && a.node != 0 && numAt data 4 2 == a.msgNode
        && node == a.get (Reg.CAP_TWPEER_peer_node b) && from_ == a.get (Reg.CAP_TWPEER_peer_bay b) && later then
      let r : Remote := ⟨numAt data 12 8, numAt data 7 1 % 16, a.tick⟩
      (a.onTwBay b fun t => { t with heard := heardPut t.heard key seq
                                     remotes := (t.remotes.filter (fun x => !a.since x.at_ (200 * tMs))) ++ [r] }).pairAll b
    else a.satAdd (Reg.CAP_TWSTAT_discarded b) 1

/-- ARRIVAL_MESSAGE_REPEAT (R305). -/
def execArrivalMessageRepeat (s : State) : Outcome State Fault Refusal := s.onApp fun a => a.repeatDue 2

/-- REM_WAIT_EXPIRY (R307): no remote arrival fits by t_L + rem_wait. -/
def execRemWaitExpiry (bay : Fin 4) (s : State) : Outcome State Fault Refusal :=
  s.onApp fun a =>
    match (vat a.tw.bays bay).locals with
    | [] => a
    | l :: rest =>
      if l.t + a.get Reg.CAP_TWCTL_rem_wait * 1000000 ≤ a.now then
        (a.onTwBay bay fun t => { t with locals := rest }).locate bay 2 false l none 0xFFFFFFFF
      else a

/-! ### Records (R301 to R304) -/

/-- The 128-byte header of a record without its CRC (R303). -/
def App.twHeader (a : App) (c : TwCut) (n0 edge0 period dmg : Nat) (settings step : Bool) : List Byte :=
  let d := c.det.getD default
  let man := c.det.isNone
  let flags := c.qualified.toNat + 2 * c.own.toNat + 4 * d.ovr.toNat + 8 * settings.toNat + 16 * step.toNat + 32 * man.toNat
    + (if d.peak < 0 then 64 else 0)
  let np := (a.frameAt (n0 + 472)).getD default
  let tq := if man then np.tq else d.tq
  let tsc := if man then np.tsc else d.tsc
  let aq := if man then 0 else d.aq
  let src := if man then a.get (Reg.CAP_TWCFG_src c.bay) else d.src
  let dj := if man then (upto 8).map (fun i => a.get (Reg.DEC_JDLY_dj c.bay i)) else d.dj
  le 1 2 ++ le 1 c.bay ++ le 2 flags ++ le 4 c.seq ++ le 8 n0 ++ le 8 edge0 ++ le 8 period ++ le 8 d.arrival ++ le 1 tq ++ le 1 tsc ++ le 1 aq
    ++ le 1 (d.used + 2 * src) ++ le 2 dmg ++ le 2 4160 ++ le 4 (toBits 32 d.peak) ++ le 4 (toBits 32 d.ofs)
    ++ dj.flatMap (le 4) ++ le 6 d.arrivalA ++ le 30 0

/-- A record enters the store: where it is full, it takes the place of the oldest one that was read (R302). -/
def putTwRec (l : List TwRec) (r : TwRec) : List TwRec :=
  if l.length < 3072 then l ++ [r]
  else
    match l.findIdx? (·.read) with
    | some i => l.eraseIdx i ++ [r]
    | none => l

/-- The anchors that bracket a frame with equal tsc, the earlier first: latest first in the list (R295). -/
def bracketAnchors (n : Nat) : List JetAnchor → Option (JetAnchor × JetAnchor)
  | y :: x :: l => if x.n ≤ n ∧ n < y.n then (if x.tsc = y.tsc then some (x, y) else none) else bracketAnchors n (x :: l)
  | _ => none

/-- The wall time of the newest edge of a frame in ns, and the spacing of frames there in 2^-32 ns: from the anchors that
bracket it, else from the frame itself (R295, R303). -/
def App.frameTime (a : App) (n : Nat) : Nat × Nat :=
  match bracketAnchors n a.sig.anchors with
  | some (x, y) =>
    let d := y.n - x.n
    (((x.edge * d + (y.edge - x.edge) * (n - x.n)) / d + 8) / 16, (y.edge - x.edge) * 2 ^ 28 / d)
  | none => (((a.frameAt n).map (fun f => (f.edge + 8) / 16)).getD 0, 1000000000 * 2 ^ 32 / 1843200)

/-- The Jet count of the frame whose stamp is nearest to an instant (R301). -/
def App.nearestCount (a : App) (b t : Nat) : Nat :=
  let far := fun (f : JetFrame) => ((a.jetStamp b 0 f : Int) - t).natAbs
  let best := a.sig.ring.zipIdx.foldl (fun (m : Option (Nat × Nat)) (p : JetFrame × Nat) =>
    match m with
    | some (d, i) => if far p.1 < d then some (far p.1, p.2) else some (d, i)
    | none => some (far p.1, p.2)) none
  a.sig.jetCount - 1 - (best.map (·.2)).getD 0

/-- The frames of the window of a record: 4,160 from n_p − 472 on, of eight words each; a slot that holds no frame reads as
wiped (R301, R303). An uncorrectable error is one of the 64 bytes of a frame, whose words then read 0 (R304; that the frame is the
unit is a DESIGN CHOICE, log entry 194). -/
def App.twBody (a : App) (b : Nat) (n0 : Int) : List Byte :=
  (upto 4160).flatMap fun i =>
    match (if 0 ≤ n0 + i ∧ !a.sig.damaged.contains (n0 + i).toNat then a.frameAt (n0 + i).toNat else none) with
    | some f => (upto 8).flatMap (fun c => le 2 (vat f.words (8 * b + c)).toNat)
    | none => List.replicate 16 0

/-- The dmg bits of a window (R303). -/
def App.twDmg (a : App) (n0 : Int) : Nat :=
  bitsNat 16 (fun i => a.sig.damaged.any (fun m => decide (n0 + 260 * i ≤ (m : Int)) && decide ((m : Int) < n0 + 260 * (i + 1))))

/-- Whether the window holds an anchor that a property marks. -/
def App.inTwWindow (a : App) (n0 : Int) (p : JetAnchor → Bool) : Bool :=
  a.sig.anchors.any (fun x => decide (n0 ≤ (x.n : Int)) && decide ((x.n : Int) < n0 + 4160) && p x)

/-- Whether wall time stepped within a window: the anchor of its first frame after the step has another tsc than the one before. -/
def App.steppedIn (a : App) (n0 : Int) : Bool :=
  (a.sig.anchors.zip a.sig.anchors.tail).any
    (fun p => decide (n0 ≤ (p.1.n : Int)) && decide ((p.1.n : Int) < n0 + 4160) && p.1.tsc != p.2.tsc)

/-- A record of a cut whose frame n_p is known (R301, R303). -/
def App.twRecord (a : App) (c : TwCut) (np : Nat) : TwRec :=
  let n0 : Int := (np : Int) - 472
  let (edge0, period) := a.frameTime n0.toNat
  let h := a.twHeader c n0.toNat edge0 period (a.twDmg n0) (a.inTwWindow n0 (·.dec)) (a.steppedIn n0)
  let b := a.twBody c.bay n0
  ⟨c.seq, false, h ++ le 4 (crc32c (h ++ b)) ++ b⟩

/-- TW_RECORD_CUT (R301): the first record asked for of a bay is cut once its window is complete. -/
def execTwRecordCut (bay : Fin 4) (s : State) : Outcome State Fault Refusal :=
  s.onApp fun a =>
    match a.tw.cuts.find? (fun c => c.bay == bay.val) with
    | none => a
    | some c =>
      let np := c.np.getD (a.nearestCount bay c.edge)
      if c.edge ≤ a.now ∧ np + 3688 ≤ a.sig.jetCount then
        let r := a.twRecord c np
        let a := a.onTw fun t => { t with cuts := t.cuts.erase c, recs := putTwRec t.recs r }
        match c.cmd with
        | some hd => a.conclude hd (.cutTwRecord 0 0) (.final Status.ok (le 4 c.seq))
        | none => a
      else a

/-- CUT_TW_RECORD (R301): final when the record is cut. -/
def opCutTwRecord (h : CmdHdr) (bay : Byte) (at_ : W64) (a : App) : App × Reply :=
  match a.twAsk { bay := bay.toNat, seq := 0, np := none, edge := at_.toNat, det := none, cmd := some h } with
  | (a, 0xFFFFFFFF) => (a, .final Status.ok (le 4 0xFFFFFFFF))
  | (a, _) => (a, .later)

/-- CUT_TW_RECORD (R301): refused for an instant more than 18.0 s past or 1 s ahead (R296). -/
def execCutTwRecord (h : CmdHdr) (bay : Byte) (at_ : W64) (s : State) : Outcome State Fault Refusal :=
  s.onApp fun a => a.process h (.cutTwRecord bay at_)
    (firstFail [(0, bay.toNat ≤ 3), (1, a.w64 ≤ at_.toNat + 18000000000 ∧ at_.toNat ≤ a.w64 + 1000000000)]) [] (opCutTwRecord h bay at_)

/-- READ_TW_RECORD (R304): the record, which counts as read from then on. -/
def opReadTwRecord (h : CmdHdr) (out : Out) (seq : W32) (a : App) : App × Reply :=
  match a.tw.recs.find? (fun r => r.seq == seq.toNat) with
  | some r =>
    let (a, rep) := a.outData h out r.data
    (a.onTw fun t => { t with recs := t.recs.map (fun (x : TwRec) => if x.seq == seq.toNat then { x with read := true } else x) }, rep)
  | none => (a, .final Status.notFound [])

/-- READ_TW_RECORD (R304). -/
def execReadTwRecord (h : CmdHdr) (out : Out) (seq : W32) (s : State) : Outcome State Fault Refusal :=
  s.onApp fun a => a.process h (.readTwRecord out seq) (outRange out) [] (opReadTwRecord h out seq)

end Sys2Proof.Machine
end

