-- ==== Sys2Proof/Machine/HostOps.lean ====
section
/-! DEFINITION. The effect of a journalled command, as its entry names it: for replay, for commands that waited for an
acknowledgement, and for entries that came from the Primary (R492, R493, R576). -/

namespace Sys2Proof.Machine

open Host

/-- The effect of a command of class J or X; a class-Q command has no entry (R492). -/
def App.runOp (h : CmdHdr) (op : HostOp) (a : App) : App × Reply :=
  match op with
  | .select obj hold => opSelect h.ctx obj.toNat hold.toNat a
  | .deselect obj => opDeselect h.ctx obj.toNat a
  | .cancel t => opCancel h.ctx t a
  | .forceTime m ns v => opForceTime m ns v a
  | .adjustRate i l => opAdjustRate i l a
  | .stepTime o => opStepTime o a
  | .writeSettings g f c d => opWriteSettings g f c d a
  | .selectGroup b g => opSelectGroup b g a
  | .setCurve b => opSetCurve b a
  | .selfCal => opSelfCal h a
  | .auxStart s l => opAuxStart s l a
  | .breakerClose b m t => opBreaker h false b m t a
  | .breakerOpen b m t => opBreaker h true b m t a
  | .clearTripFault c => opClearTripFault c a
  | .armCapture s r => opArmCapture s r a
  | .fireCapture s => opFireCapture s a
  | .cutTwRecord b t => opCutTwRecord h b t a
  | .loadImage s z p => opLoadImage h (.loadImage s z p) s z a
  | .verifyImage s => opVerifyImage h s a
  | .eraseSlot s => opEraseSlot h s a
  | .startProgram s w => opStartProgram h s w a
  | .stopProgram => opStopProgram a
  | .holdProgram x => opHoldProgram x a
  | .writePoint q p v => opWritePoint q p v a
  | .flagSet t f => opFlagSet t f a
  | .flagCancel t m => opFlagCancel t m a
  | .skimPrepare l m => opSkimPrepare h (.skimPrepare l m) l a
  | .skimSwitch e => opSkimSwitch h e a
  | .skimAbort => opSkimAbort a
  | .skimRollback => opSkimRollback h a
  | .skimConfirm => opSkimConfirm a
  | .forceSet q p v t => opForceSet h.ctx q p v t a
  | .forceClear o p => opForceClear o p a
  | .fieldRearm s => opFieldRearm s a
  | .lifecycleSet t _ => opLifecycleSet h t a
  | .resetModule k => opResetModule k a
  | .loadFirmware s z p => opLoadFirmware h (.loadFirmware s z p) s z a
  | .requestRemoval => opRequestRemoval h a
  | .nop | .moduleStatus | .readTime .. | .readAngle .. | .readSettings .. | .readAux .. | .readTwRecord .. | .readSnapshot ..
  | .cisternRequest .. | .readPoints .. | .readForces .. => (a, .later)

/-- One entry of a replay (R492, R493): class J is executed again, unless it was applied here with the Primary; class X gives
its outcome where it has taken effect, and is EXPIRED otherwise. Counted: replayed and expired. -/
def App.replayOne (x : App × Nat × Nat) (e : JEntry) : App × Nat × Nat :=
  let (a, n, m) := x
  if e.op.cls == .j then
    match e.out with
    | some (st, res) => (a.finish e.hdr e.op.opcode st.toNat 0 res true, n + 1, m)
    | none =>
      match a.runOp e.hdr e.op with
      | (a, .final st res) => (a.finish e.hdr e.op.opcode st 0 res true, n + 1, m)
      | (a, .later) => (a.finish e.hdr e.op.opcode Status.ok 0 [] true, n + 1, m)
  else if e.effect then (a.finish e.hdr e.op.opcode Status.ok 0 [] true, n + 1, m)
  else (a.finish e.hdr e.op.opcode Status.expired 0 [] true, n, m + 1)

/-- Command replay in journal order, the selections of contexts that do not run released, and the class-19 summary (R493,
R495, R502). -/
def App.replay (a : App) : App :=
  let l := a.cmd.journal
  let (a, n, m) := l.foldl App.replayOne (a, 0, 0)
  let a := (upto 9).foldl (fun a i => match vat a.cmd.owners i with
    | some o => if a.ctxLive o.ctx then a else a.release i 3
    | none => a) a
  if l.isEmpty then a else a.postState 19 0 0 0 (n + m * 2 ^ 32)

/-- The commands and deferred actions that waited for an acknowledgement up to a frame take effect (R576). -/
def App.releaseWaits (a : App) (upTo : Nat) : App :=
  let due := fun (w : Option Nat) => match w with
    | some n => decide (n ≤ upTo)
    | none => false
  let l := a.cmd.journal.filter (fun e => due e.wait)
  let a := { a with cmd := { a.cmd with journal := a.cmd.journal.map (fun (e : JEntry) => if due e.wait then { e with wait := none } else e) } }
  let a := a.onCtl fun c => { c with actions := c.actions.map (fun (x : Action × Option Nat) => if due x.2 then (x.1, none) else x) }
  l.foldl (fun a e => let (a, r) := a.runOp e.hdr e.op; a.conclude e.hdr e.op r) a

end Sys2Proof.Machine
end

