-- ==== Sys2Proof/Machine/Boot.lean ====
section
/-! DEFINITION. Resets, the full wipe, the boot and its end, the power-fail sequence, the feeds, and the scrubber
(R30 to R32, R38, R39, R566, R585 to R596, R616 to R619). -/

namespace Sys2Proof.Machine

open Host

/-! ### The full wipe (R589, R590) -/

/-- Whether a full wipe keeps a field: calibration and factory values, the recorder index, and the count of full wipes. -/
def factoryKept (b : Nat) : Bool :=
  let o := b / 8
  let ro : Bool := match fieldOfBit b with
    | some f => f.stored && f.acc == .ro
    | none => false
  ro && !(0x7200 ≤ o && o < 0x7300) && !(0xA000 ≤ o && o < 0xB000) && b != Reg.LCY_STAT_state.bit && b != Reg.LCY_RSTCNT_carrier.bit
    && b != Reg.LCY_RSTCNT_watchdog.bit && b != Reg.LCY_RSTCNT_command.bit

/-- The MRAM part of a full wipe, at the boot that finds the marker: the stores cleared, the slots Empty, the target state
written, the marker removed; the background erase begins (R589, R590). -/
def App.fullWipe (a : App) (target : Nat) : App :=
  let (i, a) := a.fresh
  let ms := min 300 (Config.wipeMs i).toNat
  let a := { a with regs := a.regs.filter (fun c => factoryKept c.1), node := 0, eth := {}, can := {}, cmd := {}, slu := {}
                    ctl := { ({} : CtlSt) with writes := a.ctl.writes }
                    life := { a.life with wipePending := none, eraseLeft := 100, autoSlot := none, lineAt := a.life.lineAt + ms * tMs } }
  let a := (a.set Reg.LCY_STAT_state target).satAdd Reg.LCY_RSTCNT_lifecycle 1
  ((a.setB Reg.LCY_STAT_erasing true).set Reg.LCY_ERASE_done 0).record 0x0005 target ms 0 0

/-! ### Reset (R591 to R594) -/

/-- The fields beside the stored ones that a reset leaves: the commit number, the background erase, and what the islands show
of their own outputs (R255, R358, R447, R448, R591). -/
def resetKept : List Nat :=
  [Reg.CSC_COMMIT_commit_seq.bit, Reg.LCY_STAT_erasing.bit, Reg.LCY_ERASE_done.bit]
    ++ (upto 8).flatMap (fun n => [(Reg.TRP_CHSTAT_on n).bit, (Reg.TRP_CHSTAT_silent n).bit])
    ++ (upto 32).flatMap (fun f => [(Reg.FIO_STAT_on f).bit, (Reg.FIO_STAT_safe_active f).bit, (Reg.FIO_STAT_cmd f).bit, (Reg.FIO_STAT_permitted f).bit])

/-- The image that was Running before the reset: inside the rollback window the old one (R359, R420); the one that a boot or
a joining module still has to start. -/
def App.runningSlot (a : App) : Option Nat :=
  match a.ctl.window with
  | some w => some w.slot
  | none =>
    match a.ctl.running with
    | some s => some s
    | none => if a.life.boot = .done ∧ a.role ≠ Role.joining then none else a.life.autoSlot

/-- The newest firmware slot whose CRC and signature are valid (R594). -/
def App.chooseFw (a : App) : Option Nat :=
  let x := vat a.life.fw 0
  let y := vat a.life.fw 1
  if x.valid && (!y.valid || decide (y.version.toNat ≤ x.version.toNat)) then some 0 else if y.valid then some 1 else none

/-- The backup counters after an interval of ns: the crystal's error is free within ±20 ppm (R64). -/
def App.backupRun (a : App) (ns : Nat) : App :=
  let (i, a) := a.fresh
  let e : Int := (Config.crystalErr i).toInt
  let run := ns + (ns : Int) * 20 * e / (1000000 * 2 ^ 31)
  let counts := ((a.bkp.sec.toNat : Int) * 32768 + a.bkp.sub.toNat + run * 32768 / 1000000000).toNat
  { a with bkp := { a.bkp with sec := BitVec.ofNat 48 (counts / 32768), sub := BitVec.ofNat 15 counts, wroteAt := a.tick } }

/-- An island field channel across a reset: what the island itself holds stays (R447, R448, R591). -/
def FioCh.afterReset (c : FioCh) (input : Bool) (tick : Nat) : FioCh :=
  { ({} : FioCh) with settleAt := if input then some tick else none, silent := c.silent, once := c.once, hold := c.hold, why := c.why
                      overload := c.overload, retryAt := c.retryAt, retries := c.retries, limit := c.limit, ext := c.ext
                      openW := c.openW }

/-- A trip channel across a reset: its row deasserted, its seal-in its own (R255, R591). -/
def TripCh.afterReset (c : TripCh) (tick : Nat) : TripCh := { c with row := false, offAt := if c.row then tick else c.offAt }

/-- The bay converters at a reset: ranges and reference sources as configured. -/
def App.resetBay (a : App) (b : Nat) : AnaBay :=
  { ({} : AnaBay) with calAt := Vector.replicate 9 a.tick
                       rangeNow := Vector.ofFn fun c : Fin 8 => bitOf (a.get (Reg.ANA_CHCFG_ch b)) (2 * c.val + 1)
                       srcNow := bitsOf (a.get Reg.ANA_REFCFG_src) (2 * b) 2 }

/-- Substitution of a bay at a reset: one that is set applies with the bay's first tick (R210, R214). -/
def App.resetSub (a : App) (b : Nat) : SubBay :=
  { ({} : SubBay) with next := a.sig.periods, pending := if a.on (Reg.SLU_BAY_sub_en b) then some (true, false, 0) else none }

/-- Every part of the application partition at a reset: what MRAM, NAND and the islands hold stays, the rest is wiped (R26,
R591, R593). -/
def App.resetParts (a : App) : App :=
  { a with
    regs := a.regs.filter (fun c => fieldStored c.1 || resetKept.contains c.1)
    raised := []
    xbar := Vector.replicate 5 {}
    ctxs := Vector.ofFn fun k : Fin 8 => { ({} : HostCtx) with stale := (a.cmd.journal.filter (fun e => e.hdr.ctx == k)).map (·.hdr.tag) }
    cmd := { ({} : CmdSt) with tags := a.cmd.tags.map (fun l => l.map (fun r => { r with links := [] }))
                               journal := a.cmd.journal.map (fun e => { e with wait := none }) }
    clk := Vector.replicate 4 {}
    ana := { ({} : AnaSt) with bays := Vector.ofFn fun b : Fin 4 => a.resetBay b, calRun := some a.life.lineAt }
    sig := { ({} : SigSt) with edges := a.sig.edges, periods := a.sig.periods }
    slu := { ({} : SluSt) with descs := a.slu.descs, live := a.slu.descs, curves := a.slu.curves, liveCurves := Vector.replicate 4 a.slu.curves, sub := Vector.ofFn fun b : Fin 4 => a.resetSub b }
    trp := { ({} : TripSt) with prot := a.get Reg.GLB_MODE_prot, scanAt := a.tick, ch := a.trp.ch.map (fun c => c.afterReset a.tick) }
    par := { ({} : ParSt) with beatAt := a.tick, rxAt := a.tick, hbAt := a.tick, roleAt := a.tick }
    cap := {}
    tw := {}
    ctl := { ({} : CtlSt) with slots := a.ctl.slots, writes := a.ctl.writes, forces := a.ctl.forces.map (fun f => { f with shadow := none })
                               journal := a.ctl.journal, copies := a.ctl.copies, lastScan := a.ctl.lastScan, copyAt := a.tick }
    fio := { ({} : FioSt) with ch := Vector.ofFn fun f : Fin 32 => (vat a.fio.ch f).afterReset (a.fioIn f) a.tick }
    mbox := { ({} : MboxSt) with rxAt := a.tick }
    eth := { ({} : EthSt) with tbl := a.eth.tbl }
    can := { ({} : CanSt) with tbl := a.can.tbl }
    dma := { ({} : DmaSt) with out := a.dma.out.filter (fun r => toHost r.1 || (memoryAt r.1).kept) } }

/-- The registers that a boot computes: the default groups, slots that no longer run, the loads, the forces, the permitted
state of the buses, and the role (R202, R339, R569). -/
def App.bootRegs (a : App) : App :=
  let a := (upto 4).foldl (fun a b => a.set (Reg.SLU_BAY_active_group b) (a.get (Reg.SLU_BAY_default_group b))) a
  let a := (upto 2).foldl (fun a s => if a.get (Reg.slotState s) = Slot.running then a.set (Reg.slotState s) Slot.verified else a) a
  let a := if a.on Reg.PAR_CFG_pair_en && a.node != 0 then a.set Reg.PAR_STAT_role Role.joining else a
  let a := (upto 8).foldl (fun a n => if a.mayOpen n then a.chOpen n else a) a
  (a.setDelays.showLoads.showForces).canShow

/-- The reset counts (R601). -/
def App.countReset (a : App) (cause : Nat) : App :=
  if cause = 1 then a.satAdd Reg.LCY_RSTCNT_carrier 1
  else if cause = 2 then a.satAdd Reg.LCY_RSTCNT_watchdog 1
  else if cause = 3 then a.satAdd Reg.LCY_RSTCNT_command 1
  else a

/-- A reset with its cause and the kind of RESET_MODULE, and the boot up to its 40 ms line (R590 to R594): firmware, a
pending full wipe, the parts, wall time and counters from the backup domain, configuration, and the records. -/
def App.doReset (a : App) (cause kind : Nat) : App :=
  let slot := a.runningSlot
  let left := a.ctl.skim.isSome || a.ctl.window.isSome
  let fw := a.chooseFw
  let a := { a with life := { ({} : LifeSt) with
    boot := (if fw.isSome then .wiping else .recovery), bootAt := a.tick, lineAt := a.tick + 40 * tMs, lineDone := fw.isNone, resetKind := kind
    wipePending := a.life.wipePending, eraseLeft := a.life.eraseLeft, fw := a.life.fw, records := a.life.records, autoSlot := slot
    scrubAt := Vector.replicate 3 a.tick, cacheBytes := a.life.cacheBytes, spareBytes := a.life.spareBytes } }
  let a := match a.life.wipePending with
    | some t => a.fullWipe t
    | none => a
  let a := (if cause = 0 then { a with bkp := { a.bkp with pc := if a.bkp.pc = 0xFFFFFFFF#32 then a.bkp.pc else a.bkp.pc + 1 } } else a).resetParts
  let a := if fw.isSome then a else { a with ana := { a.ana with calRun := none } }
  let a := (if cause = 0 then a.mirrorOt else a).restoreTime
  let a := (a.bootRegs).countReset cause
  let a := ((a.set Reg.LCY_STAT_cause cause).set Reg.LCY_STAT_fw_slot (fw.getD 0)).setB Reg.LCY_STAT_recovery fw.isNone
  let a := a.record 0x0001 cause a.fwVersion (fw.getD 0) (if cause = 3 then kind else 0)
  let a := if left then a.record 0x0044 3 0 0 0 else a
  a.anchor 0

/-- The reset that a command asked for, once it is final (R590, R591). -/
def App.resetIfAsked (a : App) : App :=
  match a.life.resetReq with
  | some (cause, kind) => ((a.onLife fun l => { l with resetReq := none }).backupRun (4 * (a.tick - a.bkp.wroteAt))).doReset cause kind
  | none => a

/-- A reset of a running module: the backup counters have run since they were last written. -/
def App.resetNow (a : App) (cause : Nat) : App := (a.backupRun (4 * (a.tick - a.bkp.wroteAt))).doReset cause 0

/-- Feed is back after ns without it: the backup domain has kept wall time, OT32 and PC32, or has been lost and the mirror
gives both counters (R64 to R66). -/
def App.feedBack (a : App) (ns : Nat) (lost : Bool) : App :=
  let a := a.onLife fun l => { l with power := true, hsOpen := false }
  if lost then { a with bkp := { a.bkp with valid := false, sec := 0, sub := 0, pc := a.bkp.mirrorPc, ot := none }, opTicks := a.bkp.mirrorOt.toNat * tS }
  else
    let a := a.backupRun (4 * (a.tick - a.bkp.wroteAt) + ns)
    let ot := match a.bkp.ot with
      | some v => v.toNat
      | none => a.opTicks / tS
    { a with opTicks := ot * tS, bkp := { a.bkp with ot := none } }

/-- POWER_ON_RESET (R39, R591, R592): valid feed after `unpowered` ns without it; `lost` says that the backup domain lost its
validity. A carrier reset that is still asserted holds the module, and a feed that returns in the power-fail sequence waits for its
end. -/
def execPowerOnReset (unpowered : W64) (lost : Bool) (s : State) : Outcome State Fault Refusal :=
  s.onIsland fun a =>
    if a.failing then a.onLife fun l => { l with refed := true }
    else
    let a := a.feedBack unpowered.toNat lost
    if a.life.crst then a.onLife fun l => { l with boot := .held, poweredUp := true } else a.doReset 0 0

/-- CARRIER_RESET (R591, R592, R619): asserted for at least 10 µs the input holds the module; at its release the module boots,
with cause power-on when the feed came back meanwhile. In the power-fail sequence it takes effect at the end. -/
def execCarrierReset (asserted : Bool) (s : State) : Outcome State Fault Refusal :=
  s.onIsland fun a =>
    if a.failing then a.onLife fun l => { l with crst := asserted }
    else if asserted then a.onLife fun l => { l with boot := .held, crst := true }
    else
      let up := a.life.poweredUp
      let a := a.onLife fun l => { l with crst := false, poweredUp := false }
      if !a.life.power then a
      else if up then a.resetNow 0
      else a.resetNow 1

/-- WATCHDOG_EXPIRY (R566, R591). -/
def execWatchdogExpiry (s : State) : Outcome State Fault Refusal := s.onApp fun a => a.resetNow 2

/-- LIFECYCLE_SET (R586, R590): confirm must be the PC32 of this power-up. -/
def execLifecycleSet (h : CmdHdr) (target : Byte) (confirm : W32) (s : State) : Outcome State Fault Refusal :=
  s.onApp fun a => (a.process h (.lifecycleSet target confirm) (firstFail [(0, target.toNat ≤ 4), (1, confirm = a.bkp.pc)]) []
    (opLifecycleSet h target)).resetIfAsked

/-- RESET_MODULE (R591). -/
def execResetModule (h : CmdHdr) (kind : Byte) (s : State) : Outcome State Fault Refusal :=
  s.onApp fun a => (a.process h (.resetModule kind) (firstFail [(0, kind.toNat ≤ 2)]) [] (opResetModule kind)).resetIfAsked

/-- REQUEST_REMOVAL (R581). -/
def execRequestRemoval (h : CmdHdr) (s : State) : Outcome State Fault Refusal :=
  s.onApp fun a => a.process h .requestRemoval none [] (opRequestRemoval h)

/-! ### The rest of the boot (R359, R493, R594 to R596) -/

/-- The program of the last boot starts: under autostart, in a module that leads, unless RESET_MODULE said otherwise (R359,
R591). -/
def App.autoStart (a : App) : App :=
  match a.life.autoSlot with
  | some s =>
    if a.leads && (a.life.boot == .starting || a.life.boot == .done) && a.ctl.running.isNone && a.ctl.init.isNone then
      let a := a.onLife fun l => { l with autoSlot := none }
      if a.on Reg.CSC_PCTL_autostart && a.life.resetKind != 2 && a.get (Reg.slotState s) == Slot.verified then
        a.startProgram s (a.life.resetKind != 1) none
      else a
    else a
  | none => a

/-- Command replay once the program has started, and then the doorbells (R493, R594). -/
def App.bootEnd (a : App) : App :=
  if a.life.boot = .starting ∧ a.ctl.init.isNone = true then (a.replay).onLife fun l => { l with boot := .done } else a

/-- DRAM_WIPE_END (R359, R594): 0.90 s ± 0.05 s after its start; `bad` is the NAND address of an image that fails its CRC,
whose slot becomes Invalid (R32). -/
def execDramWipeEnd (bad : Option W64) (s : State) : Outcome State Fault Refusal :=
  s.onApp fun a =>
    if a.life.boot = .wiping ∧ a.since a.life.lineAt (850 * tMs) = true then
      let a := a.onLife fun l => { l with boot := .starting }
      let a := a.setB Reg.CSC_PSTAT_ret_valid (!a.ctl.copies.isEmpty)
      let a := match bad, a.life.autoSlot with
        | some p, some s => (a.set (Reg.slotState s) Slot.invalid).nandRecord p.toNat
        | _, _ => a
      (a.autoStart).bootEnd
    else a

/-- Whether protection is in service (R187, R595). -/
def App.protUp (a : App) : Bool :=
  a.engUp 0 && a.engUp 1 && a.ana.calRun.isNone &&
    (upto 4).all (fun b => !a.clkOn b || (upto 2).all (fun e =>
      let x := vat (vat a.slu.eng e).bays b
      decide (256 ≤ x.taken) && (match x.freqs with
        | (_, _, q) :: _ => q.qual != 2
        | [] => false)))

/-- What time alone brings to a boot: the angle clocks at the 40 ms line, the end of the boot, protection in service, and the
boot-complete record (R594 to R596). -/
def App.bootStep (a : App) : App :=
  let a := if !a.life.lineDone && decide (a.life.lineAt ≤ a.tick) then
      (upto 4).foldl (fun a b => if a.on (Reg.ANG_CFG_en b) then a.clockOn b else a) (a.onLife fun l => { l with lineDone := true })
    else a
  let a := a.bootEnd
  let a := if !a.life.protDone && a.life.lineDone && a.protUp then
      (a.onLife fun l => { l with protDone := true }).set Reg.LCY_BOOT_prot_ms (min 65535 ((a.tick - a.life.bootAt) / tMs))
    else a
  if a.life.boot = .done ∧ a.life.protDone = true ∧ a.life.bootNoted = false ∧ (a.life.ctlDone = true ∨ a.ctl.running.isNone = true) then
    (a.onLife fun l => { l with bootNoted := true }).record 0x0003 (a.get Reg.LCY_BOOT_prot_ms) (a.get Reg.LCY_BOOT_ctl_ms) 0 0
  else a

/-- BACKGROUND_ERASE_STEP (R590): one of a hundred steps. -/
def execBackgroundEraseStep (s : State) : Outcome State Fault Refusal :=
  s.onApp fun a =>
    if a.life.eraseLeft = 0 then a
    else
      let n := a.life.eraseLeft - 1
      ((a.onLife fun l => { l with eraseLeft := n }).set Reg.LCY_ERASE_done (100 - n)).setB Reg.LCY_STAT_erasing (n != 0)

/-! ### Feeds (R38, R616 to R619) -/

/-- The bus voltage below which the power-fail sequence starts, mV: 16.0 V ± 0.3 V (R618). -/
def failBelow : Nat := 15700 + Config.failLevel.toNat % 601

/-- POWER_FAIL (R38, R618): the bus falls below its threshold, with the voltages of the feeds and of the bus in mV. The power-fail
sequence starts; nothing runs, and none starts, in a module that a carrier reset holds (R619). -/
def execPowerFail (feeds : W16 × W16) (bus : W16) (s : State) : Outcome State Fault Refusal :=
  s.onApp fun a =>
    if a.failing || decide (failBelow ≤ bus.toNat) then a
    else a.onLife fun l => { l with failAt := some a.tick, failFeeds := (feeds.1.toNat, feeds.2.toNat), refed := false }

/-- The end of the power-fail sequence: everything is held; a feed that returned meanwhile gives a power-on reset, which a carrier
reset asserted meanwhile keeps waiting (R39, R619). -/
def App.failEnd (a : App) : App :=
  let back := a.life.refed
  let a := a.onLife fun l => { l with failAt := none, refed := false, boot := .held, power := back, poweredUp := back && l.crst }
  if back && !a.life.crst then (a.feedBack 0 false).doReset 0 0 else a

/-- What time alone brings in the power-fail sequence: by 2 ms the record and OT32 in the backup domain, at 5 ms the end (R38). -/
def App.failStep (a : App) : App :=
  match a.life.failAt with
  | none => a
  | some t =>
    if a.tick = t + 2 * tMs then
      let a := { a with bkp := { a.bkp with ot := some (BitVec.ofNat 32 a.ot) } }
      a.record 0x0002 a.life.failFeeds.1 a.life.failFeeds.2 0 0
    else if a.tick = t + 5 * tMs then a.failEnd
    else a

/-- FEED_LOW (R617): a feed crosses its threshold, which asks for the urgent conversion of R146; `bus` is the lowest bus
voltage seen, 10 mV. -/
def execFeedLow (feed : Fin 2) (low : Bool) (bus : W16) (s : State) : Outcome State Fault Refusal :=
  s.onApp fun a =>
    let f := if feed = 0 then Reg.GLB_PWR_feed_a_low else Reg.GLB_PWR_feed_b_low
    let a := a.set Reg.GLB_PWR_bus_min (min (a.get Reg.GLB_PWR_bus_min) bus.toNat)
    if a.on f == low then a else (a.setB f low).auxUrgent (6 + feed)

/-- HOT_SWAP_DISABLE (R616, R619): the feed switch opens; the power-fail sequence follows as the bus decays. -/
def execHotSwapDisable (s : State) : Outcome State Fault Refusal := s.onIsland fun a => a.onLife fun l => { l with hsOpen := true }

/-! ### Scrubbing (R30 to R32) -/

/-- An MRAM entry that fails is treated as absent (R32). The calibration region holds the front-end factors, which the model takes as
the factory's at 1 and 0 (log entry 4), so that an absent one reads the same; slice factors are no part of it (R120). -/
def App.dropEntry (a : App) (e : MramEntry) : App :=
  match e with
  | .record s => a.onLife fun l => { l with records := l.records.map (fun r => if r.1 = s.toNat then (r.1, { r.2 with bad := true }) else r) }
  | .tag k t => a.onTags k (fun l => l.filter (fun r => r.tag != t))
  | .command k t => { a with cmd := { a.cmd with journal := a.cmd.journal.filter (fun e => !(e.hdr.ctx == k && e.hdr.tag == t)) } }
  | .copy n => a.onCtl fun c => { c with copies := c.copies.eraseIdx n }
  | .commit n => a.onCtl fun c => { c with journal := c.journal.eraseIdx n }
  | .descriptor g s => a.onSlu fun x => { x with descs := x.descs.filter (fun d => d.1 != g.val * 1024 + s.val) }
  | .curve n => a.onSlu fun x => { x with curves := vput x.curves n none }
  | .force p => a.onCtl fun c => { c with forces := c.forces.filter (fun f => f.point != p.toNat) }
  | .setup o => { a with regs := a.regs.filter (fun c => !(fieldStored c.1 && c.1 / 32 == o.toNat / 4)) }
  | .calibration _ => a
  | .learned b o => a.set (Reg.TRP_BKTOP_t_op b o.toNat) (16 * a.get (Reg.TRP_BKINIT_init_us b o.toNat))

/-- The memory code of an error in the event recorder (R600). -/
def eccMemory : EccHit → Nat
  | .coreSram _ => 0
  | .descriptor .. | .element .. | .point _ => 1
  | .image _ | .instanceData _ | .staging .. | .jetRing _ => 2
  | .mram _ => 3

/-- The consequence of an uncorrectable error (R32). -/
def App.eccHit (a : App) (h : EccHit) : App :=
  match h with
  | .coreSram k =>
    if (a.core k).ended || 2 ≤ a.coreState k then a
    else if (a.core k).item.isSome then a.scanFault k 2
    else a.clearCore k 2
  | .descriptor g s =>
    let i := g.val * 1024 + s.val
    let d := descAt a.slu.live i
    let a := a.onSlu fun x => { x with live := x.live.filter (fun d => d.1 < i) ++ x.descs.filter (fun d => d.1 == i) ++ x.live.filter (fun d => i < d.1) }
    if dType d != 0 && dEn d && a.groupOf (dBay d) == g.val then a.onSlu fun x => { x with heldSlots := insertNat s.val x.heldSlots } else a
  | .element b s =>
    a.report (a.liveDesc b s) s (a.elem s) {} (a.stampNow b) 0 (fun _ => 0) true false
  | .point i => if i.toNat < a.ctl.points.length then
      a.onCtl fun c => { c with points := c.points.modify i.toNat (fun p => { p with v := { p.v with quality := qualValid p.v.quality 1 } }) }
    else a
  | .image k => match k with
    | some k => if (a.core k).item.isSome && a.coreState k == 1 then a.scanFault k 3 else a
    | none => a
  | .instanceData k => match k with
    | some k => if (a.core k).item.isSome && a.coreState k == 1 then a.scanFault k 4 else a
    | none => a
  | .staging s f w =>
    let bad := fun (x : W32) => x - x % 8 + 2
    { a with cap := { a.cap with subs := vup a.cap.subs s fun u =>
        { u with frames := u.frames.modify f (fun (c : CapFrame) =>
            if w < c.bay.length then { c with bay := c.bay.modify w bad } else { c with cis := c.cis.modify (w - c.bay.length) bad }) } } }
  | .jetRing n => a.damageJet n.toNat
  | .mram e => a.dropEntry e

/-- The interval of the scrubber over a memory, ticks (R30). -/
def scrubEvery : ScrubOf → Nat
  | .sram => tS
  | .dram => 3600 * tS
  | .mram => 86400 * tS

/-- The memories of an interval, by the place of their last pass and with what the pass reads; the Jet ring is skipped (R30). -/
def scrubPlace : ScrubOf → Nat
  | .sram => 0
  | .dram => 1
  | .mram => 2
def App.scrubReads (a : App) (m : ScrubOf) : App :=
  match m with
  | .sram => (a.access .scrubber .coreSram Memory.coreSram.size).access .scrubber .sharedSram Memory.sharedSram.size
  | .dram => a.access .scrubber .dram (Memory.dram.size - Region.jetRing.size)
  | .mram => a.access .scrubber .mram Memory.mram.size

/-- Whether a pass over these memories may meet a word: not in the Jet ring, which the scrubber skips (R30). -/
def scrubMeets (m : ScrubOf) (h : EccHit) : Bool :=
  match h with
  | .coreSram _ | .descriptor .. | .element .. | .point _ => m == .sram
  | .image _ | .instanceData _ | .staging .. => m == .dram
  | .jetRing _ => false
  | .mram _ => m == .mram

/-- SCRUB_PASS (R30 to R32): a pass of the scrubber over the memories of one interval. The words that State holds are the corrected
ones: a single-bit error that the pass corrects, and a write-back that it drops because a master wrote the word meanwhile, leave
them as they are. An uncorrectable word at an address has its consequence and a record. -/
def execScrubPass (pass : ScrubOf × Option (EccHit × W64)) (s : State) : Outcome State Fault Refusal :=
  s.onApp fun a =>
    let mem := pass.1
    if !a.since (vat a.life.scrubAt (scrubPlace mem)) (scrubEvery mem) then a
    else
      let a := (a.onLife fun l => { l with scrubAt := vput l.scrubAt (scrubPlace mem) a.tick }).scrubReads mem
      match pass.2 with
      | some (h, p) =>
        if scrubMeets mem h then (a.eccHit h).record 0x0040 (eccMemory h) (p.toNat % 2 ^ 32) (p.toNat / 2 ^ 32) 0 else a
      | none => a

end Sys2Proof.Machine
end

