-- ==== Sys2Proof/Machine/Cistern.lean ====
section
/-! DEFINITION. The Cistern partition: metrology, its store, clock, seal, evidence, optical port and its side of the
mailbox (R311 to R335). -/

namespace Sys2Proof.Machine

open Host

/-! ### Evidence (R323 to R325) -/

/-- Seconds since 2000 of the Cistern clock. -/
def Cistern.ctime (c : Cistern) : Nat := (c.clock / 1000 - 946684800) % 2 ^ 32

/-- meas_fault: a channel is on a failed slice (R314). -/
def Cistern.fault (c : Cistern) : Bool := c.dead.toList.any id

/-- The power-up calibration runs (R314). -/
def Cistern.calibrating (c : Cistern) : Bool := c.calLeft != 0

/-- Write an event-log record; with `audit` the audit counter counts first (R324, R325). -/
def Cistern.note (c : Cistern) (code param : Nat) (audit : Bool) : Cistern :=
  let n := if audit then c.audit + 1 else c.audit
  let r : CisRec := ⟨code, c.sealed.toNat + 2 * c.clockBad.toNat, c.ctime, n, BitVec.ofNat 32 param⟩
  { c with audit := n, log := (r :: c.log).take 1024, logCount := c.logCount + 1 }

/-- A discarded return-lane frame: counted, and combined into one record per episode (R21, R325). -/
def Cistern.reject (c : Cistern) : Cistern :=
  let c := { c with rejects := c.rejects + 1 }
  match c.log with
  | r :: t =>
    if r.code = 0x50 then
      { c with log := { r with param := if r.param = 0xFFFFFFFF#32 then r.param else r.param + 1 } :: t }
    else c.note 0x50 1 false
  | [] => c.note 0x50 1 false

/-- The 16 bytes of an event-log record (R325). -/
def CisRec.bytes (r : CisRec) : List Byte :=
  le 2 r.code ++ le 1 r.state ++ le 1 0 ++ le 4 r.ctime ++ le 4 r.audit.toNat ++ le 4 r.param.toNat

/-- The 32 bytes of a load-profile entry (R321). -/
def ProfEntry.bytes (e : ProfEntry) : List Byte :=
  le 4 e.tEnd ++ le 2 e.status ++ le 2 e.index ++ padTo 24 (e.val.flatMap (le 4))

/-! ### Tariff and local time (R319) -/

/-- Seconds of local time: the offset, and the daylight-saving rule, whose content the manual does not give. -/
def Cistern.localTime (c : Cistern) : Nat :=
  let utc := c.clock / 1000
  let dst : Int := if c.set.dst = 0#32 then 0 else 60 * (Config.dstShift c.set.dst utc).toInt
  ((utc : Int) + 60 * c.set.offset + dst).toNat

/-- The switching times of a local day: weekend when the mask has the day's bit (Monday is bit 0). -/
def Cistern.dayTable (c : Cistern) (day : Nat) : List (Nat × Nat) :=
  if bitOf c.set.mask ((day + 3) % 7) then c.set.weekend else c.set.weekday

/-- The tariff of the last switching time at or before a minute. -/
def lastSwitch (min : Nat) (l : List (Nat × Nat)) : Option Nat :=
  (l.foldl (fun (b : Option (Nat × Nat)) e =>
    if e.1 ≤ min && (match b with | some x => decide (x.1 ≤ e.1) | none => true) then some e else b) none).map (·.2)

/-- The tariff in force: before the first switching time of a day the last one of the day before holds; tariff 1 while
the clock is invalid or no time is set (R319). -/
def Cistern.tariffNow (c : Cistern) : Nat :=
  if c.clockBad then 1
  else
    let t := c.localTime
    let day := t / 86400
    match lastSwitch (t % 86400 / 60) (c.dayTable day) with
    | some k => k
    | none => (lastSwitch 1439 (c.dayTable (day - 1))).getD 1

/-! ### Measurement (R313, R315 to R317, R329, R333) -/

/-- The quality of the mirror words of a channel (R333). -/
def Cistern.mirrorQual (c : Cistern) (ch : Nat) : Nat :=
  if c.calibrating || vat c.dead ch then 2 else if c.session.isSome then 3 else if c.warn then 1 else 0

/-- A mirror word (R9, R333). -/
def Cistern.mirrorWord (c : Cistern) (ch : Nat) (r : RawSample) : W32 :=
  sampleWord r.value r.ovr (r.full || atFullScale r.value) false false false (c.mirrorQual ch)

/-- The value of a channel in measurement: an invalid sample counts as 0. -/
def Cistern.measured (c : Cistern) (ch : Nat) (v : BitVec 24) : Int := if c.mirrorQual ch = 2 then 0 else v.toInt

/-- The sum over the period of a product of two quantities of a sample. -/
def sumProd (l : List CisSample) (f g : CisSample → Int) : Int := l.foldl (fun s x => s + f x * g x) 0

/-- The measured value of channel `ch` of a sample, and of the shifted voltage of phase `p`. -/
def Cistern.val (c : Cistern) (ch : Nat) (x : CisSample) : Int := c.measured ch (vat x.ch ch).value
def Cistern.shifted (c : Cistern) (p : Nat) (x : CisSample) : Int := if c.mirrorQual (4 + p) = 2 then 0 else vat x.quad p

/-- The samples of a period with the voltages shifted by 90°, and the values that the Hilbert filter looks back to (R315). -/
def shiftVolts (h : Vector (List Int) 3) : List CisInput → List CisSample × Vector (List Int) 3
  | [] => ([], h)
  | x :: t =>
    let h := Vector.ofFn fun p : Fin 3 => ((vat x (4 + p.val)).value.toInt :: vat h p.val).take 128
    let r := shiftVolts h t
    (⟨x, Vector.ofFn fun p : Fin 3 => Config.hilbert (vat h p.val)⟩ :: r.1, r.2)

/-- The primary energy of a sum of products of codes over `n` samples of a 0.1 s period, in 2^-32 mWh: one code is
range/6,710,886 with the ranges 0.5 V and 4.0 V (R312, R313). -/
def Cistern.energyOf (c : Cistern) (n sum : Nat) : Nat :=
  sum * 2 * c.set.ct * c.set.vt * 2 ^ 32 / (n * 10000 * rangeCode * rangeCode * 36)

/-- A sum of products of codes as primary power in W or var. -/
def Cistern.powerOf (c : Cistern) (n : Nat) (sum : Int) : Int :=
  divRound (sum * 2 * c.set.ct * c.set.vt) (n * 10000 * rangeCode * rangeCode)

/-- The RMS values of the snapshot: CU1 to CU4 in 0.01 V and CI1 to CI4 in 1 mA, primary. -/
def Cistern.rmsOf (c : Cistern) (l : List CisSample) : List Nat :=
  let one := fun (ch k : Nat) =>
    min 0xFFFFFFFF (isqrt ((sumProd l (c.val ch) (c.val ch)).toNat * k * k / (l.length * rangeCode * rangeCode)))
  (upto 4).map (fun i => one (4 + i) (4 * c.set.vt)) ++ (upto 4).map (fun i => one i (5 * c.set.ct))

/-- Whether every phase current of a period is below 0.02 % of In, 225 mV (R315, R316). -/
def Cistern.noLoad (c : Cistern) (l : List CisSample) : Bool :=
  (upto 3).all (fun p => decide (((sumProd l (c.val p) (c.val p)).toNat) * 10 ^ 10 < l.length * 81 * rangeCode * rangeCode))

/-- A change to the working registers, demand and profiles. -/
def Cistern.onWork (c : Cistern) (f : CisData → CisData) : Cistern := { c with work := f c.work }

/-- Add energy to a register. -/
def CisData.add (d : CisData) (i e : Nat) : CisData := { d with energy := vup d.energy i (· + e) }

/-- A register's value (R317). -/
def CisData.reg (d : CisData) (i : Nat) : Nat := vat d.energy i / 2 ^ 32

/-- The pulses of a LED for an energy, with what is left over: one pulse for each 1/k kWh (R329). -/
def ledPulses (k e : Nat) (count rest : Nat) : Nat × Nat :=
  let x := rest + e * k
  (count + x / (10 ^ 9 * 2 ^ 32), x % (10 ^ 9 * 2 ^ 32))

/-- The energies of a period go to the registers of its quadrant and of the tariff in force at its start, to the
demand and to the LEDs (R315, R317, R319, R320, R329). -/
def Cistern.register (c : Cistern) (tariff : Nat) (p q : Int) (eP eQ eS : Nat) : Cistern :=
  let imp : Bool := decide (0 ≤ p)
  let ind : Bool := decide (0 ≤ q)
  let quad := if ind then (if imp then 2 else 3) else (if imp then 5 else 4)
  let c := c.onWork fun d =>
    let d := d.add (if imp then 0 else 1) eP
    let d := d.add quad eQ
    let d := d.add (if imp then 6 else 7) eS
    let d := d.add ((if imp then 8 else 12) + (tariff - 1)) eP
    let d := d.add ((if ind then 16 else 20) + (tariff - 1)) eQ
    { d with demAcc := if imp then (d.demAcc.1 + eP, d.demAcc.2) else (d.demAcc.1, d.demAcc.2 + eP) }
  let a := ledPulses c.set.kAct eP c.pulses.1 c.pulseRest.1
  let r := ledPulses c.set.kReact eQ c.pulses.2 c.pulseRest.2
  { c with pulses := (a.1, r.1), pulseRest := (a.2, r.2) }

/-- The measurement of a period: RMS values, powers and energies (R315). -/
def Cistern.measure (c : Cistern) (l : List CisSample) : Cistern :=
  let n := l.length
  if n = 0 then c
  else
    let act := (upto 3).map (fun p => sumProd l (c.val (4 + p)) (c.val p))
    let rea := (upto 3).map (fun p => sumProd l (c.shifted p) (c.val p))
    let app := (upto 3).map (fun p =>
      isqrt ((sumProd l (c.val (4 + p)) (c.val (4 + p))).toNat * (sumProd l (c.val p) (c.val p)).toNat * 2 ^ 40) / 2 ^ 20)
    let sum := fun (x : List Int) => x.foldl (· + ·) 0
    let p := sum act
    let q := sum rea
    let c' := { c with rms := c.rmsOf l, power := (act ++ rea).map (fun x => satSigned 32 (c.powerOf n x)) }
    if c.noLoad l then c'
    else c'.register c.tariff p q (c.energyOf n p.natAbs) (c.energyOf n q.natAbs) (c.energyOf n (app.foldl (· + ·) 0))

/-! ### Demand and profiles (R320, R321) -/

/-- The demand of an energy over a length in ms, W. -/
def demandOf (e ms : Nat) : Nat := if ms = 0 then 0 else min 0xFFFFFFFF (e * 3600 / (ms * 2 ^ 32))

/-- The demand interval is shortened: it counts as partial, and a new one begins where the clock has left it (R320). -/
def Cistern.demShort (c : Cistern) (restart : Bool) : Cistern :=
  let len := c.set.demInt * 60000
  c.onWork fun d =>
    if restart || c.clock / len != d.demFrom / len then
      { d with demAcc := (0, 0), demMs := 0, demFrom := c.clock, demPart := true }
    else { d with demPart := true }

/-- The energy values of channel 1 in Wh or varh: registers 0 and 1, reactive import and export. -/
def CisData.wh (d : CisData) : List Nat :=
  [d.reg 0 / 1000, d.reg 1 / 1000, (d.reg 2 + d.reg 3) / 1000, (d.reg 4 + d.reg 5) / 1000]

/-- Status bits noted in the profile intervals in progress (R321). -/
def Cistern.profNote (c : Cistern) (bits : Nat) : Cistern :=
  c.onWork fun d => { d with prof := d.prof.map (fun p => { p with flags := p.flags ||| bits }) }

/-- The status bits that hold now (R321). -/
def Cistern.profBits (c : Cistern) : Nat :=
  8 * c.clockBad.toNat + 16 * c.warn.toNat + 32 * c.fault.toNat + 64 * (!c.sealed).toNat

/-- The latest end of an interval of `len` ms on the Cistern clock, in seconds since 2000. -/
def Cistern.bound (c : Cistern) (len : Nat) : Nat := (c.clock / len * len / 1000 - 946684800) % 2 ^ 32

/-- PROFILE_INTERVAL_END (R321): the interval of a channel has ended on the Cistern clock. -/
def execProfileIntervalEnd (ch : Fin 2) (s : State) : Outcome State Fault Refusal :=
  s.onCis fun c =>
    let len := vat c.set.profInt ch * 60000
    let p := vat c.work.prof ch
    if c.on && c.clock / len != p.from_ / len then
      let val := if ch = 0 then (c.work.wh.zip p.base).map (fun x => min 0xFFFFFFFF (x.1 - x.2)) else p.sums.map (fun x => x / max 1 p.n)
      let e : ProfEntry := ⟨c.bound len, p.flags ||| c.profBits, p.count % 65536, val⟩
      c.onWork fun d =>
        let q : ProfSt := { entries := (e :: p.entries).take 8192, count := p.count + 1, from_ := c.clock, base := d.wh }
        { d with prof := vput d.prof ch q }
    else c

/-- DEMAND_INTERVAL_END (R320): a maximum takes the demand of a whole interval. -/
def execDemandIntervalEnd (s : State) : Outcome State Fault Refusal :=
  s.onCis fun c =>
    let len := c.set.demInt * 60000
    let d := c.work
    if c.on && c.clock / len != d.demFrom / len then
      let better := fun (m : Nat × Nat) (e : Nat) =>
        let w := demandOf e d.demMs
        if !d.demPart && decide (m.1 < w) then (w, c.bound len) else m
      c.onWork fun d => { d with maxI := better d.maxI d.demAcc.1, maxE := better d.maxE d.demAcc.2,
                                 demAcc := (0, 0), demMs := 0, demFrom := c.clock, demPart := false }
    else c

/-! ### The optical port (R326, R327, R330) -/

/-- The decimal digits of a number, at most `n` of them. -/
def digits : Nat → Nat → List Byte
  | 0, _ => []
  | n + 1, v => if v < 10 then [BitVec.ofNat 8 (48 + v)] else digits n (v / 10) ++ [BitVec.ofNat 8 (48 + v % 10)]

/-- Two hexadecimal digits. -/
def hexByte (v : Nat) : List Byte :=
  let h := fun (x : Nat) => BitVec.ofNat 8 (if x < 10 then 48 + x else 55 + x)
  [h (v / 16 % 16), h (v % 16)]

/-- Four hexadecimal bytes, most significant first, with hyphens (R323). -/
def hexId (v : Nat) : List Byte :=
  hexByte (v / 2 ^ 24) ++ [45] ++ hexByte (v / 2 ^ 16) ++ [45] ++ hexByte (v / 2 ^ 8) ++ [45] ++ hexByte v

/-- A data line of the readout: its code, numbers and dots, with a value in brackets. -/
def readLine (code value : List Byte) : List Byte := code ++ [40] ++ value ++ [41, 13, 10]

/-- The code x.y.z as text. -/
def code3 (x y z : Nat) : List Byte := digits 4 x ++ [46] ++ digits 4 y ++ [46] ++ digits 4 z

/-- The codes of the registers (R317). -/
def regCode (i : Nat) : List Byte :=
  if i < 2 then code3 (i + 1) 8 0 else if i < 8 then code3 (i + 3) 8 0 else code3 ((i - 8) / 4 + 1) 8 ((i - 8) % 4 + 1)

/-- A code of the group C.90. -/
def codeC (z : Nat) : List Byte := [67, 46] ++ digits 4 90 ++ [46] ++ digits 4 z

/-- The readout list as text (R330). -/
def Cistern.readout (c : Cistern) : List Byte :=
  let dec := digits 24
  (upto 24).flatMap (fun i => readLine (regCode i) (dec (c.work.reg i)))
    ++ readLine (code3 1 6 0) (dec c.work.maxI.1 ++ [41, 40] ++ dec c.work.maxI.2)
    ++ readLine (code3 2 6 0) (dec c.work.maxE.1 ++ [41, 40] ++ dec c.work.maxE.2)
    ++ readLine (codeC 1) (hexId c.swId.toNat) ++ readLine (codeC 2) (dec c.sealed.toNat)
    ++ readLine (codeC 3) (dec c.audit.toNat) ++ readLine (codeC 4) (dec c.rejects.toNat)
    ++ readLine (codeC 5) (dec c.ctime ++ [41, 40] ++ dec c.clockBad.toNat)

/-- OPTICAL_READOUT (R330): all data, in both seal states. -/
def execOpticalReadout (s : State) : Outcome State Fault Refusal :=
  s.onCis fun c => if c.on then { c with optical := c.readout, refused := false } else c

/-- A refusal on the optical port; the Cistern stays as it is (R327). -/
def Cistern.refuse (c : Cistern) : Cistern := { c with optical := [], refused := true }

/-- An accepted command of programming mode. -/
def Cistern.accept (c : Cistern) : Cistern := { c with optical := [], refused := false, session := some c.up }

/-- A programming command: only in a session, and only where the seal state permits it (R327, R330). -/
def Cistern.command (c : Cistern) (allowed : Bool) (f : Cistern → Cistern) : Cistern :=
  if !c.on then c
  else if c.session.isNone then c.refuse
  else if allowed then (f c).accept
  else { c.refuse with session := some c.up }

/-- PROGRAMMING_MODE (R330): the access code opens a session. -/
def execProgrammingMode (code : W32) (s : State) : Outcome State Fault Refusal :=
  s.onCis fun c => if !c.on then c else if code.toNat = c.set.code then c.accept else c.refuse

/-- PROGRAMMING_TIMEOUT (R330): 120 s without a command. -/
def execProgrammingTimeout (s : State) : Outcome State Fault Refusal :=
  s.onCis fun c =>
    match c.session with
    | some t => if t + 120000 ≤ c.up then { c with session := none } else c
    | none => c

/-- SERVICE_SWITCH_HOLD (R326): the switch has been held for 3 s; the seal state toggles and a session ends. -/
def execServiceSwitchHold (s : State) : Outcome State Fault Refusal :=
  s.onCis fun c =>
    if c.on then
      let c := c.profNote (64 * (!c.sealed).toNat)
      { c with sealed := !c.sealed, session := none }.note (if c.sealed then 0x11 else 0x10) 0 true
    else c

/-- CALIBRATION (R327). -/
def execCalibration (ch : Fin 8) (gain phase offset : W32) (s : State) : Outcome State Fault Refusal :=
  s.onCis fun c => c.command (!c.sealed) fun c =>
    { c with cal := vput c.cal ch ⟨gain, phase, offset⟩ }.note 0x20 (2 ^ ch.val) true

/-- Whether a meter constant × 1,000 keeps the pulse rate at Pmax within 250 Hz (R329): squared, with
Pmax = 2.6325/√3 × ct_ratio × vt_ratio. -/
def Cistern.ledOk (c : Cistern) (k : Nat) : Bool :=
  decide ((26325 * c.set.ct * c.set.vt * k) ^ 2 ≤ 3 * (9 * 10 ^ 19) ^ 2)

/-- Whether a table of switching times is one: at most 16, each a minute of the day and a tariff 1 to 4 (R319). -/
def tableOk (l : List (W16 × Byte)) : Bool := l.length ≤ 16 && l.all (fun e => decide (e.1.toNat < 1440) && decide (1 ≤ e.2.toNat) && decide (e.2.toNat ≤ 4))

/-- The intervals of R320 and R321, in minutes. -/
def demIntOk (m : Nat) : Bool := [1, 2, 3, 5, 10, 15, 20, 30, 60].contains m
def profIntOk (m : Nat) : Bool := 1 ≤ m && 60 % m == 0

/-- The number of a setting, as the log's param names it (R325). -/
def settingNumber : CisSetting → Nat
  | .ctRatio _ => 0
  | .vtRatio _ => 1
  | .kAct _ => 2
  | .kReact _ => 3
  | .tariffs .. => 4
  | .demInt _ => 5
  | .profInt ch _ => 6 + ch
  | .localTime .. => 8
  | .accessCode _ => 9

/-- Whether a value of a setting is one that its rule allows. -/
def Cistern.settingOk (c : Cistern) : CisSetting → Bool
  | .ctRatio v | .vtRatio v => v != 0#32
  | .kAct v | .kReact v => decide (1 ≤ v.toNat) && decide (v.toNat ≤ 100000000) && c.ledOk v.toNat
  | .tariffs w e _ => tableOk w && tableOk e
  | .demInt m => demIntOk m.toNat
  | .profInt _ m => profIntOk m.toNat
  | .localTime o _ => decide (o.toInt.natAbs ≤ 1440)
  | .accessCode v => decide (v.toNat < 100000000)

/-- A setting takes its value; a changed interval is shortened (R320, R321). -/
def Cistern.putSetting (c : Cistern) (x : CisSetting) : Cistern :=
  let plain := fun (l : List (W16 × Byte)) => l.map (fun e => (e.1.toNat, e.2.toNat))
  let st := c.set
  match x with
  | .ctRatio v => { c with set := { st with ct := v.toNat } }
  | .vtRatio v => { c with set := { st with vt := v.toNat } }
  | .kAct v => { c with set := { st with kAct := v.toNat } }
  | .kReact v => { c with set := { st with kReact := v.toNat } }
  | .tariffs w e m => { c with set := { st with weekday := plain w, weekend := plain e, mask := m.toNat } }
  | .demInt m => { c with set := { st with demInt := m.toNat } }.demShort true
  | .profInt ch m =>
    { c with set := { st with profInt := vput st.profInt ch m.toNat } }.onWork fun d =>
      { d with prof := vup d.prof ch (fun p => { p with from_ := c.clock, base := d.wh, sums := [0, 0, 0, 0, 0, 0], n := 0, flags := 1 }) }
  | .localTime o r => { c with set := { st with offset := o.toInt, dst := r } }
  | .accessCode v => { c with set := { st with code := v.toNat } }

/-- LEGAL_SETTING_CHANGE (R327). -/
def execLegalSettingChange (setting : CisSetting) (s : State) : Outcome State Fault Refusal :=
  s.onCis fun c => c.command (!c.sealed && c.settingOk setting) fun c =>
    (c.putSetting setting).note 0x21 (settingNumber setting) true

/-- REGISTER_RESET (R318): the only way to clear a register. -/
def execRegisterReset (s : State) : Outcome State Fault Refusal :=
  s.onCis fun c => c.command (!c.sealed) fun c =>
    let c := c.onWork fun d =>
      { d with energy := Vector.replicate 24 0, prof := vup d.prof 0 (fun p => { p with base := [0, 0, 0, 0] }) }
    c.note 0x23 0 true

/-- FIRMWARE_REPLACEMENT (R323): an image with its legally relevant part and whether its signature is Volith's. The
identification is computed at the next power-up. -/
def execFirmwareReplacement (part : List Byte) (signed : Bool) (s : State) : Outcome State Fault Refusal :=
  s.onCis fun c => c.command (!c.sealed && signed) fun c =>
    { c with fwCrc := BitVec.ofNat 32 (crc32c part) }.note 0x22 c.swId.toNat true

/-- CLOCK_SETTING (R322): any setting in Open state or with an invalid clock; else adjustments of at most ±30 s in all
in any 24 h of Cistern time. `sec` counts from 2000. -/
def execClockSetting (sec : W32) (s : State) : Outcome State Fault Refusal :=
  s.onCis fun c =>
    let dst := sec.toNat + 946684800
    let d : Int := (dst : Int) - (c.clock / 1000 : Nat)
    let recent := c.adjusts.filter (fun (e : Nat × Int) => decide (c.clock < e.1 + 86400000))
    let total := recent.foldl (fun (x : Int) e => x + e.2) d
    let free := !c.sealed || c.clockBad
    let ok := free || decide (total.natAbs ≤ 30)
    let c' := c.command ok fun c =>
      let c := { c with clock := dst * 1000, clockBad := false,
                        adjusts := if free then [] else (dst * 1000, d) :: recent.map (fun (e : Nat × Int) => (((e.1 : Int) + 1000 * d).toNat, e.2)) }
      let c := (c.demShort false).profNote 3
      c.note 0x30 (toBits 32 d) true
    if c.on && c.session.isSome && !ok then c'.note 0x31 (toBits 32 d) false else c'

/-- DEMAND_RESET (R327): both seal states. -/
def execDemandReset (s : State) : Outcome State Fault Refusal :=
  s.onCis fun c => c.command true fun c =>
    let c := c.onWork fun d => { d with maxI := (0, 0), maxE := (0, 0), resets := d.resets + 1 }
    c.note 0x40 c.work.resets.toNat false

/-! ### Mailbox requests and snapshots (R332, R334, R335) -/

/-- Whether a return-lane frame has the read-request format (R334). -/
def requestOk (d : List Byte) : Bool :=
  let req := numAt d 1 1
  let count := numAt d 8 2
  d.length == 16 && numAt d 0 1 == 0x52 && decide (1 ≤ req) && decide (req ≤ 4) && decide (1 ≤ count)
    && decide (count ≤ (if req = 1 then 254 else if req = 4 then 1 else 127)) && numAt d 10 2 == 0
    && numAt d 12 4 == crc32c (d.take 12)

/-- READ_REQUEST (R334): the decoder takes a frame, queues up to 8 requests, counts further ones, and discards what is
not a request. -/
def execReadRequest (data : List Byte) (s : State) : Outcome State Fault Refusal :=
  s.onCis fun c =>
    if !c.on then c
    else if !requestOk data then c.reject
    else if 8 ≤ c.queue.length then { c with reqDropped := c.reqDropped + 1 }
    else { c with queue := c.queue ++ [⟨numAt data 1 1, numAt data 2 2, numAt data 4 4, numAt data 8 2⟩] }

/-- A reply: its 16-byte header and its records, newest first from `first` (R335). -/
def Cistern.answer (c : Cistern) (q : CisReq) : List Byte :=
  let head := fun (st n : Nat) => le 2 q.tag ++ le 1 q.req ++ le 1 st ++ le 4 q.first ++ le 2 n ++ le 6 0
  if q.req = 4 then
    let t := c.readout
    head (if 4080 < t.length then 2 else 0) 1 ++ t.take 4080
  else
    let items := if q.req = 1 then c.log.map CisRec.bytes else (vat c.work.prof (q.req - 2)).entries.map ProfEntry.bytes
    let got := (items.drop q.first).take q.count
    head (if got.length < q.count then 1 else 0) got.length ++ got.flatMap id

/-- The numbers of the legally relevant settings, of which the digest is taken (R332). -/
def CisSettings.nums (x : CisSettings) : List Int :=
  let tab := fun (l : List (Nat × Nat)) => (l.length : Int) :: l.flatMap (fun e => [(e.1 : Int), (e.2 : Int)])
  [(x.ct : Int), x.vt, x.kAct, x.kReact] ++ tab x.weekday ++ tab x.weekend
    ++ [(x.mask : Int), x.demInt, (vat x.profInt 0 : Nat), (vat x.profInt 1 : Nat), x.offset, x.dst.toNat, x.code]

/-- The bytes of a snapshot, `mirror` its mirror samples and `start` the sample position at its start (R332). -/
def Cistern.snapshot (c : Cistern) (mirror : List (List W32)) (first start : Nat) : List Byte :=
  let d := c.work
  let n := mirror.length
  let len := 384 + 32 * n + c.reply.length + 4
  let body := le 1 1 ++ le 1 1 ++ le 1 (c.sealed.toNat + 2 * c.session.isSome.toNat)
    ++ le 1 (c.clockBad.toNat + 2 * c.warn.toNat + 4 * c.fault.toNat + 8 * c.spareFor.isSome.toNat + 16 * c.calibrating.toNat)
    ++ le 4 c.seq.toNat ++ le 4 len ++ le 4 c.swId.toNat ++ le 4 c.audit.toNat ++ le 4 c.logCount.toNat
    ++ le 8 c.clock ++ le 8 start ++ le 8 first ++ le 2 n ++ le 2 c.reply.length ++ le 4 c.reqDropped.toNat
    ++ le 1 c.tariff ++ le 7 0 ++ (upto 24).flatMap (fun i => le 8 (d.reg i)) ++ padTo 32 (c.rms.flatMap (le 4))
    ++ padTo 24 (c.power.flatMap (fun x => le 4 (toBits 32 x))) ++ le 4 c.freq ++ le 4 c.rejects.toNat
    ++ le 4 (demandOf d.demAcc.1 d.demMs) ++ le 4 (demandOf d.demAcc.2 d.demMs) ++ le 4 d.maxI.1 ++ le 4 d.maxI.2
    ++ le 4 d.maxE.1 ++ le 4 d.maxE.2 ++ le 4 d.resets.toNat ++ le 2 (c.set.demInt * 60) ++ le 2 (d.demMs / 1000)
    ++ le 4 (Config.cisDigest c.set.nums).toNat
    ++ le 4 (Config.cisDigest (c.cal.toList.flatMap (fun x => [(x.gain.toNat : Int), x.phase.toNat, x.offset.toNat]))).toNat
    ++ le 4 c.set.kAct ++ le 4 c.set.kReact ++ le 4 c.set.ct ++ le 4 c.set.vt ++ le 8 0
    ++ mirror.flatMap (fun w => w.flatMap (fun x => le 4 x.toNat)) ++ c.reply
  body ++ le 4 (crc32c body)

/-- CISTERN_PERIOD_END (R315, R331, R335): the samples of the period, its frequency in mHz, and the start of the
transfer after the period's end, in 1/65,536 samples and at most 20 ms. At most one request is served. -/
def execCisternPeriodEnd (samples : List CisInput) (freq : W32) (delay : Fin 6291457) (s : State) : Outcome State Fault Refusal :=
  s.onCis fun c =>
    if !c.on then c
    else
      let r := shiftVolts c.volts (samples.take 480)
      let l := r.1
      let c := { c with tariff := c.tariffNow, volts := r.2 }
      let c := { (c.measure l) with freq := freq.toNat, clock := c.clock + 100, up := c.up + 100 }
      let c := c.profNote c.profBits
      let c := c.onWork fun d =>
        { d with demMs := d.demMs + 100, prof := vup d.prof 1 (fun p =>
            { p with n := p.n + 1, sums := (p.sums.zip ((c.rms.take 3) ++ ((c.rms.drop 4).take 3))).map (fun x => x.1 + x.2) }) }
      let mirror := l.map (fun x => (upto 8).map (fun i => c.mirrorWord i (vat x.ch i)))
      let snap := c.snapshot mirror (c.pos * 65536) ((c.pos + 480) * 65536 + delay)
      let c := { c with snap := snap, seq := c.seq + 1, pos := c.pos + 480, reply := [], calLeft := c.calLeft - 1 }
      match c.queue with
      | q :: t => { c with queue := t, reply := c.answer q }
      | [] => c

/-! ### Store, supply and restart (R314, R318, R322, R325) -/

/-- CISTERN_STORE (R318): once per second. -/
def execCisternStore (s : State) : Outcome State Fault Refusal :=
  s.onCis fun c =>
    if c.on && decide (c.storedAt + 1000 ≤ c.up) then
      { c with stored := c.work, storedAt := c.up, clockSaved := c.clock / 1000 * 1000 }
    else c

/-- CISTERN_SUPPLY_LOSS (R318): the state is stored once more and the Cistern stops. -/
def execCisternSupplyLoss (s : State) : Outcome State Fault Refusal :=
  s.onCis fun c =>
    if c.on then
      let c := c.note 2 0 false
      { c with on := false, stored := c.work, clockSaved := c.clock / 1000 * 1000, session := none, queue := [], reply := [],
               optical := [], refused := false }
    else c

/-- The slices at power-up: the spare replaces the first that fails, a further one makes its channel invalid (R314). -/
def Cistern.takeSlices (c : Cistern) (points : Vector CalPoints 9) : Cistern :=
  let bad := fun (i : Nat) => (calFactors (vat points i)).isNone
  let c := { c with spareFor := none, dead := Vector.replicate 8 false, warn := false, spareAt := 0,
                    spare0 := ((vat points 8).zero, (vat points 8).plus) }
  let c := if bad 8 then c.note 0x60 8 false else c
  (upto 8).foldl (fun (c : Cistern) i =>
    if !bad i then c
    else
      let c := c.note 0x60 i false
      if c.spareFor.isNone && !bad 8 then { c with spareFor := some i }
      else { c with dead := vput c.dead i true }.note 0x62 i false) c

/-- CISTERN_POWER_UP (R314, R318, R322, R323): the calibration points of its nine slices, the length of the outage in
ms, and whether its backup has held the clock; it holds for at least 7 days. -/
def execCisternPowerUp (points : Vector CalPoints 9) (outage : W64) (kept : Bool) (s : State) : Outcome State Fault Refusal :=
  s.onCis fun c =>
    if c.on then c
    else
      let held := kept || decide (outage.toNat ≤ 604800000)
      let c := { c with on := true, up := 0, calLeft := 3, work := c.stored, storedAt := 0, seq := 0, pos := 0,
                        volts := Vector.replicate 3 [], swId := c.fwCrc, clock := if held then c.clock + outage.toNat else c.clockSaved,
                        clockBad := c.clockBad || !held }
      let c := c.note 1 (min 0xFFFFFFFF (outage.toNat / 1000)) false
      ((c.takeSlices points).demShort false).profNote 5

/-- CISTERN_WATCHDOG_RESTART (R325): the core restarts; no register decreases (R318). -/
def execCisternWatchdogRestart (s : State) : Outcome State Fault Refusal :=
  s.onCis fun c => if c.on then { c with session := none }.note 0x70 0 false else c

/-- SPARE_CHECK (R314): every 60 s the spare measures zero and +0.9 × range; while it replaces a slice it makes no
check. -/
def execSpareCheck (zero plus : Int) (s : State) : Outcome State Fault Refusal :=
  s.onCis fun c =>
    if c.on && c.spareFor.isNone && decide (c.spareAt + 60000 ≤ c.up) then
      let far : Bool := decide (10000 * (zero - c.spare0.1).natAbs > 2 * rangeCode) || decide (10000 * (plus - c.spare0.2).natAbs > 2 * c.spare0.2.natAbs)
      let c' := { c with spareAt := c.up, warn := far }
      if far == c.warn then c' else c'.note 0x61 far.toNat false
    else c

end Sys2Proof.Machine
end

