-- ==== Sys2Proof/Machine/Compare.lean ====
section
/-! DEFINITION. The compare units of the wall clock and of the angle clocks, and the ends of auxiliary conversions
(R67 to R71, R99 to R105, R141, R148). -/

namespace Sys2Proof.Machine

open Host

/-! ### Wall compare units (R67 to R70) -/

/-- Whether a release of the old image does not occur: the switch of its task is due by then (R416). -/
def App.relHeld (a : App) (t ts : Nat) : Bool :=
  match a.ctl.skim with
  | some k => (a.get Reg.CSC_SKSTAT_phase == 3 || (a.get Reg.CSC_SKSTAT_phase == 2 && (k.switchCmd.isSome || a.on Reg.CSC_SKSTAT_reverse)))
      && decide (a.get Reg.CSC_SKTSW_t_sw ≤ ts) && !mapUnchanged k.map t
      && (match a.runImage.task t with
        | some e => tkTrigger e == 0
        | none => false)
  | none => false

/-- The signal of a wall firing that serves a target (R68, R69). -/
def App.wallSignal (a : App) (n target period : Nat) : App :=
  let i := a.get (Reg.TIM_CMP_CTL_dest_index n)
  match a.get (Reg.TIM_CMP_CTL_dest n) with
  | 1 => a.auxStartSeq (i % 16)
  | 2 => if a.relHeld i target then a else a.unitRelease i { ts := target % 2 ^ 64, tq := a.tqc, tsc := a.tsc }
  | 3 => a.canCycle i target period
  | 4 => a.openWindow (i % 32) 0
  | 5 => a.onTim fun t => { t with irq := vput t.irq n (some target) }
  | _ => a

/-- Whether a wall unit fires now: its target is reached and not yet served, or a write or a step made it late (R68 to R70). -/
def App.wallDue (a : App) (n : Nat) : Bool :=
  a.on (Reg.TIM_CMP_CTL_en n) && (vat a.tim.lateReq n || (!vat a.tim.served n && decide (a.cmpTarget n ≤ a.now)))

/-- A firing: late is set, the targets passed are skipped but for the latest, which the firing serves, and the next target
follows; a one-shot unit has served its target (R69, R70). -/
def App.wallFire (a : App) (n : Nat) : App :=
  let t := a.cmpTarget n
  let per := a.get (Reg.TIM_CMP_PER_period_ns n)
  let late := vat a.tim.lateReq n
  let k := if per = 0 then 1 else (a.now - t) / per + 1
  let a := a.onTim fun x => { x with lateReq := vput x.lateReq n false, served := vput x.served n (per == 0) }
  let a := if late then a.raise (Reg.TIM_CMP_CTL_late n) else a
  let a := if per = 0 then a
    else
      let u := t + k * per
      ((a.set (Reg.TIM_CMP_TGT_S_tgt_s n) (u / 1000000000)).set (Reg.TIM_CMP_TGT_NS_tgt_ns n) (u % 1000000000)).satAdd (Reg.TIM_CMP_CTL_skipped n) (k - 1)
  a.wallSignal n (t + (k - 1) * per) per

/-- WALL_COMPARE_FIRE (R68). -/
def execWallCompareFire (unit : Fin 16) (s : State) : Outcome State Fault Refusal :=
  s.onApp fun a => if a.wallDue unit then a.wallFire unit else a

/-! ### Angle compare units (R99 to R105) -/

/-- Whether an angle unit other than the Sluice tick fires now: late, from the CIC period on that a write or an alignment gave, or
at its target, not yet served (R100, R103, R104). -/
def App.angDue (a : App) (b u : Nat) : Bool :=
  let c := vat a.clk b
  c.st != .off && a.on (Reg.ANG_CMP_CTL_en b u) && (match vat c.lateReq u with
    | some p => decide (p ≤ a.sig.periods)
    | none => !vat c.served u && reached48 (a.a48 b) (a.angTarget b u))

/-- Whether a unit fires in the CIC period in progress, or is due and has not fired (R103). -/
def App.angSoon (a : App) (b u : Nat) : Bool :=
  let c := vat a.clk b
  c.st != .off && a.on (Reg.ANG_CMP_CTL_en b u) && (match vat c.lateReq u with
    | some p => decide (p ≤ a.sig.periods)
    | none => !vat c.served u && reached48 ((c.acc + c.inc - 1) / 2 ^ 32 % 2 ^ 48) (a.angTarget b u))

/-- The signal of an angle firing that serves a target (R101). -/
def App.angSignal (a : App) (b u target : Nat) (late : Bool) : App :=
  let i := a.get (Reg.ANG_CMP_CTL_dest_index b u)
  match a.get (Reg.ANG_CMP_CTL_dest b u) with
  | 2 => a.brkFire b u late
  | 3 => a.unitRelease i { ts := a.w64, tq := a.tqc, tsc := a.tsc, a48 := target, aq := a.aq b }
  | 4 => a.openWindow (i % 32) (a.aq b)
  | 5 => a.onClk b fun c => { c with irq := vput c.irq u (some (target, c.st.code)) }
  | _ => a

/-- A firing of an angle unit (R100, R103, R104). -/
def App.angFire (a : App) (b u : Nat) : App :=
  let t := a.angTarget b u
  let per := a.get (Reg.ANG_CMP_PER_period_au b u)
  let late := (vat (vat a.clk b).lateReq u).isSome
  let k := if per = 0 then 1 else ((a.a48 b + 2 ^ 48 - t) % 2 ^ 48) / per + 1
  let a := a.onClk b fun x => { x with lateReq := vput x.lateReq u none, served := vput x.served u (per == 0), nextFrom := vput x.nextFrom u none }
  let a := if late then a.raise (Reg.ANG_CMP_CTL_late b u) else a
  let a := if per = 0 then a else (a.set (Reg.ANG_CMP_TGT_tgt b u) ((t + k * per) % 2 ^ 48)).satAdd (Reg.ANG_CMP_CTL_skipped b u) (k - 1)
  a.angSignal b u ((t + (k - 1) * per) % 2 ^ 48) late

/-! ### Auxiliary conversions -/

/-- What the end of a conversion gives beside its record: points, and the records of a field supply (R148, R449). -/
def App.auxGives (a : App) (c : AuxConv) : App :=
  match c.src with
  | .seq q j => a.auxPoints (16 * q + j)
  | .urgent => if c.slot.input = 4 ∨ c.slot.input = 5 then a.fsConverted (c.slot.input - 4) else a
  | _ => a

/-- AUX_CONVERSION_END (R141): (N + 2) / 7,200 s after its start, with its N base samples. -/
def execAuxConversionEnd (samples : List (BitVec 24)) (s : State) : Outcome State Fault Refusal :=
  s.onApp fun a =>
    match a.ana.aux.running with
    | some c =>
      if a.ana.aux.heldTo.isNone && samples.length == c.slot.n && a.since c.startAt (convTicks c.slot.n) then
        (a.auxEnd c (samples.map (·.toInt))).auxGives c
      else a
    | none => a

end Sys2Proof.Machine
end

