-- ==== Sys2Proof/Machine/Mailbox.lean ====
section
/-! DEFINITION. The application side of the Cistern mailbox: received snapshots, the stamp fit, the mirror, and read
requests (R21, R23, R331 to R337). -/

namespace Sys2Proof.Machine

open Host

/-- A change to the mailbox. -/
def App.onMbox (a : App) (f : MboxSt → MboxSt) : App := { a with mbox := f a.mbox }

/-- Whether a received frame is a valid snapshot: kind, version, length and CRC (R331, R332). -/
def snapOk (d : List Byte) : Bool :=
  decide (388 ≤ d.length) && numAt d 0 1 == 1 && numAt d 1 1 == 1 && numAt d 8 4 == d.length
    && 384 + 32 * numAt d 48 2 + numAt d 50 2 + 4 == d.length && numAt d (d.length - 4) 4 == crc32c (d.take (d.length - 4))

/-- The stamp of a sample position in 2^-16 samples by the fit of up to 16 snapshots: least squares, and the nominal rate
from a single one (R333). -/
def fitStamp (l : List (Nat × Nat)) (x : Nat) : Int :=
  match l with
  | [] => 0
  | [(x0, y0)] => (y0 : Int) + divRound (((x : Int) - x0) * 1000000000) (4800 * 65536)
  | (x0, y0) :: _ =>
    let p : List (Int × Int) := l.map (fun e => ((e.1 : Int) - x0, (e.2 : Int) - y0))
    let n : Int := p.length
    let sx := p.foldl (fun s e => s + e.1) 0
    let sy := p.foldl (fun s e => s + e.2) 0
    let sxx := p.foldl (fun s e => s + e.1 * e.1) 0
    let sxy := p.foldl (fun s e => s + e.1 * e.2) 0
    let d := n * sxx - sx * sx
    (y0 : Int) + divRound (sy * d + (n * sxy - sx * sy) * (n * ((x : Int) - x0) - sx)) (n * d).toNat

/-- A snapshot stamped: the fit starts anew where the sample position does not rise, as after a restart of the Cistern
(R333). -/
def pushFit (l : List (Nat × Nat)) (x y : Nat) : List (Nat × Nat) :=
  match l with
  | (x0, _) :: _ => if x ≤ x0 then [(x, y)] else ((x, y) :: l).take 16
  | [] => [(x, y)]

/-- The mirror words of a snapshot's sample i, at least questionable while the fit is short (R333). -/
def mirrorWords (d : List Byte) (short : Bool) (i : Nat) : List W32 :=
  (upto 8).map (fun c =>
    let w := BitVec.ofNat 32 (numAt d (384 + 32 * i + 4 * c) 4)
    let q := worseQual (wordQual w) 1
    if short then BitVec.ofNat 32 (w.toNat / 8 * 8 + q) else w)

/-- The points of kind 6 take their fields (R345). -/
def App.snapPoints (a : App) (d : List Byte) : App :=
  (upto a.ctl.points.length).foldl (fun a i =>
    let p := a.point i
    if p.kind = 6 then
      a.putPoint i (typeValue p.typ (BitVec.ofNat 64 (numAt d p.writer (typeWidth p.typ)))) 0 a.w64 a.tqc a.tsc
    else a) a

/-- The registers that follow the latest snapshot (R337). -/
def App.showSnap (a : App) (d : List Byte) : App :=
  let st := numAt d 3 1
  let a := ((a.setB Reg.CIS_STAT_silent false).setB Reg.CIS_STAT_sealed (bitOf (numAt d 2 1) 0)).setB Reg.CIS_STAT_fit_ok (4 ≤ a.mbox.fit.length)
  let a := ((a.setB Reg.CIS_STAT_clock_invalid (bitOf st 0)).setB Reg.CIS_STAT_meas_warn (bitOf st 1)).setB Reg.CIS_STAT_meas_fault (bitOf st 2)
  let a := ((a.wrapAdd Reg.CIS_RXCNT_received 1).set Reg.CIS_SEQ_seq (numAt d 4 4)).set Reg.CIS_SWID_sw_id (numAt d 12 4)
  ((a.set Reg.CIS_AUDIT_audit (numAt d 16 4)).set Reg.CIS_REQCNT_dropped (numAt d 52 4)).set Reg.CIS_REJECT_rejects (numAt d 316 4)

/-- The count of requests in progress, up to 8 in the decoder (R337). -/
def App.showReqs (a : App) : App := a.set Reg.CIS_STAT_pending (min 8 a.mbox.reqs.length)

/-- A request becomes final. -/
def App.endReq (a : App) (q : MboxReq) (st : Nat) (result : List Byte) : App :=
  ((a.onMbox fun m => { m with reqs := m.reqs.filter (fun x => x != q) }).showReqs).finish q.hdr 0x0502 st 0 result false

/-- The reply in a snapshot completes its request with the reply's bytes (R335, R488). -/
def App.takeReply (a : App) (d : List Byte) : App :=
  let r := bytesAt d (384 + 32 * numAt d 48 2) (numAt d 50 2)
  if r.length < 16 then a
  else
    match a.mbox.reqs.find? (fun q => q.tag == numAt r 0 2 && q.req == numAt r 2 1) with
    | some q =>
      match a.outData q.hdr q.out r with
      | (a, .final st res) => a.endReq q st res
      | (a, .later) => a
    | none => a

/-- A rise of req_dropped: each further count is a request beyond the eight queued (R334, R499). -/
def App.loseReqs (a : App) : Nat → App
  | 0 => a
  | n + 1 =>
    match a.mbox.reqs[min 8 (a.mbox.reqs.length - 1)]? with
    | some q => (a.endReq q Status.cisLost []).loseReqs n
    | none => a

/-- The event of silence (item 0) or of a seal change (item 1), class 23 (R502). -/
def App.postCis (a : App) (item old new : Nat) : App := a.postState 23 item old new 0

/-- A valid snapshot, its start delimiter received at the wall instant `start` (R331, R333, R337). -/
def App.snapTake (a : App) (d : List Byte) (start : Nat) : App :=
  let was := a.on Reg.CIS_STAT_sealed
  let silent := a.on Reg.CIS_STAT_silent
  let first := a.mbox.latest.isEmpty
  let y := start - (a.get Reg.CIS_LAT_lane_lat + 8) / 16
  let drops := match a.mbox.dropped with
    | some n => (numAt d 52 4 + 2 ^ 32 - n) % 2 ^ 32
    | none => 0
  let a := a.onMbox fun m => { m with latest := d, rxAt := a.tick, fit := pushFit m.fit (numAt d 32 8) y, dropped := some (numAt d 52 4) }
  let a := a.showSnap d
  let now := a.on Reg.CIS_STAT_sealed
  let a := if silent && !first then a.postCis 0 1 0 else a
  let a := if was != now && !first then (a.postCis 1 was.toNat now.toNat).postMode 4 0 was.toNat now.toNat else a
  let short := decide (a.mbox.fit.length < 4)
  let fit := a.mbox.fit
  let new := (upto (numAt d 48 2)).map (fun i =>
    (⟨(fitStamp fit (numAt d 40 8 + 65536 * i)).toNat, a.tqc, a.tsc, mirrorWords d short i⟩ : MirrorSample))
  let a := a.onCap fun c =>
    { c with mirror := (new.reverse ++ c.mirror).take 4800, mirrorAt := if new.isEmpty then c.mirrorAt else some a.tick }
  (((a.snapPoints d).loseReqs (min 64 drops)).takeReply d)

/-- SNAPSHOT_RX (R331): a snapshot received on the forward lane, and the wall instant of its start delimiter. -/
def execSnapshotRx (data : List Byte) (start : W64) (s : State) : Outcome State Fault Refusal :=
  s.onApp fun a => if snapOk data then a.snapTake data start.toNat else a.satAdd Reg.CIS_RXCNT_crc_errors 1

/-- CISTERN_SILENT (R23): no snapshot for three intervals of 100 ms. -/
def execCisternSilent (s : State) : Outcome State Fault Refusal :=
  s.onApp fun a =>
    if !a.on Reg.CIS_STAT_silent && a.since a.mbox.rxAt (300 * tMs) then (a.setB Reg.CIS_STAT_silent true).postCis 0 0 1 else a

/-- READ_SNAPSHOT: a copy of the latest snapshot, empty before the first one (R336). -/
def opReadSnapshot (h : CmdHdr) (out : Out) (a : App) : App × Reply := a.outData h out a.mbox.latest

/-- READ_SNAPSHOT (R336). -/
def execReadSnapshot (h : CmdHdr) (out : Out) (s : State) : Outcome State Fault Refusal :=
  s.onApp fun a => a.process h (.readSnapshot out) (outRange out) [] (opReadSnapshot h out)

/-- The 16-byte read-request frame (R334). -/
def requestFrame (req tag first count : Nat) : List Byte :=
  withCrc (le 1 0x52 ++ le 1 req ++ le 2 tag ++ le 4 first ++ le 2 count ++ le 2 0)

/-- The effect of CISTERN_REQUEST: a frame on the return lane under a tag of its own (R334). -/
def opCisternRequest (h : CmdHdr) (out : Out) (req : Byte) (count : W16) (first : W32) (a : App) : App × Reply :=
  let t := a.mbox.tag
  let a := a.send ⟨8, 0, requestFrame req.toNat t first.toNat count.toNat⟩
  let a := a.onMbox fun m => { m with tag := (t + 1) % 65536, reqs := m.reqs ++ [⟨h, out, t, req.toNat, a.tick⟩] }
  ((a.wrapAdd Reg.CIS_REQCNT_sent 1).showReqs, .later)

/-- CISTERN_REQUEST (R334, R336). -/
def execCisternRequest (h : CmdHdr) (out : Out) (req : Byte) (count : W16) (first : W32) (s : State) : Outcome State Fault Refusal :=
  s.onApp fun a => a.process h (.cisternRequest out req count first)
    (firstFail [(0, out.addr.toNat % 64 = 0), (2, 1 ≤ req.toNat ∧ req.toNat ≤ 4),
                (3, 1 ≤ count.toNat ∧ count.toNat ≤ (if req = 1#8 then 254 else if req = 4#8 then 1 else 127))]) []
    (opCisternRequest h out req count first)

/-- CIS_REQUEST_TIMEOUT (R499): a request has had no answer for 2 s. -/
def execCisRequestTimeout (s : State) : Outcome State Fault Refusal :=
  s.onApp fun a =>
    match a.mbox.reqs.find? (fun q => a.since q.at_ (2 * tS)) with
    | some q => a.endReq q Status.cisLost []
    | none => a

end Sys2Proof.Machine
end

