-- ==== Sys2Proof/Machine/Matrix.lean ====
section
/-! DEFINITION. The matrix scan: protection states in force, rows, and everything that takes its value from a scan
(R246 to R250, R396, R531, R604 to R608). -/

namespace Sys2Proof.Machine

open Host

/-- The asserted inputs of a bay, rising (R607). -/
def App.bayAsserted (a : App) (b : Nat) : List Nat := a.slu.inputs.filter (a.inputOf b)

/-- The protection states of GLB_MODE come into force (R607, R608): a changed bay posts class 17, and the asserted inputs
of a bay that enters In service are held. -/
def App.protApply (a : App) : App :=
  let new := a.get Reg.GLB_MODE_prot
  let old := a.trp.prot
  let a := a.onTrp fun t => { t with held := t.held.filter a.inp }
  if new = old then a
  else
    let a := a.onTrp fun t => { t with prot := new }
    let a := (upto 4).foldl (fun a b =>
      let was := bitsOf old (2 * b) 2
      let now := bitsOf new (2 * b) 2
      if was = now then a
      else
        let a := if now = 0 then
            a.onTrp fun t => { t with held := (a.bayAsserted b).foldl (fun l i => insertNat i l) t.held }
          else a.onTrp fun t => { t with held := t.held.filter (fun i => !a.inputOf b i) }
        a.postMode 1 b was now) a
    a.simEnd

/-- The scan joins the history of 60 ms from which frames take their digital words (R274, R276). -/
def App.scanNote (a : App) : App :=
  a.onCap fun c => { c with scans := ⟨a.now, a.tick, a.scanInputs⟩ :: c.scans.filter (fun x => !a.since x.tick (60 * tMs)) }

/-- The rows of a scan, read from the inputs as they stand, and the test links (R248, R249, R606). -/
def App.scanRows (a : App) : App :=
  let rows := bitsNat 128 a.rowOut
  let links := a.links
  let a := a.onTrp fun t => { t with rows := rows, linked := links, scanAt := a.tick }
  (upto 4).foldl (fun a w => a.set (Reg.GLB_TLINK_linked w) (bitsOf links (32 * w) 32)) a

/-- The edges of rows 104 to 127 reach the routing table (R396). -/
def App.scanRoutes (a : App) (before : Nat) : App :=
  (upto 24).foldl (fun a i =>
    let now := bitOf a.trp.rows (104 + i)
    if bitOf before (104 + i) == now then a else a.route i now false) a

/-- One matrix scan: rows first, then what takes them: trip channels, breaker controllers, field channels, publications,
the Cascade and the CAN buses; the digital trigger units see the inputs. -/
def App.scan (a : App) : App :=
  let a := ((a.access .matrix .sharedSram 64).protApply.scanNote).trigScan
  let before := a.trp.rows
  let a := a.scanRows
  let a := (upto 8).foldl App.chScan a
  let a := (upto 4).foldl App.brkScan a
  (a.fioAll.pubScan.scanRoutes before).canShow

/-- MATRIX_SCAN (R249): once every 1 µs. -/
def execMatrixScan (s : State) : Outcome State Fault Refusal :=
  s.onApp fun a => if a.since a.trp.scanAt tUs then a.scan else a

end Sys2Proof.Machine
end

