-- ==== Sys2Proof/Machine/Setup.lean ====
section
/-! DEFINITION. Accesses to the setup registers: what refuses a write and in which order, what an accepted write does,
and the reads (R6, R15, R16, R454 to R461, R571, R637). -/

namespace Sys2Proof.Machine

open Host

/-! ### Register values -/

/-- Where the table data registers lie (R540, R563). -/
def ethDataAt : Nat := 0xE084
def canDataAt : Nat := 0xF384

/-- The table addresses, in bytes (R528, R563). -/
def App.ethAddr (a : App) : Nat := 4 * a.get Reg.ETH_TBLADDR_addr
def App.canAddr (a : App) : Nat := 4 * a.get Reg.CAN_TBLADDR_addr

/-- The table address after a data access: 4 bytes on, and from the last word to the first. -/
def App.ethNext (a : App) : App := a.set Reg.ETH_TBLADDR_addr ((a.get Reg.ETH_TBLADDR_addr + 1) % 23808)
def App.canNext (a : App) : App := a.set Reg.CAN_TBLADDR_addr ((a.get Reg.CAN_TBLADDR_addr + 1) % 24576)

/-- Whether a stored field counts in the configuration fingerprint: all but the PAR_ registers, tcs_role and HCX_ROLE
(R571). -/
def covered (b : Nat) : Bool :=
  fieldStored b && !(0x10000 * 8 ≤ b && b < 0x11000 * 8) && !(0xC000 * 8 ≤ b && b < 0xC020 * 8)
    && !(upto 8).any (fun n => (Reg.TRP_CHCFG_tcs_role n).bit == b)
    && (match fieldOfBit b with
        | some f => f.acc == .rwc
        | none => false)

/-- The configuration fingerprint (R571). -/
def App.cfgFp (a : App) : Nat :=
  let cells := (a.regs.filter (fun c => covered c.1)).flatMap (fun c => [c.1, c.2])
  let tables := (a.eth.tbl ++ a.can.tbl).flatMap (fun c => [c.1, c.2])
  let curves := a.slu.curves.toList.map (fun o => o.getD [])
  (Config.cfgCrc ((a.lcy :: cells) ++ tables)).toNat * 2 ^ 32 + (Config.settingsCrc (a.slu.descs.map (·.2) ++ curves)).toNat

/-- A field as it reads now: table data from the table, the fingerprint computed, the rest from the register file. -/
def App.fieldNow (a : App) (b : Nat) : Nat :=
  if b = 8 * ethDataAt then a.ethRead a.ethAddr
  else if b = 8 * canDataAt then a.canRead a.canAddr
  else if b = Reg.PAR_FP_cfg_fp.bit then a.cfgFp
  else if b = Reg.CAP_STAT_cis_silent.bit then a.mirrorSilent.toNat
  else if let some n := (upto 4).find? (fun n => b == (Reg.ANA_FSTAT_cal_overdue n).bit) then (a.overdue n).toNat
  else if let some i := (upto 36).find? (fun i => b == (Reg.ANA_CAL_OFS_age i).bit) then a.sliceAge i
  else a.regs.get b

/-- A register as it reads: reserved bits and write-only fields are 0 (R6, R15). -/
def App.regValue (a : App) (o : Nat) (r : RegDef) : Nat :=
  r.fields.foldl (fun n f => if f.acc = .wo then n else n + a.fieldNow (8 * o + f.lo) * 2 ^ f.lo) 0

/-- The doubleword at an offset: a register, the high half of a 64-bit register, or 0 (R459, R637). -/
def App.doubleword (a : App) (o : Nat) : Nat :=
  match regAt o with
  | some r => a.regValue o r % 2 ^ 32
  | none =>
    match regAt (o - 4) with
    | some r => if r.wide && 4 ≤ o then a.regValue (o - 4) r / 2 ^ 32 else 0
    | none => 0

/-! ### What refuses a write (R461) -/

/-- Whether a value of a field of `w` bits may be written (R6). -/
def Limit.ok (l : Limit) (w v : Nat) : Bool :=
  match l with
  | .any => true
  | .range lo hi => decide (lo ≤ v) && decide (v ≤ hi)
  | .zeroOr lo hi => v == 0 || (decide (lo ≤ v) && decide (v ≤ hi))
  | .signed n m => decide ((asSigned n v).natAbs ≤ m)
  | .pairsBelow3 => (upto (w / 2)).all (fun i => bitsOf v (2 * i) 2 != 3)

/-- Whether a write changes an RWC field that satisfies a condition on its bit address (R16). -/
def App.changes (a : App) (o v : Nat) (r : RegDef) (p : Nat → Bool) : Bool :=
  r.fields.any (fun f => f.acc == .rwc && bitsOf v f.lo f.w != a.fieldNow (8 * o + f.lo) && p (8 * o + f.lo))

/-- The compare unit that a register belongs to: a wall unit, or a unit of an angle clock (R74, R107). -/
def wallUnit (o : Nat) : Option Nat := if 0x2100 ≤ o ∧ o < 0x2300 then some ((o - 0x2100) / 0x20) else none
def angleUnit (o : Nat) : Option (Nat × Nat) :=
  if 0x3000 ≤ o ∧ o < 0x3400 ∧ 0x40 ≤ o % 0x100 ∧ o % 0x100 < 0xC0 then some ((o - 0x3000) / 0x100, (o % 0x100 - 0x40) / 0x10) else none

/-- Whether the unit of a register has its own bit set (R71, R105). -/
def App.unitOwned (a : App) (o : Nat) : Bool :=
  match wallUnit o, angleUnit o with
  | some n, _ => a.on (Reg.TIM_CMP_CTL_own n)
  | none, some (b, u) => a.on (Reg.ANG_CMP_CTL_own b u)
  | none, none => false

/-- The offset of a register of context `k` within its window. -/
def windowOff (k o : Nat) : Nat := o - (0x20000 + 0x4000 * k)

/-- Whether a register is a ring register of R466: HCX_DBADDR, HCX_WBADDR, HCX_POLL, HCX_RBASE and HCX_RCFG. -/
def ringReg (k o : Nat) : Bool :=
  0x20000 ≤ o && (let w := windowOff k o
    w == 8 || w == 0x10 || w == 0x18 || (0x100 ≤ w && w < 0x1B0 && (w % 0x10 == 0 || w % 0x10 == 8)))

/-- A destination index within its destination's range (R68, R101). -/
def destOk (wall : Bool) (dest index : Nat) : Bool :=
  if wall then (if dest = 1 then index ≤ 15 else if dest = 3 then index ≤ 9 else if dest = 4 then index ≤ 31 else true)
  else if dest = 4 then index ≤ 31 else if dest = 2 then index ≤ 1 else true

/-- A value that R6 refuses by a bound that depends on another field. -/
def App.crossBad (a : App) (o v : Nat) : Bool :=
  if (wallUnit o).isSome ∧ o % 0x20 = 0x18 then !destOk true (bitsOf v 1 4) (bitsOf v 8 6)
  else if (angleUnit o).isSome ∧ o % 0x10 = 0xC then !destOk false (bitsOf v 1 4) (bitsOf v 8 6)
  else if 0x7200 ≤ o ∧ o < 0x7300 ∧ o % 0x40 = 0x0C then bitsOf v 16 16 < bitsOf v 0 16
  else if 0x7200 ≤ o ∧ o < 0x7300 ∧ (o % 0x40 = 0x10 ∨ o % 0x40 = 0x14) then
    let b := (o - 0x7200) / 0x40
    bitsOf v 0 18 < 10 * a.get (Reg.TRP_BKLIM_t_op_min b) || 10 * a.get (Reg.TRP_BKLIM_t_op_max b) < bitsOf v 0 18
  else if 0x8080 ≤ o ∧ o < 0x80C0 ∧ o % 8 = 0 then bitsOf v 8 7 ≤ bitsOf v 16 7 || decide (100 < bitsOf v 8 7)
  else if 0x8400 ≤ o ∧ o < 0x8C00 ∧ o % 0x40 = 0 then !bitOf v 5 && decide (31 < bitsOf v 6 12)
  else if 0x8400 ≤ o ∧ o < 0x8C00 ∧ 0x20 ≤ o % 0x40 then
    [0, 16].any (fun h => bitOf v (h + 12) && decide (31 < bitsOf v h 12))
  else if 0x8100 ≤ o ∧ o < 0x8120 ∧ o % 8 = 0 then bitOf v 0 && bitsOf v 16 16 == 0
  else if 0x8C10 ≤ o ∧ o < 0x8C90 then
    let b := (o - 0x8C10) / 0x20
    let w := (o - 0x8C10) % 0x20
    a.on (Reg.CAP_TWCFG_peer_en b) && ((w == 8 && bitsOf v 0 14 == 0) || (w == 0xC && bitsOf v 0 32 == 0))
  else if 0xB100 ≤ o ∧ o < 0xB500 ∧ o % 0x20 = 8 then bitsOf v 8 8 ≤ bitsOf v 0 8
  else if o = 0x10000 then bitOf v 0 && bitsOf v 8 14 == 0
  else if o = 0x10010 then
    let e := bitsOf v 0 48 * 1000000000
    e ≤ a.now || a.now + 86400000000000 < e
  else false

/-- Whether en written 1 meets a context that cannot be enabled (R469). -/
def App.enableBad (a : App) (k o v : Nat) : Bool :=
  0x20000 ≤ o && windowOff k o == 0 && bitOf v 0 && a.get (Reg.HCX_STAT_state k) == 0 && !a.ctxReady k

/-- Whether a write would leave no context with an active or configured setup bit (R457). -/
def App.lastPrivileged (a : App) (o v : Nat) : Bool :=
  0xC000 ≤ o && o < 0xC020 &&
    !(upto 8).any (fun k =>
      let here := (o - 0xC000) / 4 == k
      let set := if here then bitOf v 3 else a.on (Reg.HCX_ROLE_setup k)
      set || (a.on (Reg.HCX_ROLE_active_setup k) && !here))

/-- The producers of the stream rings that are enabled: capture subscription s as s, CAN subscription s as 8 + s, each
with its context and ring (R481). -/
def App.producers (a : App) : List (Nat × Nat × Nat) :=
  ((upto 8).filter (fun s => a.on (Reg.CAP_SUB_en s))).map
      (fun s => (s, 4 * a.get (Reg.CAP_SUB_port s) + a.get (Reg.CAP_SUB_ctx s), a.get (Reg.CAP_SUB_ring s)))
    ++ ((upto 4).filter (fun s => a.on (Reg.CAN_SUB_en s))).map
      (fun s => (8 + s, 4 * a.get (Reg.CAN_SUB_port s) + a.get (Reg.CAN_SUB_ctx s), a.get (Reg.CAN_SUB_ring s)))

/-- Whether a write of subscription `s` would give a ring a second enabled producer. -/
def App.ringTaken (a : App) (s v : Nat) : Bool :=
  bitOf v 0 && a.producers.any (fun p => p.1 != s && p.2.1 == 4 * bitsOf v 1 1 + bitsOf v 2 2 && p.2.2 == bitsOf v 4 3)

/-- Whether a bit-timing write of a bus is refused (R544). -/
def App.canTimingBad (a : App) (b : Nat) (data : Bool) (v : Nat) : Bool :=
  let g := fun (f : Fld) (lo : Nat) (own : Bool) => if own then bitsOf v lo f.w else a.get f
  a.on (Reg.CAN_CFG_en b) ||
    !canTimingOk (g (Reg.CAN_NBT_brp b) 0 (!data)) (g (Reg.CAN_NBT_tseg1 b) 5 (!data)) (g (Reg.CAN_NBT_tseg2 b) 13 (!data))
      (g (Reg.CAN_NBT_sjw b) 20 (!data)) (g (Reg.CAN_DBT_brp b) 0 data) (g (Reg.CAN_DBT_tseg1 b) 5 data)
      (g (Reg.CAN_DBT_tseg2 b) 10 data) (g (Reg.CAN_DBT_sjw b) 14 data)

/-- The rules of the registers' own chapters that a write breaks: admission (R195, R641), unit 0 and dests 1 and 2 of an
angle clock (R102, R105), DEC_AVG (R159), triggers (R281), joined outputs (R442), the setup bit (R456), stream rings
(R481), tables (R529, R557) and bit timing (R544). -/
def App.chapterBad (a : App) (o v : Nat) (chg : Bool) : Bool :=
  match angleUnit o with
  | some (b, u) =>
    if u = 0 then chg
    else o % 0x10 == 0xC && (bitsOf v 1 4 == 1 || (bitsOf v 1 4 == 2 && a.get (Reg.ANG_CMP_CTL_dest b u) != 2))
  | none =>
    if 0x3000 ≤ o ∧ o < 0x3400 ∧ o % 0x100 = 0 then
      let n := (o - 0x3000) / 0x100
      bitOf v 0 && !a.on (Reg.ANG_CFG_en n) && (overload a.slu.descs (fun b => b == n || a.clkOn b) a.groupsAhead a.defaultGroup).isSome
    else if 0x6040 ≤ o ∧ o < 0x6050 then
      let n := (o - 0x6040) / 4
      let d := fun b => if b = n then bitsOf v 0 3 else a.defaultGroup b
      bitsOf v 0 3 != a.defaultGroup n && ((overload a.slu.descs a.clkOn a.groupsAhead d).isSome || claimedTwice a.slu.descs d != [])
    else if o = 0x5000 then !decAvgOk (bitsOf v 0 8) (bitsOf v 8 4) (bitsOf v 12 18)
    else if 0x8400 ≤ o ∧ o < 0x8C00 ∧ o % 0x40 = 0 then (bitsOf v 1 3 == 1 || bitsOf v 1 3 == 3) && bitOf v 5
    else if 0xB100 ≤ o ∧ o < 0xB500 ∧ o % 0x20 = 0 then a.fioCfgBad ((o - 0xB100) / 0x20) v
    else if 0xC000 ≤ o ∧ o < 0xC020 then bitOf v 3 && bitsOf v 0 3 != 1 && bitsOf v 0 3 != 4
    else if 0x8080 ≤ o ∧ o < 0x80C0 then a.ringTaken ((o - 0x8080) / 8) v
    else if 0xF300 ≤ o ∧ o < 0xF320 then a.ringTaken (8 + (o - 0xF300) / 8) v
    else if 0xF000 ≤ o ∧ o < 0xF300 ∧ (o % 0x40 = 4 ∨ o % 0x40 = 8) then a.canTimingBad ((o - 0xF000) / 0x40) (o % 0x40 == 8) v
    else if o = ethDataAt then (a.ethWrite a.ethAddr v).isNone
    else if o = canDataAt then (a.canWrite a.canAddr v).isNone
    else false

/-- The reason that refuses a write of context `k`, if any: the first that applies in the order of R461. -/
def App.writeReason (a : App) (k o w v : Nat) : Option Nat :=
  if 0x20000 ≤ o && o < 0x40000 && (o - 0x20000) / 0x4000 != k then some 8
  else
    match regAt o with
    | none =>
      let half := 4 ≤ o && (match regAt (o - 4) with
        | some r => r.wide
        | none => false)
      if (w = 4 ∨ w = 8) ∧ o % w = 0 ∧ half = false then some 3 else some 6
    | some r =>
      let size := if r.wide then 8 else 4
      let chg := a.changes o v r (fun _ => true)
      if w ≠ size ∨ o % size ≠ 0 then some 6
      else if ringReg k o && a.on (Reg.HCX_CTL_en k) then some 7
      else if chg && !a.on (Reg.HCX_ROLE_active_setup k) then some 1
      else if chg && a.lcy != Lcy.commissioning && a.lcy != Lcy.maintenance then some 2
      else if chg && a.unitOwned o then some 4
      else if r.fields.any (fun f => (f.acc == .rwc || f.acc == .rw) && !f.lim.ok f.w (bitsOf v f.lo f.w)) || a.crossBad o v
          || a.enableBad k o v then some 3
      else if a.lastPrivileged o v then some 9
      else if a.chapterBad o v chg || (a.role == Role.standby && a.changes o v r covered) then some 5
      else none

/-! ### What an accepted write does -/

/-- The fields of a register take the value by their access codes (R15); an RW1C bit that hardware set in this clock cycle
stays (R17). -/
def App.putFields (a : App) (o v : Nat) (r : RegDef) : App :=
  { a with regs := r.fields.foldl (fun (s : RegFile) f =>
      let b := 8 * o + f.lo
      match f.acc with
      | .rwc | .rw => s.set b (bitsOf v f.lo f.w)
      | .rw1c => if a.raised.contains (b, a.tick) then s else s.set b (s.get b - (s.get b &&& bitsOf v f.lo f.w))
      | .ro | .wo => s) a.regs }

/-- A wall unit after a write of its target, period or enable: one that is enabled with a target already reached fires at
the next tick with late set (R70). -/
def App.wallWritten (a before : App) (n : Nat) : App :=
  if a.cmpTarget n ≠ before.cmpTarget n ∨ a.get (Reg.TIM_CMP_PER_period_ns n) ≠ before.get (Reg.TIM_CMP_PER_period_ns n)
      ∨ a.on (Reg.TIM_CMP_CTL_en n) ≠ before.on (Reg.TIM_CMP_CTL_en n) then
    a.onTim fun t => { t with served := vput t.served n false
                              lateReq := vput t.lateReq n (a.on (Reg.TIM_CMP_CTL_en n) && decide (a.cmpTarget n ≤ a.now)) }
  else a

/-- A unit of an angle clock after a write: a change of target, period or en arms it again, and one that is then already due fires
late at the first tick of the next CIC period (R100, R103). -/
def App.angleWritten (a before : App) (b u : Nat) : App :=
  let next := a.on (Reg.ANG_CMP_CTL_next b u)
  let armed := a.get (Reg.ANG_CMP_TGT_tgt b u) != before.get (Reg.ANG_CMP_TGT_tgt b u)
    || a.get (Reg.ANG_CMP_PER_period_au b u) != before.get (Reg.ANG_CMP_PER_period_au b u)
    || a.on (Reg.ANG_CMP_CTL_en b u) != before.on (Reg.ANG_CMP_CTL_en b u)
  let a := if armed || next != before.on (Reg.ANG_CMP_CTL_next b u) then
      a.onClk b fun c => { c with nextFrom := vput c.nextFrom u (if next then some (a.a48 b) else none) }
    else a
  if armed then
    let late := a.on (Reg.ANG_CMP_CTL_en b u) && !next && a.clkOn b && reached48 (a.a48 b) (a.get (Reg.ANG_CMP_TGT_tgt b u))
    a.onClk b fun c => { c with served := vput c.served u false, lateReq := vput c.lateReq u (if late then some (a.sig.periods + 1) else none) }
  else a

/-- The slot named in EVR_RDIDX latched into the read data registers (R601). -/
def App.evrLatch (a : App) (slot : Nat) : App :=
  match (a.life.records.find? (fun r => r.1 == slot)).map (·.2) with
  | some r =>
    let a := (a.setB Reg.EVR_RDIDX_empty false).setB Reg.EVR_RDIDX_crc_ok (!r.bad)
    (upto 8).foldl (fun a w => a.set (Reg.EVR_RDDATA_data w) (numAt r.bytes (4 * w) 4)) a
  | none =>
    let a := (a.setB Reg.EVR_RDIDX_empty true).setB Reg.EVR_RDIDX_crc_ok false
    (upto 8).foldl (fun a w => a.set (Reg.EVR_RDDATA_data w) (Config.blankSlot slot w).toNat) a

/-- Learned and initial times limited into a new span (R267). -/
def App.bkLimit (a : App) (b : Nat) : App :=
  let (lo, hi) := a.topLimits b
  (upto 2).foldl (fun a j =>
    (a.set (Reg.TRP_BKTOP_t_op b j) (max lo (min hi (a.get (Reg.TRP_BKTOP_t_op b j))))).set (Reg.TRP_BKINIT_init_us b j)
      (max (lo / 16) (min (hi / 16) (a.get (Reg.TRP_BKINIT_init_us b j))))) a

/-- en of a context written (R469). -/
def App.enWritten (a : App) (k v : Nat) : App :=
  if !bitOf v 0 then a.ctxDisable k
  else if a.get (Reg.HCX_STAT_state k) = 0 then a.ctxEnable k
  else a.setB (Reg.HCX_CTL_en k) true

/-- CAN_CFG of a bus written: its enable, its schedule, and whether it is restricted (R547, R557). -/
def App.canWritten (a before : App) (b : Nat) : App :=
  let a := if a.on (Reg.CAN_CFG_en b) == before.on (Reg.CAN_CFG_en b) then a else a.canRestart b
  let a := if before.on (Reg.CAN_CFG_sched_en b) && !a.on (Reg.CAN_CFG_sched_en b) then a.canSchedStop b else a
  a.canShow

/-- A configuration change of a field channel that interrupts it (R428). -/
def App.fioWritten (a before : App) (f : Nat) : App :=
  if [Reg.FIO_CFG_en f, Reg.FIO_CFG_dir f, Reg.FIO_CFG_class f, Reg.FIO_CFG_src f, Reg.FIO_CFG_par f].any (fun r => a.get r != before.get r)
  then a.fioRestart f else a

/-- TIM_CTL written: a refused offset is no longer pending once servo_sel changes, and a new reference input starts its
count (R53, R62). -/
def App.timWritten (a before : App) : App :=
  let a := if a.get Reg.TIM_CTL_servo_sel == before.get Reg.TIM_CTL_servo_sel then a
    else a.onTim fun t => { t with refusedPending := false, adjustAt := a.tick }
  if a.get Reg.TIM_CTL_ref_in == before.get Reg.TIM_CTL_ref_in then a
  else (a.onTim fun t => { t with refGood := 0, refAsked := false, irigUtc := false }).utcFallback

/-- What follows from a write beside its fields, by the register's chapter. -/
def App.setupEffect (a before : App) (k o v : Nat) : App :=
  match wallUnit o, angleUnit o with
  | some n, _ => a.wallWritten before n
  | none, some (b, u) => if u = 0 then a else a.angleWritten before b u
  | none, none =>
    if o = 0x2000 then a.timWritten before
    else if o = 0x2010 then a.utcFallback
    else if 0x3000 ≤ o ∧ o < 0x3400 ∧ o % 0x100 = 0 then
      let n := (o - 0x3000) / 0x100
      if a.on (Reg.ANG_CFG_en n) == before.on (Reg.ANG_CFG_en n) then a
      else (if a.on (Reg.ANG_CFG_en n) then a.clockOn n else a.clockOff n).showLoads
    else if 0x4010 ≤ o ∧ o < 0x4020 then
      let n := (o - 0x4010) / 4
      if (upto 8).any (fun c => bitOf (a.get (Reg.ANA_CHCFG_ch n)) (2 * c) != bitOf (before.get (Reg.ANA_CHCFG_ch n)) (2 * c)) then a.handDisturb n else a
    else if 0x4020 ≤ o ∧ o < 0x4060 ∧ o % 0x10 = 0 then a.handGrid ((o - 0x4020) / 0x10)
    else if o = 0x6000 then a.showDegraded 2
    else if 0x6040 ≤ o ∧ o < 0x6050 then
      let n := (o - 0x6040) / 4
      let on := a.on (Reg.SLU_BAY_sub_en n)
      if on == before.on (Reg.SLU_BAY_sub_en n) then a else (if on then a.setB (Reg.SLU_BAY_sv_lost n) false else a).askSub n on false
    else if 0x7200 ≤ o ∧ o < 0x7300 ∧ o % 0x40 = 0x0C then a.bkLimit ((o - 0x7200) / 0x40)
    else if 0x7200 ≤ o ∧ o < 0x7300 ∧ (o % 0x40 = 0x10 ∨ o % 0x40 = 0x14) then
      let b := (o - 0x7200) / 0x40
      let j := (o % 0x40 - 0x10) / 4
      (a.set (Reg.TRP_BKTOP_t_op b j) (16 * a.get (Reg.TRP_BKINIT_init_us b j))).setB (Reg.TRP_BKTOP_learn_alarm b j) false
    else if 0x8080 ≤ o ∧ o < 0x80C0 then
      let s := (o - 0x8080) / 8
      let on := a.on (Reg.CAP_SUB_en s)
      if on == before.on (Reg.CAP_SUB_en s) then (if on then a.onSub s fun c => { c with ctx := a.subCtx s, ring := a.get (Reg.CAP_SUB_ring s) } else a)
      else if on then a.subStart s else a.subStop s
    else if 0xB100 ≤ o ∧ o < 0xB500 ∧ o % 0x20 = 0 then a.fioWritten before ((o - 0xB100) / 0x20)
    else if 0xC000 ≤ o ∧ o < 0xC020 then
      if bitOf v 3 then a else a.setB (Reg.HCX_ROLE_active_setup ((o - 0xC000) / 4)) false
    else if 0xF000 ≤ o ∧ o < 0xF300 ∧ o % 0x40 = 0 then a.canWritten before ((o - 0xF000) / 0x40)
    else if 0xF300 ≤ o ∧ o < 0xF320 ∧ o % 8 = 0 then
      let s := (o - 0xF300) / 8
      if a.on (Reg.CAN_SUB_en s) == before.on (Reg.CAN_SUB_en s) then a else a.canSubEnable s (a.on (Reg.CAN_SUB_en s))
    else if o = 0x40 then
      let old := before.on Reg.GLB_MODE_outen
      let new := a.on Reg.GLB_MODE_outen
      (if old == new then a else a.postMode 5 0 old.toNat new.toNat).canShow
    else if o = 0x10010 then a.setB Reg.PAR_STAT_window_open true
    else if o = 0x1100C then a.evrLatch (bitsOf v 0 17)
    else if 0x20000 ≤ o ∧ windowOff k o = 0 then a.enWritten k v
    else a

/-- A wall unit that is due in this tick fires before a write of it takes effect (R70). -/
def App.fireFirst (a : App) (o : Nat) : App :=
  match wallUnit o with
  | some n => if a.wallDue n then a.wallFire n else a
  | none => a

/-- An accepted write takes effect: table data go to the table, a decimation setting becomes pending, the control register
of a context takes its holdoff and then its enable, and every other register takes its fields. -/
def App.putSetup (a : App) (k o v : Nat) : App :=
  match regAt o with
  | none => a
  | some r =>
    let a := a.fireFirst o
    if o = ethDataAt then ((a.ethWrite a.ethAddr v).getD a).ethNext
    else if o = canDataAt then ((a.canWrite a.canAddr v).getD a).canNext
    else if (o = 0x5000 ∨ (0x5010 ≤ o ∧ o < 0x5020)) then a.decAccept (r.fields.map (fun f => (8 * o + f.lo, bitsOf v f.lo f.w)))
    else if 0x20000 ≤ o ∧ windowOff k o = 0 then (a.set (Reg.HCX_CTL_holdoff k) (bitsOf v 16 10)).setupEffect a k o v
    else (a.putFields o v r).setupEffect a k o v

/-- A unit of an angle clock whose writes wait for its firing: it fires in this CIC period, or others wait already (R103). -/
def App.defers (a : App) (o : Nat) : Option (Nat × Nat) :=
  match angleUnit o with
  | some (b, u) => if u ≠ 0 ∧ (a.angSoon b u || (vat (vat a.clk b).defer u) != []) then some (b, u) else none
  | none => none

/-- The writes that waited for the firing of a unit take effect, in their order (R103). -/
def App.takeDeferred (a : App) (b u : Nat) : App :=
  let l := vat (vat a.clk b).defer u
  l.foldl (fun a w => a.putSetup w.1 w.2.1 w.2.2) (a.onClk b fun c => { c with defer := vput c.defer u [] })

/-- The writes that waited at a clock that is Off, where no unit fires. -/
def App.takeOff (a : App) : App :=
  (upto 4).foldl (fun a b => (upto 8).foldl (fun a u =>
    if a.clkOn b || vat (vat a.clk b).defer u == [] then a else a.takeDeferred b u) a) a

/-- An accepted write takes effect, at once or after the firing that it waits for. -/
def App.putOrDefer (a : App) (k o v : Nat) : App :=
  match a.defers o with
  | some (b, u) => a.onClk b fun c => { c with defer := vput c.defer u (vat c.defer u ++ [(k, o, v)]) }
  | none => (a.putSetup k o v).takeOff

/-- Whether setup writes go to the partner: it is Standby, or Joining in phase 2 or 3 (R571). -/
def App.mirrors (a : App) : Bool :=
  a.leads && (a.get Reg.PAR_STAT_partner_role == Role.standby
    || (a.get Reg.PAR_STAT_partner_role == Role.joining && (a.par.peerPhase == 2 || a.par.peerPhase == 3)))

/-- A setup write as it goes to the partner: offset, width, the table address of a table access, and the value. -/
def App.setupBytes (a : App) (o w v : Nat) : List Byte :=
  le 4 o ++ le 4 w ++ le 4 (if o = ethDataAt then a.ethAddr else if o = canDataAt then a.canAddr else 0) ++ le 8 v

/-- A setup write of a context: refused as a whole, or applied as a whole and, where it changes a field that the
fingerprint covers, sent to the partner (R16, R460, R461, R571). -/
def App.setupWrite (a : App) (k o w v : Nat) : App :=
  let v := if w = 4 then v % 2 ^ 32 else v
  match a.writeReason k o w v with
  | some reason => a.refuse k o v w reason
  | none =>
    let cov := match regAt o with
      | some r => a.changes o v r covered
      | none => false
    let sent := if cov && a.mirrors then a.linkSend 6 (a.setupBytes o w v) else a
    sent.putOrDefer k o v

/-- A setup read of a context (R459): one doubleword, or two taken at one instant; a 4-byte read of the low half of a 64-bit
register loads the function's latch, and one of its high half returns it. A data access of a table advances its
address (R528, R563). -/
def App.setupRead (a : App) (k o w : Nat) : App :=
  let put := fun (a : App) (x : Nat) => a.onCtx k fun c => { c with readData := BitVec.ofNat 64 x }
  let step := fun (a : App) (at_ : Nat) =>
    if at_ = ethDataAt then a.ethNext else if at_ = canDataAt then a.canNext else a
  if w = 8 ∧ o % 8 = 0 then
    step (step (put a (a.doubleword o + 2 ^ 32 * a.doubleword (o + 4))) o) (o + 4)
  else if w = 4 ∧ o % 4 = 0 then
    match regAt o with
    | some r =>
      let x := a.regValue o r
      let a := if r.wide then a.onCtx k fun c => { c with latch := some (o, BitVec.ofNat 32 (x / 2 ^ 32)) } else a
      step (put a (x % 2 ^ 32)) o
    | none =>
      match (vat a.ctxs k).latch with
      | some (l, hi) => if l + 4 = o then put a hi.toNat else put a (a.doubleword o)
      | none => put a (a.doubleword o)
  else put a 0

/-! ### The rows -/

/-- ANGLE_COMPARE_FIRE (R100, R102): the unit whose target is `target` fires; unit 0 is the Sluice tick, whose window is evaluated once
its eighth sample is there. -/
def execAngleCompareFire (bay : Fin 4) (unit : Fin 8) (target : BitVec 48) (s : State) : Outcome State Fault Refusal :=
  s.onApp fun a =>
    if target.toNat ≠ a.unitTarget bay unit then a
    else if unit = 0 then (if a.tickDue bay then a.tickFire bay else a)
    else if a.angDue bay unit then (a.angFire bay unit).takeDeferred bay unit
    else a

/-- SETUP_WRITE (R16). -/
def execSetupWrite (ctx : Fin 8) (offset : W32) (width : Byte) (value : W64) (s : State) : Outcome State Fault Refusal :=
  s.onApp fun a => a.setupWrite ctx offset.toNat width.toNat value.toNat

/-- LATCHED_READ (R459). -/
def execLatchedRead (ctx : Fin 8) (offset : W32) (width : Byte) (s : State) : Outcome State Fault Refusal :=
  s.onApp fun a => a.setupRead ctx offset.toNat width.toNat

/-- The register of a wall compare unit that a write names, and its width in bytes (R74). -/
def wallReg (n : Nat) (r : CmpReg) : Nat × Nat :=
  match r with
  | .target => (0x2100 + 0x20 * n, 8)
  | .targetNs => (0x2108 + 0x20 * n, 4)
  | .period => (0x2110 + 0x20 * n, 8)
  | .control => (0x2118 + 0x20 * n, 4)

/-- The register of an angle compare unit (R107); its target is one register. -/
def angleReg (b u : Nat) (r : CmpReg) : Nat × Nat :=
  match r with
  | .target | .targetNs => (0x3040 + 0x100 * b + 0x10 * u, 8)
  | .period => (0x3048 + 0x100 * b + 0x10 * u, 4)
  | .control => (0x304C + 0x100 * b + 0x10 * u, 4)

/-- WALL_COMPARE_WRITE (R67, R70, R71). -/
def execWallCompareWrite (ctx : Fin 8) (unit : Fin 16) (reg : CmpReg) (value : W64) (s : State) : Outcome State Fault Refusal :=
  s.onApp fun a => a.setupWrite ctx (wallReg unit reg).1 (wallReg unit reg).2 value.toNat

/-- ANGLE_COMPARE_WRITE (R99, R102, R103, R105). -/
def execAngleCompareWrite (ctx : Fin 8) (bay : Fin 4) (unit : Fin 8) (reg : CmpReg) (value : W64) (s : State) : Outcome State Fault Refusal :=
  s.onApp fun a => a.setupWrite ctx (angleReg bay unit reg).1 (angleReg bay unit reg).2 value.toNat

/-- ANGLE_CLOCK_ENABLE (R95): a write of ANG_CFG. -/
def execAngleClockEnable (ctx : Fin 8) (bay : Fin 4) (value : W32) (s : State) : Outcome State Fault Refusal :=
  s.onApp fun a => a.setupWrite ctx (0x3000 + 0x100 * bay) 4 value.toNat

/-- DEC_WRITE (R159, R171, R172): DEC_CFG of bay 0 to 3, or DEC_AVG as register 4. -/
def execDecWrite (ctx : Fin 8) (reg : Fin 5) (value : W32) (s : State) : Outcome State Fault Refusal :=
  s.onApp fun a => a.setupWrite ctx (if reg = 4 then 0x5000 else 0x5010 + 4 * reg) 4 value.toNat

/-- FIO_CFG_WRITE (R428, R442). -/
def execFioCfgWrite (ctx : Fin 8) (channel : Fin 32) (value : W32) (s : State) : Outcome State Fault Refusal :=
  s.onApp fun a => a.setupWrite ctx (0xB100 + 0x20 * channel) 4 value.toNat

/-- CONTEXT_ENABLE (R469): HCX_CTL written with en 1 by its own context. -/
def execContextEnable (ctx : Fin 8) (holdoff : W16) (s : State) : Outcome State Fault Refusal :=
  s.onApp fun a => a.setupWrite ctx (0x20000 + 0x4000 * ctx) 4 (1 + 2 ^ 16 * holdoff.toNat)

/-- CONTEXT_DISABLE (R469): HCX_CTL written with en 0. -/
def execContextDisable (ctx : Fin 8) (holdoff : W16) (s : State) : Outcome State Fault Refusal :=
  s.onApp fun a => a.setupWrite ctx (0x20000 + 0x4000 * ctx) 4 (2 ^ 16 * holdoff.toNat)

/-- ETH_TBLDATA_WRITE (R528, R529). -/
def execEthTbldataWrite (ctx : Fin 8) (value : W32) (s : State) : Outcome State Fault Refusal :=
  s.onApp fun a => a.setupWrite ctx ethDataAt 4 value.toNat

/-- ETH_TBLDATA_READ (R528). -/
def execEthTbldataRead (ctx : Fin 8) (s : State) : Outcome State Fault Refusal :=
  s.onApp fun a => a.setupRead ctx ethDataAt 4

/-- CAN_TBLDATA_WRITE (R557). -/
def execCanTbldataWrite (ctx : Fin 8) (value : W32) (s : State) : Outcome State Fault Refusal :=
  s.onApp fun a => a.setupWrite ctx canDataAt 4 value.toNat

/-- CAN_TBLDATA_READ (R563). -/
def execCanTbldataRead (ctx : Fin 8) (s : State) : Outcome State Fault Refusal :=
  s.onApp fun a => a.setupRead ctx canDataAt 4

/-- EVR_RDIDX_WRITE (R601). -/
def execEvrRdidxWrite (ctx : Fin 8) (value : W32) (s : State) : Outcome State Fault Refusal :=
  s.onApp fun a => a.setupWrite ctx 0x1100C 4 value.toNat

/-- TRP_BKINIT_WRITE (R267): the initial time of closing or of opening. -/
def execTrpBkinitWrite (ctx : Fin 8) (bay : Fin 4) (opens : Bool) (value : W32) (s : State) : Outcome State Fault Refusal :=
  s.onApp fun a => a.setupWrite ctx (0x7210 + 0x40 * bay + 4 * opens.toNat) 4 value.toNat

/-- TRP_BKLIM_WRITE (R267). -/
def execTrpBklimWrite (ctx : Fin 8) (bay : Fin 4) (value : W32) (s : State) : Outcome State Fault Refusal :=
  s.onApp fun a => a.setupWrite ctx (0x720C + 0x40 * bay) 4 value.toNat

/-- PROTECTION_STATE_WRITE (R607): a write of GLB_MODE; the states change at the next matrix scan. -/
def execProtectionStateWrite (ctx : Fin 8) (value : W32) (s : State) : Outcome State Fault Refusal :=
  s.onApp fun a => a.setupWrite ctx 0x40 4 value.toNat

/-- OUTPUT_ENABLE_WRITE (R602, R609): a write of GLB_MODE that sets outen as the value says. -/
def execOutputEnableWrite (ctx : Fin 8) (value : W32) (s : State) : Outcome State Fault Refusal :=
  s.onApp fun a => a.setupWrite ctx 0x40 4 value.toNat

/-- HCX_ROLE_WRITE (R456, R457). -/
def execHcxRoleWrite (ctx target : Fin 8) (value : W32) (s : State) : Outcome State Fault Refusal :=
  s.onApp fun a => a.setupWrite ctx (0xC000 + 4 * target) 4 value.toNat

/-- PAR_UPG_WRITE (R572). -/
def execParUpgWrite (ctx : Fin 8) (value : W64) (s : State) : Outcome State Fault Refusal :=
  s.onApp fun a => a.setupWrite ctx 0x10010 8 value.toNat

end Sys2Proof.Machine
end

