-- ==== Sys2Proof/Machine/Redun.lean ====
section
/-! DEFINITION. The Lorras link and the redundant pair: heartbeats and role changes, joining and state copy, streamed scans,
acknowledgements, takeover and handover (R564 to R582). -/

namespace Sys2Proof.Machine

open Host

/-! ### Frames (R565, R567) -/

/-- Whether the module takes part in a pair (R567). -/
def App.pairOn (a : App) : Bool := a.on Reg.PAR_CFG_pair_en && a.node != 0

/-- A frame has been accepted: its number is the last one, and an acknowledgement goes back (R565). -/
def App.heard (a : App) : App :=
  a.onPar fun p => { p with got := p.got + 1, rxAt := a.tick, upAt := some (p.upAt.getD a.tick) }
def App.accept (a : App) : App := let a := a.heard; a.linkOut 11 (le 4 a.par.got)

/-- The silence after which frames are missed (R578). -/
def App.missTicks (a : App) : Nat := a.get Reg.PAR_TIM_hb_miss * 250 * tUs

/-- The heartbeat of the module (R567). -/
def App.beatBytes (a : App) : List Byte :=
  let head := le 1 a.role ++ le 1 (a.get Reg.PAR_STAT_phase) ++ le 1 (a.get Reg.PAR_STAT_reason) ++ le 2 a.node
    ++ le 2 (a.get Reg.PAR_CFG_partner_node) ++ le 1 a.lcy ++ le 4 a.fwVersion ++ le 8 a.cfgFp ++ le 8 (a.get Reg.CSC_FPRINT_fingerprint)
    ++ le 1 (a.get Reg.PAR_STAT_window_open) ++ le 8 (a.get Reg.CSC_COMMIT_commit_seq) ++ le 8 a.w64
    ++ (match a.par.delay with
        | some d => le 1 1 ++ le 8 (toBits 64 d)
        | none => le 9 0)
  if a.role = Role.primary then
    head ++ (upto 64).flatMap (fun t => le 4 (a.get (Reg.CSC_FLAG_flags t)))
      ++ a.pubsOn.flatMap (fun d => le 4 (a.pub d).st ++ le 4 (a.pub d).sq)
      ++ a.cap.grp.toList.flatMap (fun g => le 4 g.seq.toNat) ++ a.tw.bays.toList.flatMap (fun b => le 4 b.sent.toNat)
  else head

/-- The link frames that carry tracking: snapshots, commit records and journal entries (R577). -/
def App.backlog (a : App) : Nat :=
  (a.par.unacked.filter (fun f => f.kind == 2 || f.kind == 3 || f.kind == 4)).foldl (fun n f => n + 20 + f.data.length) 0

/-! ### A partner that no longer follows (R569, R574, R576) -/

/-- What waited for the partner goes on without it: effects are applied, frames are forgotten, selection resumes, and a
removal that waited for it is refused. -/
def App.partnerGone (a : App) : App :=
  let a := a.releaseWaits a.par.seq
  let stopped := a.par.removal.isSome || a.par.copy.any (fun c => c.draining)
  let cmd := a.par.removal
  let a := a.onPar fun p => { p with unacked := [], copy := none, removal := none, dropped := true }
  let a := if stopped && a.get Reg.CSC_SKSTAT_phase != 3 then a.onCtl fun c => { c with stopSel := false } else a
  match cmd with
  | some h => a.conclude h .requestRemoval (.final Status.state (le 4 a.lcy))
  | none => a

/-- The partner is sent back to state copy: 1 after a missing acknowledgement, 3 for a backlog (R576, R577). -/
def App.dropPartner (a : App) (why : Nat) : App :=
  let a := (a.partnerGone).linkSend 10 (le 1 why)
  if a.role = Role.primary then a.setRole Role.solo 0 0 else a

/-! ### Joining (R569, R570) -/

/-- The load that tracking an image puts on the link, bytes per ms, as a fraction. -/
def trackLoad (m : Image) : Nat × Nat :=
  (m.tasks.filter (fun e => tkEnabled e && tkTrigger e == 0 && tkPeriod e != 0)).foldl
    (fun x e => (x.1 * tkPeriod e + (24 * tkInCount e + tkLogMax e + 128) * 1000 * x.2, x.2 * tkPeriod e)) (0, 1)

/-- The first failing check against the partner's heartbeat, as its reason; 0 when all pass (R570). -/
def App.compare (a : App) (b : PeerBeat) (offset : Int) : Nat :=
  let slot := a.slotWith b.progFp.toNat
  let m := match slot with
    | some s => a.img s
    | none => []
  let (n, d) := trackLoad m
  let most := (if a.on Reg.PAR_STAT_link_degraded then 256 else 512) * 1024
  if !(a.pairOn && a.get Reg.PAR_CFG_partner_node == b.node.toNat && b.partnerNode.toNat == a.node && b.node.toNat != a.node) then 1
  else if b.lcy.toNat ≠ a.lcy then 2
  else if b.cfgFp.toNat ≠ a.cfgFp then 3
  else if b.progFp ≠ 0#64 ∧ (slot.isNone = true ∨ a.fwVersion < numAt m 48 4) then 4
  else if b.fw.toNat ≠ a.fwVersion ∧ b.window = false then 5
  else if b.progFp ≠ 0#64 ∧ most * d < n then 6
  else if a.get Reg.PAR_TIM_time_thr * 1000 < offset.natAbs then 7
  else 0

/-- A module leaves joining for Solo: its program starts as after a reset (R359, R569). -/
def App.goSolo (a : App) : App := (a.setRole Role.solo 0 0).autoStart

/-- Joining-Blocked with a reason (R569). -/
def App.block (a : App) (reason : Nat) : App := (a.setRole Role.joining 4 reason).leaveProgram

/-! ### The state copy, as the Primary makes it (R573, R574) -/

/-- The pages that a pass sends. -/
def App.sendPages (a : App) (pages : List Nat) : App :=
  pages.foldl (fun a p => a.linkSend 8 (le 1 0 ++ le 4 p ++ (vat a.ctl.inst a.ctl.region).read (4096 * p) 4096)) a

/-- A point's record, a release and a journal record as pages carry them. -/
def pointBytes (v : PointVal) : List Byte := le 8 v.value.toNat ++ le 8 v.stamp.toNat ++ le 2 v.quality.toNat ++ le 1 v.tq.toNat ++ le 1 v.tsc.toNat
def relBytes (r : Release) : List Byte := le 8 r.ts ++ le 1 r.tq ++ le 1 r.tsc ++ le 6 r.a48 ++ le 1 r.aq ++ le 8 r.cycle
def JRec.bytes : JRec → List Byte
  | .commit t tq tsc s cy ts sc oc rs ac => le 1 2 ++ le 1 t ++ le 1 tq ++ le 1 tsc ++ le 8 s ++ le 8 cy ++ le 8 ts ++ le 4 sc.toNat ++ le 4 oc.toNat
      ++ rs.flatMap (fun r => le 4 r.1 ++ le 4 r.2.length ++ r.2) ++ ac.flatMap (fun x => le 2 x.svc ++ x.args.flatMap (le 4))
  | .skim o n t s => le 1 3 ++ le 8 o ++ le 8 n ++ le 8 t ++ le 8 s

/-- What the pages carry beside instance data: retained copy and later journal records, points with their shadows, forces, tag
records, journal entries, ownerships and flags. -/
def App.restBytes (a : App) : List Byte :=
  let copy := match a.ctl.copies with
    | c :: _ => le 4 c.fpRetain ++ le 8 c.seq ++ c.data ++ (a.ctl.journal.filter (fun r => decide (c.seq < r.seq))).flatMap JRec.bytes
    | [] => a.ctl.journal.flatMap JRec.bytes
  let points := ((upto a.ctl.points.length).filter (fun i => (a.point i).kind == 0 || (a.point i).kind == 5)).flatMap (fun i =>
    le 4 i ++ pointBytes (a.point i).v ++ (match a.forceOf i with
      | some f => pointBytes (f.shadow.getD {})
      | none => []))
  let forces := a.ctl.forces.flatMap (fun f => le 4 f.point ++ le 1 f.orphan.toNat ++ le 1 f.reason ++ le 1 f.origin ++ le 1 f.tq ++ le 8 f.value.toNat
    ++ le 8 f.setAt.toNat ++ le 2 f.quality.toNat ++ le 1 f.typ ++ le 4 f.tag.toNat)
  let tags := (upto 8).flatMap (fun k => (vat a.cmd.tags k).flatMap (fun r => le 1 k ++ le 8 r.tag.toNat ++ le 2 r.opcode.toNat ++ le 4 r.crc.toNat
    ++ le 4 r.index.toNat ++ (match r.final with
      | some f => le 2 f.status.toNat ++ le 4 f.step.toNat ++ f.result
      | none => [])))
  let open_ := a.cmd.journal.flatMap (fun e => journalBytes e.hdr e.op ++ le 1 e.effect.toNat)
  let owners := (upto 9).flatMap (fun i => match vat a.cmd.owners i with
    | some o => le 1 i ++ le 1 o.ctx ++ le 8 o.expiry ++ le 2 o.hold
    | none => [])
  copy ++ points ++ forces ++ tags ++ open_ ++ owners ++ (upto 64).flatMap (fun t => le 4 (a.get (Reg.CSC_FLAG_flags t)))

/-- The rest of the state in blocks of 4 KiB. -/
def App.sendRest (a : App) : App :=
  let d := a.restBytes
  (chunks (d.length / 4096 + 1) d).foldl (fun a c => a.linkSend 8 (le 1 1 ++ c)) a

/-- A state copy begins: its first pass sends everything (R573). -/
def App.copyStart (a : App) : App :=
  let size := (a.runImage.sect 5).length
  let a := a.onPar fun p => { p with copy := some {}, dropped := false }
  (a.sendPages (upto ((size + 4095) / 4096))).sendRest

/-- A pass has been sent: with at most 256 KiB dirty the Cascade stops selection for the copy point, and otherwise the dirty
pages are sent again (R573, R574). -/
def App.copyPass (a : App) (c : CopySt) : App :=
  if c.draining then a
  else if c.dirty.length ≤ 64 then
    (a.onPar fun p => { p with copy := some { c with draining := true } }).onCtl fun x => { x with stopSel := true }
  else (a.onPar fun p => { p with copy := some { c with dirty := [] } }).sendPages c.dirty

/-- The compare units that the image assigns, as the copy point carries them (R574). -/
def App.unitBytes (a : App) : List Byte :=
  (upto 16).flatMap (fun n => if a.on (Reg.TIM_CMP_CTL_own n) then
      le 1 255 ++ le 8 (a.cmpTarget n) ++ le 8 (a.get (Reg.TIM_CMP_PER_period_ns n)) ++ le 1 (a.get (Reg.TIM_CMP_CTL_dest n)) ++ le 1 (a.get (Reg.TIM_CMP_CTL_dest_index n))
    else [])
  ++ (upto 4).flatMap (fun b => (upto 8).flatMap (fun u => if a.on (Reg.ANG_CMP_CTL_own b u) && a.get (Reg.ANG_CMP_CTL_dest b u) == 3 then
      le 1 b ++ le 8 (a.get (Reg.ANG_CMP_TGT_tgt b u)) ++ le 8 (a.get (Reg.ANG_CMP_PER_period_au b u)) ++ le 1 3 ++ le 1 (a.get (Reg.ANG_CMP_CTL_dest_index b u))
    else []))

/-- Whether nothing is In service or Replay-pending. -/
def App.quiet (a : App) : Bool := (upto 64).all (fun t => a.disp t != Disp.inService && a.disp t != Disp.replay)

/-- The copy point: the final pass, then the control frame, which waits for its acknowledgement (R574). -/
def App.copyPoint (a : App) (c : CopySt) : App :=
  let a := (a.sendPages c.dirty).sendRest
  let pend := (upto 64).flatMap (fun t => match (a.task t).pend with
    | some r => le 1 t ++ relBytes r
    | none => [])
  let a := a.linkSend 10 (le 1 0 ++ le 8 (a.get Reg.CSC_COMMIT_commit_seq) ++ pend ++ a.unitBytes)
  a.onPar fun p => { p with copy := some { c with dirty := [], point := some p.seq } }

/-! ### Heartbeats and what they bring about (R567, R569, R570) -/

/-- The measured offset of the partner: half the difference of the two one-way delays, once both are known (R570). -/
def App.offsetFrom (a : App) (b : PeerBeat) : Option Int :=
  match a.par.delay, b.delay with
  | some d, some e => some ((e.toInt - d) / 2)
  | _, _ => none

/-- What a received heartbeat shows and leaves behind. -/
def App.noteBeat (a : App) (b : PeerBeat) : App :=
  let d : Int := wrap64 ((a.w64 : Int) - b.leftAt.toNat)
  let a := a.onPar fun p => { p with hbAt := a.tick, peer := some b, peerPhase := b.phase.toNat, delay := some d
                                     dropped := p.dropped && (b.role.toNat == Role.standby || (b.role.toNat == Role.joining && b.phase.toNat == 3)) }
  let a := ((a.setB Reg.PAR_STAT_partner_seen true).set Reg.PAR_STAT_partner_role b.role.toNat).set Reg.PAR_PFW_partner_fw b.fw.toNat
  let thr := a.get Reg.PAR_TIM_time_thr * 1000
  let a := match a.offsetFrom b with
    | some o =>
      let bad := decide (thr < o.natAbs)
      (a.set Reg.PAR_OFS_offset (toBits 32 (satSigned 32 o))).onPar fun p =>
        { p with offBad := if bad then p.offBad + 1 else 0, offOkAt := if bad then none else some (p.offOkAt.getD a.tick) }
    | none => a
  let a := if b.role.toNat = Role.primary then
      a.onPar fun p => { p with ownSets := [], mirror := ⟨b.flags, b.goose, b.groups, b.arrivals⟩ }
    else a
  if a.leads then a.set Reg.PAR_STAT_reason (if b.role.toNat = Role.joining ∧ b.phase.toNat = 4 then b.reason.toNat else 0) else a
where
  /-- A difference of W64 instants. -/
  wrap64 (x : Int) : Int := (x + 2 ^ 63) % 2 ^ 64 - 2 ^ 63

/-- The role changes that a heartbeat brings about, the first row of R569 that applies. -/
def App.beatRows (a : App) (b : PeerBeat) : App :=
  let pr := b.role.toNat
  let pp := b.phase.toNat
  let phase := a.get Reg.PAR_STAT_phase
  if a.role = Role.standby then
    if 8 ≤ a.par.offBad then a.block 7
    else if b.fw.toNat ≠ a.fwVersion ∧ b.window = false ∧ a.on Reg.PAR_STAT_window_open = false then a.block 5
    else a
  else if a.role = Role.primary then
    if pr = Role.standby then a else (a.partnerGone).setRole Role.solo 0 0
  else if a.role = Role.joining then
    if phase = 0 then
      if pr = Role.solo ∨ pr = Role.primary then a.setRole Role.joining 1 0
      else if (pr = Role.joining ∧ (pp ≠ 0 ∨ a.node < b.node.toNat)) ∨ pr = Role.leaving then a.goSolo
      else a
    else if phase = 1 then
      match a.offsetFrom b with
      | some o =>
        let r := a.compare b o
        if r = 0 then (a.setRole Role.joining 2 0).enterCopy else a.block r
      | none => a
    else a
  else if a.role = Role.solo then
    if pr = Role.solo ∧ b.node.toNat < a.node then (a.leaveProgram).setRole Role.joining 1 0
    else if pr = Role.standby ∧ a.par.dropped = false then a.setRole Role.primary 0 0
    else if pr = Role.joining ∧ pp = 2 ∧ a.par.copy.isNone = true then a.copyStart
    else if pr = Role.joining ∧ (pp = 2 ∨ pp = 3) then a
    else if a.par.copy.isSome then a.partnerGone
    else a
  else a

/-- HEARTBEAT (R567, R569, R570): a heartbeat of the partner. -/
def execHeartbeat (beat : PeerBeat) (s : State) : Outcome State Fault Refusal :=
  s.onApp fun a => if a.pairOn then (((a.accept).noteBeat beat).beatRows beat).canShow else a

/-! ### Handover (R581) -/

/-- The handover once nothing is In service and every commit record is acknowledged: the command ends, the frame goes out, and
the module is Leaving. -/
def App.handover (a : App) : App :=
  match a.par.removal with
  | some h =>
    if a.quiet && !a.par.unacked.any (fun f => f.kind == 3) then
      let a := (a.onPar fun p => { p with removal := none }).conclude h .requestRemoval (.final Status.ok [])
      ((a.linkSend 10 (le 1 2)).leave).onCtl fun c => { c with stopSel := false }
    else a
  | none => a

/-- HEARTBEAT_INTERVAL (R567, R577, R584): every 250 µs a heartbeat leaves; a backlog drops the partner. -/
def execHeartbeatInterval (s : State) : Outcome State Fault Refusal :=
  s.onApp fun a =>
    if a.pairOn && a.since a.par.beatAt (250 * tUs) then
      let a := if a.since a.par.hbAt a.missTicks then a.setB Reg.PAR_STAT_partner_seen false else a
      let a := if a.streams && decide (8 * 2 ^ 20 < a.backlog) then a.dropPartner 3 else a
      let a := a.handover
      (a.onPar fun p => { p with beatAt := a.tick }).linkOut 1 a.beatBytes
    else a

/-! ### What a module that follows receives (R571, R573 to R577) -/

/-- A release, a point record and a deferred action as they arrive. -/
def ofRel (r : PeerRelease) : Release := ⟨r.ts.toNat, r.tq.toNat, r.tsc.toNat, r.a48.toNat, r.aq.toNat, r.cycle.toNat⟩
def ofPoint (v : PeerPoint) : PointVal := ⟨v.value, v.stamp, v.quality, v.tq, v.tsc⟩
def ofActs (t : Nat) (l : List PeerAction) : List Action := l.map (fun x => ⟨x.svc.toNat, t, x.args.map (·.toNat)⟩)
def ofCommit (c : PeerCommitRec) : JRec :=
  .commit c.task c.rel.tq.toNat c.rel.tsc.toNat c.seq.toNat c.rel.cycle.toNat c.rel.ts.toNat c.snapCrc c.outCrc
    (c.ranges.map (fun r => (r.1.toNat, r.2))) (ofActs c.task c.acts)

/-- TASK_SNAPSHOT (R575): a scan that the Primary has begun; own releases up to it are served. -/
def execTaskSnapshot (task : Fin 64) (rel : PeerRelease) (snap : List PeerPoint) (s : State) : Outcome State Fault Refusal :=
  s.onApp fun a =>
    if !a.pairOn then a
    else
      let a := a.accept
      if !a.follows then a
      else
        let r := ofRel rel
        (a.onTask task fun x => { x with stream := x.stream ++ [(r, snap.map ofPoint)], own := x.own.filter (fun o => decide (r.ts < o.ts)), named := none }).onPar
          fun p => { p with tracked := if p.tracked.contains task.val then p.tracked else insertNat task.val p.tracked }

/-- COMMIT_RECORD (R576, R577). -/
def execCommitRecord (c : PeerCommitRec) (s : State) : Outcome State Fault Refusal :=
  s.onApp fun a =>
    if a.pairOn then (a.accept).followCommit false c.task c.rel.ts.toNat (c.snapCrc, c.outCrc) (ofActs c.task c.acts) else a

/-- A command of the Primary with its tag record: class J is applied here too; so are a session wipe, and the building of the
data of a reverse change (R419, R576, R587). -/
def App.peerCommand (a : App) (h : CmdHdr) (op : HostOp) : App :=
  let r : TagRec := { tag := h.tag, opcode := BitVec.ofNat 16 op.opcode, crc := BitVec.ofNat 32 op.crc, index := h.index }
  let a := if (a.tagRec h.ctx h.tag).isSome then a else a.keepTag h.ctx r
  if op.cls == .j then
    match a.runOp h op with
    | (a, .final st res) => a.journalize { hdr := h, op := op, peer := true, out := some (BitVec.ofNat 16 st, res) }
    | (a, .later) => a.journalize { hdr := h, op := op, peer := true }
  else
    let a := a.journalize { hdr := h, op := op, peer := true }
    match op with
    | .lifecycleSet t _ => if lcyRow a.lcy t.toNat = none then a else a.sessionWipe t.toNat h.ctx
    | .skimRollback =>
      match a.ctl.window with
      | some w =>
        let k : SkimSt := { map := reverseMap w.map, slot := w.slot }
        let a := (a.onCtl fun c => { c with skim := some k }).buildRegion k true
        ((a.set Reg.CSC_SKSTAT_phase 5).setB Reg.CSC_SKSTAT_reverse true).set Reg.CSC_SKSTAT_passes 0
      | none => a
    | _ => a

/-- COMMAND_JOURNAL_ENTRY (R576). -/
def execCommandJournalEntry (h : CmdHdr) (op : HostOp) (s : State) : Outcome State Fault Refusal :=
  s.onApp fun a =>
    if !a.pairOn then a
    else
      let a := a.accept
      if a.follows && op.cls != .q then a.peerCommand h op else a

/-- FINAL_TAG_RECORD (R490, R565): the outcome of a command of the Primary. -/
def execFinalTagRecord (ctx : Fin 8) (tag : W64) (final : PeerFinal) (s : State) : Outcome State Fault Refusal :=
  s.onApp fun a =>
    if !a.pairOn then a
    else
      let a := a.accept
      if !a.follows then a
      else
        let f : FinalRec := ⟨final.status, final.step, padTo 32 final.result, final.replayed⟩
        let a := a.onTags ctx (fun l => l.map (fun r => if r.tag == tag then { r with final := some f } else r))
        { a with cmd := { a.cmd with journal := a.cmd.journal.filter (fun e => !(e.hdr.ctx == ctx && e.hdr.tag == tag)) } }

/-- MIRRORED_SETUP_WRITE (R571): a setup write that the Primary has accepted, with the table address of a table access. -/
def execMirroredSetupWrite (offset : W32) (tblAddr : W32) (value : W64) (s : State) : Outcome State Fault Refusal :=
  s.onApp fun a =>
    if !a.pairOn then a
    else
      let a := a.accept
      let takes := a.follows || (a.role == Role.joining && a.get Reg.PAR_STAT_phase == 2)
      let o := offset.toNat
      if !takes then a
      else if o = ethDataAt then
        ((a.set Reg.ETH_TBLADDR_addr (tblAddr.toNat / 4)).putSetup 0 o value.toNat).set Reg.ETH_TBLADDR_addr (a.get Reg.ETH_TBLADDR_addr)
      else if o = canDataAt then
        ((a.set Reg.CAN_TBLADDR_addr (tblAddr.toNat / 4)).putSetup 0 o value.toNat).set Reg.CAN_TBLADDR_addr (a.get Reg.CAN_TBLADDR_addr)
      else if covered (8 * o) || (match regAt o with
          | some r => r.fields.any (fun f => covered (8 * o + f.lo))
          | none => false) then a.putSetup 0 o value.toNat
      else a

/-- The switch instant of a change that the Primary has chosen (R408, R416). -/
def App.peerSwitch (a : App) (h : CmdHdr) (t : Nat) : App :=
  match a.ctl.skim with
  | some k =>
    let a := (a.set Reg.CSC_SKTSW_t_sw t).set Reg.CSC_SKSTAT_phase 2
    if a.on Reg.CSC_SKSTAT_reverse then a else a.onCtl fun c => { c with skim := some { k with switchCmd := some h } }
  | none => a

/-- EFFECT_NOTICE (R576): a class-X command of the Primary has taken effect, or chosen its switch instant; or a deferred action
has been applied. A program start is made here too. -/
def execEffectNotice (n : PeerNotice) (s : State) : Outcome State Fault Refusal :=
  s.onApp fun a =>
    if !a.pairOn then a
    else
      let a := a.accept
      if !a.follows then a
      else
        match n with
        | .action t svc => a.onPar fun p => { p with commits := (noticeAct t svc.toNat p.commits).filter (fun c => !c.closed) }
        | .command k tag tsw =>
          match a.cmd.journal.find? (fun e => e.hdr.ctx == k && e.hdr.tag == tag && e.peer) with
          | none => a
          | some e =>
            match tsw with
            | some t => a.peerSwitch e.hdr t.toNat
            | none =>
              let a := { a with cmd := { a.cmd with journal := a.cmd.journal.map (fun x =>
                if x.hdr.ctx == k && x.hdr.tag == tag then { x with effect := true } else x) } }
              match e.op with
              | .startProgram s w => if 2 ≤ a.get (Reg.slotState s.toNat) ∧ a.get (Reg.slotState s.toNat) ≤ 3 then a.startProgram s.toNat (w == 1#8) none else a
              | _ => a

/-- IMAGE_TRANSFER (R408): the image of a change goes to the free slot; its map builds the new instance data. -/
def execImageTransfer (t : Transfer) (s : State) : Outcome State Fault Refusal :=
  s.onApp fun a =>
    if !a.pairOn then a
    else
      let a := a.accept
      if !a.follows then a
      else
        let f := a.freeSlot
        match t with
        | .image d =>
          let a := a.onCtl fun c => { c with slots := vput c.slots f d, writes := vup c.writes f (· + 1) }
          a.set (Reg.slotState f) (match (a.img f).verify a.fwVersion with
            | none => Slot.verified
            | some _ => Slot.invalid)
        | .map d =>
          if mapCheck a.runImage (a.img f) d = none ∧ a.cstate = 1 then
            let k : SkimSt := { map := d, slot := f }
            let a := ((a.onCtl fun c => { c with skim := some k }).setCstate 3).buildRegion k false
            ((a.set Reg.CSC_SKSTAT_phase 2).setB Reg.CSC_SKSTAT_reverse false).set Reg.CSC_SKSTAT_passes 0
          else a

/-! ### The state copy, as the joining module takes it (R573, R574) -/

/-- One item of a complete pass. -/
def App.copyItem (a : App) (i : CopyItem) : App :=
  match i with
  | .page n d => a.onCtl fun c => { c with inst := vup c.inst c.region (fun m => m.write (4096 * n.toNat) d) }
  | .retained fp seq d => (a.onCtl fun c => { c with copies := [⟨fp.toNat, seq.toNat, d⟩], journal := [], copyAt := a.tick }).setB Reg.CSC_PSTAT_ret_valid true
  | .commit c => a.onCtl fun x => { x with journal := ofCommit c :: x.journal, lastScan := (c.task.val, c.rel.ts.toNat, c.rel.tq.toNat, c.rel.tsc.toNat) :: x.lastScan.filter (fun l => l.1 != c.task.val) }
  | .point i v sh =>
    let pts := a.ctl.points.modify i.toNat (fun p => { p with v := ofPoint v })
    let fs := a.ctl.forces.map (fun (f : Force) => if f.point == i.toNat && !f.orphan then { f with shadow := sh.map ofPoint } else f)
    a.onCtl fun c => { c with points := pts, forces := fs }
  | .force p o r og q v t ql ty tg =>
    let f : Force := { point := p.toNat, orphan := o, reason := r.toNat, origin := og.toNat, tq := q.toNat, value := v,
                       setAt := t, quality := ql, typ := ty.toNat, tag := tg }
    a.onCtl fun c => { c with forces := c.forces ++ [f] }
  | .tag k t op crc ix f => a.onTags k (fun l => l ++ [{ tag := t, opcode := op, crc := crc, index := ix, final := f.map (fun f => ⟨f.status, f.step, f.result, f.replayed⟩) }])
  | .entry h op e => a.journalize { hdr := h, op := op, effect := e, peer := true }
  | .owner i k e h => { a with cmd := { a.cmd with owners := vput a.cmd.owners i (some ⟨k, e.toNat, h.toNat⟩) } }
  | .flags t f => a.set (Reg.CSC_FLAG_flags t) f.toNat

/-- Whether an item is a page of instance data. -/
def isPage : CopyItem → Bool
  | .page .. => true
  | _ => false

/-- A pass is complete: its items are applied; those beside pages replace what an earlier pass brought, forces first. -/
def App.applyStage (a : App) : App :=
  let l := a.par.stage
  let rest := l.filter (fun i => !isPage i)
  let force := fun (i : CopyItem) => match i with
    | .force .. => true
    | _ => false
  let a := a.onPar fun p => { p with stage := [] }
  let a := if rest.isEmpty then a
    else { a with cmd := { a.cmd with tags := Vector.replicate 8 [], journal := [], owners := Vector.replicate 9 none }, ctl := { a.ctl with forces := [] } }
  ((((l.filter isPage) ++ rest.filter force ++ rest.filter (fun i => !force i)).foldl App.copyItem a)).showForces

/-- STATE_COPY_PAGE (R573): staged until its pass is complete. -/
def execStateCopyPage (item : CopyItem) (s : State) : Outcome State Fault Refusal :=
  s.onApp fun a =>
    if !a.pairOn then a
    else
      let a := a.accept
      if a.role = Role.joining ∧ a.get Reg.PAR_STAT_phase = 2 then a.onPar fun p => { p with stage := p.stage ++ [item] } else a

/-- STATE_COPY_PASS (R573, R574): on the Primary the next pass or the drain, on the joining module the staged pages. -/
def execStateCopyPass (s : State) : Outcome State Fault Refusal :=
  s.onApp fun a =>
    if a.role = Role.joining ∧ a.get Reg.PAR_STAT_phase = 2 then a.applyStage
    else
      match a.par.copy with
      | some c => if a.leads then a.copyPass c else a
      | none => a

/-- COPY_POINT (R574): nothing is In service or Replay-pending any more. -/
def execCopyPoint (s : State) : Outcome State Fault Refusal :=
  s.onApp fun a =>
    match a.par.copy with
    | some c => if c.draining && c.point.isNone && a.leads && a.quiet then a.copyPoint c else a
    | none => a

/-- A compare unit of the Primary written here: an angle unit keeps its own number of the bay (R71, R105, R574). -/
def App.peerUnit (a : App) (u : PeerUnit) : App :=
  match u.bay with
  | none =>
    match a.freeWall with
    | some n => a.takeWall n u.target.toNat u.period.toNat u.dest.toNat u.index.toNat
    | none => a
  | some b =>
    match a.freeUnit b with
    | some n => a.takeUnit b n (u.target.toNat % 2 ^ 48) u.period.toNat u.dest.toNat u.index.toNat false
    | none => a

/-- COPY_POINT_RECEIVED (R574): the last pass applied, the compare units written, and tracking begins. -/
def execCopyPointReceived (commitSeq : W64) (pending : List (Fin 64 × PeerRelease)) (units : List PeerUnit) (s : State) :
    Outcome State Fault Refusal :=
  s.onApp fun a =>
    if !a.pairOn then a
    else
      let a := a.accept
      if a.role = Role.joining ∧ a.get Reg.PAR_STAT_phase = 2 then
        let a := (a.applyStage).set Reg.CSC_COMMIT_commit_seq commitSeq.toNat
        let a := pending.foldl (fun a p => a.onTask p.1 fun x => { x with named := some (ofRel p.2) }) a
        let a := units.foldl App.peerUnit a
        (a.onPar fun p => { p with tracked := [], matched := [], commits := [] }).setRole Role.joining 3 0
      else a

/-- TRACKING_CRITERION (R577): for sync_time every comparison has matched and every task released has had one that did. -/
def execTrackingCriterion (s : State) : Outcome State Fault Refusal :=
  s.onApp fun a =>
    if a.role = Role.joining ∧ a.get Reg.PAR_STAT_phase = 3 ∧ a.since a.par.roleAt (a.get Reg.PAR_SYNC_sync_time * 100 * tMs) = true
        ∧ a.par.tracked.all a.par.matched.contains = true then
      (a.setRole Role.standby 0 0).canShow
    else a

/-! ### Acknowledgements (R565, R574, R576) -/

/-- ACKNOWLEDGEMENT (R565): frames up to a number are accepted; what waited for them takes effect. -/
def execAcknowledgement (n : W32) (s : State) : Outcome State Fault Refusal :=
  s.onApp fun a =>
    if !a.pairOn then a
    else
      let a := a.heard
      let a := a.onPar fun p => { p with unacked := p.unacked.filter (fun f => decide (n.toNat < f.seq)) }
      let a := (a.releaseWaits n.toNat).handover
      let a := match a.par.copy with
        | some c =>
          if c.point.any (fun s => decide (s ≤ n.toNat)) then
            (a.onPar fun p => { p with copy := none, peerPhase := 3 }).onCtl fun x => { x with stopSel := false }
          else a
        | none => a
      a.resetIfAsked

/-- ACK_TIMEOUT (R576): an acknowledgement is missing after ack_to. -/
def execAckTimeout (s : State) : Outcome State Fault Refusal :=
  s.onApp fun a =>
    match a.par.unacked.find? (fun f => f.kind == 3 || f.kind == 4) with
    | some f =>
      if a.streams && a.since f.at_ (a.get Reg.PAR_SYNC_ack_to * 10 * tUs) then
        ((a.satAdd Reg.PAR_CNT_acks_late 1).dropPartner 1).resetIfAsked
      else a
    | none => a

/-- DROP (R576, R577): the Primary sends the partner back to state copy; `backlog` counts as a resync. -/
def execDrop (backlog : Bool) (s : State) : Outcome State Fault Refusal :=
  s.onApp fun a =>
    if !a.pairOn then a
    else
      let a := a.accept
      if !a.follows then a
      else if backlog then a.resync
      else (a.setRole Role.joining 2 0).enterCopy

/-! ### Takeover (R579, R580) -/

/-- The releases of a task's own units after the last streamed snapshot: the latest is released once, the earlier ones are
skipped (R579). -/
def App.ownReleases (a : App) (t : Nat) : App :=
  let l := (a.task t).own
  let a := a.onTask t fun x => { x with own := [], named := none }
  match l with
  | r :: old => (old.foldl (fun a _ => a.countSkip t) a).releaseTask t r
  | [] => a

/-- Publication goes on from the last heartbeat (R580). -/
def App.publishOn (a : App) : App :=
  let m := a.par.mirror
  let a := { a with cap := { a.cap with grp := Vector.ofFn fun g : Fin 4 => { vat a.cap.grp g with seq := m.groups.getD g (vat a.cap.grp g).seq + 65536 } }
                    tw := { a.tw with bays := Vector.ofFn fun b : Fin 4 => { vat a.tw.bays b with sent := m.arrivals.getD b (vat a.tw.bays b).sent + 65536 } } }
  if a.pubPermit then
    (a.pubsOn.zipIdx).foldl (fun a (d, i) => a.pubBeginAt d (goNext (m.goose.getD i (BitVec.ofNat 32 (a.pub d).st, 0)).1.toNat)) a
  else a

/-- Takeover, in the order of R579: contexts Off, replay, the actions of commits already made, flags, releases; then
publication (R580). -/
def App.takeover (a : App) : App :=
  let a := (upto 8).foldl (fun a k => ((if a.ctxLive k then a.ctxLeave k 0 else a).ctxZero k).setB (Reg.HCX_CTL_en k) false) a
  let a := (a.replay).satAdd Reg.PAR_CNT_takeovers 1
  let made := a.par.commits.filter (fun c => c.own.isSome)
  let a := a.onPar fun p => { p with commits := p.commits.filter (fun c => c.own.isNone), dropped := true, unacked := [] }
  let a := (a.setRole Role.solo 0 0).canShow.canResume
  let a := made.foldl (fun a c =>
    let (a, acts) := if c.peer.isSome then a.expireActs c.acts else (a, c.acts)
    a.onCtl fun x => { x with actions := x.actions ++ acts.map (fun p => (p, none)) }) a
  let a := (upto 64).foldl (fun a t => a.set (Reg.CSC_FLAG_flags t) (a.par.mirror.flags.getD t (BitVec.ofNat 32 (a.get (Reg.CSC_FLAG_flags t)))).toNat) a
  let a := a.par.ownSets.foldl (fun a x => a.set (Reg.CSC_FLAG_flags x.1) (putBit (a.get (Reg.CSC_FLAG_flags x.1)) x.2 true)) a
  let a := (upto 64).foldl App.ownReleases (a.onPar fun p => { p with ownSets := [] })
  a.publishOn

/-- HANDOVER (R569, R581): the Standby takes over. -/
def execHandover (s : State) : Outcome State Fault Refusal :=
  s.onApp fun a =>
    if !a.pairOn then a
    else
      let a := a.accept
      if a.role = Role.standby then a.takeover else a

/-! ### The partner, the link and the alive line (R564, R566, R578) -/

/-- PARTNER_LOST (R569, R578): PALV_I has been deasserted for 20 µs without a frame for 500 µs, or alv_fault stands without
one for hb_miss intervals. -/
def execPartnerLost (off : Bool) (s : State) : Outcome State Fault Refusal :=
  s.onApp fun a =>
    let lost := (off && a.since a.par.rxAt (500 * tUs)) || (a.on Reg.PAR_STAT_alv_fault && a.since a.par.rxAt a.missTicks)
    let phase := a.get Reg.PAR_STAT_phase
    if !a.pairOn || !lost || a.par.peer.isNone then a
    else
      let was := a.get Reg.PAR_STAT_partner_role
      let a := a.setB Reg.PAR_STAT_partner_seen false
      let done := fun (a : App) => a.onPar fun p => { p with peer := none, upAt := none, delay := none }
      if a.role = Role.standby then (if was = Role.primary then done a.takeover else a)
      else if a.role = Role.joining ∧ 1 ≤ phase ∧ phase ≤ 3 then done a.goSolo
      else if a.role = Role.primary then done ((a.partnerGone).setRole Role.solo 0 0)
      else if a.leads then done a.partnerGone
      else done a

/-- LINK_LOST (R569, R578): no valid frame for hb_miss intervals while PALV_I stays asserted. -/
def execLinkLost (s : State) : Outcome State Fault Refusal :=
  s.onApp fun a =>
    let phase := a.get Reg.PAR_STAT_phase
    if a.pairOn && a.par.upAt.isSome && a.since a.par.rxAt a.missTicks && !a.on Reg.PAR_STAT_alv_fault then
      let a := ((a.onPar fun p => { p with upAt := none }).satAdd Reg.PAR_CNT_link_losses 1).setB Reg.PAR_STAT_partner_seen false
      if a.role = Role.standby ∨ (a.role = Role.joining ∧ 1 ≤ phase ∧ phase ≤ 3) then (a.block 9).canShow else a
    else a

/-- ALIVE_LINE_FAULT (R578): PALV_I has been deasserted for 20 µs while frames continue. -/
def execAliveLineFault (s : State) : Outcome State Fault Refusal :=
  s.onApp fun a =>
    if a.pairOn && !a.on Reg.PAR_STAT_alv_fault && a.par.upAt.isSome && !a.since a.par.rxAt (500 * tUs) then
      ((a.setB Reg.PAR_STAT_alv_fault true).onPar fun p => { p with alvAt := a.tick }).record 0x0061 0 0 0 0
    else a

/-- ALV_FAULT_CLEAR (R578): PALV_I has been asserted for 1 s. -/
def execAlvFaultClear (s : State) : Outcome State Fault Refusal :=
  s.onApp fun a => if a.on Reg.PAR_STAT_alv_fault && a.since a.par.alvAt tS then a.setB Reg.PAR_STAT_alv_fault false else a

/-- LANE_FAILURE (R564). -/
def execLaneFailure (s : State) : Outcome State Fault Refusal := s.onApp fun a => a.setB Reg.PAR_STAT_link_degraded true

/-- LANE_RESTORED (R564, R570): the tracking-load block may be retried. -/
def execLaneRestored (s : State) : Outcome State Fault Refusal :=
  s.onApp fun a =>
    let a := a.setB Reg.PAR_STAT_link_degraded false
    if a.role = Role.joining ∧ a.get Reg.PAR_STAT_phase = 4 ∧ a.get Reg.PAR_STAT_reason = 6 then a.setRole Role.joining 1 0 else a

/-- PAIR_WAIT_EXPIRY (R569): no partner heartbeat for pair_wait. -/
def execPairWaitExpiry (s : State) : Outcome State Fault Refusal :=
  s.onApp fun a =>
    if a.role = Role.joining ∧ a.get Reg.PAR_STAT_phase = 0 ∧ a.since (max a.par.roleAt a.par.hbAt) (a.get Reg.PAR_TIM_pair_wait * 100 * tMs) = true then
      a.goSolo.canShow
    else a

/-- JOINING_RETRY (R570): the retry event of the block's reason; the reasons time, state and link have conditions of their
own. -/
def execJoiningRetry (s : State) : Outcome State Fault Refusal :=
  s.onApp fun a =>
    let ok := match a.get Reg.PAR_STAT_reason with
      | 7 => a.passed a.par.offOkAt tS
      | 8 => a.since a.par.roleAt (600 * tS)
      | 9 => a.passed a.par.upAt tS
      | _ => true
    if a.role = Role.joining ∧ a.get Reg.PAR_STAT_phase = 4 ∧ ok = true then a.setRole Role.joining 1 0 else a

/-- UPGRADE_WINDOW_CLOSE (R569, R572): the window of the module ends; a Standby with other firmware is blocked. -/
def execUpgradeWindowClose (s : State) : Outcome State Fault Refusal :=
  s.onApp fun a =>
    if a.on Reg.PAR_STAT_window_open && decide (a.get Reg.PAR_UPG_upg_end * 1000000000 ≤ a.now) then
      let a := a.setB Reg.PAR_STAT_window_open false
      if a.role = Role.standby ∧ a.get Reg.PAR_PFW_partner_fw ≠ a.fwVersion ∧ a.par.peer.all (fun p => !p.window) = true then (a.block 5).canShow else a
    else a

end Sys2Proof.Machine
end

