-- ==== Sys2Proof/Machine/Dispatch.lean ====
section
/-! DEFINITION. One arm for each command and event: a direct call of its meaning. -/

namespace Sys2Proof.Machine

open Host

def exec (i : Instr) (s : State) : Host.Outcome State Fault Refusal :=
  match i with
  | .nop h => Sys2Proof.Machine.execNop h s
  | .select h obj hold => Sys2Proof.Machine.execSelect h obj hold s
  | .deselect h obj => Sys2Proof.Machine.execDeselect h obj s
  | .cancel h target => Sys2Proof.Machine.execCancel h target s
  | .moduleStatus h => Sys2Proof.Machine.execModuleStatus h s
  | .readTime h out clear => Sys2Proof.Machine.execReadTime h out clear s
  | .forceTime h mode ns value => Sys2Proof.Machine.execForceTime h mode ns value s
  | .adjustRate h incr lock => Sys2Proof.Machine.execAdjustRate h incr lock s
  | .stepTime h offset => Sys2Proof.Machine.execStepTime h offset s
  | .readAngle h out bay clear => Sys2Proof.Machine.execReadAngle h out bay clear s
  | .writeSettings h group first count desc => Sys2Proof.Machine.execWriteSettings h group first count desc s
  | .selectGroup h bay group => Sys2Proof.Machine.execSelectGroup h bay group s
  | .setCurve h body => Sys2Proof.Machine.execSetCurve h body s
  | .readSettings h out group first count => Sys2Proof.Machine.execReadSettings h out group first count s
  | .selfCal h => Sys2Proof.Machine.execSelfCal h s
  | .auxStart h seq slot => Sys2Proof.Machine.execAuxStart h seq slot s
  | .readAux h out seq => Sys2Proof.Machine.execReadAux h out seq s
  | .breakerClose h bay mode target => Sys2Proof.Machine.execBreakerClose h bay mode target s
  | .breakerOpen h bay mode target => Sys2Proof.Machine.execBreakerOpen h bay mode target s
  | .clearTripFault h channel => Sys2Proof.Machine.execClearTripFault h channel s
  | .armCapture h slot arm => Sys2Proof.Machine.execArmCapture h slot arm s
  | .fireCapture h slot => Sys2Proof.Machine.execFireCapture h slot s
  | .cutTwRecord h bay at_ => Sys2Proof.Machine.execCutTwRecord h bay at_ s
  | .readTwRecord h out seq => Sys2Proof.Machine.execReadTwRecord h out seq s
  | .readSnapshot h out => Sys2Proof.Machine.execReadSnapshot h out s
  | .cisternRequest h out req count first => Sys2Proof.Machine.execCisternRequest h out req count first s
  | .loadImage h slot size src => Sys2Proof.Machine.execLoadImage h slot size src s
  | .verifyImage h slot => Sys2Proof.Machine.execVerifyImage h slot s
  | .eraseSlot h slot => Sys2Proof.Machine.execEraseSlot h slot s
  | .startProgram h slot warm => Sys2Proof.Machine.execStartProgram h slot warm s
  | .stopProgram h => Sys2Proof.Machine.execStopProgram h s
  | .holdProgram h hold => Sys2Proof.Machine.execHoldProgram h hold s
  | .writePoint h quality point value => Sys2Proof.Machine.execWritePoint h quality point value s
  | .readPoints h out first count => Sys2Proof.Machine.execReadPoints h out first count s
  | .flagSet h task flag => Sys2Proof.Machine.execFlagSet h task flag s
  | .flagCancel h task mask => Sys2Proof.Machine.execFlagCancel h task mask s
  | .skimPrepare h len map => Sys2Proof.Machine.execSkimPrepare h len map s
  | .skimSwitch h earliest => Sys2Proof.Machine.execSkimSwitch h earliest s
  | .skimAbort h => Sys2Proof.Machine.execSkimAbort h s
  | .skimRollback h => Sys2Proof.Machine.execSkimRollback h s
  | .skimConfirm h => Sys2Proof.Machine.execSkimConfirm h s
  | .forceSet h quality point value tag => Sys2Proof.Machine.execForceSet h quality point value tag s
  | .forceClear h orphan point => Sys2Proof.Machine.execForceClear h orphan point s
  | .readForces h out => Sys2Proof.Machine.execReadForces h out s
  | .fieldRearm h supply => Sys2Proof.Machine.execFieldRearm h supply s
  | .lifecycleSet h target confirm => Sys2Proof.Machine.execLifecycleSet h target confirm s
  | .resetModule h kind => Sys2Proof.Machine.execResetModule h kind s
  | .loadFirmware h slot size src => Sys2Proof.Machine.execLoadFirmware h slot size src s
  | .requestRemoval h => Sys2Proof.Machine.execRequestRemoval h s
  | .nopInstruction core => Sys2Proof.Machine.execNopInstruction core s
  | .mov core => Sys2Proof.Machine.execMov core s
  | .ldi core => Sys2Proof.Machine.execLdi core s
  | .ldc core => Sys2Proof.Machine.execLdc core s
  | .tag core => Sys2Proof.Machine.execTag core s
  | .cvt core => Sys2Proof.Machine.execCvt core s
  | .sel core => Sys2Proof.Machine.execSel core s
  | .add core => Sys2Proof.Machine.execAdd core s
  | .sub core => Sys2Proof.Machine.execSub core s
  | .mul core => Sys2Proof.Machine.execMul core s
  | .div core => Sys2Proof.Machine.execDiv core s
  | .mod core => Sys2Proof.Machine.execMod core s
  | .neg core => Sys2Proof.Machine.execNeg core s
  | .abs core => Sys2Proof.Machine.execAbs core s
  | .min core => Sys2Proof.Machine.execMin core s
  | .max core => Sys2Proof.Machine.execMax core s
  | .addi core => Sys2Proof.Machine.execAddi core s
  | .and core => Sys2Proof.Machine.execAnd core s
  | .or core => Sys2Proof.Machine.execOr core s
  | .xor core => Sys2Proof.Machine.execXor core s
  | .not core => Sys2Proof.Machine.execNot core s
  | .shl core => Sys2Proof.Machine.execShl core s
  | .shr core => Sys2Proof.Machine.execShr core s
  | .sar core => Sys2Proof.Machine.execSar core s
  | .rol core => Sys2Proof.Machine.execRol core s
  | .ror core => Sys2Proof.Machine.execRor core s
  | .fadd core => Sys2Proof.Machine.execFadd core s
  | .fsub core => Sys2Proof.Machine.execFsub core s
  | .fmul core => Sys2Proof.Machine.execFmul core s
  | .fdiv core => Sys2Proof.Machine.execFdiv core s
  | .fsqrt core => Sys2Proof.Machine.execFsqrt core s
  | .fabs core => Sys2Proof.Machine.execFabs core s
  | .fneg core => Sys2Proof.Machine.execFneg core s
  | .fmin core => Sys2Proof.Machine.execFmin core s
  | .fmax core => Sys2Proof.Machine.execFmax core s
  | .ceq core => Sys2Proof.Machine.execCeq core s
  | .cne core => Sys2Proof.Machine.execCne core s
  | .clt core => Sys2Proof.Machine.execClt core s
  | .cle core => Sys2Proof.Machine.execCle core s
  | .ldk core => Sys2Proof.Machine.execLdk core s
  | .stk core => Sys2Proof.Machine.execStk core s
  | .ldf core => Sys2Proof.Machine.execLdf core s
  | .stf core => Sys2Proof.Machine.execStf core s
  | .ldp core => Sys2Proof.Machine.execLdp core s
  | .ldpq core => Sys2Proof.Machine.execLdpq core s
  | .ldps core => Sys2Proof.Machine.execLdps core s
  | .stp core => Sys2Proof.Machine.execStp core s
  | .stpq core => Sys2Proof.Machine.execStpq core s
  | .br core => Sys2Proof.Machine.execBr core s
  | .bt core => Sys2Proof.Machine.execBt core s
  | .bf core => Sys2Proof.Machine.execBf core s
  | .lpc core => Sys2Proof.Machine.execLpc core s
  | .loop core => Sys2Proof.Machine.execLoop core s
  | .call core => Sys2Proof.Machine.execCall core s
  | .callb core => Sys2Proof.Machine.execCallb core s
  | .ret core => Sys2Proof.Machine.execRet core s
  | .frame core => Sys2Proof.Machine.execFrame core s
  | .waitWork core => Sys2Proof.Machine.execWaitWork core s
  | .endScan core => Sys2Proof.Machine.execEndScan core s
  | .scanTime core => Sys2Proof.Machine.execScanTime core s
  | .scanQual core => Sys2Proof.Machine.execScanQual core s
  | .scanAngle core => Sys2Proof.Machine.execScanAngle core s
  | .scanCycle core => Sys2Proof.Machine.execScanCycle core s
  | .breaker core => Sys2Proof.Machine.execBreaker core s
  | .group core => Sys2Proof.Machine.execGroup core s
  | .captureArm core => Sys2Proof.Machine.execCaptureArm core s
  | .captureFire core => Sys2Proof.Machine.execCaptureFire core s
  | .auxSeq core => Sys2Proof.Machine.execAuxSeq core s
  | .svcFlagSet core => Sys2Proof.Machine.execSvcFlagSet core s
  | .svcFlagCancel core => Sys2Proof.Machine.execSvcFlagCancel core s
  | .commit core => Sys2Proof.Machine.execCommit core s
  | .deferredAction => Sys2Proof.Machine.execDeferredAction s
  | .lockstepMismatch core sram => Sys2Proof.Machine.execLockstepMismatch core sram s
  | .selfTestEnd core pass => Sys2Proof.Machine.execSelfTestEnd core pass s
  | .scanBudgetExpiry core => Sys2Proof.Machine.execScanBudgetExpiry core s
  | .initBudgetExpiry core => Sys2Proof.Machine.execInitBudgetExpiry core s
  | .dispatcherCycle => Sys2Proof.Machine.execDispatcherCycle s
  | .retainedCopy => Sys2Proof.Machine.execRetainedCopy s
  | .wallCompareFire unit => Sys2Proof.Machine.execWallCompareFire unit s
  | .angleCompareFire bay unit target => Sys2Proof.Machine.execAngleCompareFire bay unit target s
  | .wallCompareWrite ctx unit reg value => Sys2Proof.Machine.execWallCompareWrite ctx unit reg value s
  | .angleCompareWrite ctx bay unit reg value => Sys2Proof.Machine.execAngleCompareWrite ctx bay unit reg value s
  | .angleClockEnable ctx bay value => Sys2Proof.Machine.execAngleClockEnable ctx bay value s
  | .lockCriterion bay => Sys2Proof.Machine.execLockCriterion bay s
  | .voltageValidCount bay => Sys2Proof.Machine.execVoltageValidCount bay s
  | .freezeMax bay => Sys2Proof.Machine.execFreezeMax bay s
  | .settleComplete bay => Sys2Proof.Machine.execSettleComplete bay s
  | .holdMax bay => Sys2Proof.Machine.execHoldMax bay s
  | .ptpMessageRx port msg raw => Sys2Proof.Machine.execPtpMessageRx port msg raw s
  | .pdelayInterval pair side => Sys2Proof.Machine.execPdelayInterval pair side s
  | .announceTimeout => Sys2Proof.Machine.execAnnounceTimeout s
  | .hostServoSilence => Sys2Proof.Machine.execHostServoSilence s
  | .holdLimitReached => Sys2Proof.Machine.execHoldLimitReached s
  | .referenceEdge signal => Sys2Proof.Machine.execReferenceEdge signal s
  | .referenceLost => Sys2Proof.Machine.execReferenceLost s
  | .backupWrite => Sys2Proof.Machine.execBackupWrite s
  | .otMirror => Sys2Proof.Machine.execOtMirror s
  | .anchorPeriodic => Sys2Proof.Machine.execAnchorPeriodic s
  | .selfCalComplete points => Sys2Proof.Machine.execSelfCalComplete points s
  | .handoverStart bay => Sys2Proof.Machine.execHandoverStart bay s
  | .handoverSettleEnd bay => Sys2Proof.Machine.execHandoverSettleEnd bay s
  | .comparisonWindowEnd bay => Sys2Proof.Machine.execComparisonWindowEnd bay s
  | .verifyWindowEnd bay => Sys2Proof.Machine.execVerifyWindowEnd bay s
  | .takeOver bay => Sys2Proof.Machine.execTakeOver bay s
  | .sliceCalibrationEnd bay points => Sys2Proof.Machine.execSliceCalibrationEnd bay points s
  | .handoverRetry bay => Sys2Proof.Machine.execHandoverRetry bay s
  | .calOverdue bay => Sys2Proof.Machine.execCalOverdue bay s
  | .sliceLoopReset bay slice => Sys2Proof.Machine.execSliceLoopReset bay slice s
  | .rangeChange bay ch => Sys2Proof.Machine.execRangeChange bay ch s
  | .referenceSourceChange bay => Sys2Proof.Machine.execReferenceSourceChange bay s
  | .housekeepingDue => Sys2Proof.Machine.execHousekeepingDue s
  | .auxConversionEnd samples => Sys2Proof.Machine.execAuxConversionEnd samples s
  | .refSettled => Sys2Proof.Machine.execRefSettled s
  | .decChangeEdge => Sys2Proof.Machine.execDecChangeEdge s
  | .decWrite ctx reg value => Sys2Proof.Machine.execDecWrite ctx reg value s
  | .integratorSettleEnd bay ch => Sys2Proof.Machine.execIntegratorSettleEnd bay ch s
  | .tickEvaluation engine => Sys2Proof.Machine.execTickEvaluation engine s
  | .pairDisagree slot => Sys2Proof.Machine.execPairDisagree slot s
  | .engineFaulted engine internal => Sys2Proof.Machine.execEngineFaulted engine internal s
  | .engineReloadEnd engine => Sys2Proof.Machine.execEngineReloadEnd engine s
  | .substitutionChange bay => Sys2Proof.Machine.execSubstitutionChange bay s
  | .svFallback bay => Sys2Proof.Machine.execSvFallback bay s
  | .instantaneousPickup bay ch => Sys2Proof.Machine.execInstantaneousPickup bay ch s
  | .instantaneousDropout bay ch => Sys2Proof.Machine.execInstantaneousDropout bay ch s
  | .disturbancePickup bay => Sys2Proof.Machine.execDisturbancePickup bay s
  | .disturbanceDropout bay => Sys2Proof.Machine.execDisturbanceDropout bay s
  | .matrixScan => Sys2Proof.Machine.execMatrixScan s
  | .tripOverload ch => Sys2Proof.Machine.execTripOverload ch s
  | .sealInRelease ch => Sys2Proof.Machine.execSealInRelease ch s
  | .sealTimeout ch => Sys2Proof.Machine.execSealTimeout ch s
  | .tripLogicSilent ch => Sys2Proof.Machine.execTripLogicSilent ch s
  | .tcsMeasurement ch iOut tsp vSw => Sys2Proof.Machine.execTcsMeasurement ch iOut tsp vSw s
  | .tcsDiagnosis ch => Sys2Proof.Machine.execTcsDiagnosis ch s
  | .breakerExecution bay => Sys2Proof.Machine.execBreakerExecution bay s
  | .breakerOutputEnd bay => Sys2Proof.Machine.execBreakerOutputEnd bay s
  | .opTimeout bay => Sys2Proof.Machine.execOpTimeout bay s
  | .onsetSearchEnd bay => Sys2Proof.Machine.execOnsetSearchEnd bay s
  | .frameRelease number descs => Sys2Proof.Machine.execFrameRelease number descs s
  | .triggerFire unit => Sys2Proof.Machine.execTriggerFire unit s
  | .groupMessageRx data => Sys2Proof.Machine.execGroupMessageRx data s
  | .groupMessageRepeat => Sys2Proof.Machine.execGroupMessageRepeat s
  | .wavefrontPickup bay => Sys2Proof.Machine.execWavefrontPickup bay s
  | .qualification bay => Sys2Proof.Machine.execQualification bay s
  | .twRecordCut bay => Sys2Proof.Machine.execTwRecordCut bay s
  | .arrivalMessageRx data => Sys2Proof.Machine.execArrivalMessageRx data s
  | .arrivalMessageRepeat => Sys2Proof.Machine.execArrivalMessageRepeat s
  | .remWaitExpiry bay => Sys2Proof.Machine.execRemWaitExpiry bay s
  | .snapshotRx data start => Sys2Proof.Machine.execSnapshotRx data start s
  | .cisternSilent => Sys2Proof.Machine.execCisternSilent s
  | .cisRequestTimeout => Sys2Proof.Machine.execCisRequestTimeout s
  | .readRequest data => Sys2Proof.Machine.execReadRequest data s
  | .cisternPeriodEnd samples freq delay => Sys2Proof.Machine.execCisternPeriodEnd samples freq delay s
  | .cisternStore => Sys2Proof.Machine.execCisternStore s
  | .cisternSupplyLoss => Sys2Proof.Machine.execCisternSupplyLoss s
  | .cisternPowerUp points outage kept => Sys2Proof.Machine.execCisternPowerUp points outage kept s
  | .cisternWatchdogRestart => Sys2Proof.Machine.execCisternWatchdogRestart s
  | .spareCheck zero plus => Sys2Proof.Machine.execSpareCheck zero plus s
  | .demandIntervalEnd => Sys2Proof.Machine.execDemandIntervalEnd s
  | .profileIntervalEnd ch => Sys2Proof.Machine.execProfileIntervalEnd ch s
  | .serviceSwitchHold => Sys2Proof.Machine.execServiceSwitchHold s
  | .opticalReadout => Sys2Proof.Machine.execOpticalReadout s
  | .programmingMode code => Sys2Proof.Machine.execProgrammingMode code s
  | .programmingTimeout => Sys2Proof.Machine.execProgrammingTimeout s
  | .calibration ch gain phase offset => Sys2Proof.Machine.execCalibration ch gain phase offset s
  | .legalSettingChange setting => Sys2Proof.Machine.execLegalSettingChange setting s
  | .registerReset => Sys2Proof.Machine.execRegisterReset s
  | .firmwareReplacement part signed => Sys2Proof.Machine.execFirmwareReplacement part signed s
  | .clockSetting sec => Sys2Proof.Machine.execClockSetting sec s
  | .demandReset => Sys2Proof.Machine.execDemandReset s
  | .longOperationStep ctx data more => Sys2Proof.Machine.execLongOperationStep ctx data more s
  | .migrationPass => Sys2Proof.Machine.execMigrationPass s
  | .switchInstant => Sys2Proof.Machine.execSwitchInstant s
  | .switchDrainEnd => Sys2Proof.Machine.execSwitchDrainEnd s
  | .dirtyTimeout => Sys2Proof.Machine.execDirtyTimeout s
  | .rollbackWindowEnd => Sys2Proof.Machine.execRollbackWindowEnd s
  | .debounceComplete ch level t => Sys2Proof.Machine.execDebounceComplete ch level t s
  | .supervisionDiagnosis ch current => Sys2Proof.Machine.execSupervisionDiagnosis ch current s
  | .heldChangeTimeout ch => Sys2Proof.Machine.execHeldChangeTimeout ch s
  | .chatterSettled ch => Sys2Proof.Machine.execChatterSettled ch s
  | .stuckTime ch => Sys2Proof.Machine.execStuckTime ch s
  | .outputDiagnosis ch meas => Sys2Proof.Machine.execOutputDiagnosis ch meas s
  | .overloadRetry ch => Sys2Proof.Machine.execOverloadRetry ch s
  | .islandSilent ch => Sys2Proof.Machine.execIslandSilent ch s
  | .fieldSilence ch => Sys2Proof.Machine.execFieldSilence ch s
  | .fieldSupplyRise ch => Sys2Proof.Machine.execFieldSupplyRise ch s
  | .fsLow supply low => Sys2Proof.Machine.execFsLow supply low s
  | .fsDead supply => Sys2Proof.Machine.execFsDead supply s
  | .outputShutdownSlot ch => Sys2Proof.Machine.execOutputShutdownSlot ch s
  | .latchRelease supply => Sys2Proof.Machine.execLatchRelease supply s
  | .channelReenable ch => Sys2Proof.Machine.execChannelReenable ch s
  | .fioCfgWrite ctx channel value => Sys2Proof.Machine.execFioCfgWrite ctx channel value s
  | .doorbellFetch ctx page slots => Sys2Proof.Machine.execDoorbellFetch ctx page slots s
  | .contextEnable ctx holdoff => Sys2Proof.Machine.execContextEnable ctx holdoff s
  | .contextDisable ctx holdoff => Sys2Proof.Machine.execContextDisable ctx holdoff s
  | .functionLevelReset ctx => Sys2Proof.Machine.execFunctionLevelReset ctx s
  | .linkDown port => Sys2Proof.Machine.execLinkDown port s
  | .linkUp port speed width => Sys2Proof.Machine.execLinkUp port speed width s
  | .interruptHoldoffEnd ctx vector => Sys2Proof.Machine.execInterruptHoldoffEnd ctx vector s
  | .ownershipExpiry object => Sys2Proof.Machine.execOwnershipExpiry object s
  | .setupWrite ctx offset width value => Sys2Proof.Machine.execSetupWrite ctx offset width value s
  | .latchedRead ctx offset width => Sys2Proof.Machine.execLatchedRead ctx offset width s
  | .ethTbldataWrite ctx value => Sys2Proof.Machine.execEthTbldataWrite ctx value s
  | .ethTbldataRead ctx => Sys2Proof.Machine.execEthTbldataRead ctx s
  | .canTbldataWrite ctx value => Sys2Proof.Machine.execCanTbldataWrite ctx value s
  | .canTbldataRead ctx => Sys2Proof.Machine.execCanTbldataRead ctx s
  | .evrRdidxWrite ctx value => Sys2Proof.Machine.execEvrRdidxWrite ctx value s
  | .trpBkinitWrite ctx bay opens value => Sys2Proof.Machine.execTrpBkinitWrite ctx bay opens value s
  | .trpBklimWrite ctx bay value => Sys2Proof.Machine.execTrpBklimWrite ctx bay value s
  | .protectionStateWrite ctx value => Sys2Proof.Machine.execProtectionStateWrite ctx value s
  | .outputEnableWrite ctx value => Sys2Proof.Machine.execOutputEnableWrite ctx value s
  | .hcxRoleWrite ctx target value => Sys2Proof.Machine.execHcxRoleWrite ctx target value s
  | .parUpgWrite ctx value => Sys2Proof.Machine.execParUpgWrite ctx value s
  | .dmaTailAdvance channel slots forCtx => Sys2Proof.Machine.execDmaTailAdvance channel slots forCtx s
  | .dmaBurst io => Sys2Proof.Machine.execDmaBurst io s
  | .dmaConfirmationRead channel ok => Sys2Proof.Machine.execDmaConfirmationRead channel ok s
  | .dmaAbort channel => Sys2Proof.Machine.execDmaAbort channel s
  | .dmaRestart channel => Sys2Proof.Machine.execDmaRestart channel s
  | .gooseRetransmission dataset => Sys2Proof.Machine.execGooseRetransmission dataset s
  | .gooseFrameRx frame => Sys2Proof.Machine.execGooseFrameRx frame s
  | .gooseExpiry cb => Sys2Proof.Machine.execGooseExpiry cb s
  | .svAsduRx asdu => Sys2Proof.Machine.execSvAsduRx asdu s
  | .svStreamLost stream => Sys2Proof.Machine.execSvStreamLost stream s
  | .svPublication bay frame => Sys2Proof.Machine.execSvPublication bay frame s
  | .supervisionFrame pair => Sys2Proof.Machine.execSupervisionFrame pair s
  | .hsrFrameRx port good src seq data ptp resid => Sys2Proof.Machine.execHsrFrameRx port good src seq data ptp resid s
  | .canWindowStart bus idle => Sys2Proof.Machine.execCanWindowStart bus idle s
  | .canWindowEnd bus => Sys2Proof.Machine.execCanWindowEnd bus s
  | .canFrameReceived bus frame => Sys2Proof.Machine.execCanFrameReceived bus frame s
  | .canFrameSent bus ts result => Sys2Proof.Machine.execCanFrameSent bus ts result s
  | .canMessageTransmit bus idle => Sys2Proof.Machine.execCanMessageTransmit bus idle s
  | .canRxTimeout bus obj => Sys2Proof.Machine.execCanRxTimeout bus obj s
  | .busOffRecovery bus => Sys2Proof.Machine.execBusOffRecovery bus s
  | .canCorrelation => Sys2Proof.Machine.execCanCorrelation s
  | .canBlockFlush sub descs => Sys2Proof.Machine.execCanBlockFlush sub descs s
  | .heartbeatInterval => Sys2Proof.Machine.execHeartbeatInterval s
  | .heartbeat beat => Sys2Proof.Machine.execHeartbeat beat s
  | .taskSnapshot task rel snap => Sys2Proof.Machine.execTaskSnapshot task rel snap s
  | .commitRecord c => Sys2Proof.Machine.execCommitRecord c s
  | .commandJournalEntry h op => Sys2Proof.Machine.execCommandJournalEntry h op s
  | .finalTagRecord ctx tag final => Sys2Proof.Machine.execFinalTagRecord ctx tag final s
  | .mirroredSetupWrite offset tblAddr value => Sys2Proof.Machine.execMirroredSetupWrite offset tblAddr value s
  | .effectNotice n => Sys2Proof.Machine.execEffectNotice n s
  | .stateCopyPage item => Sys2Proof.Machine.execStateCopyPage item s
  | .imageTransfer t => Sys2Proof.Machine.execImageTransfer t s
  | .copyPointReceived commitSeq pending units => Sys2Proof.Machine.execCopyPointReceived commitSeq pending units s
  | .handover => Sys2Proof.Machine.execHandover s
  | .drop backlog => Sys2Proof.Machine.execDrop backlog s
  | .acknowledgement n => Sys2Proof.Machine.execAcknowledgement n s
  | .stateCopyPass => Sys2Proof.Machine.execStateCopyPass s
  | .copyPoint => Sys2Proof.Machine.execCopyPoint s
  | .trackingCriterion => Sys2Proof.Machine.execTrackingCriterion s
  | .ackTimeout => Sys2Proof.Machine.execAckTimeout s
  | .partnerLost off => Sys2Proof.Machine.execPartnerLost off s
  | .linkLost => Sys2Proof.Machine.execLinkLost s
  | .aliveLineFault => Sys2Proof.Machine.execAliveLineFault s
  | .alvFaultClear => Sys2Proof.Machine.execAlvFaultClear s
  | .pairWaitExpiry => Sys2Proof.Machine.execPairWaitExpiry s
  | .joiningRetry => Sys2Proof.Machine.execJoiningRetry s
  | .upgradeWindowClose => Sys2Proof.Machine.execUpgradeWindowClose s
  | .powerOnReset unpowered lost => Sys2Proof.Machine.execPowerOnReset unpowered lost s
  | .carrierReset asserted => Sys2Proof.Machine.execCarrierReset asserted s
  | .watchdogExpiry => Sys2Proof.Machine.execWatchdogExpiry s
  | .dramWipeEnd bad => Sys2Proof.Machine.execDramWipeEnd bad s
  | .backgroundEraseStep => Sys2Proof.Machine.execBackgroundEraseStep s
  | .powerFail feeds bus => Sys2Proof.Machine.execPowerFail feeds bus s
  | .feedLow feed low bus => Sys2Proof.Machine.execFeedLow feed low bus s
  | .hotSwapDisable => Sys2Proof.Machine.execHotSwapDisable s
  | .scrubPass pass => Sys2Proof.Machine.execScrubPass pass s
  | .fsDeadClear supply => Sys2Proof.Machine.execFsDeadClear supply s
  | .laneFailure => Sys2Proof.Machine.execLaneFailure s
  | .laneRestored => Sys2Proof.Machine.execLaneRestored s
  | .ethLinkChange port link an => Sys2Proof.Machine.execEthLinkChange port link an s
  | .canErrorDetected bus ts code data heavy => Sys2Proof.Machine.execCanErrorDetected bus ts code data heavy s
  | .hotReset port => Sys2Proof.Machine.execHotReset port s
  | .fieldSilenceEnd ch => Sys2Proof.Machine.execFieldSilenceEnd ch s
  | .tripLogicReturn ch => Sys2Proof.Machine.execTripLogicReturn ch s
  | .islandFramesResumed ch => Sys2Proof.Machine.execIslandFramesResumed ch s

end Sys2Proof.Machine
end

