-- ==== Sys2Proof/Machine/Tick.lean ====
section
/-! DEFINITION. One tick of the 250 MHz timebase: what the clocks of the module do whatever is commanded (R7, R40, R64, R75). -/

namespace Sys2Proof.Machine

/-- The CIC periods that have ended by the present instant of the modulator's edges (R75, R152). -/
def TimeSt.cicCount (t : TimeSt) : Int := t.wall.modNs t.modErr * 230400 / 1000000000

/-- Wall time over one tick with the increment in force, the slew of the modulator clock, and the angle clocks where a CIC
period ends (R40, R72, R75). -/
def App.clocksTick (a : App) : App :=
  let t := { a.tim with wall := a.tim.wall.tick a.tim.incr, modErr := modSlew a.tim.incr.toNat a.tim.modErr }
  let b := { a with tim := t }
  let b := if t.cicCount = a.tim.cicCount then b
    else
      let b := b.onSig fun s => { s with periods := s.periods + 1 }
      let t16 := b.atAxis (b.sig.periods * 1000000000)
      { b with clk := b.clk.map (Clock.advance t16) }.takeOvers
  (upto 4).foldl (fun b n => b.noteAngle (vat a.clk n) a.cicPart n) b

/-- A modulator edge: every eighth ends a Jet sample and every sixty-fourth a CIC sample (R150, R152). -/
def App.sigEdge (a : App) (e : Nat) : App :=
  let a := a.clockSlices
  let a := if e % 8 = 7 then ((a.jetSample e).access .jet .dram 64).twTrack else a
  if e % 64 = 63 then a.cicSample e (e / 64) else a

/-- The modulator edge, if one falls in a tick that began with edge count `before` (R72). -/
def App.sigTick (a : App) (before : Int) : App :=
  if a.tim.edgeCount = before then a else a.sigEdge a.tim.edgeCount.toNat

/-- One tick: OT32 counts with feed and without a wipe of it, and nothing else runs while the module is held (R7, R591). -/
def App.tickOnce (a : App) : App :=
  let a := { a with tick := a.tick + 1, opTicks := if a.life.power then a.opTicks + 1 else a.opTicks }
  if a.life.boot = .held then a else (((a.clocksTick.sigTick a.tim.edgeCount).xbarTick.portsTick).bootStep).failStep

end Sys2Proof.Machine
end

