-- ==== Sys2Proof/Machine/Step.lean ====
section
/-! DEFINITION. One step: the command or event at the front of the queue, or one tick of the timebase. -/

namespace Sys2Proof.Machine

/-- The front of the queue is carried out with the queue's rest; on an empty queue one tick of the timebase passes. -/
def step (s : State) : Host.Outcome State Fault Refusal :=
  match s.pending with
  | c :: rest => exec c { s with pending := rest }
  | [] => .next { s with app := s.app.tickOnce }

/-- No command of this block has an encoding in bits: no word spells one, and the queue stays as it is. -/
def State.withFetchWord (s : State) (nbits w : Nat) : State :=
  match decodeTableWord nbits w with
  | some i => { s with pending := i :: s.pending }
  | none => s

end Sys2Proof.Machine
end

