-- ==== Sys2Proof/Machine/Flags.lean ====
section
/-! DEFINITION. What the module shows of its state on its front face and on the alive line (R566, R627). -/

namespace Sys2Proof.Machine

inductive Colour where
  | green | yellow | red | blue
  deriving DecidableEq, Repr

/-- What a status LED shows; flashing is 1 Hz at 50 % (R627). -/
inductive Led where
  | off
  | on (c : Colour)
  | flashing (c : Colour)
  deriving DecidableEq, Repr

/-- PWR: the feed is valid (R627). -/
def App.ledPwr (a : App) : Led := if a.life.power then .on .green else .off

/-- PROT (R595, R627). -/
def App.ledProt (a : App) : Led :=
  if !a.life.protDone then .flashing .yellow
  else if (upto 4).any (fun b => a.prot b != 0) then .on .yellow
  else .on .green

/-- CTL (R602, R627). -/
def App.ledCtl (a : App) : Led :=
  match a.cstate with
  | 0 => .off
  | 1 => .on .green
  | 2 => .on .yellow
  | _ => .flashing .green

/-- PAIR (R567, R627); the table names no state for Leaving. -/
def App.ledPair (a : App) : Led :=
  if a.role = Role.joining then (if a.get Reg.PAR_STAT_phase = 4 then .on .yellow else .flashing .yellow)
  else if a.role = Role.standby then .flashing .green
  else if a.role = Role.primary then .on .green
  else .off

/-- FAULT: an engine Faulted, a core Offline, or the recovery state (R627). -/
def App.ledFault (a : App) : Led :=
  if (upto 2).any (fun e => a.get (Reg.SLU_STAT_state e) == 2) || (upto 8).any (fun k => a.coreState k == 3) || a.life.boot == .recovery
  then .on .red else .off

/-- REMOVE: ready is set (R581, R627). -/
def App.ledRemove (a : App) : Led := if a.on Reg.PAR_STAT_ready then .on .blue else .off

/-- PALV_O: asserted while the supervisor feeds its watchdog, not in a reset nor after a power failure (R566). -/
def App.palvOut (a : App) : Bool := a.life.boot != .held

end Sys2Proof.Machine
end

