-- ==== Sys2Proof/Safety.lean ====
section
/-! DEFINITION. What counts as a safe run, in the terms that claims use: a step answers a next state, a command is admitted, its
effect is concluded. -/

namespace Sys2Proof.Machine

/-- The clock's nanoseconds stay below a second (R40). -/
def Wall.wf (w : Wall) : Prop := w.ns < 1000000000

/-- A step that neither faults nor is refused. -/
def StepOk (s : State) : Prop := ∃ t, step s = .next t

/-- The state with its application partition replaced: the Cistern and the queue as they were. -/
def State.withApp (s : State) (a : App) : State := { s with app := a }

/-- The state with the Cistern replaced. -/
def State.withCis (s : State) (c : Cistern) : State := { s with cis := c }

/-- The command or event runs at `s` and answers a state that meets `P`. -/
def Runs (i : Instr) (s : State) (P : State → Prop) : Prop := ∃ t, exec i s = .next t ∧ P t

/-- A command passes the checks of R489 at a module that is not held: its tag is not 0 and new to its context, none of the
checks from ROLE on fails, its effect waits for no partner (R576), and its journal entry can be written, as outside the power-fail
sequence (R38). Its arguments are in range. -/
structure Admitted (a : App) (h : CmdHdr) (op : HostOp) (objs : List Nat) : Prop where
  up : a.life.boot ≠ .held
  tag : h.tag ≠ 0#64
  new : a.tagRec h.ctx h.tag = none
  pass : a.cmdCheck h op none objs = none
  alone : op.cls = .q ∨ op.servoOnly = true ∨ a.streams = false
  powered : op.cls = .q ∨ a.failing = false

/-- The state in which the effect of an admitted command takes place: for the classes J and X its tag record and its journal
entry are kept, and the ownership windows of the objects it touches are restarted (R490, R492, R495). -/
def App.takeIn (a : App) (h : CmdHdr) (op : HostOp) (objs : List Nat) : App :=
  let kept := op.cls != .q
  let rec_ : TagRec := { tag := h.tag, opcode := BitVec.ofNat 16 op.opcode, crc := BitVec.ofNat 32 op.crc, index := h.index }
  let b := objs.foldl App.touchOwner (if kept then a.keepTag h.ctx rec_ else a)
  if kept then b.journalize { hdr := h, op := op } else b

/-- The state after an admitted command whose effect `f` ends it at once with a status and result bytes. -/
def App.ended (a : App) (h : CmdHdr) (op : HostOp) (objs : List Nat) (st : Nat) (res : List Byte) (f : App → App) : App :=
  (f (a.takeIn h op objs)).conclude h op (.final st res)

/-- The state after an admitted command that delivers `data` into its buffer, with length and CRC-32C in its result (R488). -/
def App.delivered (a : App) (h : CmdHdr) (op : HostOp) (out : Out) (data : List Byte) (f : App → App) : App :=
  a.ended h op [] Status.ok (le 4 data.length ++ le 4 (crc32c data)) (fun b => f (b.writeHost h.ctx out.addr data))

/-- A buffer that takes `data` with no error on the way: aligned, long enough, and its chain ends done (R488, R517). -/
def outTakes (out : Out) (data : List Byte) : Prop :=
  out.addr.toNat % 64 = 0 ∧ out.fate = .done ∧ data.length ≤ out.len.toNat

/-! ### The signal paths -/

/-- The register fields that an edge may set: the flags of settling integrators, the running capture, the event recorder's
counters, and those of the firing units of the angle clocks (R102 to R104, R156, R214, R271, R609). -/
def edgeFields : List Nat :=
  [Reg.DEC_SETTLE_int_settle.bit, Reg.CAP_STAT_running.bit, Reg.EVR_TOTAL_n.bit, Reg.EVR_OVW_overwritten.bit]
  ++ (upto 4).flatMap fun n => [(Reg.ANG_CMP_CTL_late n 0).bit, (Reg.ANG_CMP_CTL_skipped n 0).bit, (Reg.ANG_CMP_TGT_tgt n 0).bit]

/-- The module but for the parts that an edge reaches: registers and their raised bits, event records and events of state, angle
clocks, bay inputs, signal paths, engines, inputs of the matrix and the crossbar. -/
def App.still (a : App) : App :=
  { a with regs := [], raised := [], ctxs := default, life := {}, clk := default, ana := {}, sig := {}, slu := {}, trp := {}, xbar := default }

/-- A window's words without those of the bays that `g` names. -/
def PoolRow.without (g : Nat → Bool) (r : PoolRow) : PoolRow :=
  { r with words := Vector.ofFn fun i : Fin 32 => if g (i.val / 8) then 0 else vat r.words i.val }

/-- A CIC filter of order `k` and decimation `d` over the modulator bits `x` from cleared registers: what it holds after `n`
periods, and its latest output (R150). -/
def Cic.feed {w : Nat} (k d : Nat) (x : Nat → Bool) : Nat → Cic w × Int
  | 0 => ({}, 0)
  | n + 1 =>
    let c := (Cic.feed k d x n).1.clock (bitStep (x n))
    if (n + 1) % d = 0 then let r := c.dump k; (r.2, r.1) else (c, (Cic.feed (w := w) k d x n).2)

/-- The sum of the last `d` values of a sequence that begins at 0. -/
def movingSum (d : Nat) (f : Nat → Int) (n : Nat) : Int := ((upto d).map fun j => if j ≤ n then f (n - j) else 0).sum

/-! ### The Cistern -/

/-- What the rules allow for the legally relevant settings (R319 to R321, R329, R330). -/
structure CisSettings.Wf (x : CisSettings) : Prop where
  ratios : x.ct ≠ 0 ∧ x.vt ≠ 0
  kAct : 1 ≤ x.kAct ∧ x.kAct ≤ 100000000
  kReact : 1 ≤ x.kReact ∧ x.kReact ≤ 100000000
  weekday : x.weekday.length ≤ 16 ∧ ∀ e ∈ x.weekday, e.1 < 1440 ∧ 1 ≤ e.2 ∧ e.2 ≤ 4
  weekend : x.weekend.length ≤ 16 ∧ ∀ e ∈ x.weekend, e.1 < 1440 ∧ 1 ≤ e.2 ∧ e.2 ≤ 4
  demInt : demIntOk x.demInt = true
  profInt : ∀ ch : Fin 2, profIntOk (vat x.profInt ch) = true

/-- A request of the decoder's queue is one of the read-request format (R334). -/
def CisReq.Wf (q : CisReq) : Prop :=
  (q.req = 1 ∧ 1 ≤ q.count ∧ q.count ≤ 254) ∨ ((q.req = 2 ∨ q.req = 3) ∧ 1 ≤ q.count ∧ q.count ≤ 127) ∨ (q.req = 4 ∧ q.count = 1)

/-- What holds of the Cistern at every instant: its log and profiles keep to their lengths, its settings to their ranges, a
reply fits its snapshot, and without supply the store holds the registers. -/
structure Cistern.Inv (c : Cistern) : Prop where
  set : c.set.Wf
  log : c.log.length ≤ 1024
  prof : ∀ ch : Fin 2, (vat c.work.prof ch).entries.length ≤ 8192 ∧ (vat c.work.prof ch).sums.length = 6
  profStored : ∀ ch : Fin 2, (vat c.stored.prof ch).entries.length ≤ 8192 ∧ (vat c.stored.prof ch).sums.length = 6
  queue : c.queue.length ≤ 8 ∧ ∀ q ∈ c.queue, q.Wf
  reply : c.reply.length ≤ 4096
  rms : c.rms.length = 8
  power : c.power.length = 6
  tariff : 1 ≤ c.tariff ∧ c.tariff ≤ 4
  session : ∀ t, c.session = some t → t ≤ c.up
  off : c.on = false → c.stored = c.work ∧ c.session = none ∧ c.queue = [] ∧ c.reply = []

/-- The registers of R317 are not below what they were. -/
def Cistern.regsKept (c d : Cistern) : Prop := ∀ i : Fin 24, c.work.reg i ≤ d.work.reg i

/-! ### Rows by what they reach -/

/-- The rows of the Cistern: its measurement, store, supply and restart, its service switch and optical port, and a frame that
arrives on its return lane. -/
def cisternRow (c : Instr) : Prop :=
  (∃ l f d, c = .cisternPeriodEnd l f d) ∨ c = .cisternStore ∨ c = .cisternSupplyLoss ∨ (∃ p n k, c = .cisternPowerUp p n k) ∨
  c = .cisternWatchdogRestart ∨ (∃ x y, c = .spareCheck x y) ∨ c = .demandIntervalEnd ∨ (∃ ch, c = .profileIntervalEnd ch) ∨
  c = .serviceSwitchHold ∨ c = .opticalReadout ∨ (∃ w, c = .programmingMode w) ∨ c = .programmingTimeout ∨
  (∃ ch x y z, c = .calibration ch x y z) ∨ (∃ x, c = .legalSettingChange x) ∨ c = .registerReset ∨
  (∃ p v, c = .firmwareReplacement p v) ∨ (∃ w, c = .clockSetting w) ∨ c = .demandReset ∨ (∃ d, c = .readRequest d)

/-- The rows that act in a held module too: the trip and field islands run from their own supply, and resets and feeds
come from outside (R251 to R255, R432 to R447, R591, R619). -/
def islandRow (c : Instr) : Prop :=
  (∃ ch, c = .tripOverload ch) ∨ (∃ ch, c = .sealInRelease ch) ∨ (∃ ch, c = .sealTimeout ch) ∨ (∃ ch, c = .tripLogicSilent ch) ∨
  (∃ ch x y z, c = .tcsMeasurement ch x y z) ∨ (∃ ch m, c = .outputDiagnosis ch m) ∨ (∃ ch, c = .overloadRetry ch) ∨
  (∃ ch, c = .fieldSilence ch) ∨ (∃ ch, c = .fieldSupplyRise ch) ∨ (∃ ch, c = .outputShutdownSlot ch) ∨
  (∃ n k, c = .powerOnReset n k) ∨ (∃ x, c = .carrierReset x) ∨ c = .hotSwapDisable

/-! ### Instructions of the control cores -/

/-- A core that executes the word `w` at its PC: Busy with an item whose scan has not ended, in a module that is not held. -/
structure Executing (a : App) (k w : Nat) : Prop where
  up : a.life.boot ≠ .held
  busy : a.coreState k = 1
  going : (a.core k).ended = false
  item : (a.core k).item.isSome = true
  word : a.wordAt (a.core k).pc = some w

/-- A core past the word at its PC. -/
def CtlCore.past (c : CtlCore) : CtlCore := { c with pc := c.pc + 4 }

/-- The state with one core replaced. -/
def State.withCore (s : State) (k : Nat) (c : CtlCore) : State := s.withApp (s.app.onCore k fun _ => c)

/-- The words of the formats of R375: registers d, a and b; d, a and a 12-bit field; d and an 18-bit field; a service
call with its number, d and a. -/
def wordR (o d a b : Nat) : Nat := o * 2 ^ 24 + d * 2 ^ 18 + a * 2 ^ 12 + b * 2 ^ 6
def wordI (o d a imm : Nat) : Nat := o * 2 ^ 24 + d * 2 ^ 18 + a * 2 ^ 12 + imm
def wordX (o d idx : Nat) : Nat := o * 2 ^ 24 + d * 2 ^ 18 + idx
def wordS (v d a : Nat) : Nat := 0x90 * 2 ^ 24 + v * 2 ^ 12 + d * 2 ^ 6 + a

end Sys2Proof.Machine
end

