-- ==== Sys2Proof/WellFormed.lean ====
section
/-! DEFINITION. The form that a command or event has when it reaches the block: the lengths and ranges that its rule gives to
operands the types leave wider. Every meaning is defined on ill-formed operands too. -/

namespace Sys2Proof

/-- The descriptors of WRITE_SETTINGS: 64 bytes for each slot (R192). -/
def descListWf (count : Nat) (desc : List Byte) : Bool := desc.length == 64 * count

/-- The body of a curve table: its header and at most 32 points (R222). -/
def curveWf (body : List Byte) : Bool := decide (8 ≤ body.length) && decide (body.length ≤ 264)

/-- The timestamps of a PTP message: nanoseconds below a second (R52). -/
def ptpWf : PtpMsg → Bool
  | .announce _ _ => true
  | .sync _ _ _ _ _ ns _ => decide (ns.toNat < 1000000000)
  | .followUp _ _ _ _ ns _ => decide (ns.toNat < 1000000000)
  | .pdelayReq .. => true
  | .pdelayResp _ _ _ _ _ _ ns _ => decide (ns.toNat < 1000000000)
  | .pdelayRespFollowUp _ _ _ _ _ ns _ => decide (ns.toNat < 1000000000)

/-- Calibration points: codes of 24 bits (R121). -/
def calPointsWf (p : CalPoints) : Bool :=
  [p.zero, p.plus, p.minus].all (fun x => decide (-8388608 ≤ x) && decide (x < 8388608))

/-- The 64 bytes of a doorbell page, where its read succeeds (R466). -/
def pageWf : Option (List Byte) → Bool
  | none => true
  | some b => b.length == 64

/-- The 64 bytes of a ring slot and of each extension that is read (R462, R471). -/
def slotWf : SlotRead → Bool
  | .bad _ => true
  | .slot b exts => b.length == 64 && exts.all (fun e => match e with
    | none => true
    | some x => x.length == 64)

/-- The widths of an access to a setup register that PCI Express carries (R459). -/
def widthWf (w : Byte) : Bool := w == 1 || w == 2 || w == 4 || w == 8

/-- A page of a state copy is 4 KiB (R573). -/
def copyWf : CopyItem → Bool
  | .page _ b => b.length == 4096
  | .retained _ _ _ => true
  | .commit _ => true
  | .point _ _ _ => true
  | .force _ _ _ _ _ _ _ _ _ _ => true
  | .tag _ _ _ _ _ _ => true
  | .entry _ _ _ => true
  | .owner _ _ _ _ => true
  | .flags _ _ => true

/-- A CAN frame carries at most 64 bytes, 8 in classical format (R557). -/
def canRxWf (f : CanRx) : Bool := decide (f.payload.length ≤ if f.fdf then 64 else 8)

/-- Whether a command or event has the form its rule gives it. -/
def Instr.wf : Instr → Bool
  | .nop _ => true
  | .select _ _ _ => true
  | .deselect _ _ => true
  | .cancel _ _ => true
  | .moduleStatus _ => true
  | .readTime _ _ _ => true
  | .forceTime _ _ _ _ => true
  | .adjustRate _ _ _ => true
  | .stepTime _ _ => true
  | .readAngle _ _ _ _ => true
  | .writeSettings _ _ _ count desc => descListWf count.toNat desc
  | .selectGroup _ _ _ => true
  | .setCurve _ body => curveWf body
  | .readSettings _ _ _ _ _ => true
  | .selfCal _ => true
  | .auxStart _ _ _ => true
  | .readAux _ _ _ => true
  | .breakerClose _ _ _ _ => true
  | .breakerOpen _ _ _ _ => true
  | .clearTripFault _ _ => true
  | .armCapture _ _ _ => true
  | .fireCapture _ _ => true
  | .cutTwRecord _ _ _ => true
  | .readTwRecord _ _ _ => true
  | .readSnapshot _ _ => true
  | .cisternRequest _ _ _ _ _ => true
  | .loadImage _ _ _ _ => true
  | .verifyImage _ _ => true
  | .eraseSlot _ _ => true
  | .startProgram _ _ _ => true
  | .stopProgram _ => true
  | .holdProgram _ _ => true
  | .writePoint _ _ _ _ => true
  | .readPoints _ _ _ _ => true
  | .flagSet _ _ _ => true
  | .flagCancel _ _ _ => true
  | .skimPrepare _ _ _ => true
  | .skimSwitch _ _ => true
  | .skimAbort _ => true
  | .skimRollback _ => true
  | .skimConfirm _ => true
  | .forceSet _ _ _ _ _ => true
  | .forceClear _ _ _ => true
  | .readForces _ _ => true
  | .fieldRearm _ _ => true
  | .lifecycleSet _ _ _ => true
  | .resetModule _ _ => true
  | .loadFirmware _ _ _ _ => true
  | .requestRemoval _ => true
  | .nopInstruction _ => true
  | .mov _ => true
  | .ldi _ => true
  | .ldc _ => true
  | .tag _ => true
  | .cvt _ => true
  | .sel _ => true
  | .add _ => true
  | .sub _ => true
  | .mul _ => true
  | .div _ => true
  | .mod _ => true
  | .neg _ => true
  | .abs _ => true
  | .min _ => true
  | .max _ => true
  | .addi _ => true
  | .and _ => true
  | .or _ => true
  | .xor _ => true
  | .not _ => true
  | .shl _ => true
  | .shr _ => true
  | .sar _ => true
  | .rol _ => true
  | .ror _ => true
  | .fadd _ => true
  | .fsub _ => true
  | .fmul _ => true
  | .fdiv _ => true
  | .fsqrt _ => true
  | .fabs _ => true
  | .fneg _ => true
  | .fmin _ => true
  | .fmax _ => true
  | .ceq _ => true
  | .cne _ => true
  | .clt _ => true
  | .cle _ => true
  | .ldk _ => true
  | .stk _ => true
  | .ldf _ => true
  | .stf _ => true
  | .ldp _ => true
  | .ldpq _ => true
  | .ldps _ => true
  | .stp _ => true
  | .stpq _ => true
  | .br _ => true
  | .bt _ => true
  | .bf _ => true
  | .lpc _ => true
  | .loop _ => true
  | .call _ => true
  | .callb _ => true
  | .ret _ => true
  | .frame _ => true
  | .waitWork _ => true
  | .endScan _ => true
  | .scanTime _ => true
  | .scanQual _ => true
  | .scanAngle _ => true
  | .scanCycle _ => true
  | .breaker _ => true
  | .group _ => true
  | .captureArm _ => true
  | .captureFire _ => true
  | .auxSeq _ => true
  | .svcFlagSet _ => true
  | .svcFlagCancel _ => true
  | .commit _ => true
  | .deferredAction => true
  | .lockstepMismatch _ _ => true
  | .selfTestEnd _ _ => true
  | .scanBudgetExpiry _ => true
  | .initBudgetExpiry _ => true
  | .dispatcherCycle => true
  | .retainedCopy => true
  | .wallCompareFire _ => true
  | .angleCompareFire _ _ _ => true
  | .wallCompareWrite _ _ _ _ => true
  | .angleCompareWrite _ _ _ _ _ => true
  | .angleClockEnable _ _ _ => true
  | .lockCriterion _ => true
  | .voltageValidCount _ => true
  | .freezeMax _ => true
  | .settleComplete _ => true
  | .holdMax _ => true
  | .ptpMessageRx _ msg _ => ptpWf msg
  | .pdelayInterval _ _ => true
  | .announceTimeout => true
  | .hostServoSilence => true
  | .holdLimitReached => true
  | .referenceEdge _ => true
  | .referenceLost => true
  | .backupWrite => true
  | .otMirror => true
  | .anchorPeriodic => true
  | .selfCalComplete points => points.toList.all calPointsWf
  | .handoverStart _ => true
  | .handoverSettleEnd _ => true
  | .comparisonWindowEnd _ => true
  | .verifyWindowEnd _ => true
  | .takeOver _ => true
  | .sliceCalibrationEnd _ points => calPointsWf points
  | .handoverRetry _ => true
  | .calOverdue _ => true
  | .sliceLoopReset _ _ => true
  | .rangeChange _ _ => true
  | .referenceSourceChange _ => true
  | .housekeepingDue => true
  | .auxConversionEnd _ => true
  | .refSettled => true
  | .decChangeEdge => true
  | .decWrite _ _ _ => true
  | .integratorSettleEnd _ _ => true
  | .tickEvaluation _ => true
  | .pairDisagree _ => true
  | .engineFaulted _ _ => true
  | .engineReloadEnd _ => true
  | .substitutionChange _ => true
  | .svFallback _ => true
  | .instantaneousPickup _ _ => true
  | .instantaneousDropout _ _ => true
  | .disturbancePickup _ => true
  | .disturbanceDropout _ => true
  | .matrixScan => true
  | .tripOverload _ => true
  | .sealInRelease _ => true
  | .sealTimeout _ => true
  | .tripLogicSilent _ => true
  | .tcsMeasurement _ _ _ _ => true
  | .tcsDiagnosis _ => true
  | .breakerExecution _ => true
  | .breakerOutputEnd _ => true
  | .opTimeout _ => true
  | .onsetSearchEnd _ => true
  | .frameRelease _ _ => true
  | .triggerFire _ => true
  | .groupMessageRx _ => true
  | .groupMessageRepeat => true
  | .wavefrontPickup _ => true
  | .qualification _ => true
  | .twRecordCut _ => true
  | .arrivalMessageRx _ => true
  | .arrivalMessageRepeat => true
  | .remWaitExpiry _ => true
  | .snapshotRx _ _ => true
  | .cisternSilent => true
  | .cisRequestTimeout => true
  | .readRequest _ => true
  | .cisternPeriodEnd _ _ _ => true
  | .cisternStore => true
  | .cisternSupplyLoss => true
  | .cisternPowerUp points _ _ => points.toList.all calPointsWf
  | .cisternWatchdogRestart => true
  | .spareCheck _ _ => true
  | .demandIntervalEnd => true
  | .profileIntervalEnd _ => true
  | .serviceSwitchHold => true
  | .opticalReadout => true
  | .programmingMode _ => true
  | .programmingTimeout => true
  | .calibration _ _ _ _ => true
  | .legalSettingChange _ => true
  | .registerReset => true
  | .firmwareReplacement _ _ => true
  | .clockSetting _ => true
  | .demandReset => true
  | .longOperationStep _ _ _ => true
  | .migrationPass => true
  | .switchInstant => true
  | .switchDrainEnd => true
  | .dirtyTimeout => true
  | .rollbackWindowEnd => true
  | .debounceComplete _ _ _ => true
  | .supervisionDiagnosis _ _ => true
  | .heldChangeTimeout _ => true
  | .chatterSettled _ => true
  | .stuckTime _ => true
  | .outputDiagnosis _ _ => true
  | .overloadRetry _ => true
  | .islandSilent _ => true
  | .fieldSilence _ => true
  | .fieldSupplyRise _ => true
  | .fsLow _ _ => true
  | .fsDead _ => true
  | .outputShutdownSlot _ => true
  | .latchRelease _ => true
  | .channelReenable _ => true
  | .fioCfgWrite _ _ _ => true
  | .doorbellFetch _ page slots => pageWf page && slots.all slotWf
  | .contextEnable _ _ => true
  | .contextDisable _ _ => true
  | .functionLevelReset _ => true
  | .linkDown _ => true
  | .linkUp _ _ _ => true
  | .interruptHoldoffEnd _ _ => true
  | .ownershipExpiry _ => true
  | .setupWrite _ _ width _ => widthWf width
  | .latchedRead _ _ width => widthWf width
  | .ethTbldataWrite _ _ => true
  | .ethTbldataRead _ => true
  | .canTbldataWrite _ _ => true
  | .canTbldataRead _ => true
  | .evrRdidxWrite _ _ => true
  | .trpBkinitWrite _ _ _ _ => true
  | .trpBklimWrite _ _ _ => true
  | .protectionStateWrite _ _ => true
  | .outputEnableWrite _ _ => true
  | .hcxRoleWrite _ _ _ => true
  | .parUpgWrite _ _ => true
  | .dmaTailAdvance _ slots _ => slots.all (fun d => d.length == 32)
  | .dmaBurst _ => true
  | .dmaConfirmationRead _ _ => true
  | .dmaAbort _ => true
  | .dmaRestart _ => true
  | .gooseRetransmission _ => true
  | .gooseFrameRx _ => true
  | .gooseExpiry _ => true
  | .svAsduRx _ => true
  | .svStreamLost _ => true
  | .svPublication _ _ => true
  | .supervisionFrame _ => true
  | .hsrFrameRx _ _ _ _ _ _ _ => true
  | .canWindowStart _ _ => true
  | .canWindowEnd _ => true
  | .canFrameReceived _ f => canRxWf f
  | .canFrameSent _ _ _ => true
  | .canMessageTransmit _ _ => true
  | .canRxTimeout _ _ => true
  | .busOffRecovery _ => true
  | .canCorrelation => true
  | .canBlockFlush _ _ => true
  | .heartbeatInterval => true
  | .heartbeat _ => true
  | .taskSnapshot _ _ _ => true
  | .commitRecord _ => true
  | .commandJournalEntry _ _ => true
  | .finalTagRecord _ _ _ => true
  | .mirroredSetupWrite _ _ _ => true
  | .effectNotice _ => true
  | .stateCopyPage item => copyWf item
  | .imageTransfer _ => true
  | .copyPointReceived _ _ _ => true
  | .handover => true
  | .drop _ => true
  | .acknowledgement _ => true
  | .stateCopyPass => true
  | .copyPoint => true
  | .trackingCriterion => true
  | .ackTimeout => true
  | .partnerLost _ => true
  | .linkLost => true
  | .aliveLineFault => true
  | .alvFaultClear => true
  | .pairWaitExpiry => true
  | .joiningRetry => true
  | .upgradeWindowClose => true
  | .powerOnReset _ _ => true
  | .carrierReset _ => true
  | .watchdogExpiry => true
  | .dramWipeEnd _ => true
  | .backgroundEraseStep => true
  | .powerFail _ _ => true
  | .feedLow _ _ _ => true
  | .hotSwapDisable => true
  | .scrubPass _ => true
  | .fsDeadClear _ => true
  | .laneFailure => true
  | .laneRestored => true
  | .ethLinkChange _ _ _ => true
  | .canErrorDetected _ _ _ _ _ => true
  | .hotReset _ => true
  | .fieldSilenceEnd _ => true
  | .tripLogicReturn _ => true
  | .islandFramesResumed _ => true

end Sys2Proof
end

