-- ==== Sys2Proof/Certificates/Slice0/Obligations.lean ====
section
/-! DEFINITION. The statements for the provers: what every command and event does, and what holds of the whole block. -/

open Sys2Proof Sys2Proof.Machine Host

/-- The reading commands of R500 deliver their data (R73, R106, R148, R304, R336, R346, R425, R488). The next state is the
present one with the data written to the host buffer and the completion concluded; READ_TIME and READ_ANGLE also clear their
flags when asked to, and READ_TW_RECORD marks its record read. -/
def Obligations.ReadsDeliver : Prop :=
  (∀ (s : State) (h : CmdHdr) (out : Out) (clear : Byte),
    Admitted s.app h (.readTime out clear) [] → clear.toNat ≤ 1 → outTakes out s.app.timeBlock →
    exec (.readTime h out clear) s = .next (s.withApp <| s.app.delivered h (.readTime out clear) out s.app.timeBlock
      (fun a => if clear = 1#8 then a.onTim fun t => { t with stepRefused := false, gmConflict := false, bkpLost := false,
                                                               refLost := false, hostServoSilent := false } else a))) ∧
  (∀ (s : State) (h : CmdHdr) (out : Out) (bay clear : Byte),
    Admitted s.app h (.readAngle out bay clear) [] → bay.toNat ≤ 3 → clear.toNat ≤ 1 → outTakes out (s.app.angleBlock bay.toNat) →
    exec (.readAngle h out bay clear) s =
      .next (s.withApp <| s.app.delivered h (.readAngle out bay clear) out (s.app.angleBlock bay.toNat)
        (fun a => if clear = 1#8 then a.onClk bay.toNat fun c => { c with freezeMaxHit := false, refSwitched := false,
                                                                          coarseAligned := false, freqLimit := false } else a))) ∧
  (∀ (s : State) (h : CmdHdr) (out : Out) (group : Byte) (first count : W16),
    let data := (upto count.toNat).flatMap (fun i => descAt s.app.slu.descs (descKey group.toNat (first.toNat + i)))
    Admitted s.app h (.readSettings out group first count) [] → group.toNat ≤ 7 → first.toNat ≤ 1023 → first.toNat + count.toNat ≤ 1024 →
    outTakes out data →
    exec (.readSettings h out group first count) s =
      .next (s.withApp <| s.app.delivered h (.readSettings out group first count) out data id)) ∧
  (∀ (s : State) (h : CmdHdr) (out : Out) (seq : Byte),
    let data := (upto 16).flatMap (fun j => (s.app.ana.aux.recOf (16 * seq.toNat + j)).bytes)
    Admitted s.app h (.readAux out seq) [] → seq.toNat ≤ 15 → outTakes out data →
    exec (.readAux h out seq) s = .next (s.withApp <| s.app.delivered h (.readAux out seq) out data id)) ∧
  (∀ (s : State) (h : CmdHdr) (out : Out) (seq : W32) (r : TwRec),
    Admitted s.app h (.readTwRecord out seq) [] → s.app.tw.recs.find? (fun r => r.seq == seq.toNat) = some r → outTakes out r.data →
    exec (.readTwRecord h out seq) s = .next (s.withApp <| s.app.delivered h (.readTwRecord out seq) out r.data
      (fun a => a.onTw fun t => { t with recs := t.recs.map (fun (x : TwRec) =>
        if x.seq == seq.toNat then { x with read := true } else x) }))) ∧
  (∀ (s : State) (h : CmdHdr) (out : Out),
    Admitted s.app h (.readSnapshot out) [] → outTakes out s.app.mbox.latest →
    exec (.readSnapshot h out) s = .next (s.withApp <| s.app.delivered h (.readSnapshot out) out s.app.mbox.latest id)) ∧
  (∀ (s : State) (h : CmdHdr) (out : Out) (first count : W32),
    let data := (upto count.toNat).flatMap (fun i => (s.app.point (first.toNat + i)).bytes)
    Admitted s.app h (.readPoints out first count) [] → first.toNat + count.toNat ≤ s.app.ctl.points.length → outTakes out data →
    exec (.readPoints h out first count) s = .next (s.withApp <| s.app.delivered h (.readPoints out first count) out data id)) ∧
  (∀ (s : State) (h : CmdHdr) (out : Out),
    Admitted s.app h (.readForces out) [] → outTakes out (s.app.ctl.forces.flatMap Force.bytes) →
    exec (.readForces h out) s =
      .next (s.withApp <| s.app.delivered h (.readForces out) out (s.app.ctl.forces.flatMap Force.bytes) id))

/-- The session commands of R494 to R501, each with its effect; nothing else changes but what concluding a command changes. -/
def Obligations.SessionCommandsAct : Prop :=
  (∀ (s : State) (h : CmdHdr), Admitted s.app h .nop [] →
    exec (.nop h) s = .next (s.withApp (s.app.ended h .nop [] Status.ok [] id))) ∧
  (∀ (s : State) (h : CmdHdr) (obj hold : W16) (i : Nat), Admitted s.app h (.select obj hold) [] →
    objIndex obj.toNat = some i → 1 ≤ hold.toNat → hold.toNat ≤ 600 → (∀ o, s.app.ownerOf i = some o → o.ctx = h.ctx.val) →
    let e := s.app.now + hold.toNat * 1000000000
    exec (.select h obj hold) s = .next (s.withApp (s.app.ended h (.select obj hold) [] Status.ok (le 8 0 ++ le 8 e)
      (fun a => { a with cmd := { a.cmd with owners := vput a.cmd.owners i (some ⟨h.ctx.val, e, hold.toNat⟩) } }.postOwner i true h.ctx.val 0)))) ∧
  (∀ (s : State) (h : CmdHdr) (obj : W16) (i : Nat) (o : Owner), Admitted s.app h (.deselect obj) [] →
    objIndex obj.toNat = some i → s.app.ownerOf i = some o → o.ctx = h.ctx.val →
    exec (.deselect h obj) s = .next (s.withApp (s.app.ended h (.deselect obj) [] Status.ok [] (fun a => a.release i 0)))) ∧
  (∀ (s : State) (h : CmdHdr) (target : W64) (l : LongOp), Admitted s.app h (.cancel target) [] →
    vat s.app.cmd.long h.ctx.val = some l → l.hdr.tag = target →
    exec (.cancel h target) s = .next (s.withApp (s.app.ended h (.cancel target) [] Status.ok []
      (fun a => { a with cmd := { a.cmd with long := vput a.cmd.long h.ctx.val (some { l with cancel := true }) } })))) ∧
  (∀ (s : State) (h : CmdHdr), Admitted s.app h .moduleStatus [] →
    exec (.moduleStatus h) s =
      .next (s.withApp (s.app.ended h .moduleStatus [] Status.ok (s.app.statusBytes (some h.ctx.val)) id)))

/-- FORCE_TIME (R50), ADJUST_RATE and STEP_TIME (R53) with their effect; what a step changes is StepApplied's. -/
def Obligations.TimeCommandsAct : Prop :=
  (∀ (s : State) (h : CmdHdr) (value : W64), Admitted s.app h (.forceTime 0 0 value) [] →
    exec (.forceTime h 0 0 value) s = .next (s.withApp (s.app.ended h (.forceTime 0 0 value) [] Status.ok []
      (fun a => a.applyStep value.toInt true)))) ∧
  (∀ (s : State) (h : CmdHdr) (ns : W32) (value : W64), Admitted s.app h (.forceTime 1 ns value) [] →
    ns.toNat ≤ 999999999 → value.toNat < 2 ^ 48 →
    exec (.forceTime h 1 ns value) s = .next (s.withApp (s.app.ended h (.forceTime 1 ns value) [] Status.ok []
      (fun a => a.applyStep ((value.toNat * 1000000000 + ns.toNat : Nat) - (s.app.now : Int)) true)))) ∧
  (∀ (s : State) (h : CmdHdr) (incr : W64), Admitted s.app h (.adjustRate incr 0) [] →
    0x3FF7CED91 ≤ incr.toNat → incr.toNat ≤ 0x40083126F →
    exec (.adjustRate h incr 0) s = .next (s.withApp (s.app.ended h (.adjustRate incr 0) [] Status.ok []
      (fun a => (a.setIncr incr).onTim fun t => { t with adjustAt := a.tick })))) ∧
  (∀ (s : State) (h : CmdHdr) (incr : W64), Admitted s.app h (.adjustRate incr 1) [] →
    0x3FF7CED91 ≤ incr.toNat → incr.toNat ≤ 0x40083126F → s.app.tim.refusedPending = false →
    exec (.adjustRate h incr 1) s = .next (s.withApp (s.app.ended h (.adjustRate incr 1) [] Status.ok []
      (fun a => ((a.setIncr incr).onTim fun t => { t with adjustAt := a.tick }).gmLock)))) ∧
  (∀ (s : State) (h : CmdHdr) (offset : W64), Admitted s.app h (.stepTime offset) [] → s.app.stepAllowed offset.toInt = true →
    exec (.stepTime h offset) s = .next (s.withApp (s.app.ended h (.stepTime offset) [] Status.ok []
      (fun a => a.applyStep offset.toInt false))))

/-- The settings and analog commands (R123, R144, R192, R202, R223), each with its effect under the conditions its rule gives. -/
def Obligations.SettingsCommandsAct : Prop :=
  (∀ (s : State) (h : CmdHdr) (group : Byte) (first count : W16) (desc : List Byte),
    let new := carried group.toNat first.toNat count.toNat desc
    let l := applyDescs s.app.slu.descs new
    Admitted s.app h (.writeSettings group first count desc) (s.app.settingsObjs new) → group.toNat ≤ 7 → first.toNat ≤ 1023 →
    1 ≤ count.toNat → count.toNat ≤ 1023 → first.toNat + count.toNat ≤ 1024 →
    (∀ b, b < 4 → s.app.groupOf b = group.toNat → s.app.protOf b ≠ 0) →
    (∀ e ∈ new, descOk s.app.slu.curves group.toNat e.2 = true) → (∀ n, n < 1024 → pairOk l group.toNat n = true) →
    streamsBad l group.toNat = [] → (∀ f ∈ s.app.groupsAhead, claimedTwice l f = []) →
    overload l s.app.clkOn s.app.groupsAhead s.app.defaultGroup = none →
    exec (.writeSettings h group first count desc) s =
      .next (s.withApp (s.app.ended h (.writeSettings group first count desc) (s.app.settingsObjs new) Status.ok []
        (fun a => (a.onSlu fun x => { x with descs := l }).showLoads)))) ∧
  (∀ (s : State) (h : CmdHdr) (bay group : Byte), bay.toNat ≤ 3 → group.toNat ≤ 7 →
    Admitted s.app h (.selectGroup bay group) [4 + bay.toNat] →
    let ahead := (s.app.onSlu fun x => { x with groupReq := vup x.groupReq bay.toNat (· ++ [group.toNat]) }).groupsAhead
    (∀ f ∈ ahead, claimedTwice s.app.slu.descs f = []) → overload s.app.slu.descs s.app.clkOn ahead s.app.defaultGroup = none →
    exec (.selectGroup h bay group) s =
      .next (s.withApp (s.app.ended h (.selectGroup bay group) [4 + bay.toNat] Status.ok []
        (fun a => a.onSlu fun x => { x with groupReq := vup x.groupReq bay.toNat (· ++ [group.toNat]) })))) ∧
  (∀ (s : State) (h : CmdHdr) (body : List Byte),
    let t := numAt body 0 1
    Admitted s.app h (.setCurve body) (s.app.curveObjs t) → body.length = 264 → curveBad body = none →
    (∀ n, n < 4 → s.app.protOf n = 0 → ∀ e ∈ s.app.slu.descs, dType e.2 ≠ 0 → dEn e.2 = true → dCurve e.2 = 0x10 + t →
      e.1 / 1024 ≠ s.app.groupOf n) →
    exec (.setCurve h body) s = .next (s.withApp (s.app.ended h (.setCurve body) (s.app.curveObjs t) Status.ok []
      (fun a => a.onSlu fun x => { x with curves := vput x.curves t (some body) })))) ∧
  (∀ (s : State) (h : CmdHdr), Admitted s.app h .selfCal [] → (∀ b, b < 4 → s.app.protOf b ≠ 0) → s.app.ana.calRun = none →
    exec (.selfCal h) s = .next (s.withApp ((s.app.takeIn h .selfCal []).selfCalStart (some h)))) ∧
  (∀ (s : State) (h : CmdHdr) (slot : W32), Admitted s.app h (.auxStart 255 slot) [] → auxSlotOk slot.toNat = true →
    s.app.ana.aux.singles.length < 16 →
    exec (.auxStart h 255 slot) s = .next (s.withApp (s.app.ended h (.auxStart 255 slot) [] Status.ok []
      (fun a => (a.onAux fun x => { x with singles := x.singles ++
        [⟨bitsOf slot.toNat 0 4, bitsOf slot.toNat 4 8 + 1, bitsOf slot.toNat 12 4, bitsOf slot.toNat 16 2⟩] }).auxNext)))) ∧
  (∀ (s : State) (h : CmdHdr) (seq : Byte) (slot : W32), Admitted s.app h (.auxStart seq slot) [] → seq.toNat ≤ 15 →
    s.app.ana.aux.busySeq seq.toNat = false →
    exec (.auxStart h seq slot) s = .next (s.withApp (s.app.ended h (.auxStart seq slot) [] Status.ok []
      (fun a => ((a.onAux fun x => { x with seqs := insertNat seq.toNat x.seqs }).auxPendField).auxNext))))

/-- BREAKER_CLOSE and BREAKER_OPEN, immediate and point-on-wave, where R260 accepts them. -/
def Obligations.BreakerCommandsAct : Prop :=
  let start := fun (a : App) (b : Nat) (o : BrkOp) =>
    ((a.onTrp fun t => { t with ops := vput t.ops b (some o) }).setInp (0x883 + 4 * b) false).setInp (0x882 + 4 * b) true
  let ready := fun (a : App) (b : Nat) (open_ : Bool) =>
    a.on (Reg.TRP_BKCFG_en b) = true ∧ vat a.trp.ops b = none ∧ (open_ = false → a.tripRow b = none) ∧
    a.isDirect (a.get (if open_ then Reg.TRP_BKCFG_open_row b else Reg.TRP_BKCFG_close_row b)) (0x880 + 4 * b + open_.toNat) = true
  let pow := fun (a b : App) (h : CmdHdr) (n : Nat) (open_ : Bool) (target u : Nat) =>
    let f := a.firingPoint n target (a.get (Reg.TRP_BKTOP_t_op n open_.toNat)) (a.refAngle n (a.get (Reg.TRP_BKCFG_ref_ch n)))
    (start b n { cmd := some h, open_ := open_, pow := true, target := target, phase := .sched u, fine := f.2 }).takeUnit n u f.1 0 2 open_.toNat false
  (∀ (s : State) (h : CmdHdr) (bay : Byte) (target : W16), bay.toNat ≤ 3 → Admitted s.app h (.breakerClose bay 0 target) [bay.toNat] →
    ready s.app bay.toNat false →
    exec (.breakerClose h bay 0 target) s = .next (s.withApp <| start (s.app.takeIn h (.breakerClose bay 0 target) [bay.toNat]) bay.toNat
      { cmd := some h, open_ := false, pow := false, target := target.toNat, phase := .due })) ∧
  (∀ (s : State) (h : CmdHdr) (bay : Byte) (target : W16), bay.toNat ≤ 3 → Admitted s.app h (.breakerOpen bay 0 target) [bay.toNat] →
    ready s.app bay.toNat true →
    exec (.breakerOpen h bay 0 target) s = .next (s.withApp <| start (s.app.takeIn h (.breakerOpen bay 0 target) [bay.toNat]) bay.toNat
      { cmd := some h, open_ := true, pow := false, target := target.toNat, phase := .due })) ∧
  (∀ (s : State) (h : CmdHdr) (bay : Byte) (target : W16) (u : Nat), bay.toNat ≤ 3 → Admitted s.app h (.breakerClose bay 1 target) [bay.toNat] →
    ready s.app bay.toNat false → lockedAq (s.app.aq bay.toNat) = true → s.app.freeUnit bay.toNat = some u →
    exec (.breakerClose h bay 1 target) s =
      .next (s.withApp <| pow s.app (s.app.takeIn h (.breakerClose bay 1 target) [bay.toNat]) h bay.toNat false target.toNat u)) ∧
  (∀ (s : State) (h : CmdHdr) (bay : Byte) (target : W16) (u : Nat), bay.toNat ≤ 3 → Admitted s.app h (.breakerOpen bay 1 target) [bay.toNat] →
    ready s.app bay.toNat true → lockedAq (s.app.aq bay.toNat) = true → s.app.freeUnit bay.toNat = some u →
    exec (.breakerOpen h bay 1 target) s =
      .next (s.withApp <| pow s.app (s.app.takeIn h (.breakerOpen bay 1 target) [bay.toNat]) h bay.toNat true target.toNat u))

/-- The remaining commands of the trip, capture, fault-location and mailbox units, each with its effect. -/
def Obligations.CaptureCommandsAct : Prop :=
  (∀ (s : State) (h : CmdHdr) (ch : Byte), ch.toNat ≤ 7 → Admitted s.app h (.clearTripFault ch) [] →
    exec (.clearTripFault h ch) s = .next (s.withApp <| s.app.ended h (.clearTripFault ch) [] Status.ok []
      (fun a => a.onCh ch.toNat fun c => { c with overload := false }))) ∧
  (∀ (s : State) (h : CmdHdr) (slot arm : Byte), slot.toNat ≤ 3 → arm.toNat ≤ 1 → Admitted s.app h (.armCapture slot arm) [] →
    exec (.armCapture h slot arm) s = .next (s.withApp <| s.app.ended h (.armCapture slot arm) [] Status.ok []
      (fun a => (a.setArmed slot.toNat (arm == 1#8) a.now).groupSend slot.toNat (if arm = 1#8 then 1 else 2) 0 a.now a.tqc))) ∧
  (∀ (s : State) (h : CmdHdr) (slot : Byte), slot.toNat ≤ 3 → Admitted s.app h (.fireCapture slot) [] →
    exec (.fireCapture h slot) s = .next (s.withApp <| s.app.ended h (.fireCapture slot) [] Status.ok []
      (fun a => let b := a.insertMark (a.ownMark 4 0 a.now a.tqc a.tsc 0 0); b.fireSend slot.toNat 0xFF b.now b.tqc b.tsc))) ∧
  (∀ (s : State) (h : CmdHdr), Admitted s.app h (.fireCapture 255) [] →
    exec (.fireCapture h 255) s = .next (s.withApp <| s.app.ended h (.fireCapture 255) [] Status.ok []
      (fun a => a.insertMark (a.ownMark 4 0 a.now a.tqc a.tsc 0 0)))) ∧
  (∀ (s : State) (h : CmdHdr) (bay : Byte) (t : W64), bay.toNat ≤ 3 → Admitted s.app h (.cutTwRecord bay t) [] →
    s.app.w64 ≤ t.toNat + 18000000000 → t.toNat ≤ s.app.w64 + 1000000000 → s.app.twRoom = true → s.app.tw.seq ≠ 0xFFFFFFFF#32 →
    exec (.cutTwRecord h bay t) s = .next (s.withApp <| (s.app.takeIn h (.cutTwRecord bay t) []).onTw fun w =>
      { w with seq := w.seq + 1
               cuts := w.cuts ++ [{ bay := bay.toNat, seq := w.seq.toNat, np := none, edge := t.toNat, det := none, cmd := some h }] })) ∧
  (∀ (s : State) (h : CmdHdr) (bay : Byte) (t : W64), bay.toNat ≤ 3 → Admitted s.app h (.cutTwRecord bay t) [] →
    s.app.w64 ≤ t.toNat + 18000000000 → t.toNat ≤ s.app.w64 + 1000000000 → s.app.twRoom = false →
    exec (.cutTwRecord h bay t) s = .next (s.withApp <| s.app.ended h (.cutTwRecord bay t) [] Status.ok (le 4 0xFFFFFFFF)
      (fun a => a.satAdd Reg.CAP_TWCTL_rec_lost 1))) ∧
  (∀ (s : State) (h : CmdHdr) (out : Out) (req : Byte) (count : W16) (first : W32), out.addr.toNat % 64 = 0 →
    1 ≤ req.toNat → req.toNat ≤ 4 → 1 ≤ count.toNat → count.toNat ≤ (if req = 1#8 then 254 else if req = 4#8 then 1 else 127) →
    Admitted s.app h (.cisternRequest out req count first) [] →
    exec (.cisternRequest h out req count first) s = .next (s.withApp <|
      ((((s.app.takeIn h (.cisternRequest out req count first) []).send ⟨8, 0, requestFrame req.toNat s.app.mbox.tag first.toNat count.toNat⟩).onMbox
        fun m => { m with tag := (m.tag + 1) % 65536, reqs := m.reqs ++ [⟨h, out, m.tag, req.toNat, s.app.tick⟩] }).wrapAdd
          Reg.CIS_REQCNT_sent 1).showReqs))

/-- The program, point, flag, force and field commands, each with its effect. -/
def Obligations.ProgramCommandsAct : Prop :=
  (∀ (s : State) (h : CmdHdr) (slot warm : Byte), Admitted s.app h (.startProgram slot warm) [8] → slot.toNat ≤ 1 → warm.toNat ≤ 1 →
    s.app.cstate ≠ 3 → s.app.ctl.window = none → s.app.ctl.skim = none → s.app.ctl.init = none →
    (s.app.get (Reg.slotState slot.toNat) = Slot.verified ∨ s.app.get (Reg.slotState slot.toNat) = Slot.running) →
    exec (.startProgram h slot warm) s =
      .next (s.withApp <| (s.app.takeIn h (.startProgram slot warm) [8]).startProgram slot.toNat (warm == 1#8) (some h))) ∧
  (∀ (s : State) (h : CmdHdr), Admitted s.app h .stopProgram [8] → s.app.ctl.init = none → s.app.ctl.running.isSome = true →
    exec (.stopProgram h) s = .next (s.withApp <| s.app.ended h .stopProgram [8] Status.ok [] App.stopProgram)) ∧
  (∀ (s : State) (h : CmdHdr) (hold : Byte), Admitted s.app h (.holdProgram hold) [8] → hold.toNat ≤ 1 → (s.app.cstate = 1 ∨ s.app.cstate = 2) →
    exec (.holdProgram h hold) s =
      .next (s.withApp <| s.app.ended h (.holdProgram hold) [8] Status.ok [] (fun a => a.setCstate (if hold = 1#8 then 2 else 1)))) ∧
  (∀ (s : State) (h : CmdHdr) (q : W16) (p : W32) (v : W64), Admitted s.app h (.writePoint q p v) [] → q.toNat < 2 ^ 13 →
    p.toNat < s.app.ctl.points.length → (s.app.point p.toNat).kind = 5 →
    exec (.writePoint h q p v) s = .next (s.withApp <| s.app.ended h (.writePoint q p v) [] Status.ok []
      (fun a => a.putPoint p.toNat (typeValue (a.point p.toNat).typ v) q a.w64 a.tqc a.tsc))) ∧
  (∀ (s : State) (h : CmdHdr) (t f : Byte), Admitted s.app h (.flagSet t f) [] → t.toNat ≤ 63 → f.toNat ≤ 31 →
    exec (.flagSet h t f) s = .next (s.withApp <| s.app.ended h (.flagSet t f) [] Status.ok []
      (fun a => a.onCtl fun c => { c with sets := c.sets ++ [(t.toNat, f.toNat)] }))) ∧
  (∀ (s : State) (h : CmdHdr) (t : Byte) (m : W32), Admitted s.app h (.flagCancel t m) [] → t.toNat ≤ 63 →
    exec (.flagCancel h t m) s = .next (s.withApp <| s.app.ended h (.flagCancel t m) [] Status.ok []
      (fun a => a.onCtl fun c => { c with cancels := c.cancels ++ [(t.toNat, m.toNat)] }))) ∧
  (∀ (s : State) (h : CmdHdr) (q : W16) (p : W32) (v : W64) (tag : W32), Admitted s.app h (.forceSet q p v tag) [] → q.toNat < 2 ^ 13 →
    p.toNat < s.app.ctl.points.length → ((s.app.forceOf p.toNat).isSome = true ∨ s.app.ctl.forces.length < 4096) →
    exec (.forceSet h q p v tag) s = .next (s.withApp <| s.app.ended h (.forceSet q p v tag) [] Status.ok []
      (fun a => a.forcePut p.toNat q v tag (h.ctx.val % 4 + 8 * (h.ctx.val / 4))))) ∧
  (∀ (s : State) (h : CmdHdr) (p : W32), Admitted s.app h (.forceClear 0 p) [] → (s.app.forceOf p.toNat).isSome = true →
    exec (.forceClear h 0 p) s = .next (s.withApp <| s.app.ended h (.forceClear 0 p) [] Status.ok [] (fun a => a.forceDrop p.toNat))) ∧
  (∀ (s : State) (h : CmdHdr) (p : W32), Admitted s.app h (.forceClear 1 p) [] →
    s.app.ctl.forces.any (fun f => f.orphan && f.point == p.toNat) = true →
    exec (.forceClear h 1 p) s = .next (s.withApp <| s.app.ended h (.forceClear 1 p) [] Status.ok []
      (fun a => (a.onCtl fun c => { c with forces := c.forces.filter (fun f => !(f.orphan && f.point == p.toNat)) }).showForces))) ∧
  (∀ (s : State) (h : CmdHdr) (n : Byte), Admitted s.app h (.fieldRearm n) [] → n.toNat ≤ 1 → s.app.on (Reg.fsLatched n.toNat) = false →
    (vat s.app.fio.sup n.toNat).enableAt = none →
    exec (.fieldRearm h n) s = .next (s.withApp <| s.app.ended h (.fieldRearm n) [] Status.ok []
      (fun a => a.onSup n.toNat fun x => { x with enableAt := some (a.tick, true) })))

/-- The starts of the long operations of R500. -/
def Obligations.LongCommandsStart : Prop :=
  let begun := fun (a : App) (h : CmdHdr) (op : HostOp) (n : Nat) =>
    { a with cmd := { a.cmd with long := vput a.cmd.long h.ctx (some { hdr := h, op := op, total := n }) } }
  let emptied := fun (a : App) (slot : Nat) =>
    (a.onCtl fun c => { c with slots := vput c.slots slot [] }).set (Reg.slotState slot) Slot.empty
  (∀ (s : State) (h : CmdHdr) (slot : Byte) (size : W32) (src : W64), Admitted s.app h (.loadImage slot size src) [8] →
    slot.toNat ≤ 1 → 1 ≤ size.toNat → size.toNat ≤ 2 ^ 30 → s.app.cstate ≠ 3 → s.app.slotInUse slot.toNat = false →
    vat s.app.cmd.long h.ctx = none →
    exec (.loadImage h slot size src) s = .next (s.withApp <|
      emptied (begun (s.app.takeIn h (.loadImage slot size src) [8]) h (.loadImage slot size src) (size.toNat / 2 ^ 20 + 1)) slot.toNat)) ∧
  (∀ (s : State) (h : CmdHdr) (slot : Byte), Admitted s.app h (.verifyImage slot) [8] →
    slot.toNat ≤ 1 → s.app.cstate ≠ 3 → s.app.get (Reg.slotState slot.toNat) ≠ Slot.empty →
    s.app.get (Reg.slotState slot.toNat) ≠ Slot.running → vat s.app.cmd.long h.ctx = none →
    exec (.verifyImage h slot) s = .next (s.withApp <|
      begun (s.app.takeIn h (.verifyImage slot) [8]) h (.verifyImage slot) ((s.app.img slot.toNat).length / 2 ^ 20 + 1))) ∧
  (∀ (s : State) (h : CmdHdr) (slot : Byte), Admitted s.app h (.eraseSlot slot) [8] →
    slot.toNat ≤ 1 → s.app.cstate ≠ 3 → s.app.slotInUse slot.toNat = false → vat s.app.cmd.long h.ctx = none →
    exec (.eraseSlot h slot) s = .next (s.withApp <| emptied (begun (s.app.takeIn h (.eraseSlot slot) [8]) h (.eraseSlot slot) 512) slot.toNat)) ∧
  (∀ (s : State) (h : CmdHdr) (slot : Byte) (size : W32) (src : W64), Admitted s.app h (.loadFirmware slot size src) [] →
    slot.toNat ≤ 1 → 1 ≤ size.toNat → size.toNat ≤ 2 ^ 28 → vat s.app.cmd.long h.ctx = none →
    exec (.loadFirmware h slot size src) s = .next (s.withApp <|
      (begun (s.app.takeIn h (.loadFirmware slot size src) []) h (.loadFirmware slot size src) (size.toNat / 2 ^ 20 + 1)).onFw slot.toNat
        fun f => { f with valid := false })) ∧
  (∀ (s : State) (h : CmdHdr) (len : W32) (map : W64), Admitted s.app h (.skimPrepare len map) [8] →
    48 ≤ len.toNat → len.toNat ≤ 48 + 16 * 1048576 → s.app.cstate = 1 → s.app.ctl.running.isSome = true → s.app.ctl.window = none →
    s.app.get (Reg.slotState s.app.freeSlot) = Slot.verified → vat s.app.cmd.long h.ctx = none →
    exec (.skimPrepare h len map) s = .next (s.withApp <|
      let b := begun (s.app.takeIn h (.skimPrepare len map) [8]) h (.skimPrepare len map) (len.toNat / 65536 + 1)
      let a := (b.onCtl fun c => { c with skim := some { slot := b.freeSlot } }).setCstate 3
      (((a.sendImage b.freeSlot).set Reg.CSC_SKSTAT_phase 1).setB Reg.CSC_SKSTAT_reverse false).set Reg.CSC_SKSTAT_passes 0)) ∧
  (∀ (s : State) (h : CmdHdr) (w : SkimSt), Admitted s.app h .skimRollback [8] → s.app.ctl.window = some w → s.app.inRollback = true →
    s.app.ctl.skim = none → vat s.app.cmd.long h.ctx = none →
    exec (.skimRollback h) s = .next (s.withApp <|
      ((((begun (s.app.takeIn h .skimRollback [8]) h .skimRollback (w.map.length / 65536 + 1)).onCtl
        fun c => { c with skim := some { map := reverseMap w.map, slot := w.slot } }).set Reg.CSC_SKSTAT_phase 5).setB
          Reg.CSC_SKSTAT_reverse true).set Reg.CSC_SKSTAT_passes 0))

/-- The commands that change the program on line, the life-cycle state, or the module's presence. -/
def Obligations.ChangeCommandsAct : Prop :=
  (∀ (s : State) (h : CmdHdr) (e : W64) (k : SkimSt) (t : Nat), Admitted s.app h (.skimSwitch e) [8] → s.app.ctl.skim = some k →
    s.app.get Reg.CSC_SKSTAT_phase = 2 → k.switchCmd = none → s.app.on Reg.CSC_SKSTAT_reverse = false →
    s.app.findSwitch k (max (s.app.now + 10000000) e.toNat) = some t →
    exec (.skimSwitch h e) s = .next (s.withApp <|
      (((s.app.takeIn h (.skimSwitch e) [8]).onCtl fun c => { c with skim := some { k with switchCmd := some h, putOff := none } }).set
        Reg.CSC_SKTSW_t_sw t).switchNotice h t)) ∧
  (∀ (s : State) (h : CmdHdr), Admitted s.app h .skimAbort [8] → s.app.ctl.skim.isSome = true →
    exec (.skimAbort h) s = .next (s.withApp <| s.app.ended h .skimAbort [8] Status.ok [] (fun a => (a.skimDrop 0).endSkim))) ∧
  (∀ (s : State) (h : CmdHdr), Admitted s.app h .skimConfirm [8] → s.app.inRollback = true → s.app.ctl.skim = none →
    exec (.skimConfirm h) s = .next (s.withApp <| s.app.ended h .skimConfirm [8] Status.ok [] (fun a => (a.skimFinal).endSkim))) ∧
  (∀ (s : State) (h : CmdHdr) (target : Byte) (full : Bool) (roles : List Nat), Admitted s.app h (.lifecycleSet target s.app.bkp.pc) [] →
    target.toNat ≠ s.app.lcy → lcyRow s.app.lcy target.toNat = some (full, roles) → target.toNat ≤ 4 →
    s.app.get (Reg.HCX_ROLE_active_role h.ctx) ∈ roles → (target.toNat = 2 → ∀ b, b < 4 → s.app.prot b < 2) →
    (full = true → s.app.role = Role.solo) → (s.app.takeIn h (.lifecycleSet target s.app.bkp.pc) []).lcyBusy h = false →
    exec (.lifecycleSet h target s.app.bkp.pc) s = .next (s.withApp <|
      (s.app.ended h (.lifecycleSet target s.app.bkp.pc) [] Status.ok [] (fun a =>
        if full then (a.onLife fun l => { l with wipePending := some target.toNat, resetReq := some (4, 0) }).record 0x0004 a.lcy target.toNat 1 h.ctx
        else a.sessionWipe target.toNat h.ctx)).resetIfAsked)) ∧
  (∀ (s : State) (h : CmdHdr) (kind : Byte), Admitted s.app h (.resetModule kind) [] → kind.toNat ≤ 2 →
    exec (.resetModule h kind) s = .next (s.withApp <|
      (s.app.ended h (.resetModule kind) [] Status.ok [] (fun a => a.onLife fun l => { l with resetReq := some (3, kind.toNat) })).resetIfAsked)) ∧
  (∀ (s : State) (h : CmdHdr), Admitted s.app h .requestRemoval [] →
    (s.app.role = Role.standby ∨ (s.app.role = Role.solo ∧ s.app.lcy = Lcy.maintenance)) →
    exec (.requestRemoval h) s = .next (s.withApp <| s.app.ended h .requestRemoval [] Status.ok [] App.leave)) ∧
  (∀ (s : State) (h : CmdHdr), Admitted s.app h .requestRemoval [] →
    s.app.role = Role.primary → s.app.get Reg.PAR_STAT_partner_role = Role.standby → s.app.anyLong = false →
    (∀ b, b < 4 → vat s.app.trp.ops b = none) → s.app.par.removal = none →
    exec (.requestRemoval h) s = .next (s.withApp <|
      ((s.app.takeIn h .requestRemoval []).onPar fun p => { p with removal := some h }).onCtl fun c => { c with stopSel := true }))

/-- The instructions of format R with two operands of one tag (R374 to R377): opcode, accepted tags, result. -/
def Obligations.CoreArithmetic : Prop :=
  let row := fun (i : Fin 8 → Instr) (o : Nat) (tags : List Nat) (f : Nat → W64 → W64 → W64) =>
    ∀ (s : State) (k : Fin 8) (d a b : Nat), d < 64 → a < 64 → b < 64 → Executing s.app k (wordR o d a b) →
      let c := s.app.core k
      (c.reg a).tag ∈ tags → (c.reg b).tag = (c.reg a).tag →
      exec (i k) s = .next (s.withCore k (c.past.put d (f (c.reg a).tag (c.reg a).v (c.reg b).v) (c.reg a).tag))
  let num := fun (t : Nat) (x : W64) => if t = Tag.uint then (x.toNat : Int) else x.toInt
  row .add 0x10 [Tag.int, Tag.uint, Tag.time] (fun _ x y => x + y) ∧
  row .sub 0x11 [Tag.int, Tag.uint, Tag.time] (fun _ x y => x - y) ∧
  row .mul 0x12 [Tag.int, Tag.uint] (fun _ x y => x * y) ∧
  row .div 0x13 [Tag.int, Tag.uint, Tag.time] (fun t x y => if y = 0#64 then 0#64 else BitVec.ofInt 64 ((num t x).tdiv (num t y))) ∧
  row .mod 0x14 [Tag.int, Tag.uint, Tag.time] (fun t x y => if y = 0#64 then x else BitVec.ofInt 64 ((num t x).tmod (num t y))) ∧
  row .min 0x17 [Tag.int, Tag.uint, Tag.time] (fun t x y => if num t y < num t x then y else x) ∧
  row .max 0x18 [Tag.int, Tag.uint, Tag.time] (fun t x y => if num t x < num t y then y else x) ∧
  row .and 0x20 [Tag.bool, Tag.bits] (fun _ x y => x &&& y) ∧
  row .or 0x21 [Tag.bool, Tag.bits] (fun _ x y => x ||| y) ∧
  row .xor 0x22 [Tag.bool, Tag.bits] (fun _ x y => x ^^^ y) ∧
  row .fadd 0x30 [Tag.real, Tag.lreal] (fun t x y => fltBits t (fAdd (fltOf t x) (fltOf t y))) ∧
  row .fsub 0x31 [Tag.real, Tag.lreal] (fun t x y => fltBits t (fAdd (fltOf t x) (fNeg (fltOf t y)))) ∧
  row .fmul 0x32 [Tag.real, Tag.lreal] (fun t x y => fltBits t (fMul (fltOf t x) (fltOf t y))) ∧
  row .fdiv 0x33 [Tag.real, Tag.lreal] (fun t x y => fltBits t (fDiv (fltOf t x) (fltOf t y))) ∧
  row .fmin 0x37 [Tag.real, Tag.lreal] (fun t x y => fltBits t (fMin (fltOf t x) (fltOf t y))) ∧
  row .fmax 0x38 [Tag.real, Tag.lreal] (fun t x y => fltBits t (fMax (fltOf t x) (fltOf t y)))

/-- One operand, shifts and comparisons (R374 to R377). -/
def Obligations.CoreUnaryShiftCompare : Prop :=
  let one := fun (i : Fin 8 → Instr) (o : Nat) (tags : List Nat) (f : Nat → W64 → W64) =>
    ∀ (s : State) (k : Fin 8) (d a : Nat), d < 64 → a < 64 → Executing s.app k (wordR o d a 0) →
      let c := s.app.core k
      (c.reg a).tag ∈ tags →
      exec (i k) s = .next (s.withCore k (c.past.put d (f (c.reg a).tag (c.reg a).v) (c.reg a).tag))
  let shifts := fun (i : Fin 8 → Instr) (o tag : Nat) (f : W64 → Nat → W64) =>
    ∀ (s : State) (k : Fin 8) (d a b : Nat), d < 64 → a < 64 → b < 64 → Executing s.app k (wordR o d a b) →
      let c := s.app.core k
      (c.reg a).tag = tag → (c.reg b).tag ∈ [Tag.int, Tag.uint] →
      exec (i k) s = .next (s.withCore k (c.past.put d (f (c.reg a).v ((c.reg b).v.toNat % 64)) tag))
  let cmp := fun (i : Fin 8 → Instr) (o : Nat) (tags : List Nat) (f : Nat → W64 → W64 → Bool) =>
    ∀ (s : State) (k : Fin 8) (d a b : Nat), d < 64 → a < 64 → b < 64 → Executing s.app k (wordR o d a b) →
      let c := s.app.core k
      (c.reg a).tag ∈ tags → (c.reg b).tag = (c.reg a).tag →
      exec (i k) s = .next (s.withCore k (c.past.put d (if f (c.reg a).tag (c.reg a).v (c.reg b).v then 1#64 else 0#64) Tag.bool))
  let eq := fun (t : Nat) (x y : W64) => if isFlt t then fEq (fltOf t x) (fltOf t y) else decide (x = y)
  let lt := fun (t : Nat) (x y : W64) =>
    if isFlt t then fLt (fltOf t x) (fltOf t y) else if t = Tag.uint then decide (x.toNat < y.toNat) else decide (x.toInt < y.toInt)
  one .neg 0x15 [Tag.int, Tag.time] (fun _ x => -x) ∧
  one .abs 0x16 [Tag.int, Tag.time] (fun _ x => if x.toInt < 0 then -x else x) ∧
  one .not 0x23 [Tag.bool, Tag.bits] (fun t x => if t = Tag.bool then x ^^^ 1#64 else ~~~x) ∧
  one .fsqrt 0x34 [Tag.real, Tag.lreal] (fun t x => fltBits t (fSqrt (fltOf t x))) ∧
  one .fabs 0x35 [Tag.real, Tag.lreal] (fun t x => fltBits t (fAbs (fltOf t x))) ∧
  one .fneg 0x36 [Tag.real, Tag.lreal] (fun t x => fltBits t (fNeg (fltOf t x))) ∧
  shifts .shl 0x24 Tag.bits (fun x n => x <<< n) ∧
  shifts .shr 0x25 Tag.bits (fun x n => x >>> n) ∧
  shifts .sar 0x26 Tag.int (fun x n => x.sshiftRight n) ∧
  shifts .rol 0x27 Tag.bits (fun x n => x.rotateLeft n) ∧
  shifts .ror 0x28 Tag.bits (fun x n => x.rotateRight n) ∧
  cmp .ceq 0x40 [Tag.bool, Tag.int, Tag.uint, Tag.real, Tag.lreal, Tag.bits, Tag.time] eq ∧
  cmp .cne 0x41 [Tag.bool, Tag.int, Tag.uint, Tag.real, Tag.lreal, Tag.bits, Tag.time] (fun t x y => !eq t x y) ∧
  cmp .clt 0x42 [Tag.int, Tag.uint, Tag.real, Tag.lreal, Tag.time] lt ∧
  cmp .cle 0x43 [Tag.int, Tag.uint, Tag.real, Tag.lreal, Tag.time] (fun t x y => lt t x y || eq t x y)

/-- NOP, MOV, LDI, LDC, TAG, CVT, SEL and ADDI (R374 to R377). -/
def Obligations.CoreMoves : Prop :=
  (∀ (s : State) (k : Fin 8), Executing s.app k 0 → exec (.nopInstruction k) s = .next (s.withCore k (s.app.core k).past)) ∧
  (∀ (s : State) (k : Fin 8) (d a : Nat), d < 64 → a < 64 → Executing s.app k (wordR 0x01 d a 0) →
    let c := s.app.core k
    1 ≤ (c.reg a).tag → (c.reg a).tag ≤ 8 → exec (.mov k) s = .next (s.withCore k (c.past.put d (c.reg a).v (c.reg a).tag))) ∧
  (∀ (s : State) (k : Fin 8) (d i : Nat), d < 64 → i < 2 ^ 18 → Executing s.app k (wordX 0x02 d i) →
    exec (.ldi k) s = .next (s.withCore k ((s.app.core k).past.put d ((BitVec.ofNat 18 i).signExtend 64) Tag.int))) ∧
  (∀ (s : State) (k : Fin 8) (d ty i : Nat), d < 64 → 1 ≤ ty → ty ≤ 7 → i < 2 ^ 14 → Executing s.app k (wordX 0x03 d (ty * 2 ^ 14 + i)) →
    let p : Int := (s.app.core k).pc + 4 + 4 * (BitVec.ofNat 14 i).toInt
    0 ≤ p → p + 8 ≤ (s.app.code.sect 3).length →
    exec (.ldc k) s = .next (s.withCore k ((s.app.core k).past.put d (BitVec.ofNat 64 (numAt (s.app.code.sect 3) p.toNat 8)) ty))) ∧
  (∀ (s : State) (k : Fin 8) (d a ty : Nat), d < 64 → a < 64 → Executing s.app k (wordI 0x04 d a (ty * 2 ^ 8)) →
    let c := s.app.core k
    (c.reg a).tag ∈ [Tag.int, Tag.uint, Tag.bits, Tag.time] →
    (ty ∈ [Tag.int, Tag.uint, Tag.bits, Tag.time] ∨ (ty = Tag.bool ∧ (c.reg a).v.toNat ≤ 1)) →
    exec (.tag k) s = .next (s.withCore k (c.past.put d (c.reg a).v ty))) ∧
  (∀ (s : State) (k : Fin 8) (d a ty : Nat), d < 64 → a < 64 → Executing s.app k (wordI 0x05 d a (ty * 2 ^ 8)) →
    let c := s.app.core k
    (c.reg a).tag ∈ [Tag.bool, Tag.int, Tag.uint, Tag.real, Tag.lreal, Tag.time] →
    ty ∈ [Tag.bool, Tag.int, Tag.uint, Tag.real, Tag.lreal, Tag.time] →
    exec (.cvt k) s = .next (s.withCore k (c.past.put d (cvtOf (c.reg a).tag ty (c.reg a).v) ty))) ∧
  (∀ (s : State) (k : Fin 8) (d a b : Nat), d < 64 → a < 64 → b < 64 → Executing s.app k (wordR 0x06 d a b) →
    let c := s.app.core k
    (c.reg d).tag = Tag.bool → 1 ≤ (c.reg a).tag → (c.reg a).tag ≤ 8 → (c.reg b).tag = (c.reg a).tag →
    exec (.sel k) s = .next (s.withCore k (c.past.put d (if (c.reg d).v = 0#64 then (c.reg b).v else (c.reg a).v) (c.reg a).tag))) ∧
  (∀ (s : State) (k : Fin 8) (d a i : Nat), d < 64 → a < 64 → i < 2 ^ 12 → Executing s.app k (wordI 0x19 d a i) →
    let c := s.app.core k
    (c.reg a).tag ∈ [Tag.int, Tag.uint, Tag.time] →
    exec (.addi k) s = .next (s.withCore k (c.past.put d ((c.reg a).v + (BitVec.ofNat 12 i).signExtend 64) (c.reg a).tag)))

/-- LDk, STk, LDF, STF, LDP, LDPQ, LDPS, STP and STPQ (R378 to R383). -/
def Obligations.CoreData : Prop :=
  let index := fun (c : CtlCore) (a : Nat) => if a = 63 then 0 else (c.reg a).v.toNat
  let indexOk := fun (c : CtlCore) (a : Nat) => a = 63 ∨ (c.reg a).tag = Tag.int ∨ (c.reg a).tag = Tag.uint
  let logged := fun (c : CtlCore) (l : WriteLog) => { c.past with log := l }
  (∀ (s : State) (k : Fin 8) (kind d a imm : Nat), kind < 16 → d < 64 → a < 64 → imm < 4096 →
    Executing s.app k (wordI (0x50 + kind) d a imm) →
    let c := s.app.core k
    let n := (kindOf kind).1
    let tag := (kindOf kind).2.1
    let p := c.ib + index c a + imm * n
    let v := ofLe ((upto n).map (fun i => logByte c.log s.app.instMem (p + i)))
    indexOk c a → p % n = 0 → p + n ≤ c.il →
    exec (.ldk k) s = .next (s.withCore k (c.past.put d
      (if tag = Tag.bool then (if v = 0 then 0 else 1) else if (kindOf kind).2.2 then BitVec.ofInt 64 (asSigned (8 * n) v) else BitVec.ofNat 64 v) tag))) ∧
  (∀ (s : State) (k : Fin 8) (kind d a imm : Nat), kind < 16 → d < 64 → a < 64 → imm < 4096 →
    Executing s.app k (wordI (0x60 + kind) d a imm) →
    let c := s.app.core k
    let n := (kindOf kind).1
    let p := c.ib + index c a + imm * n
    let l := { c.log with stores := (upto n).foldl (fun l i => logPut l (p + i) (BitVec.ofNat 8 ((c.reg d).v.toNat / 256 ^ i))) c.log.stores }
    indexOk c a → (c.reg d).tag = (kindOf kind).2.1 → p % n = 0 → p + n ≤ c.il → l.size ≤ s.app.logLimit k →
    exec (.stk k) s = .next (s.withCore k (logged c l))) ∧
  (∀ (s : State) (k : Fin 8) (d i : Nat), d < 64 → i < 4096 → Executing s.app k (wordI 0x70 d 0 i) →
    let c := s.app.core k
    i < c.slots.length → exec (.ldf k) s = .next (s.withCore k (c.past.put d (c.slots.getD i {}).v (c.slots.getD i {}).tag))) ∧
  (∀ (s : State) (k : Fin 8) (d i : Nat), d < 64 → i < 4096 → Executing s.app k (wordI 0x71 d 0 i) →
    let c := s.app.core k
    1 ≤ (c.reg d).tag → (c.reg d).tag ≤ 8 → i < c.slots.length →
    exec (.stf k) s = .next (s.withCore k { c.past with slots := c.slots.set i (c.reg d) })) ∧
  (∀ (s : State) (k : Fin 8) (d i : Nat), d < 64 → i < 2 ^ 18 → i < tkInCount (s.app.entryOf k) →
    let c := s.app.core k
    let v := (s.app.scanOf k).snap.getD i {}
    let ty := ptType (s.app.code.point ((s.app.code.inList (s.app.entryOf k)).getD i 0))
    (Executing s.app k (wordX 0x78 d i) → exec (.ldp k) s = .next (s.withCore k (c.past.put d v.value (typeTag ty)))) ∧
    (Executing s.app k (wordX 0x79 d i) → exec (.ldpq k) s = .next (s.withCore k (c.past.put d
      (BitVec.ofNat 64 (v.quality.toNat + v.tq.toNat % 16 * 2 ^ 16 + v.tsc.toNat * 2 ^ 24)) Tag.bits))) ∧
    (Executing s.app k (wordX 0x7A d i) → exec (.ldps k) s = .next (s.withCore k (c.past.put d v.stamp Tag.uint)))) ∧
  (∀ (s : State) (k : Fin 8) (d i : Nat), d < 64 → i < 2 ^ 18 → i < tkOutCount (s.app.entryOf k) → Executing s.app k (wordX 0x7B d i) →
    let c := s.app.core k
    let ty := ptType (s.app.code.point ((s.app.code.outList (s.app.entryOf k)).getD i 0))
    let l := { c.log with outs := outMerge c.log.outs i (some (typeValue ty (c.reg d).v)) none }
    1 ≤ typeTag ty → (c.reg d).tag = typeTag ty → l.size ≤ s.app.logLimit k →
    exec (.stp k) s = .next (s.withCore k (logged c l))) ∧
  (∀ (s : State) (k : Fin 8) (d i : Nat), d < 64 → i < 2 ^ 18 → i < tkOutCount (s.app.entryOf k) → Executing s.app k (wordX 0x7C d i) →
    let c := s.app.core k
    let l := { c.log with outs := outMerge c.log.outs i none (some (BitVec.ofNat 16 ((c.reg d).v.toNat % 2 ^ 13))) }
    (c.reg d).tag = Tag.bits → l.size ≤ s.app.logLimit k →
    exec (.stpq k) s = .next (s.withCore k (logged c l)))

/-- BR, BT, BF, LPC, LOOP, CALL, CALLB, RET, FRAME, WAIT_WORK and END (R372, R380, R383, R389, R390). A displacement counts
words from the word after the branch. -/
def Obligations.CoreFlow : Prop :=
  let dest := fun (s : State) (k i : Nat) => ((s.app.core k).pc : Int) + 4 + 4 * (BitVec.ofNat 18 i).toInt
  let inCode := fun (s : State) (p : Int) => 0 ≤ p ∧ p + 4 ≤ (s.app.code.sect 3).length
  let goes := fun (c : CtlCore) (p : Int) => { c with pc := p.toNat }
  let pushed := fun (c : CtlCore) (ib il : Nat) =>
    { c with calls := ⟨c.pc + 4, c.ib, c.il, c.slots⟩ :: c.calls, slots := [], ib := ib, il := il }
  (∀ (s : State) (k : Fin 8) (i : Nat), i < 2 ^ 17 → Executing s.app k (wordX 0x80 0 i) → inCode s (dest s k i) →
    exec (.br k) s = .next (s.withCore k (goes (s.app.core k) (dest s k i)))) ∧
  (∀ (s : State) (k : Fin 8) (d i : Nat), d < 64 → i < 2 ^ 17 → Executing s.app k (wordX 0x81 d i) → inCode s (dest s k i) →
    ((s.app.core k).reg d).tag = Tag.bool →
    exec (.bt k) s = .next (s.withCore k (if ((s.app.core k).reg d).v ≠ 0#64 then goes (s.app.core k) (dest s k i) else (s.app.core k).past))) ∧
  (∀ (s : State) (k : Fin 8) (d i : Nat), d < 64 → i < 2 ^ 17 → Executing s.app k (wordX 0x82 d i) → inCode s (dest s k i) →
    ((s.app.core k).reg d).tag = Tag.bool →
    exec (.bf k) s = .next (s.withCore k (if ((s.app.core k).reg d).v = 0#64 then goes (s.app.core k) (dest s k i) else (s.app.core k).past))) ∧
  (∀ (s : State) (k : Fin 8) (d a n : Nat), d < 64 → a < 64 → 1 ≤ n → n < 4096 → Executing s.app k (wordI 0x83 d a n) →
    let c := s.app.core k
    ((c.reg a).tag = Tag.int → exec (.lpc k) s =
      .next (s.withCore k (c.past.put d (BitVec.ofInt 64 (min (max (c.reg a).v.toInt 0) n)) Tag.lcnt))) ∧
    ((c.reg a).tag = Tag.uint → exec (.lpc k) s =
      .next (s.withCore k (c.past.put d (BitVec.ofNat 64 (min (c.reg a).v.toNat n)) Tag.lcnt)))) ∧
  (∀ (s : State) (k : Fin 8) (d i : Nat), d < 64 → 2 ^ 17 ≤ i → i < 2 ^ 18 → Executing s.app k (wordX 0x84 d i) → inCode s (dest s k i) →
    let c := s.app.core k
    let v := (c.reg d).v.toNat - 1
    (c.reg d).tag = Tag.lcnt →
    exec (.loop k) s = .next (s.withCore k (if v = 0 then c.past.put d 0 Tag.lcnt
      else goes (c.put d (BitVec.ofNat 64 v) Tag.lcnt) (dest s k i)))) ∧
  (∀ (s : State) (k : Fin 8) (i : Nat), i < 2 ^ 18 → Executing s.app k (wordX 0x85 0 i) → inCode s (dest s k i) →
    (s.app.core k).calls.length < 64 →
    exec (.call k) s = .next (s.withCore k (goes (pushed (s.app.core k) (s.app.core k).ib (s.app.core k).il) (dest s k i)))) ∧
  (∀ (s : State) (k : Fin 8) (a t : Nat), a < 64 → Executing s.app k (wordR 0x86 0 a 0) →
    let c := s.app.core k
    let m := s.app.code
    let e := m.inst (c.reg a).v.toNat
    (c.reg a).tag = Tag.uint → (c.reg a).v.toNat < m.ninst → s.app.taskOf k = some t → e.owner = t → c.calls.length < 64 →
    inCode s (m.typ e.typ).1 →
    exec (.callb k) s = .next (s.withCore k (goes (pushed c e.off (e.off + e.size)) (m.typ e.typ).1))) ∧
  (∀ (s : State) (k : Fin 8) (f : CFrame) (t : List CFrame), Executing s.app k (wordR 0x87 0 0 0) → (s.app.core k).calls = f :: t →
    exec (.ret k) s = .next (s.withCore k { s.app.core k with pc := f.pc, ib := f.ib, il := f.il, slots := f.slots, calls := t })) ∧
  (∀ (s : State) (k : Fin 8) (n : Nat), n < 4096 → Executing s.app k (wordI 0x88 0 0 n) →
    (s.app.core k).calls.foldl (fun u f => u + 32 + 16 * f.slots.length) (16 * n) ≤ 65536 →
    exec (.frame k) s = .next (s.withCore k { (s.app.core k).past with
      slots := ((s.app.core k).slots ++ List.replicate n default).take n })) ∧
  (∀ (s : State) (k : Fin 8), Executing s.app k (wordR 0xFF 0 0 0) → (s.app.core k).calls = [] →
    exec (.endScan k) s = .next (s.withCore k { (s.app.core k).past with ended := true })) ∧
  (∀ (s : State) (k : Fin 8), s.app.life.boot ≠ .held → s.app.coreState k = 0 → (s.app.core k).item.isSome = true →
    exec (.waitWork k) s = .next (s.withApp (s.app.handOver k)))

/-- The service calls (R386, R387). -/
def Obligations.CoreServices : Prop :=
  let now := fun (i : Fin 8 → Instr) (v tag : Nat) (f : Release → Nat) =>
    ∀ (s : State) (k : Fin 8) (d : Nat), d < 64 → Executing s.app k (wordS v d 0) →
      exec (i k) s = .next (s.withCore k ((s.app.core k).past.put d (BitVec.ofNat 64 (f (s.app.scanOf k).rel)) tag))
  let deferred := fun (i : Fin 8 → Instr) (v n : Nat) (ok : List Nat → Prop) =>
    ∀ (s : State) (k : Fin 8) (d a t : Nat), d < 64 → a + n ≤ 64 → Executing s.app k (wordS v d a) → s.app.taskOf k = some t →
      let c := s.app.core k
      let args := (upto n).map (fun j => (c.reg (a + j)).v.toNat)
      let l := { c.log with acts := c.log.acts ++ [⟨v, t, args⟩] }
      (∀ j, j < n → (c.reg (a + j)).tag ∈ [Tag.bool, Tag.int, Tag.uint, Tag.bits]) →
      (ok args → c.log.acts.length < 64 → l.size ≤ s.app.logLimit k →
        exec (i k) s = .next (s.withCore k ({ c.past with log := l }.put d 1 Tag.bool))) ∧
      (¬ ok args → exec (i k) s = .next (s.withCore k (c.past.put d 0 Tag.bool)))
  now .scanTime 0x001 Tag.uint (fun r => r.ts) ∧
  now .scanQual 0x002 Tag.bits (fun r => r.tq % 16 + r.tsc % 256 * 2 ^ 8 + r.aq % 16 * 2 ^ 16) ∧
  now .scanAngle 0x003 Tag.uint (fun r => r.a48) ∧
  now .scanCycle 0x004 Tag.uint (fun r => r.cycle) ∧
  deferred .breaker 0x010 3 (fun l => l.getD 0 0 ≤ 3 ∧ l.getD 1 0 ≤ 3 ∧ l.getD 2 0 ≤ 65535 ∧ (2 ≤ l.getD 1 0 ∨ l.getD 2 0 = 0)) ∧
  deferred .group 0x011 2 (fun l => l.getD 0 0 ≤ 3 ∧ l.getD 1 0 ≤ 7) ∧
  deferred .captureArm 0x012 2 (fun l => l.getD 0 0 ≤ 3 ∧ l.getD 1 0 ≤ 1) ∧
  deferred .captureFire 0x013 1 (fun l => l.getD 0 0 ≤ 3 ∨ l.getD 0 0 = 255) ∧
  deferred .auxSeq 0x014 1 (fun l => l.getD 0 0 ≤ 15) ∧
  deferred .svcFlagSet 0x015 2 (fun l => l.getD 0 0 ≤ 63 ∧ l.getD 1 0 ≤ 31) ∧
  deferred .svcFlagCancel 0x016 2 (fun l => l.getD 0 0 ≤ 63 ∧ l.getD 1 0 ≤ 2 ^ 32 - 1)

/-- COMMIT, DEFERRED_ACTION, LOCKSTEP_MISMATCH, SELF_TEST_END, SCAN_BUDGET_EXPIRY, INIT_BUDGET_EXPIRY, DISPATCHER_CYCLE and
RETAINED_COPY (R351, R355, R360, R369, R370, R385, R387, R393). -/
def Obligations.CoreEventsAct : Prop :=
  ∀ (s : State), s.app.life.boot ≠ .held →
    (∀ (k : Fin 8) (t : Nat) (sc : Scan), (s.app.core k).ended = true → (s.app.core k).item = some (.task t) → (s.app.task t).scan = some sc →
      exec (.commit k) s = .next (s.withApp ((s.app.access (.core k) .sharedSram (32 * (s.app.core k).log.outs.length)).commitScan k t sc))) ∧
    (∀ (k : Fin 8) (j : Nat) (i : InitSt), (s.app.core k).ended = true → (s.app.core k).item = some (.init j) → s.app.ctl.init = some i →
      exec (.commit k) s = .next (s.withApp ((s.app.access (.core k) .sharedSram (32 * (s.app.core k).log.outs.length)).commitInit k j i))) ∧
    (∀ (x : Action) (l : List (Action × Option Nat)), nextAction s.app.ctl.flagged [] s.app.ctl.actions = some (x, l) →
      exec .deferredAction s = .next (s.withApp
        ((s.app.onCtl fun c => { c with actions := l, flagged := if x.isFlag then insertNat x.task c.flagged else c.flagged }).doAction x))) ∧
    (∀ (k : Fin 8), (s.app.core k).ended = false → s.app.coreState k < 2 →
      ((s.app.core k).item.isSome = true → exec (.lockstepMismatch k none) s = .next (s.withApp (s.app.scanFault k 1))) ∧
      ((s.app.core k).item = none → exec (.lockstepMismatch k none) s = .next (s.withApp (s.app.clearCore k 2))) ∧
      (∀ p : W32, (s.app.core k).item.isSome = true →
        exec (.lockstepMismatch k (some p)) s = .next (s.withApp ((s.app.record 0x0040 0 p.toNat 0 0).scanFault k 2)))) ∧
    (∀ (k : Fin 8), s.app.coreState k = 2 → s.app.since (s.app.core k).testAt (2 * tMs) = true →
      exec (.selfTestEnd k true) s = .next (s.withApp (s.app.setCore k 0)) ∧
      exec (.selfTestEnd k false) s = .next (s.withApp ((s.app.setCore k 3).record 0x0041 k 0 0 0))) ∧
    (∀ (k : Fin 8) (t : Nat), (s.app.core k).item = some (.task t) → s.app.coreState k = 1 → (s.app.core k).ended = false →
      2 * tkWcet (s.app.entry t) ≤ 4 * (s.app.tick - (s.app.core k).startAt) →
      exec (.scanBudgetExpiry k) s = .next (s.withApp (s.app.scanFault k 26))) ∧
    (∀ (k : Fin 8) (j : Nat), (s.app.core k).item = some (.init j) → s.app.coreState k = 1 → (s.app.core k).ended = false →
      s.app.since (s.app.core k).startAt tMs = true →
      exec (.initBudgetExpiry k) s = .next (s.withApp (s.app.scanFault k 26))) ∧
    exec .dispatcherCycle s = .next (s.withApp s.app.cycle) ∧
    (s.app.ctl.running.isSome = true → s.app.failedFor tMs = false → (s.app.since s.app.ctl.copyAt (s.app.get Reg.CSC_PCTL_retain_period * 100 * tMs) = true ∨ s.app.journalFree < 4 * 2 ^ 20) →
      exec .retainedCopy s = .next (s.withApp s.app.takeCopy))

/-- Tag, opcode and call faults (R373, R376, R383, R385, R390). -/
def Obligations.CoreTraps : Prop :=
  let binaries : List (Nat × (Fin 8 → Instr) × List Nat) :=
    [(0x10, .add, [2, 3, 7]), (0x11, .sub, [2, 3, 7]), (0x12, .mul, [2, 3]), (0x13, .div, [2, 3, 7]), (0x14, .mod, [2, 3, 7]),
     (0x17, .min, [2, 3, 7]), (0x18, .max, [2, 3, 7]), (0x20, .and, [1, 6]), (0x21, .or, [1, 6]), (0x22, .xor, [1, 6])]
  (∀ (s : State) (k : Fin 8) (d a b : Nat), d < 64 → a < 64 → b < 64 → ∀ r ∈ binaries, Executing s.app k (wordR r.1 d a b) →
    (((s.app.core k).reg a).tag ∉ r.2.2 → exec (r.2.1 k) s = .next (s.withApp (s.app.scanFault k 17))) ∧
    (((s.app.core k).reg a).tag ∈ r.2.2 → ((s.app.core k).reg b).tag ≠ ((s.app.core k).reg a).tag →
      exec (r.2.1 k) s = .next (s.withApp (s.app.scanFault k 17)))) ∧
  (∀ (s : State) (k : Fin 8) (w : Nat), Executing s.app k w → opKnown (opOf w) = false →
    exec (.nopInstruction k) s = .next (s.withApp (s.app.scanFault k 16))) ∧
  (∀ (s : State) (k : Fin 8), Executing s.app k (wordR 0x87 0 0 0) → (s.app.core k).calls = [] →
    exec (.ret k) s = .next (s.withApp (s.app.scanFault k 21))) ∧
  (∀ (s : State) (k : Fin 8), Executing s.app k (wordR 0xFF 0 0 0) → (s.app.core k).calls ≠ [] →
    exec (.endScan k) s = .next (s.withApp (s.app.scanFault k 25))) ∧
  (∀ (s : State) (k : Fin 8), Executing s.app k (wordR 0xF0 0 0 0) → exec (.waitWork k) s = .next (s.withApp (s.app.scanFault k 25)))

/-- WALL_COMPARE_FIRE, PTP_MESSAGE_RX, PDELAY_INTERVAL, ANNOUNCE_TIMEOUT, HOST_SERVO_SILENCE, HOLD_LIMIT_REACHED,
REFERENCE_EDGE, REFERENCE_LOST, BACKUP_WRITE, OT_MIRROR and ANCHOR_PERIODIC (R52 to R54, R58, R63, R64, R66, R68, R599). -/
def Obligations.TimeEventsAct : Prop :=
  ∀ (s : State), s.app.life.boot ≠ .held →
    let a := s.app
    (∀ (n : Fin 16), a.on (Reg.TIM_CMP_CTL_en n) = true → vat a.tim.served n = false → a.cmpTarget n ≤ a.now →
      exec (.wallCompareFire n) s = .next (s.withApp (a.wallFire n))) ∧
    (∀ (p : Fin 6) (m : PtpMsg) (raw : List Byte), a.on Reg.TIM_CTL_ptp_en = true →
      exec (.ptpMessageRx p m raw) s = .next (s.withApp
        (if ptpIsEvent m = true then (a.postPtp p raw).onPtp p m
         else if (a.boundTake p).2 = true then ((a.boundTake p).1.postPtp p raw).onPtp p m else (a.boundTake p).1))) ∧
    (∀ (x : Fin 3) (y : Fin 2),
      let p := 2 * x.val + y.val
      a.on Reg.TIM_CTL_ptp_en = true → a.since (vat a.tim.pdelayAt p) tS = true →
      exec (.pdelayInterval x y) s = .next (s.withApp ((a.onTim fun t => { t with pdelayAt := vput t.pdelayAt p a.tick }).pdelayAsk p))) ∧
    ((a.tim.gm.isSome = true ∨ a.tim.gmGone = true) → a.since a.tim.syncAt (a.get Reg.TIM_PTP_CFG_ann_timeout * tS) = true →
      let b := (a.onTim fun t => { t with gm := none, gmNew := false, gmGone := false, syncGood := 0, syncWait := none }).utcFallback
      exec .announceTimeout s = .next (s.withApp
        (if b.tim.tq = .traceable then (if b.refValid = true then b.setTq .fallback else b.goHoldover) else b))) ∧
    (a.on Reg.TIM_CTL_servo_sel = true → a.since a.tim.adjustAt (4 * tS) = true →
      let b := a.onTim fun t => { t with hostServoSilent := true }
      exec .hostServoSilence s = .next (s.withApp
        (if a.tim.tq = .traceable then (if a.refValid = true then b.setTq .fallback else b.goHoldover) else b))) ∧
    (a.tim.tq = .holdover → a.since a.tim.holdAt (a.get Reg.TIM_HOLD_LIMIT_hold_s * tS) = true →
      exec .holdLimitReached s = .next (s.withApp ((a.setTq .drifting).record 0x0012 a.holdElapsed 0 0 0))) ∧
    (∀ b : Bool, a.get Reg.TIM_CTL_ref_in = 1 → b = a.on Reg.TIM_REF_CFG_polarity →
      exec (.referenceEdge (.pps b)) s = .next (s.withApp (a.onRef (a.refOffset (.pps b))))) ∧
    ((a.tim.tq = .fallback ∨ a.tim.irigUtc = true) → a.since a.tim.refAt (1500 * tMs) = true →
      let b := (a.onTim fun t => { t with refGood := 0, refAsked := false, irigUtc := false }).utcFallback
      exec .referenceLost s = .next (s.withApp
        (if a.tim.tq = .fallback then b.goHoldover.onTim fun t => { t with refLost := true } else b))) ∧
    (a.tim.tq ≠ .invalid → a.since a.bkp.wroteAt tS = true →
      exec .backupWrite s = .next (s.withApp { a with bkp := { a.bkp with
        valid := true, sec := a.tim.wall.sec, sub := BitVec.ofNat 15 (a.tim.wall.ns * 32768 / 1000000000), wroteAt := a.tick } })) ∧
    (a.bkp.mirrorAt + 3600 * tS ≤ a.opTicks →
      exec .otMirror s = .next (s.withApp { a with bkp := { a.bkp with mirrorOt := BitVec.ofNat 32 a.ot, mirrorPc := a.bkp.pc, mirrorAt := a.opTicks } })) ∧
    (a.bkp.anchorAt + 3600 * tS ≤ a.opTicks → exec .anchorPeriodic s = .next (s.withApp (a.anchor 3)))

/-- What R47 and R48 say of an applied and of a refused step. -/
def Obligations.StepApplied : Prop :=
  (∀ (a : App) (d : Int) (forced : Bool), 0 ≤ (a.now : Int) + d → (a.now : Int) + d < 1000000000 * 2 ^ 48 →
    let b := a.applyStep d forced
    (b.now : Int) = a.now + d ∧ b.tim.tsc = a.tim.tsc + 1 ∧ b.tim.incr = a.tim.incr ∧ b.tim.wall.frac = a.tim.wall.frac ∧
      b.tim.steppedOnce = true ∧ b.tim.refusedPending = false ∧ b.cmd = a.cmd ∧ b.tim.gm = a.tim.gm) ∧
  (∀ (a : App) (d : Int), a.tim.tq ≠ .traceable →
    let b := a.refuseStep d
    b.tim.wall = a.tim.wall ∧ b.tim.incr = a.tim.incr ∧ b.tim.tsc = a.tim.tsc ∧ b.tim.tq = a.tim.tq ∧
      b.tim.stepRefused = true ∧ b.tim.refusedSteps = a.tim.refusedSteps + 1)

/-- R79. The premise says that the instant after the step is one that the 48-bit seconds hold. -/
def Obligations.StepLeavesAngles : Prop :=
  ∀ (a : App) (d : Int) (forced : Bool), 0 ≤ (a.now : Int) + d → (a.now : Int) + d < 1000000000 * 2 ^ 48 →
    let b := a.applyStep d forced
    (∀ n, vat b.clk n = { vat a.clk n with trace := (vat a.clk n).trace.map fun e => (((e.1 : Int) + 16 * d).toNat, e.2) }) ∧
      (∀ n, b.a48 n = a.a48 n) ∧
      (∀ n t : Nat, 0 ≤ (t : Int) + d → (∀ e ∈ (vat a.clk n).trace, 0 ≤ (e.1 : Int) + 16 * d) → b.a48At n ((t : Int) + d).toNat = a.a48At n t) ∧
      ∀ n u, n < 4 → u < 8 → ∀ f ∈ [Reg.ANG_CMP_TGT_tgt n u, Reg.ANG_CMP_PER_period_au n u, Reg.ANG_CMP_CTL_en n u, Reg.ANG_CMP_CTL_next n u,
        Reg.ANG_CMP_CTL_dest n u, Reg.ANG_CMP_CTL_dest_index n u, Reg.ANG_CMP_CTL_late n u, Reg.ANG_CMP_CTL_own n u, Reg.ANG_CMP_CTL_skipped n u],
        b.get f = a.get f

/-- ANGLE_COMPARE_FIRE, LOCK_CRITERION, VOLTAGE_VALID_COUNT, FREEZE_MAX, SETTLE_COMPLETE and HOLD_MAX (R90, R93, R97, R100, R102). -/
def Obligations.AngleEventsAct : Prop :=
  ∀ (s : State) (b : Fin 4), s.app.life.boot ≠ .held →
    let a := s.app
    let c := vat a.clk b
    (∀ (u : Fin 8) (t : BitVec 48), u ≠ 0 → t.toNat = a.angTarget b u → c.st ≠ .off → a.on (Reg.ANG_CMP_CTL_en b u) = true →
      ((∃ p, vat c.lateReq u = some p ∧ p ≤ a.sig.periods) ∨
        (vat c.lateReq u = none ∧ vat c.served u = false ∧ reached48 (a.a48 b) (a.angTarget b u) = true)) →
      exec (.angleCompareFire b u t) s = .next (s.withApp ((a.angFire b u).takeDeferred b u))) ∧
    (∀ (t : BitVec 48), t.toNat = 2048 * (c.tickNo + 1) % 2 ^ 48 → a.tickDue b = true →
      exec (.angleCompareFire b 0 t) s = .next (s.withApp (a.tickFire b))) ∧
    (c.st = .acquiring → 32 * a.get (Reg.ANG_LOCK_lock_cycles b) ≤ c.lockTicks →
      ¬ (c.refUsed = 2 ∧ 32 * a.get (Reg.ANG_LOCK_lock_cycles b) ≤ c.vTicks) →
      exec (.lockCriterion b) s = .next (s.withApp (a.setClk b (if c.refUsed = 1 then .lockedV else .lockedI)))) ∧
    (c.st = .lockedI → 32 * a.get (Reg.ANG_LOCK_lock_cycles b) ≤ c.vTicks →
      exec (.voltageValidCount b) s = .next (s.withApp (a.switchRef b .lockedV 1))) ∧
    (c.st = .acquiring → c.refUsed = 2 → 32 * a.get (Reg.ANG_LOCK_lock_cycles b) ≤ c.vTicks →
      exec (.voltageValidCount b) s = .next (s.withApp (a.switchRef b .acquiring 1))) ∧
    (c.st = .frozen → a.since c.stAt (a.get (Reg.ANG_FRZ_freeze_max b) * 100 * tMs) = true →
      exec (.freezeMax b) s = .next (s.withApp ((a.onClk b fun c => { c with freezeMaxHit := true }).setClk b .holdover))) ∧
    (c.st = .frozen → 32 * a.get (Reg.ANG_FRZ_settle_cycles b) ≤ c.clearTicks →
      a.since c.stAt (a.get (Reg.ANG_FRZ_freeze_max b) * 100 * tMs) = false →
      exec (.settleComplete b) s = .next (s.withApp (if c.vValid = true ∨ c.iValid = true then a.acquire b else a.setClk b .holdover))) ∧
    (c.st = .holdover → a.since c.stAt (a.get (Reg.ANG_HOLD_hold_max b) * tS) = true →
      exec (.holdMax b) s = .next (s.withApp (a.setClk b .freeRun)))

/-- HANDOVER_START, HANDOVER_RETRY, HANDOVER_SETTLE_END, COMPARISON_WINDOW_END, VERIFY_WINDOW_END, TAKE_OVER and
SLICE_CALIBRATION_END (R121, R125 to R127, R130). -/
def Obligations.HandoverEventsAct : Prop :=
  ∀ (s : State) (b : Fin 4), s.app.life.boot ≠ .held →
    let a := s.app
    let x := vat a.ana.bays b
    (a.ana.calRun = none → x.dueAt ≤ a.tick →
      let per := a.get (Reg.ANA_FLOAT_float_period b) * tS
      let a1 := a.onBay b fun x => { x with dueAt := x.calEnd + ((a.tick - x.calEnd) / per + 1) * per }
      (a1.rotating b = true → x.deferred = none → exec (.handoverStart b) s = .next (s.withApp (a1.handStart b))) ∧
      (a1.rotating b = false ∨ x.deferred ≠ none → exec (.handoverStart b) s = .next (s.withApp a1))) ∧
    (∀ sec, x.deferred = some sec → a.rotating b = true → a.wallSec ≠ sec → exec (.handoverRetry b) s = .next (s.withApp (a.handStart b))) ∧
    (∀ kc, x.hand = .connect kc → kc + 231 ≤ a.nextCic →
      exec (.handoverSettleEnd b) s = .next (s.withApp (if a.handBlocked b = true then a.handDefer b else a.setHand b (.compare a.nextCic)))) ∧
    (∀ t (pairs : List (Int × Int)) (spoiled : Bool), x.hand = .compare t → a.handWin b t 2048 = some (pairs, spoiled) →
      let f := fitLine (tooFlat pairs) pairs
      (spoiled = true ∨ a.handBlocked b = true → exec (.comparisonWindowEnd b) s = .next (s.withApp (a.handDefer b))) ∧
      (spoiled = false → a.handBlocked b = false →
        (2000 * (f.1 - 2 ^ 32).natAbs ≤ 2 ^ 32 → 5000 * f.2.natAbs ≤ rangeCode * 2 ^ 22 →
          exec (.comparisonWindowEnd b) s = .next (s.withApp ((a.trimFloat b f.1 f.2).setHand b (.verify a.nextCic)))) ∧
        (2 ^ 32 < 2000 * (f.1 - 2 ^ 32).natAbs ∨ rangeCode * 2 ^ 22 < 5000 * f.2.natAbs →
          exec (.comparisonWindowEnd b) s = .next (s.withApp (a.handMismatch b))))) ∧
    (∀ t (pairs : List (Int × Int)) (spoiled : Bool), x.hand = .verify t → a.handWin b t 512 = some (pairs, spoiled) →
      let f := fitLine (tooFlat pairs) pairs
      let p := pairs.foldl (fun m x => max m x.1.natAbs) 0
      (spoiled = true ∨ a.handBlocked b = true → exec (.verifyWindowEnd b) s = .next (s.withApp (a.handDefer b))) ∧
      (spoiled = false → a.handBlocked b = false →
        (f.2.natAbs * 2 ^ 16 + (f.1 - 2 ^ 32).natAbs * p ≤ 64 * 2 ^ 32 →
          exec (.verifyWindowEnd b) s = .next (s.withApp (a.setHand b (.decided (t + 513))))) ∧
        (64 * 2 ^ 32 < f.2.natAbs * 2 ^ 16 + (f.1 - 2 ^ 32).natAbs * p →
          exec (.verifyWindowEnd b) s = .next (s.withApp (a.handMismatch b))))) ∧
    (∀ kt, x.hand = .decided kt → kt ≤ a.nextCic →
      let c := a.get (Reg.ANA_FSTAT_next_ch b)
      let a0 := a.assignSlice b c (a.floatOf b)
      let pos := kt * 1000000000 - a0.cicBack b
      let a1 := a0.onBay b fun x =>
        { x with misses := vput x.misses c 0, mismatch := vput x.mismatch c false, fltPool := vput x.fltPool c true, fltRes := vput x.fltRes c (some pos) }
      let a2 := a1.setB (Reg.ANA_FSTAT_float_mismatch b) ((vat a1.ana.bays b).mismatch.toList.any id)
      let a3 := (a2.wrapAdd (Reg.ANA_FCNT_handovers b) 1).set (Reg.ANA_FSTAT_next_ch b) ((c + 1) % 8)
      exec (.takeOver b) s = .next (s.withApp ((a3.setB (Reg.ANA_FSTAT_cal_overdue b) (a3.overdue b)).setHand b (.calibrate a3.tick (a.sliceOf b c))))) ∧
    (∀ t i (p : CalPoints), x.hand = .calibrate t i → a.since t (180 * tMs) = true →
      let a1 := ((a.calSlice b i p).setHand b .idle).set (Reg.ANA_FSTAT_float_slice b) i
      exec (.sliceCalibrationEnd b p) s = .next (s.withApp (a1.onBay b fun x => { x with stopped := x.stopped || a1.sliceFailed b i })))

/-- CAL_OVERDUE, SLICE_LOOP_RESET, SELF_CAL_COMPLETE, RANGE_CHANGE, REFERENCE_SOURCE_CHANGE, DEC_CHANGE_EDGE,
INTEGRATOR_SETTLE_END, HOUSEKEEPING_DUE, REF_SETTLED and AUX_CONVERSION_END (R116 to R118, R123, R133, R138, R141, R142, R156,
R171). -/
def Obligations.AnalogEventsAct : Prop :=
  ∀ (s : State), s.app.life.boot ≠ .held →
    let a := s.app
    (∀ b : Fin 4, exec (.calOverdue b) s = .next (s.withApp (a.setB (Reg.ANA_FSTAT_cal_overdue b) (a.overdue b)))) ∧
    (∀ (b : Fin 4) (i : Fin 9), exec (.sliceLoopReset b i) s = .next (s.withApp
      ((a.satAdd (Reg.ANA_FSTAT_loop_resets b) 1).onBay b fun x => { x with loopAt := vput x.loopAt i (some a.tick) }))) ∧
    (∀ (points : Vector CalPoints 36) (t : Nat), a.ana.calRun = some t → a.since t (405 * tMs) = true → a.ana.calCmd = none →
      let a1 := (upto 36).foldl (fun a i => a.calSlice (i / 9) (i % 9) (vat points i)) a
      let a2 := (upto 4).foldl App.afterCal { a1 with ana := { a1.ana with calRun := none, calCmd := none } }
      exec (.selfCalComplete points) s = .next (s.withApp
        ((upto 2).foldl (fun a e => if a.get (Reg.SLU_STAT_state e) = 1 then a.set (Reg.SLU_STAT_state e) 0 else a) a2))) ∧
    (∀ (b : Fin 4) (c : Fin 8), let r := bitOf (a.get (Reg.ANA_CHCFG_ch b)) (2 * c + 1)
      vat (vat a.ana.bays b).rangeNow c ≠ r →
      exec (.rangeChange b c) s = .next (s.withApp (((a.handDisturb b).onBay b fun x =>
        { x with rangeNow := vput x.rangeNow c r, rangeAt := vput x.rangeAt c (some (a.handDisturb b).tick) }).intRestart b c))) ∧
    (∀ b : Fin 4, let r := bitsOf (a.get Reg.ANA_REFCFG_src) (2 * b) 2
      (vat a.ana.bays b).srcNow ≠ r →
      exec (.referenceSourceChange b) s = .next (s.withApp ((a.handDisturb b).onBay b fun x => { x with srcNow := r, refStale := true }))) ∧
    (∀ (f : List (Nat × Nat)) (t : Nat), a.ana.decPend = some (f, t) → decEdge t ≤ a.modNow →
      let a1 := { a with regs := f.foldl (fun (r : RegFile) (x : Nat × Nat) => r.set x.1 x.2) a.regs, ana := { a.ana with decPend := none } }
      let a2 := (a1.setB Reg.DEC_STAT_pending false).satAdd Reg.DEC_STAT_applied 1
      let edge := ((decEdge t : Int) + a2.modLag).toNat
      let a3 := { a2 with ana := { a2.ana with decGen := a2.ana.decGen + 1 } }.record 0x0023 (decBay f) (edge / 1000000000) (edge % 1000000000) 0
      exec .decChangeEdge s = .next (s.withApp
        ((upto 4).foldl (fun (c : App) b => (c.onBay b fun x => { x with decAt := some c.tick }).intRestartBay b) a3).setDelays)) ∧
    (∀ (b : Fin 4) (c : Fin 8), a.since (vat (vat a.ana.bays b).intAt c) (200 * tMs) = true →
      exec (.integratorSettleEnd b c) s = .next (s.withApp
        (a.set Reg.DEC_SETTLE_int_settle (putBit (a.get Reg.DEC_SETTLE_int_settle) (8 * b + c) false)))) ∧
    (a.ana.aux.hkSec ≠ a.now / 1000000000 → exec .housekeepingDue s = .next (s.withApp
      (a.onAux fun x => { x with hkDue := true, hkSec := a.now / 1000000000 }).auxNext)) ∧
    (a.on Reg.ANA_AUXSTAT_REF_SETTLED = false → a.ana.aux.refAt ≠ 0 → a.ana.aux.refAt ≤ a.tick → exec .refSettled s = .next (s.withApp
      ((a.setB Reg.ANA_AUXSTAT_REF_SETTLED true).onAux fun x =>
        { x with heldTo := none, refAt := 0
                 running := if x.heldTo.isSome then x.running.map (fun c => { c with startAt := a.tick }) else x.running }))) ∧
    (∀ (c : AuxConv) (l : List (BitVec 24)), a.ana.aux.running = some c → a.ana.aux.heldTo = none → l.length = c.slot.n →
      a.since c.startAt (convTicks c.slot.n) = true →
      exec (.auxConversionEnd l) s = .next (s.withApp ((a.auxEnd c (l.map (·.toInt))).auxGives c)))

/-- TICK_EVALUATION, PAIR_DISAGREE, ENGINE_FAULTED, ENGINE_RELOAD_END, INSTANTANEOUS_PICKUP, INSTANTANEOUS_DROPOUT,
DISTURBANCE_PICKUP, DISTURBANCE_DROPOUT, SUBSTITUTION_CHANGE and SV_FALLBACK (R188, R189, R203, R206, R207, R210). -/
def Obligations.SluiceEventsAct : Prop :=
  ∀ (s : State), s.app.life.boot ≠ .held →
    let a := s.app
    (∀ e : Fin 2, a.get (Reg.SLU_STAT_state e) = 0 → exec (.tickEvaluation e) s = .next (s.withApp (a.tickEval e))) ∧
    (∀ (n : Fin 512) (b : Nat), (upto 4).find? (fun b => dLive (a.liveDesc b n) b) = some b →
      let p := pairAt a.slu.pairs n
      let d := a.liveDesc b n
      let told := fun (v : Bool) (ev : Nat) => (a.onSlu fun x => { x with pairs := putPair x.pairs n { p with told := v } }).sluEvent n (dType d) ev
        p.stamp 0 (whereByte (dBay d) 0 2) (dGroup d) 0
      (4 < p.ticks → p.told = false → exec (.pairDisagree n) s = .next (s.withApp (told true 4))) ∧
      (p.ticks = 0 → p.told = true → exec (.pairDisagree n) s = .next (s.withApp (told false 5)))) ∧
    (∀ e : Fin 2, a.get (Reg.SLU_STAT_state e) = 0 →
      let a1 := ((a.set (Reg.SLU_STAT_state e) 2).onSlu fun x =>
        { x with eng := vput x.eng e { ({} : Engine) with reloadAt := some (a.set (Reg.SLU_STAT_state e) 2).tick } }).dropEngine e
      let a2 := a1.flagInp (0x814 + e) true e
      let a3 := ((a2.flagInp 0x816 a2.degraded e).satAdd (Reg.SLU_STAT_reloads e) 1).record 0x0031 e 0 0 0
      exec (.engineFaulted e true) s = .next (s.withApp a3) ∧
      ((∃ b, b < 4 ∧ 2 ≤ (vat (vat a.slu.eng e).bays b).ready.length) → exec (.engineFaulted e false) s = .next (s.withApp a3))) ∧
    (∀ e : Fin 2, (vat a.slu.eng e).reloadAt.isSome = true →
      let a1 := ((a.set (Reg.SLU_STAT_state e) 0).onSlu fun x =>
        { x with eng := vput x.eng e {}, elems := x.elems.filter (fun y => y.1 / 512 != e.val) }).flagInp (0x814 + e) false e
      exec (.engineReloadEnd e) s = .next (s.withApp (a1.flagInp 0x816 a1.degraded e))) ∧
    (∀ (b c : Fin 4), vat (vat a.slu.fast b).inst c = false → bitOf (a.get (Reg.SLU_FDCTL_inst_en b)) c = true →
      a.get (Reg.SLU_FDCTL_n_conf b) ≤ vat (vat a.sig.fast b).up c →
      exec (.instantaneousPickup b c) s = .next (s.withApp
        (a.fastSet b c (0x800 + 4 * b + c) true (vat (vat a.sig.fast b).upBy c) (fun f => { f with inst := vput f.inst c true })))) ∧
    (∀ (b c : Fin 4), vat (vat a.slu.fast b).inst c = true → a.get (Reg.SLU_FDCTL_dd b) ≤ vat (vat a.sig.fast b).down c →
      exec (.instantaneousDropout b c) s = .next (s.withApp
        (a.fastSet b c (0x800 + 4 * b + c) false (vat (vat a.sig.fast b).downBy c) (fun f => { f with inst := vput f.inst c false })))) ∧
    (∀ (b : Fin 4), a.on (Reg.SLU_FDCTL_dist_en b) = true → (vat a.slu.fast b).dist = false →
      a.get (Reg.SLU_FDCTL_n_conf b) ≤ (vat a.sig.fast b).distUp →
      exec (.disturbancePickup b) s = .next (s.withApp
        (a.fastSet b 0 (0x810 + b) true (vat a.sig.fast b).distUpBy
          (fun f => { f with dist := true, distAt := some (a.fastStamp b 0 (vat a.sig.fast b).distUpBy).w64 })))) ∧
    (∀ (b : Fin 4), (vat a.slu.fast b).dist = true → a.get (Reg.SLU_FDCTL_dd b) ≤ (vat a.sig.fast b).distDown →
      exec (.disturbanceDropout b) s = .next (s.withApp
        (a.fastSet b 0 (0x810 + b) false (vat a.sig.fast b).distDownBy (fun f => { f with dist := false })))) ∧
    (∀ (b : Fin 4) (v lost : Bool) (n : Nat), (vat a.slu.sub b).pending = some (v, lost, n) →
      exec (.substitutionChange b) s = .next (s.withApp
        (if n < (vat a.clk b).tickNo then (if lost = true then (a.setSub b v).setB (Reg.SLU_BAY_sv_lost b) true else a.setSub b v) else a))) ∧
    (∀ b : Fin 4, a.on (Reg.SLU_BAY_sub_active b) = true → a.svSilent b = true → (vat a.slu.sub b).pending = none →
      exec (.svFallback b) s = .next (s.withApp
        (if a.on (Reg.SLU_BAY_sub_fallback b) = true then
          a.onSlu fun x => { x with sub := vup x.sub b (fun z => { z with pending := some (false, true, (vat a.clk b).tickNo) }) }
         else a)))

/-- TRIP_OVERLOAD, SEAL_IN_RELEASE, SEAL_TIMEOUT, TRIP_LOGIC_SILENT, TRIP_LOGIC_RETURN, TCS_MEASUREMENT, TCS_DIAGNOSIS, MATRIX_SCAN,
BREAKER_EXECUTION, BREAKER_OUTPUT_END, OP_TIMEOUT and ONSET_SEARCH_END (R23, R249, R252, R253, R255, R258, R261, R263, R264, R266). -/
def Obligations.TripEventsAct : Prop :=
  (∀ (s : State) (n : Fin 8),
    let a := s.app
    let c := vat a.trp.ch n
    (∀ t, c.hotAt = some t → a.on (Reg.TRP_CHSTAT_on n) = true → a.since t (200 * tMs) = true →
      exec (.tripOverload n) s = .next (s.withApp ((a.chOpen n).onCh n fun c => { c with overload := true }))) ∧
    ((c.hotAt = none ∨ a.on (Reg.TRP_CHSTAT_on n) = false ∨ ∃ t, c.hotAt = some t ∧ a.since t (200 * tMs) = false) →
      exec (.tripOverload n) s = .next s) ∧
    (exec (.sealInRelease n) s = .next (if a.mayOpen n = true then s.withApp (a.chOpen n) else s)) ∧
    (exec (.sealTimeout n) s = .next (if a.on (Reg.TRP_CHSTAT_on n) = true ∧ c.row = false ∧ a.on (Reg.TRP_CHCFG_seal_en n) = true ∧ a.lowFor n = false ∧
          a.since c.onAt (a.get (Reg.TRP_CHTIM_t_min n) * tMs) = true ∧ a.since c.offAt (a.get (Reg.TRP_CHTIM_seal_max n) * 100 * tMs) = true then
        s.withApp ((a.chOpen n).raise (Reg.TRP_CHSTAT_seal_timeout n)) else s)) ∧
    (exec (.tripLogicSilent n) s = .next (if c.logicUp = true then
        s.withApp (((a.onCh n fun c => { c with logicUp := false }).setB (Reg.TRP_CHSTAT_silent n) true).chRow n false) else s)) ∧
    (∀ (i tsp : W32) (v : W16),
      ((∃ t, c.measAt = some t ∧ a.since t tMs = false) → exec (.tcsMeasurement n i tsp v) s = .next s) ∧
      (c.measAt = none ∨ (∃ t, c.measAt = some t ∧ a.since t tMs = true) →
        let cur := min i.toNat 10000000
        let low := cur < 100000
        let test := fun c : TripCh => a.on (Reg.TRP_CHSTAT_on n) && !c.tested && a.since c.onAt (2 * tMs)
        let a1 := a.onCh n fun c =>
          { c with measAt := some a.tick, tspLost := decide (tsp.toNat < 16000)
                   lowAt := if low then (if c.lowAt.isSome then c.lowAt else some a.tick) else none
                   hotAt := if 4400000 < cur then (if c.hotAt.isSome then c.hotAt else some a.tick) else none
                   tested := c.tested || test c, noCurrent := if test c then decide low else c.noCurrent }
        let a2 := ((a1.setB (Reg.TRP_CHSTAT_current n) (!decide low)).set (Reg.TRP_CHSTAT_i_out n) (min 65535 (cur / 1000))).set
          (Reg.TRP_CHSTAT_v_sw n) (min 255 v.toNat)
        let a3 := a2.setInp (0x898 + n) (!decide low)
        let d := a3.tcsCond n cur v.toNat tsp.toNat
        let a4 := a3.onCh n fun c => { c with cond := d, condAt := if c.cond = d then c.condAt else a3.tick }
        let a5 := if tsp.toNat < 16000 ∧ a4.on (Reg.TRP_CHSTAT_on n) = true then a4.chOpen n else a4
        exec (.tcsMeasurement n i tsp v) s = .next (s.withApp
          (if d = 0 then a5.tcsReport n 0 false else if d = 6 ∨ d = 7 then a5.tcsReport n d true else a5))))) ∧
  (∀ (s : State), s.app.life.boot = .held →
    (∀ n : Fin 8, exec (.tripLogicReturn n) s = .next s ∧ exec (.tcsDiagnosis n) s = .next s) ∧ exec .matrixScan s = .next s ∧
    ∀ b : Fin 4, exec (.breakerExecution b) s = .next s ∧ exec (.breakerOutputEnd b) s = .next s ∧ exec (.opTimeout b) s = .next s ∧
      exec (.onsetSearchEnd b) s = .next s) ∧
  (∀ (s : State), s.app.life.boot ≠ .held →
    let a := s.app
    (∀ n : Fin 8, exec (.tripLogicReturn n) s = .next (s.withApp (a.onCh n fun c => { c with logicUp := true }))) ∧
    (∀ n : Fin 8,
      let c := vat a.trp.ch n
      let t := a.get (Reg.TRP_CHTIM_tcs_time n) * 100 * tMs
      let long := a.since c.condAt (max t (2 * a.get (Reg.TRP_CHTIM_seal_max n) * 100 * tMs))
      exec (.tcsDiagnosis n) s = .next (if 1 ≤ c.cond ∧ c.cond ≤ 5 ∧ a.since c.condAt t = true then
          s.withApp (a.tcsReport n c.cond (c.cond != 4 || long)) else s)) ∧
    exec .matrixScan s = .next (if a.since a.trp.scanAt tUs = true then s.withApp a.scan else s) ∧
    (∀ b : Fin 4, vat a.trp.ops b = none →
      exec (.breakerExecution b) s = .next s ∧ exec (.breakerOutputEnd b) s = .next s ∧ exec (.opTimeout b) s = .next s ∧
        exec (.onsetSearchEnd b) s = .next s) ∧
    (∀ (b : Fin 4) (o : BrkOp), vat a.trp.ops b = some o →
      (∀ t, o.phase = .fired t none → exec (.breakerExecution b) s =
        .next (if a.since t (o.fine / 4) = true then s.withApp (a.brkExecute b) else s)) ∧
      (∀ t q, o.phase = .fired t (some q) → exec (.breakerExecution b) s = .next (s.withApp
        (if a.on (Reg.TRP_BKCFG_pow_fallback b) = true then (a.onOp b fun o => { o with powLost := true }).brkExecute b
         else a.brkEnd b o 3 q))) ∧
      ((∀ t q, o.phase ≠ .fired t q) → exec (.breakerExecution b) s = .next s) ∧
      ((∀ t, o.phase ≠ .done t) → exec (.breakerOutputEnd b) s = .next s ∧ exec (.opTimeout b) s = .next s ∧
        exec (.onsetSearchEnd b) s = .next s) ∧
      (∀ t, o.phase = .done t →
        (o.out = true → (a.since t (a.get (Reg.TRP_BKTIM_pulse_ms b) * 2 * tMs) = true ∨ ∃ u, o.shownAt = some u ∧ a.since u (20 * tMs) = true) →
          exec (.breakerOutputEnd b) s = .next (s.withApp
            (((a.onOp b fun o => { o with out := false }).setInp (0x880 + 4 * b + o.open_.toNat) false).brkSettle b))) ∧
        (o.out = false ∨ (a.since t (a.get (Reg.TRP_BKTIM_pulse_ms b) * 2 * tMs) = false ∧ ∀ u, o.shownAt = some u → a.since u (20 * tMs) = false) →
          exec (.breakerOutputEnd b) s = .next s) ∧
        exec (.opTimeout b) s = .next (if a.get (Reg.TRP_BKTIM_pos_idx b) ≠ 0xFFF ∧ o.shownAt = none ∧ o.failed = false ∧
            a.since t (a.get (Reg.TRP_BKTIM_op_timeout b) * tMs) = true then
          s.withApp (((a.onOp b fun o => { o with failed := true }).setInp (0x883 + 4 * b) true).brkSettle b) else s) ∧
        (o.onset ≠ none → exec (.onsetSearchEnd b) s = .next s) ∧
        (∀ x, o.onset = none → a.onsetOf b o = some x →
          exec (.onsetSearchEnd b) s = .next (s.withApp ((a.onOp b fun o => { o with onset := some (some x) }).brkSettle b))) ∧
        (o.onset = none → a.onsetOf b o = none → exec (.onsetSearchEnd b) s =
          .next (if a.since t (5000 + a.get (Reg.TRP_BKTIM_op_timeout b) * tMs) = true then
            s.withApp ((a.onOp b fun o => { o with onset := some none }).brkSettle b) else s)))))

/-- R253, R254, the latch of R252, and the lost TSP of R23. -/
def Obligations.TripChannelFollowsRow : Prop :=
  ∀ (a : App) (n : Nat), n < 8 →
    let on := fun (b : App) => b.get (Reg.TRP_CHSTAT_on n)
    let ops := fun (b : App) => b.get (Reg.TRP_CHCNT_ops n)
    let ch := fun (b : App) => vat b.trp.ch n
    (on a = 0 → (ch a).overload = false → (ch a).tspLost = false →
      on (a.chRow n true) = 1 ∧ ops (a.chRow n true) = (ops a + 1) % 2 ^ 32 ∧ (ch (a.chRow n true)).onAt = a.tick) ∧
    (on a = 0 → (ch a).overload = true ∨ (ch a).tspLost = true → ∀ r, on (a.chRow n r) = 0 ∧ ops (a.chRow n r) = ops a) ∧
    (on a = 1 → a.since (ch a).onAt (a.get (Reg.TRP_CHTIM_t_min n) * tMs) = false → ∀ r,
      on (a.chRow n r) = 1 ∧ ops (a.chRow n r) = ops a ∧ (ch (a.chRow n r)).onAt = (ch a).onAt) ∧
    (on a = 1 → a.on (Reg.TRP_CHCFG_seal_en n) = true → a.lowFor n = false → ∀ r,
      on (a.chRow n r) = 1 ∧ ops (a.chRow n r) = ops a ∧ (ch (a.chRow n r)).onAt = (ch a).onAt) ∧
    (on a = 1 → on (a.chRow n true) = 1 ∧ ops (a.chRow n true) = ops a ∧ (ch (a.chRow n true)).onAt = (ch a).onAt) ∧
    (on a = 1 → a.since (ch a).onAt (a.get (Reg.TRP_CHTIM_t_min n) * tMs) = true →
      (a.on (Reg.TRP_CHCFG_seal_en n) = false ∨ a.lowFor n = true) → on (a.chRow n false) = 0 ∧ ops (a.chRow n false) = ops a)

/-- FRAME_RELEASE, TRIGGER_FIRE, GROUP_MESSAGE_RX, GROUP_MESSAGE_REPEAT and OWNERSHIP_EXPIRY (R276, R277, R281, R283, R289 to R291, R495). -/
def Obligations.CaptureEventsAct : Prop :=
  ∀ (s : State), s.app.life.boot ≠ .held →
    let a := s.app
    (∀ (number : W64) (descs : Vector (List StreamDesc) 8),
      let ds := fun i => vat descs i
      let b := (upto 8).foldl (fun a i => a.subClose i (ds i)) a
      (b.nextFrame = none → exec (.frameRelease number descs) s = .next (s.withApp b)) ∧
      (∀ r, b.nextFrame = some r → (r.no ≠ number.toNat ∨ b.frameDue r = false) → exec (.frameRelease number descs) s = .next (s.withApp b)) ∧
      (∀ r, b.nextFrame = some r → r.no = number.toNat → b.frameDue r = true →
        let f : CapFrame := { no := r.no, t := r.t16, tq := r.tq, tsc := r.tsc, navg := r.navg, bay := r.words.toList, cis := b.cisWords r
                              dig := (upto 64).map (b.digWord r) }
        let go := fun x : App => s.withApp ((upto 8).foldl (fun a i =>
          if (vat a.cap.subs i).on then (a.subFirst i f).subFrame i f (ds i) else a)
          ((x.access .capture .dram 384).onCap fun c => { c with last := some r.per, tsc := r.tsc, gen := r.gen }))
        (b.cap.last = none → exec (.frameRelease number descs) s = .next (go b)) ∧
        (∀ l, b.cap.last = some l → b.cap.gen = r.gen → b.cap.tsc = r.tsc → l + r.navg = r.per →
          exec (.frameRelease number descs) s = .next (go b)) ∧
        (∀ l, b.cap.last = some l → b.cap.gen = r.gen → b.cap.tsc = r.tsc → l + r.navg ≠ r.per →
          exec (.frameRelease number descs) s = .next (go (b.breakBlocks ds))) ∧
        (∀ l, b.cap.last = some l → b.cap.gen ≠ r.gen → b.cap.tsc = r.tsc →
          exec (.frameRelease number descs) s = .next (go ((b.breakBlocks ds).markAll 6 f))) ∧
        (∀ l, b.cap.last = some l → b.cap.gen = r.gen → b.cap.tsc ≠ r.tsc →
          exec (.frameRelease number descs) s = .next (go ((b.breakBlocks ds).markAll 8 f))) ∧
        (∀ l, b.cap.last = some l → b.cap.gen ≠ r.gen → b.cap.tsc ≠ r.tsc →
          exec (.frameRelease number descs) s = .next (go (((b.breakBlocks ds).markAll 6 f).markAll 8 f))))) ∧
    (∀ (u : Fin 32), (vat a.sig.trig u).done = [] → exec (.triggerFire u) s = .next s) ∧
    (∀ (u : Fin 32) d rest, (vat a.sig.trig u).done = d :: rest →
      let b := a.onSig fun s => { s with trig := vup s.trig u (fun x => { x with done := rest }) }
      (a.on (Reg.CAP_TRG_CFG_gate u) = false → exec (.triggerFire u) s = .next (s.withApp (b.trigFire u d 0))) ∧
      (a.on (Reg.CAP_TRG_CFG_gate u) = true → a.inWindow u d.t = none → exec (.triggerFire u) s = .next (s.withApp b)) ∧
      (∀ q, a.on (Reg.CAP_TRG_CFG_gate u) = true → a.inWindow u d.t = some q →
        exec (.triggerFire u) s = .next (s.withApp (b.trigFire u d q)))) ∧
    (∀ d : List Byte, a.node = 0 ∨ a.groupSlot (numAt d 2 2) = none → exec (.groupMessageRx d) s = .next s) ∧
    (∀ (d : List Byte) (g : Nat), a.node ≠ 0 → a.groupSlot (numAt d 2 2) = some g →
      let node := numAt d 4 2
      let seq := BitVec.ofNat 32 (numAt d 8 4)
      let instant := numAt d 12 8
      let later := ∀ e, (vat a.cap.grp g).heard.find? (fun e => e.1 == node) = some e → laterSeq seq e.2 = true
      let valid := d.length = 32 ∧ numAt d 28 4 = crc32c (d.take 28) ∧ numAt d 1 1 = 1 ∧ node ≠ a.node ∧ later ∧ 1 ≤ numAt d 0 1 ∧ numAt d 0 1 ≤ 3
      let b0 := a.onGrp g fun x => { x with heard := heardPut x.heard node seq }
      let b := if 255 < (vat b0.cap.grp g).heard.length then b0.setB (Reg.CAP_GRPSTAT_grp_oversize g) true else b0
      (¬valid → exec (.groupMessageRx d) s = .next (s.withApp (a.satAdd (Reg.CAP_GRPSTAT_discarded g) 1))) ∧
      (valid → numAt d 0 1 = 3 → exec (.groupMessageRx d) s = .next (s.withApp ((b.satAdd (Reg.CAP_GRPSTAT_fires_rx g) 1).fireMark g instant
        (numAt d 7 1 % 16) a.tsc node (numAt d 2 2) seq.toNat))) ∧
      (valid → numAt d 0 1 ≠ 3 → (∀ t, (vat a.cap.grp g).stateAt = some t → t < instant ∨ (t = instant ∧ numAt d 0 1 = 2)) →
        exec (.groupMessageRx d) s = .next (s.withApp (b.setArmed g (numAt d 0 1 == 1) instant))) ∧
      (∀ t, valid → numAt d 0 1 ≠ 3 → (vat a.cap.grp g).stateAt = some t → (instant < t ∨ (t = instant ∧ numAt d 0 1 = 1)) →
        exec (.groupMessageRx d) s = .next (s.withApp b))) ∧
    (∀ (i : Nat) (r : Repeat),
      a.cap.repeats.findIdx? (fun r => r.kind == 1 && a.since r.at_ (if r.done = 1 then tMs else 3 * tMs)) = some i → a.cap.repeats[i]? = some r →
      let b := a.onCap fun c => { c with repeats := if r.done = 1 then c.repeats.set i { r with done := 2 } else c.repeats.eraseIdx i }
      exec .groupMessageRepeat s = .next (s.withApp (if b.pubPermit = true then b.volith r.kind r.port r.data else b))) ∧
    (∀ (o : Fin 9) w, vat a.cmd.owners o = some w → a.ownerOf o = none → exec (.ownershipExpiry o) s = .next (s.withApp (a.release o 1)))

/-- WAVEFRONT_PICKUP, QUALIFICATION, TW_RECORD_CUT, ARRIVAL_MESSAGE_RX, ARRIVAL_MESSAGE_REPEAT and REM_WAIT_EXPIRY
(R298 to R301, R305 to R307). The arrival of a flat front is a free value (log entry 58); the completion and the count here
hold for every value of it. -/
def Obligations.TravellingWaveEventsAct : Prop :=
  ∀ (s : State), s.app.life.boot ≠ .held →
    let a := s.app
    (∀ (b : Fin 4) np rest f, (vat a.sig.tw b).picks = np :: rest → np + 8 ≤ a.sig.jetCount → a.frameAt np = some f →
      ∃ t, exec (.wavefrontPickup b) s = .next t ∧
        t.app.get (Reg.CAP_TWSTAT_detections b) = min (2 ^ (Reg.CAP_TWSTAT_detections b).w - 1) (a.get (Reg.CAP_TWSTAT_detections b) + 1) ∧
        (vat t.app.sig.tw b).picks = rest ∧
        (vat t.app.tw.bays b).dets.length = (vat a.tw.bays b).dets.length + 1) ∧
    (∀ (b : Fin 4) (d : TwDet) (rest : List TwDet), (vat a.tw.bays b).dets = d :: rest →
      let stop := d.arrival + a.get (Reg.CAP_TWCFG_confirm b) * 1000000
      let took := fun (ok own : Bool) => ((a.onTwBay b fun t => { t with dets := rest }).onTw fun t =>
        { t with cuts := t.cuts.map (fun (c : TwCut) => if c.seq == d.recSeq then { c with qualified := ok, own := own } else c) }).postDetection b d ok own
      let own := (vat a.trp.execs b).any (fun e => decide (e ≤ d.arrival + 1000000) && decide (d.arrival < e + a.get (Reg.TRP_BKTIM_op_timeout b) * 1000000))
      ((vat a.slu.fast b).distAt = none → stop ≤ a.now → exec (.qualification b) s = .next (s.withApp (took false own))) ∧
      (∀ t, (vat a.slu.fast b).distAt = some t → d.arrival ≤ t → t < stop → own = true → exec (.qualification b) s = .next (s.withApp (took false true))) ∧
      (∀ t, (vat a.slu.fast b).distAt = some t → d.arrival ≤ t → t < stop → own = false →
        exec (.qualification b) s = .next (s.withApp
          (if (took true false).on (Reg.CAP_TWCFG_peer_en b) = true then
            ((((took true false).arrivalSend b d).onTwBay b fun t => { t with locals := t.locals ++ [⟨d.arrival, d.tq, d.recSeq⟩] }).pairAll b)
           else took true false)))) ∧
    (∀ (b : Fin 4) (c : TwCut),
      a.tw.cuts.find? (fun c => c.bay == b.val) = some c → c.edge ≤ a.now →
      let np := c.np.getD (a.nearestCount b c.edge)
      np + 3688 ≤ a.sig.jetCount →
      let a1 := a.onTw fun t => { t with cuts := t.cuts.erase c, recs := putTwRec t.recs (a.twRecord c np) }
      (c.cmd = none → exec (.twRecordCut b) s = .next (s.withApp a1)) ∧
      (∀ hd, c.cmd = some hd → exec (.twRecordCut b) s =
        .next (s.withApp (a1.conclude hd (.cutTwRecord 0 0) (.final Status.ok (le 4 c.seq)))))) ∧
    (∀ (d : List Byte),
      let b := numAt d 6 1 / 4 % 4
      let node := numAt d 2 2
      let seq := BitVec.ofNat 32 (numAt d 8 4)
      ((d.length ≠ 32 ∨ numAt d 28 4 ≠ crc32c (d.take 28) ∨ numAt d 0 1 ≠ 4 ∨ numAt d 1 1 ≠ 1 ∨ a.node = 0 ∨ numAt d 4 2 ≠ a.msgNode ∨
          node ≠ a.get (Reg.CAP_TWPEER_peer_node b) ∨ numAt d 6 1 % 4 ≠ a.get (Reg.CAP_TWPEER_peer_bay b) ∨
          ∃ e, (vat a.tw.bays b).heard.find? (fun e => e.1 == 4 * node + numAt d 6 1 % 4) = some e ∧ laterSeq seq e.2 = false) →
        exec (.arrivalMessageRx d) s = .next (s.withApp (a.satAdd (Reg.CAP_TWSTAT_discarded b) 1))) ∧
      (d.length = 32 → numAt d 28 4 = crc32c (d.take 28) → numAt d 0 1 = 4 → numAt d 1 1 = 1 → a.node ≠ 0 → numAt d 4 2 = a.msgNode →
        node = a.get (Reg.CAP_TWPEER_peer_node b) → numAt d 6 1 % 4 = a.get (Reg.CAP_TWPEER_peer_bay b) →
        let key := 4 * node + numAt d 6 1 % 4
        ((vat a.tw.bays b).heard.find? (fun e => e.1 == key) = none ∨
          ∃ e, (vat a.tw.bays b).heard.find? (fun e => e.1 == key) = some e ∧ laterSeq seq e.2 = true) →
        exec (.arrivalMessageRx d) s = .next (s.withApp ((a.onTwBay b fun t => { t with
          heard := heardPut t.heard key seq
          remotes := (t.remotes.filter (fun x => !a.since x.at_ (200 * tMs))) ++ [⟨numAt d 12 8, numAt d 7 1 % 16, a.tick⟩] }).pairAll b)))) ∧
    (∀ (i : Nat) (r : Repeat),
      a.cap.repeats.findIdx? (fun r => r.kind == 2 && a.since r.at_ (if r.done = 1 then tMs else 3 * tMs)) = some i → a.cap.repeats[i]? = some r →
      let b := a.onCap fun c => { c with repeats := if r.done = 1 then c.repeats.set i { r with done := 2 } else c.repeats.eraseIdx i }
      exec .arrivalMessageRepeat s = .next (s.withApp (if b.pubPermit = true then b.volith r.kind r.port r.data else b))) ∧
    (∀ (b : Fin 4) (l : LocalArr) (rest : List LocalArr), (vat a.tw.bays b).locals = l :: rest →
      l.t + a.get Reg.CAP_TWCTL_rem_wait * 1000000 ≤ a.now →
      exec (.remWaitExpiry b) s = .next (s.withApp ((a.onTwBay b fun t => { t with locals := rest }).locate b 2 false l none 0xFFFFFFFF)))

/-- SNAPSHOT_RX, CISTERN_SILENT and CIS_REQUEST_TIMEOUT (R23, R331, R333, R337, R499). -/
def Obligations.MailboxEventsAct : Prop :=
  ∀ (s : State), s.app.life.boot ≠ .held →
    let a := s.app
    (∀ (d : List Byte) (t : W64),
      (snapOk d = true → exec (.snapshotRx d t) s = .next (s.withApp (a.snapTake d t.toNat))) ∧
      (snapOk d = false → exec (.snapshotRx d t) s = .next (s.withApp (a.satAdd Reg.CIS_RXCNT_crc_errors 1)))) ∧
    (a.on Reg.CIS_STAT_silent = false → a.since a.mbox.rxAt (300 * tMs) = true →
      exec .cisternSilent s = .next (s.withApp ((a.setB Reg.CIS_STAT_silent true).postCis 0 0 1))) ∧
    (∀ q, a.mbox.reqs.find? (fun q => a.since q.at_ (2 * tS)) = some q →
      exec .cisRequestTimeout s = .next (s.withApp (a.endReq q Status.cisLost [])))

/-- SETUP_WRITE and the rows that are a write of one register: WALL_COMPARE_WRITE, ANGLE_COMPARE_WRITE, ANGLE_CLOCK_ENABLE, DEC_WRITE,
FIO_CFG_WRITE, CONTEXT_ENABLE, CONTEXT_DISABLE, ETH_TBLDATA_WRITE, CAN_TBLDATA_WRITE, EVR_RDIDX_WRITE, TRP_BKINIT_WRITE, TRP_BKLIM_WRITE,
PROTECTION_STATE_WRITE, OUTPUT_ENABLE_WRITE, HCX_ROLE_WRITE and PAR_UPG_WRITE (R16, R461, R571). -/
def Obligations.SetupWritesAct : Prop :=
  ∀ (s : State) (k : Fin 8), s.app.life.boot ≠ .held →
    let a := s.app
    let writes := fun (i : Instr) (o w v : Nat) =>
      (∀ reason, a.writeReason k o w v = some reason → exec i s = .next (s.withApp (a.refuse k o v w reason))) ∧
      (∀ r, a.writeReason k o w v = none → regAt o = some r →
        let b := if (a.changes o v r covered && a.mirrors) = true then a.linkSend 6 (a.setupBytes o w v) else a
        (a.defers o = none → exec i s = .next (s.withApp (b.putSetup k o v).takeOff)) ∧
        (∀ n u, a.defers o = some (n, u) → exec i s = .next (s.withApp
          (b.onClk n fun c => { c with defer := vput c.defer u (vat c.defer u ++ [(k.val, o, v)]) }))))
    (∀ (o : W32) (v : W32), writes (.setupWrite k o 4 (v.setWidth 64)) o.toNat 4 v.toNat) ∧
    (∀ (o : W32) (w : Byte) (v : W64), w ≠ 4 → writes (.setupWrite k o w v) o.toNat w.toNat v.toNat) ∧
    (∀ (n : Fin 16) (v : W64), writes (.wallCompareWrite k n .target v) (0x2100 + 0x20 * n) 8 v.toNat ∧
      writes (.wallCompareWrite k n .targetNs (v.setWidth 32).toNat) (0x2108 + 0x20 * n) 4 (v.setWidth 32).toNat ∧
      writes (.wallCompareWrite k n .period v) (0x2110 + 0x20 * n) 8 v.toNat ∧
      writes (.wallCompareWrite k n .control (v.setWidth 32).toNat) (0x2118 + 0x20 * n) 4 (v.setWidth 32).toNat) ∧
    (∀ (b : Fin 4) (u : Fin 8) (v : W64), writes (.angleCompareWrite k b u .target v) (0x3040 + 0x100 * b + 0x10 * u) 8 v.toNat ∧
      writes (.angleCompareWrite k b u .period (v.setWidth 32).toNat) (0x3048 + 0x100 * b + 0x10 * u) 4 (v.setWidth 32).toNat ∧
      writes (.angleCompareWrite k b u .control (v.setWidth 32).toNat) (0x304C + 0x100 * b + 0x10 * u) 4 (v.setWidth 32).toNat) ∧
    (∀ (b : Fin 4) (v : W32), writes (.angleClockEnable k b v) (0x3000 + 0x100 * b) 4 v.toNat) ∧
    (∀ v : W32, writes (.decWrite k 4 v) 0x5000 4 v.toNat) ∧
    (∀ (b : Fin 4) (v : W32), writes (.decWrite k b.castSucc v) (0x5010 + 4 * b) 4 v.toNat) ∧
    (∀ (f : Fin 32) (v : W32), writes (.fioCfgWrite k f v) (0xB100 + 0x20 * f) 4 v.toNat) ∧
    (∀ h : W16, writes (.contextEnable k h) (0x20000 + 0x4000 * k) 4 (1 + 2 ^ 16 * h.toNat) ∧
      writes (.contextDisable k h) (0x20000 + 0x4000 * k) 4 (2 ^ 16 * h.toNat)) ∧
    (∀ v : W32, writes (.ethTbldataWrite k v) 0xE084 4 v.toNat ∧ writes (.canTbldataWrite k v) 0xF384 4 v.toNat ∧
      writes (.evrRdidxWrite k v) 0x1100C 4 v.toNat ∧ writes (.protectionStateWrite k v) 0x40 4 v.toNat ∧
      writes (.outputEnableWrite k v) 0x40 4 v.toNat) ∧
    (∀ (b : Fin 4) (v : W32), writes (.trpBkinitWrite k b false v) (0x7210 + 0x40 * b) 4 v.toNat ∧
      writes (.trpBkinitWrite k b true v) (0x7214 + 0x40 * b) 4 v.toNat ∧ writes (.trpBklimWrite k b v) (0x720C + 0x40 * b) 4 v.toNat) ∧
    (∀ (t : Fin 8) (v : W32), writes (.hcxRoleWrite k t v) (0xC000 + 4 * t) 4 v.toNat) ∧
    (∀ v : W64, writes (.parUpgWrite k v) 0x10010 8 v.toNat)

/-- LATCHED_READ, ETH_TBLDATA_READ and CAN_TBLDATA_READ (R459, R528, R563). The wrap of a table address at its end is the model's
reading (log entry 127). -/
def Obligations.SetupReadsAct : Prop :=
  ∀ (s : State) (k : Fin 8), s.app.life.boot ≠ .held →
    let a := s.app
    let read := fun (x : Nat) (c : HostCtx) => { c with readData := BitVec.ofNat 64 x }
    let plain := fun o : Nat => o ≠ ethDataAt ∧ o ≠ canDataAt
    (∀ o : W32, o.toNat % 8 = 0 → plain o.toNat → plain (o.toNat + 4) →
      exec (.latchedRead k o 8) s = .next (s.withApp (a.onCtx k (read (a.doubleword o.toNat + 2 ^ 32 * a.doubleword (o.toNat + 4)))))) ∧
    (∀ (o : W32) r, o.toNat % 4 = 0 → plain o.toNat → regAt o.toNat = some r → r.wide = false →
      exec (.latchedRead k o 4) s = .next (s.withApp (a.onCtx k (read (a.regValue o.toNat r % 2 ^ 32))))) ∧
    (∀ (o : W32) r, o.toNat % 4 = 0 → plain o.toNat → regAt o.toNat = some r → r.wide = true →
      exec (.latchedRead k o 4) s = .next (s.withApp ((a.onCtx k fun c =>
        { c with latch := some (o.toNat, BitVec.ofNat 32 (a.regValue o.toNat r / 2 ^ 32)) }).onCtx k (read (a.regValue o.toNat r % 2 ^ 32))))) ∧
    (∀ (o : W32) hi, o.toNat % 4 = 0 → 4 ≤ o.toNat → regAt o.toNat = none → (vat a.ctxs k).latch = some (o.toNat - 4, hi) →
      exec (.latchedRead k o 4) s = .next (s.withApp (a.onCtx k (read hi.toNat)))) ∧
    (∀ r, regAt 0xE084 = some r → r.wide = false →
      exec (.ethTbldataRead k) s = .next (s.withApp ((a.onCtx k (read (a.regValue 0xE084 r % 2 ^ 32))).set Reg.ETH_TBLADDR_addr
        ((a.get Reg.ETH_TBLADDR_addr + 1) % 23808)))) ∧
    (∀ r, regAt 0xF384 = some r → r.wide = false →
      exec (.canTbldataRead k) s = .next (s.withApp ((a.onCtx k (read (a.regValue 0xF384 r % 2 ^ 32))).set Reg.CAN_TBLADDR_addr
        ((a.get Reg.CAN_TBLADDR_addr + 1) % 24576))))

/-- LONG_OPERATION_STEP (R339, R341, R407, R410, R419, R497, R498). How often progress shows is the model's choice (log entry 9). -/
def Obligations.LongOperationsStep : Prop :=
  ∀ (s : State) (k : Fin 8) (l : LongOp) (d : Option (List Byte)) (more : Bool), s.app.life.boot ≠ .held → vat s.app.cmd.long k = some l →
    let a := s.app
    (l.cancel = true → exec (.longOperationStep k d more) s = .next (s.withApp (a.cancelLong l))) ∧
    (l.cancel = false →
      let l1 := { l with steps := l.steps + 1 }
      let shown := fun l1 : LongOp => if l.steps + 1 = 1 ∨ (l.steps + 1) % 64 = 0 then (a.onLong k fun _ => l1).progress l1 else a.onLong k fun _ => l1
      (∀ x, l.op = .verifyImage x → exec (.longOperationStep k d more) s = .next (s.withApp
        (if more = true then shown l1 else (shown l1).verified l1 x.toNat))) ∧
      (∀ x, l.op = .eraseSlot x → exec (.longOperationStep k d more) s = .next (s.withApp
        (if more = true then shown l1 else ((shown l1).set (Reg.slotState x.toNat) Slot.empty).endLong l1 Status.ok []))) ∧
      (∀ x n src, l.op = .loadFirmware x n src → l.buf.length < n.toNat →
        (∀ b, let l2 := { l1 with buf := (l.buf ++ b).take n.toNat }
          exec (.longOperationStep k (some b) more) s = .next (s.withApp
            (if l2.buf.length = n.toNat then ((shown l1).onLong k fun _ => l2).loaded l2 else (shown l1).onLong k fun _ => l2))) ∧
        exec (.longOperationStep k none more) s = .next (s.withApp
          ((shown l1).endLong l1 Status.buffer (le 8 0 ++ le 4 l.buf.length)))) ∧
      (∀ x n src, l.op = .loadImage x n src → l.buf.length < n.toNat → (shown l1).life.eraseLeft = 0 →
        (∀ b, let l2 := { l1 with buf := (l.buf ++ b).take n.toNat }
          exec (.longOperationStep k (some b) more) s = .next (s.withApp
            (if l2.buf.length = n.toNat then ((shown l1).onLong k fun _ => l2).loaded l2 else (shown l1).onLong k fun _ => l2))) ∧
        exec (.longOperationStep k none more) s = .next (s.withApp
          ((shown l1).endLong l1 Status.buffer (le 8 0 ++ le 4 l.buf.length)))) ∧
      (∀ n src, l.op = .skimPrepare n src → l.buf.length < n.toNat →
        let l1 := { l1 with phase := a.get Reg.CSC_SKSTAT_phase }
        (∀ b, let l2 := { l1 with buf := (l.buf ++ b).take n.toNat }
          exec (.longOperationStep k (some b) more) s = .next (s.withApp
            (if l2.buf.length = n.toNat then ((shown l1).onLong k fun _ => l2).loaded l2 else (shown l1).onLong k fun _ => l2))) ∧
        exec (.longOperationStep k none more) s = .next (s.withApp
          (((shown l1).skimLeave Status.buffer (le 8 0 ++ le 4 l.buf.length)).endSkim))) ∧
      (∀ w, l.op = .skimRollback →
        let l1 := { l1 with phase := a.get Reg.CSC_SKSTAT_phase }
        (shown l1).ctl.skim = some w → w.built = false →
        exec (.longOperationStep k d more) s = .next (s.withApp ((shown l1).buildRegion w true))))

/-- MIGRATION_PASS, SWITCH_INSTANT, SWITCH_DRAIN_END, DIRTY_TIMEOUT and ROLLBACK_WINDOW_END (R411, R414, R416 to R419, R424). -/
def Obligations.SkimEventsAct : Prop :=
  ∀ (s : State), s.app.life.boot ≠ .held →
    let a := s.app
    (a.ctl.window.isSome = true → a.inRollback = false → a.ctl.skim = none →
      exec .rollbackWindowEnd s = .next (s.withApp a.skimFinal.endSkim)) ∧
    (∀ k : SkimSt, a.ctl.skim = some k →
      (k.built = true → a.get Reg.CSC_SKSTAT_phase ≠ 3 →
        let p := ((((a.reapply k k.work).onCtl fun c => { c with skim := some { k with work := k.dirty, dirty := [] } }).satAdd
          Reg.CSC_SKSTAT_passes 1).set Reg.CSC_SKSTAT_dirty_kib (min 65535 (4 * k.dirty.length)))
        (64 < k.dirty.length → exec .migrationPass s = .next (s.withApp p)) ∧
        (k.dirty.length ≤ 64 → p.on Reg.CSC_SKSTAT_reverse = true →
          exec .migrationPass s = .next (s.withApp (if p.get Reg.CSC_SKSTAT_phase = 5 then p.armReverse else p))) ∧
        (∀ l, k.dirty.length ≤ 64 → p.on Reg.CSC_SKSTAT_reverse = false → p.skimLong = some l →
          exec .migrationPass s = .next (s.withApp ((p.set Reg.CSC_SKSTAT_phase 2).endLong l Status.ok []))) ∧
        (k.dirty.length ≤ 64 → p.on Reg.CSC_SKSTAT_reverse = false → p.skimLong = none → exec .migrationPass s = .next (s.withApp p))) ∧
      (a.get Reg.CSC_SKSTAT_phase = 2 → (k.switchCmd.isSome = true ∨ a.on Reg.CSC_SKSTAT_reverse = true) → a.get Reg.CSC_SKTSW_t_sw ≤ a.now →
        (k.behind.length ≤ 64 → exec .switchInstant s = .next (s.withApp
          ((a.onCtl fun c => { c with stopSel := true, skim := some { k with pauseAt := a.tick } }).skimPhase 3))) ∧
        (64 < k.behind.length →
          let b := a.onCtl fun c => { c with skim := some { k with putOff := some (k.putOff.getD a.tick) } }
          exec .switchInstant s = .next (s.withApp (match b.findSwitch k (b.now + 1) with
            | some t => b.set Reg.CSC_SKTSW_t_sw t
            | none => b)))) ∧
      (∀ h t, k.switchCmd = some h → k.putOff = some t → a.since t (10 * tS) = true → a.get Reg.CSC_SKSTAT_phase = 2 →
        exec .dirtyTimeout s = .next (s.withApp
          ((a.onCtl fun c => { c with skim := some { k with switchCmd := none, putOff := none } }).conclude h (.skimSwitch 0)
            (.final Status.dirty (le 4 (4 * k.behind.length)))))) ∧
      (∀ from_, a.ctl.running = some from_ → a.get Reg.CSC_SKSTAT_phase = 3 → a.drained = true →
        let tsw := a.get Reg.CSC_SKTSW_t_sw
        let new := a.img k.slot
        let reverse := a.on Reg.CSC_SKSTAT_reverse
        let a1 := a.reapply k k.behind
        let a2 := (a1.onCtl fun c => { c with journal := .skim a.runImage.fp new.fp tsw (a1.get Reg.CSC_COMMIT_commit_seq) :: c.journal }).dropAffected k.map
        let a3 := ((a2.onCtl fun c => { c with running := some k.slot, region := 1 - c.region, skim := none }).set Reg.CSC_PSTAT_slot k.slot).set
          Reg.CSC_FPRINT_fingerprint new.fp
        let a4 := (upto 64).foldl (fun b t => b.switchTask a.runImage new k.map t)
          ((upto 32).foldl (fun b f => b.switchOut k.map new.npoints f) (a3.switchForces new k.map))
        let a5 := (a4.takeAffected k.map tsw).takeCopy.onCtl fun c =>
          { c with stopSel := false, window := if reverse = true then none else some { map := k.map, slot := from_ } }
        let a6 := a5.set Reg.CSC_SKPAUSE_peak_pause (max (a5.get Reg.CSC_SKPAUSE_peak_pause) (4 * (a5.tick - k.pauseAt)))
        let a7 := (a6.set Reg.CSC_SKSTAT_phase (if reverse = true then 0 else 4)).setB Reg.CSC_SKSTAT_reverse false
        let a8 := ((a7.set Reg.CSC_SKSTAT_last 2).record 0x0044 0 0 0 0).endSkim
        (∀ h, reverse = false → k.switchCmd = some h →
          exec .switchDrainEnd s = .next (s.withApp (a7.conclude h (.skimSwitch 0) (.final Status.ok (le 8 tsw))))) ∧
        (∀ l, reverse = true → a8.skimLong = some l → exec .switchDrainEnd s = .next (s.withApp (a8.endLong l Status.ok (le 8 tsw))))))

/-- DOORBELL_FETCH, FUNCTION_LEVEL_RESET, HOT_RESET, LINK_DOWN, LINK_UP and INTERRUPT_HOLDOFF_END (R466 to R469, R474, R484, R591). -/
def Obligations.HostContextEventsAct : Prop :=
  ∀ (s : State), s.app.life.boot ≠ .held →
    let a := s.app
    (∀ (k : Fin 8) (slots : List SlotRead), a.fetchDue k = true →
      let at_ := match (vat a.ctxs k).fetchAt with
        | some t => t + (a.tick - t) / max 1 (a.pollTicks k) * a.pollTicks k
        | none => a.tick
      let b := (a.onCtx k fun c => { c with fetchAsked := false, fetchAt := some at_ }).access (.host (if k.val < 4 then 0 else 1)) .dram (64 + 64 * slots.length)
      let b1 := b.set (Reg.HCX_STAT_db_fail k) 0
      let b2 := if b1.get (Reg.HCX_STAT_state k) = 2 then b1.setCtx k 1 else b1
      exec (.doorbellFetch k none slots) s = .next (s.withApp (b.pageFailed k)) ∧
      (∀ p, exec (.doorbellFetch k (some p) slots) s = .next (s.withApp
        (((b2.takePage k p).fetchCmds k true (b2.get (Reg.HCX_POLL_hop_budget k)) slots).writeBackDue k)))) ∧
    (∀ k : Fin 8, exec (.functionLevelReset k) s = .next (s.withApp (a.ctxReset k))) ∧
    (∀ p : Fin 2, exec (.hotReset p) s = .next (s.withApp
      ((upto 4).foldl (fun b c => b.ctxReset (4 * p + c)) a))) ∧
    (∀ p : Fin 2, a.on (Reg.HCX_PORT_link_up p) = true →
      let b := (((a.setB (Reg.HCX_PORT_link_up p) false).set (Reg.HCX_PORT_speed p) 0).set (Reg.HCX_PORT_width p) 0).satAdd (Reg.HCX_PORT_link_downs p) 1
      let down := fun (a : App) (c : Nat) => if a.ctxLive (4 * p + c) then a.ctxLeave (4 * p + c) 3 else a
      exec (.linkDown p) s = .next (s.withApp ((upto 4).foldl down b))) ∧
    (∀ (p : Fin 2) (speed width : BitVec 2),
      let b := ((a.setB (Reg.HCX_PORT_link_up p) true).set (Reg.HCX_PORT_speed p) speed.toNat).set (Reg.HCX_PORT_width p) width.toNat
      let off := fun (a : App) (c : Nat) =>
        if a.get (Reg.HCX_STAT_state (4 * p + c)) = 3 then (a.setCtx (4 * p + c) 0).setB (Reg.HCX_CTL_en (4 * p + c)) false else a
      exec (.linkUp p speed width) s = .next (s.withApp ((upto 4).foldl off b))) ∧
    (∀ (k : Fin 8) (v : Fin 4) t, (vat (vat a.ctxs k).msix v).lastAt = some t → (vat (vat a.ctxs k).msix v).waiting = true →
      a.since t (a.get (Reg.HCX_CTL_holdoff k) * tUs) = true →
      exec (.interruptHoldoffEnd k v) s = .next (s.withApp (a.onCtx k fun c =>
        { c with msix := vput c.msix v { lastAt := some a.tick, waiting := false, raised := (vat (vat a.ctxs k).msix v).raised + 1 } })))

/-- DEBOUNCE_COMPLETE, SUPERVISION_DIAGNOSIS, HELD_CHANGE_TIMEOUT, CHATTER_SETTLED, STUCK_TIME, ISLAND_SILENT and
ISLAND_FRAMES_RESUMED (R430, R432, R434, R435, R437 to R439). -/
def Obligations.FieldInputEventsAct : Prop :=
  (∀ (s : State) (f : Fin 32), s.app.life.boot = .held →
    (∀ level t, exec (.debounceComplete f level t) s = .next s) ∧ (∀ n, exec (.supervisionDiagnosis f n) s = .next s) ∧
    exec (.heldChangeTimeout f) s = .next s ∧ exec (.chatterSettled f) s = .next s ∧ exec (.stuckTime f) s = .next s ∧
    exec (.islandSilent f) s = .next s ∧ exec (.islandFramesResumed f) s = .next s) ∧
  (∀ (s : State) (f : Fin 32), s.app.life.boot ≠ .held →
    let a := s.app
    let c := vat a.fio.ch f
    (∀ (level : Bool) (t : EdgeStamp),
      let idle := a.on (Reg.FIO_CFG_en f) = false ∨ c.islandOff = true ∨ (c.settleAt ≠ none ∧ a.passed c.settleAt (a.fioDeb f) = false)
      let ends := c.settleAt ≠ none ∨ a.passed c.deadWait (a.fioDeb f) = true
      let b := (a.setB (Reg.FIO_STAT_level f) level).onFio f fun x =>
        { x with settleAt := none, deadWait := if a.passed x.deadWait (a.fioDeb f) then none else x.deadWait }
      (idle ∨ (a.on (Reg.FIO_STAT_level f) = level ∧ ¬ends) → exec (.debounceComplete f level t) s = .next s) ∧
      (¬idle → a.on (Reg.FIO_STAT_level f) ≠ level → b.fioOut f = true → exec (.debounceComplete f level t) s = .next (s.withApp
        (((b.onFio f fun x => { x with shown := level, last := t }).satAdd (Reg.FIO_CNT_changes f) 1).fioShow f true))) ∧
      (¬idle → a.on (Reg.FIO_STAT_level f) ≠ level → b.fioOut f = false →
        exec (.debounceComplete f level t) s = .next (s.withApp (b.fioChange f level t))) ∧
      (¬idle → a.on (Reg.FIO_STAT_level f) = level → ends → b.fioOut f = true → exec (.debounceComplete f level t) s = .next (s.withApp
        ((b.onFio f fun x => { x with shown := level, last := t }).fioShow f true))) ∧
      (¬idle → a.on (Reg.FIO_STAT_level f) = level → ends → b.fioOut f = false → exec (.debounceComplete f level t) s = .next (s.withApp
        ((b.onFio f fun x => { x with last := t }).fioShow f true)))) ∧
    (∀ n, a.fioIn f = false ∨ a.on (Reg.FIO_CFG_class f) = false ∨ c.islandOff = true → exec (.supervisionDiagnosis f n) s = .next s) ∧
    (∀ n, a.fioIn f = true → a.on (Reg.FIO_CFG_class f) = true → c.islandOff = false →
      let b := a.set (Reg.FIO_MEAS_i_loop f) (min 255 n)
      let h := b.heldOut f n
      let at_ := fun r : Nat => h.onFio f fun x => if x.region = r then x else { x with region := r, regionAt := h.tick }
      let long := fun x : App => x.since (vat x.fio.ch f).regionAt (x.fioDiagTime f)
      (b.on (Reg.FIO_STAT_level f) = true → exec (.supervisionDiagnosis f n) s = .next (s.withApp
        (b.onFio f fun x => { x with region := 3, regionAt := b.tick }))) ∧
      (b.on (Reg.FIO_STAT_level f) = false → n < h.get (Reg.FIO_SUP_win_lo f) → exec (.supervisionDiagnosis f n) s = .next (s.withApp
        (if long (at_ 0) = true ∧ (vat (at_ 0).fio.ch f).wireBreak = false then
          (((at_ 0).onFio f fun x => { x with wireBreak := true, held := none }).fioShow f false).fioRecord f 3 n (at_ 0).edgeNow else at_ 0))) ∧
      (b.on (Reg.FIO_STAT_level f) = false → h.get (Reg.FIO_SUP_win_lo f) ≤ n → h.get (Reg.FIO_SUP_win_hi f) ≤ n →
        exec (.supervisionDiagnosis f n) s = .next (s.withApp
          (if long (at_ 2) = true ∧ (vat (at_ 2).fio.ch f).loopHigh = false then
            (((at_ 2).onFio f fun x => { x with loopHigh := true }).fioShow f false).fioRecord f 5 n (at_ 2).edgeNow else at_ 2))) ∧
      (b.on (Reg.FIO_STAT_level f) = false → h.get (Reg.FIO_SUP_win_lo f) ≤ n → n < h.get (Reg.FIO_SUP_win_hi f) →
        let x := if (vat (at_ 1).fio.ch f).held ≠ none then
          (((at_ 1).onFio f fun x => { x with held := none, shown := false }).fioShow f true).fioRoute f else at_ 1
        let w := if (vat x.fio.ch f).wireBreak = true then
          ((x.onFio f fun y => { y with wireBreak := false, shown := false }).fioShow f (vat x.fio.ch f).shown).fioRecord f 4 n x.edgeNow else x
        exec (.supervisionDiagnosis f n) s = .next (s.withApp
          (if long x = false then x else if (vat x.fio.ch f).loopHigh = true then
            ((w.onFio f fun y => { y with loopHigh := false }).fioShow f false).fioRecord f 6 n w.edgeNow else w)))) ∧
    (let b := (a.onFio f fun x => { x with held := none, wireBreak := true }).fioShow f false
     exec (.heldChangeTimeout f) s = .next (if a.passed c.held (a.fioDiagTime f) = true then
        s.withApp (if c.wireBreak = true then b else b.fioRecord f 3 (a.get (Reg.FIO_MEAS_i_loop f)) b.edgeNow) else s)) ∧
    (let b := ((a.setB (Reg.FIO_STAT_chatter f) false).fioShow f false).fioRecord f 2 c.suppressed a.edgeNow
     exec (.chatterSettled f) s = .next (if a.on (Reg.FIO_STAT_chatter f) = true ∧ a.since c.lastAt (a.get (Reg.FIO_DEB_settle f) * 100 * tMs) = true then
        s.withApp (if b.on (Reg.FIO_CFG_class f) = false ∧ c.reported ≠ b.on (Reg.FIO_STAT_level f) then b.fioReport f c.suppressed else b) else s)) ∧
    (let n := a.get (Reg.FIO_STUCK_stuck_time f)
     exec (.stuckTime f) s = .next (if a.fioIn f = true ∧ a.on (Reg.FIO_STAT_level f) = true ∧ n ≠ 0 ∧ c.stuck = false ∧ a.since c.highAt (n * tS) = true then
        s.withApp (((a.onFio f fun x => { x with stuck := true }).fioShow f false).fioRecord f 7 n a.edgeNow) else s)) ∧
    exec (.islandSilent f) s = .next (s.withApp ((a.onFio f fun x => { x with islandOff := true }).fioShow f false)) ∧
    exec (.islandFramesResumed f) s = .next (s.withApp ((a.onFio f fun x => { x with islandOff := false }).fioShow f false)))

/-- OUTPUT_DIAGNOSIS, OVERLOAD_RETRY, FIELD_SILENCE, FIELD_SILENCE_END, FIELD_SUPPLY_RISE, FS_LOW, FS_DEAD, FS_DEAD_CLEAR,
OUTPUT_SHUTDOWN_SLOT, LATCH_RELEASE and CHANNEL_REENABLE (R444, R445, R447 to R450). -/
def Obligations.FieldOutputEventsAct : Prop :=
  (∀ (s : State) (f : Fin 32),
    let a := s.app
    (∀ m : OutMeas, a.fioOut f = false ∨ (vat a.fio.ch f).islandOff = true → exec (.outputDiagnosis f m) s = .next s) ∧
    (∀ m : OutMeas, a.fioOut f = true → (vat a.fio.ch f).islandOff = false →
      let x := a.fioMeasure f m
      let c := vat x.fio.ch f
      let y := ((x.fioOverload f m.thermal c).fioExt f m.vTerm c).fioOpen f m.iOut c
      exec (.outputDiagnosis f m) s = .next (s.withApp (y.set (Reg.FIO_STAT_diag f) (y.fioDiag f))) ∧
      (let a0 := (a.set (Reg.FIO_MEAS_v_term f) (min 255 m.vTerm)).set (Reg.FIO_MEAS_i_out f) (min 65535 m.iOut)
       let on := a0.on (Reg.FIO_STAT_on f)
       let high := decide (50 ≤ m.vTerm)
       x = a0.onFio f fun c =>
         { c with limit := c.limit.step (on && m.limit) a0.tick
                  ext := c.ext.step ((!on && c.retryAt.isNone && high) || (on && !high && !m.limit)) a0.tick
                  openW := c.openW.step (on && decide (m.iOut < 5) && a0.on (Reg.FIO_CFG_open_det f)) a0.tick })) ∧
    (∀ (x : App) (c : FioCh) (thermal : Bool) (v i : Nat),
      let on := x.on (Reg.FIO_STAT_on f)
      let long := fun w : Watch => x.since w.at_ (x.fioDiagTime f)
      x.fioOverload f thermal c =
        (if on = true ∧ (thermal = true ∨ (c.limit.on = true ∧ x.since c.limit.at_ (2 * tMs) = true)) then
           ((x.onFio f fun c => { c with overload := true }).fioTrip f).fioRecord f 10 c.retries x.edgeNow
         else if c.overload = true ∧ on = true ∧ c.limit.on = false ∧ long c.limit = true then
           (x.onFio f fun c => { c with overload := false, retries := 0 }).fioRecord f 11 c.retries x.edgeNow
         else x) ∧
      x.fioExt f v c = (if c.ext.on ≠ c.extDrive ∧ long c.ext = true then
        (x.onFio f fun y => { y with extDrive := c.ext.on }).fioRecord f (if c.ext.on then 8 else 9) v x.edgeNow else x) ∧
      x.fioOpen f i c = (if c.openW.on ≠ c.openLoad ∧ long c.openW = true then
        (x.onFio f fun y => { y with openLoad := c.openW.on }).fioRecord f (if c.openW.on then 12 else 13) i x.edgeNow else x)) ∧
    exec (.overloadRetry f) s = .next (if a.passed (vat a.fio.ch f).retryAt 0 = true then
      s.withApp ((a.fioGroup (a.fioLead f)).foldl (fun b g =>
        (b.onFio g fun c => { c with retryAt := none, retries := if c.overload && b.on (Reg.FIO_STAT_cmd g) then c.retries + 1 else c.retries,
                                     limit := ⟨false, b.tick⟩ }).fioDrive g) a) else s) ∧
    exec (.fieldSilence f) s = .next (if a.fioOut f = true then s.withApp ((a.onFio f fun c => { c with silent := true }).fioDrive f) else s) ∧
    exec (.fieldSupplyRise f) s = .next (s.withApp
      ((a.onFio f fun c => { c with once := false, hold := false, retryAt := none, retries := 0, overload := false }).fioDrive f)) ∧
    exec (.outputShutdownSlot f) s = .next (s.withApp ((a.fioGroup (a.fioLead f)).foldl App.fioDrive a))) ∧
  (∀ (s : State), s.app.life.boot = .held →
    (∀ f : Fin 32, exec (.fieldSilenceEnd f) s = .next s ∧ exec (.channelReenable f) s = .next s) ∧
    ∀ p : Fin 2, (∀ low, exec (.fsLow p low) s = .next s) ∧ exec (.fsDead p) s = .next s ∧ exec (.fsDeadClear p) s = .next s ∧
      exec (.latchRelease p) s = .next s) ∧
  (∀ (s : State), s.app.life.boot ≠ .held →
    let a := s.app
    (∀ f : Fin 32, exec (.fieldSilenceEnd f) s = .next (if (vat a.fio.ch f).silent = true then
      s.withApp (((a.onFio f fun c => { c with silent := false }).fioFrame f).fioDrive f) else s)) ∧
    (∀ f : Fin 32, (vat a.fio.sup (f.val / 16)).enableAt = none → exec (.channelReenable f) s = .next s) ∧
    (∀ (f : Fin 32) t manual, (vat a.fio.sup (f.val / 16)).enableAt = some (t, manual) →
      let b := (a.fioGroup (a.fioLead f)).foldl (fun a g => (a.onFio g fun c => { c with off := false }).fioDrive g) a
      exec (.channelReenable f) s = .next (if (vat a.fio.ch f).off = true ∧ a.on (Reg.fsLatched (f.val / 16)) = false ∧
          a.since t (a.fioLead f % 16 * tMs) = true then s.withApp (b.fioRecord (a.fioLead f) 20 manual.toNat b.edgeNow) else s)) ∧
    (∀ p : Fin 2,
      (∀ low, a.on (Reg.fsLow p) = low → exec (.fsLow p low) s = .next s) ∧
      (a.on (Reg.fsLow p) = false → exec (.fsLow p true) s = .next (s.withApp ((a.setB (Reg.fsLow p) true).fsEvent p 16))) ∧
      (a.on (Reg.fsLow p) = true → exec (.fsLow p false) s = .next (s.withApp
        (((a.setB (Reg.fsLow p) false).onSup p fun x => { x with lowClearAt := a.tick }).fsEvent p 17))) ∧
      (let b := (((a.setB (Reg.fsDead p) true).setB (Reg.fsLatched p) true).satAdd (Reg.fsCount p) 1).onSup p fun x =>
          { x with deadAt := a.tick, enableAt := none }
       exec (.fsDead p) s = .next (if a.on (Reg.fsDead p) = true then s else
         s.withApp (((fsChannels p).foldl (fun a f => a.fioShow f false) b).fsEvent p 18))) ∧
      exec (.fsDeadClear p) s = .next (if a.on (Reg.fsDead p) = true then s.withApp
        ((fsChannels p).foldl (fun b f => (b.onFio f fun c => { c with deadWait := some b.tick }).fioShow f false) (a.setB (Reg.fsDead p) false)) else s) ∧
      (let b := a.setB (Reg.fsLatched p) false
       let b1 := if b.on (Reg.fsRearm p) = true then b else b.onSup p fun x => { x with enableAt := some (b.tick, false) }
       exec (.latchRelease p) s = .next (if a.on (Reg.fsLatched p) = true ∧ a.on (Reg.fsLow p) = false ∧ a.on (Reg.fsDead p) = false ∧
           a.since (vat a.fio.sup p).lowClearAt (a.get Reg.FIO_CTL_recover * 10 * tMs) = true then
         s.withApp (b1.fioPost (0x40 + p) 19 0 0 0 b1.edgeNow) else s))))

/-- SUPERVISION_FRAME, HSR_FRAME_RX, ETH_LINK_CHANGE, GOOSE_RETRANSMISSION, GOOSE_FRAME_RX, GOOSE_EXPIRY, SV_ASDU_RX, SV_STREAM_LOST
and SV_PUBLICATION (R57, R520 to R526, R532 to R538). The layout of the supervision frame and of the tags is the family's
(log entry 137). -/
def Obligations.EthernetEventsAct : Prop :=
  ∀ (s : State), s.app.life.boot ≠ .held →
    let a := s.app
    (∀ x : Fin 3, a.since (vat a.eth.pairs x).supAt (a.get (Reg.ETH_PAIR_life_check x) * 100 * tMs) = true →
      exec (.supervisionFrame x) s = .next (s.withApp
        ((a.onPair x fun y => { y with sup := (y.sup + 1) % 65536, supAt := a.tick }).ethSend 5 x [0x01, 0x15, 0x4E, 0x00, 0x01, 0x00] none
          (padTo 48 (be 2 0x88FB ++ be 2 1 ++ be 2 (vat a.eth.pairs x).sup ++ (if (x.val == 0) = true then be 1 20 else be 1 23) ++ be 1 6 ++
            a.macOf x ++ be 2 0))))) ∧
    (∀ (p : Fin 4) (src : W48) (seq : W16) (d : List Byte) (o : Option Nat) (resid : W32), a.on (Reg.ETH_PORT_en (p.val + 2)) = true →
      let x := (p.val + 2) / 2
      let out := 2 * x + (1 - (p.val + 2) % 2)
      let l := a.ddLive x (vat a.eth.pairs x).fwd
      let known := src.toNat = (a.get Reg.ETH_MAC_base + x) % 2 ^ 48 ∨ l.any (fun e => e.src == src.toNat && e.seq == seq.toNat && e.port == out) = true
      exec (.hsrFrameRx p false src seq d o resid) s = .next (s.withApp (a.satAdd (Reg.ETH_PORT_fcs_err (p.val + 2)) 1)) ∧
      (known → exec (.hsrFrameRx p true src seq d o resid) s = .next (s.withApp (a.onPair x fun y => { y with fwd := l }))) ∧
      (¬ known →
        let fwd := (if 4096 ≤ l.length then l.drop 1 else l) ++ [⟨src.toNat, seq.toNat, out, a.tick⟩]
        exec (.hsrFrameRx p true src seq d none resid) s = .next (s.withApp ((a.onPair x fun y => { y with fwd := fwd }).portSend 6 out d)) ∧
        (∀ i,
          let amount := resid.toNat + median (vat a.tim.pdelay (p.val + 2))
          exec (.hsrFrameRx p true src seq d (some i) resid) s = .next (s.withApp
            ((a.onPair x fun y => { y with added := tcKeep y.added (d.drop i) amount, fwd := fwd }).portSend 6 out
              (corrected d i (tcAmount (vat a.eth.pairs x).added (d.drop i) amount))))))) ∧
    (∀ (p : Fin 8) (link an : Bool),
      exec (.ethLinkChange p link an) s = .next (s.withApp ((a.setB (Reg.ETH_PORT_link p) link).setB (Reg.ETH_PORT_an_done p) an))) ∧
    (∀ d : Fin 128, entOn (a.pubEntry d) = true → (a.pub d).begun = true → a.pubPermit = true → (a.pub d).nextAt ≤ a.tick →
      let gap := min (2 * (a.pub d).gap) (pubT0 (a.pubEntry d))
      exec (.gooseRetransmission d) s = .next (s.withApp
        ((a.setPub d { a.pub d with sq := goNext (a.pub d).sq, gap := gap, nextAt := a.tick + gap * tMs }).pubSend d))) ∧
    (∀ f : GooseRx,
      let b := ((a.access .gooseSv .dram 64).rxTake f.head).1
      (((a.access .gooseSv .dram 64).rxTake f.head).2 = false → exec (.gooseFrameRx f) s = .next (s.withApp b)) ∧
      (((a.access .gooseSv .dram 64).rxTake f.head).2 = true → (upto 32).filter (b.cbMatches f) = [] → exec (.gooseFrameRx f) s = .next (s.withApp (b.rxDrop f.head))) ∧
      (((a.access .gooseSv .dram 64).rxTake f.head).2 = true → (upto 32).filter (b.cbMatches f) ≠ [] →
        exec (.gooseFrameRx f) s = .next (s.withApp (((upto 32).filter (b.cbMatches f)).foldl (fun x c => x.cbTake f c) b)))) ∧
    (∀ c : Fin 32, entOn (a.cbEntry c) = true → a.stat (cbAt c) = 1 → (vat a.eth.cbs c).until_ ≤ a.w64 →
      exec (.gooseExpiry c) s = .next (s.withApp (a.cbState c 2))) ∧
    (∀ f : SvRx,
      let b := ((a.access .gooseSv .dram 64).rxTake f.head).1
      let l := (upto 16).filter (fun v => headMatches (b.svSubEntry v) f.head f.appid 7 && strAt (b.svSubEntry v) 20 == f.svId)
      (((a.access .gooseSv .dram 64).rxTake f.head).2 = false → exec (.svAsduRx f) s = .next (s.withApp b)) ∧
      (((a.access .gooseSv .dram 64).rxTake f.head).2 = true → l = [] → exec (.svAsduRx f) s = .next (s.withApp (b.rxDrop f.head))) ∧
      (((a.access .gooseSv .dram 64).rxTake f.head).2 = true → l ≠ [] → exec (.svAsduRx f) s = .next (s.withApp (l.foldl (fun x v => x.svTake f v) b)))) ∧
    (∀ v : Fin 16, entOn (a.svSubEntry v) = true → a.stat (svAt v) = 1 → a.since (vat a.eth.sv v).at_ (10 * tMs) = true →
      exec (.svStreamLost v) s = .next (s.withApp (a.setStat (svAt v) 2))) ∧
    (∀ (b : Fin 4) (g : W64),
      let e := a.svPubEntry b
      let n := svAsdus e
      let ready := (a.now * svRate e / 1000000000 + 1) / n
      let sent := vat a.eth.svNext b
      let goes :=
        let x := a.onEth fun x => { x with svNext := vput x.svNext b (g.toNat + 1) }
        exec (.svPublication b g) s = .next (s.withApp
          (x.ethSendAll 4 (pubPorts e) (bytesAt e 4 6) (some (numAt e 12 2)) (x.svBody b (g.toNat * n) e (x.svWords b (svRate e) n g.toNat))))
      entOn e = true → a.pubPermit = true → 1 ≤ ready → a.svProduced b (svRate e) (g.toNat * n + n - 1) = true →
      (g.toNat = sent → sent < ready → ready ≤ sent + svRate e / n → goes) ∧
      (g.toNat = ready - 1 → sent + svRate e / n < ready ∨ ready + svRate e / n < sent → goes))

/-- DMA_TAIL_ADVANCE, DMA_BURST, DMA_CONFIRMATION_READ, DMA_ABORT and DMA_RESTART (R504 to R506, R514 to R516). The size of a ring
is the model's reading (log entry 132). -/
def Obligations.DmaEventsAct : Prop :=
  ∀ (s : State), s.app.life.boot ≠ .held →
    let a := s.app
    (∀ (c : Fin 16) (slots : List (List Byte)) (k : Option (Fin 8)),
      let new := (slots.take (dmaSlots - ((a.dmaCh c).tail - (a.dmaCh c).head))).map (padTo 32)
      exec (.dmaTailAdvance c slots k) s = .next (s.withApp ((a.onDma c fun x =>
        { (new.foldl (fun (y : DmaCh) d => { y.put y.tail d with tail := y.tail + 1 }) x) with
          forCtx := match k with
            | some k => some k.val
            | none => x.forCtx }).dmaShow c))) ∧
    (∀ (io : BurstIo) c, a.dmaPick = some c →
      let b := a.dmaSkip c dmaSlots
      (b.dmaWork c = false → exec (.dmaBurst io) s = .next (s.withApp (b.dmaShow c))) ∧
      (b.dmaWork c = true → exec (.dmaBurst io) s = .next (s.withApp
        (((({ b with dma := { b.dma with last := vput b.dma.last (a.get (Reg.DMA_CHCFG_prio c)) c } } : App)).dmaStep c io).dmaShow c)))) ∧
    (∀ (c : Fin 16) (ok : Bool), (a.dmaCh c).confirm = true →
      let x := a.dmaCh c
      let b := a.dmaBack c (if (ok && !a.sideDown (dDst (x.slot x.head))) = true then 0 else 3) 0
      (x.abort = false → exec (.dmaConfirmationRead c ok) s = .next (s.withApp (b.dmaShow c))) ∧
      (x.abort = true → exec (.dmaConfirmationRead c ok) s = .next (s.withApp (b.dmaHalt c)))) ∧
    (∀ c : Fin 16, (a.dmaCh c).halted = false →
      let x := a.dmaCh c
      (x.confirm = true → exec (.dmaAbort c) s = .next (s.withApp (a.onDma c fun x => { x with abort := true }))) ∧
      (x.confirm = false → x.pos = 0 → exec (.dmaAbort c) s = .next (s.withApp (a.dmaHalt c))) ∧
      (x.confirm = false → x.pos ≠ 0 → exec (.dmaAbort c) s = .next (s.withApp ((a.dmaBack c 2 (dCount (x.slot x.head) - x.pos)).dmaHalt c)))) ∧
    (∀ c : Fin 16, (a.dmaCh c).halted = true →
      exec (.dmaRestart c) s = .next (s.withApp ((a.onDma c fun x => { x with halted := false }).dmaShow c)))

/-- CAN_WINDOW_START, CAN_WINDOW_END, CAN_CORRELATION, CAN_BLOCK_FLUSH and BUS_OFF_RECOVERY (R546, R550, R551, R553, R559, R561). -/
def Obligations.CanScheduleEventsAct : Prop :=
  ∀ (s : State), s.app.life.boot ≠ .held →
    let a := s.app
    (∀ (b : Fin 10) (idle : Bool) t j o more, (a.bus b).startAt = some t → a.canColumns b (a.bus b).next = (j, o) :: more →
      a.on (Reg.CAN_CFG_en b) = true → a.on (Reg.CAN_CFG_sched_en b) = true → a.since t o = true →
      exec (.canWindowStart b idle) s = .next (s.withApp (a.canOpen b j (more.head?.map (fun m => t + m.2)) idle))) ∧
    (∀ (b : Fin 10) w e, (a.bus b).win = some w → w.endAt = some e → e ≤ a.tick →
      exec (.canWindowEnd b) s = .next (s.withApp (a.canClose b))) ∧
    exec .canCorrelation s = .next (s.withApp ((upto 12).foldl App.canLatchPair a)) ∧
    (∀ (n : Fin 4) (descs : List StreamDesc),
      let x := vat a.can.sub n
      let b := if (x.recs != [] && a.since x.at_ (a.get (Reg.CAN_SUB_flush n) * tMs)) = true then a.canBlockEnd n else a
      ((vat b.can.sub n).ready = [] → exec (.canBlockFlush n descs) s = .next (s.withApp b)) ∧
      (∀ p recs more, (vat b.can.sub n).ready = (p, recs) :: more →
        let w := b.streamWrite (4 * b.get (Reg.CAN_SUB_port n) + b.get (Reg.CAN_SUB_ctx n)) (b.get (Reg.CAN_SUB_ring n))
          (vat b.can.sub n).seq.toNat (b.canBlockBytes n p recs) descs
        (w.2 = true → exec (.canBlockFlush n descs) s = .next (s.withApp
          (w.1.onCanSub n fun x => { x with ready := more, seq := x.seq + 1, first := false, dropped := 0 }))) ∧
        (w.2 = false → exec (.canBlockFlush n descs) s = .next (s.withApp
          ((w.1.onCanSub n fun x => { x with ready := more, dropped := x.dropped + recs.length }).satAdd (Reg.CAN_SUBSTAT_dropped n) recs.length))))) ∧
    (∀ b : Fin 12, a.get (Reg.CAN_STAT_state b) = 2 →
      let c := (((a.set (Reg.CAN_STAT_tec b) 0).set (Reg.CAN_STAT_rec b) 0).set (Reg.CAN_STAT_state b) 0).satAdd (Reg.CAN_MISC_recoveries b) 1
      exec (.busOffRecovery b) s = .next (s.withApp
        (c.canBusRec b 3 (c.tick % 2 ^ 32) (0 + 256 * 2 + 65536 * c.get (Reg.CAN_MISC_recoveries b)))))

/-- CAN_MESSAGE_TRANSMIT, CAN_RX_TIMEOUT, CAN_FRAME_SENT, CAN_ERROR_DETECTED and CAN_FRAME_RECEIVED (R546 to R548, R554 to R556, R558).
The increments of the error counters are those of ISO 11898-1, which R546 names. -/
def Obligations.CanTrafficEventsAct : Prop :=
  ∀ (s : State), s.app.life.boot ≠ .held →
    let a := s.app
    (∀ (b : Fin 2) t,
      let n := 10 + b.val
      t ∈ (a.bus n).pend → (∀ u ∈ (a.bus n).pend, u ≠ t → a.canKey n t < a.canKey n u) →
      a.on (Reg.CAN_CFG_en n) = true → (a.bus n).cur = none →
      let c := a.onBus n fun x => { x with pend := x.pend.filter (fun y => y.obj != t.obj) }
      (a.canLimited n = true → exec (.canMessageTransmit b true) s = .next (s.withApp (c.satAdd (Reg.CAN_STAT_blocked n) 1))) ∧
      (a.canLimited n = false → a.canUp n = true →
        exec (.canMessageTransmit b true) s = .next (s.withApp ((c.onBus n fun x => { x with due := some t }).canGo n)))) ∧
    (∀ (b : Fin 2) (o : Fin 100),
      let n := 10 + b.val
      let e := a.canObj n o
      coOn e = true → coTx e = false → 0 < coRxTo e → bitsOf (a.canStat n o) 24 2 = 1 → a.since (a.canObjSt n o).at_ (coRxTo e * 10 * tMs) = true →
      exec (.canRxTimeout b o) s = .next (s.withApp ((a.canState n o 2).qualWriter 4 (canWriter n o) (qualOld 1)))) ∧
    (∀ (b : Fin 12) (ts : W32) t, (a.bus b).cur = some t →
      let e := a.canObj b t.obj
      let tec := a.get (Reg.CAN_STAT_tec b)
      let rec_ := a.get (Reg.CAN_STAT_rec b)
      let passive := a.get (Reg.CAN_STAT_state b) == 1
      let c := a.onBus b fun x => { x with cur := none }
      exec (.canFrameSent b ts .sent) s = .next (s.withApp
        (((((c.canFrameRec b 1 ts.toNat (canIdWord (coId e) (coIde e) false) (canFmt (coDlc e) (coFdf e) (coBrs e) passive) t.data).canCounters b
          ts.toNat (tec - 1) rec_).wrapAdd (Reg.CAN_CNT_tx b) 1).canCount b t.obj).canGo b)) ∧
      exec (.canFrameSent b ts .lost) s = .next (s.withApp (c.canRetry b t)) ∧
      (∀ (code : BitVec 3) (data : Bool), exec (.canFrameSent b ts (.error code data)) s = .next (s.withApp
        (((c.canError b ts.toNat code.toNat data.toNat (tec + (if code = 4#3 ∧ passive = true then 0 else 8)) rec_).canRetry b t).canGo b)))) ∧
    (∀ (b : Fin 12) (ts : W32) (code : BitVec 3) (data heavy : Bool), a.canUp b = true → 1 ≤ code.toNat → code.toNat ≤ 5 →
      exec (.canErrorDetected b ts code data heavy) s = .next (s.withApp
        ((a.canError b ts.toNat code.toNat data.toNat (a.get (Reg.CAN_STAT_tec b)) (a.get (Reg.CAN_STAT_rec b) + (if heavy = true then 8 else 1))).canGo b))) ∧
    (∀ (b : Fin 12) (f : CanRx), a.canUp b = true → (f.fdf = true → a.on (Reg.CAN_CFG_fd_en b) = true) →
      let r := a.get (Reg.CAN_STAT_rec b)
      let c := a.canFrameRec b 0 f.ts.toNat (canIdWord f.id.toNat f.ide f.rtr) (canFmt f.dlc.toNat f.fdf f.brs f.esi) f.payload
      let d := ((c.canCounters b f.ts.toNat (c.get (Reg.CAN_STAT_tec b)) (if 127 < r then 127 else r - 1)).wrapAdd (Reg.CAN_CNT_rx b) 1).access
        (.can b) .sharedSram (16 + f.payload.length)
      (f.rtr = true → exec (.canFrameReceived b f) s = .next (s.withApp (d.canGo b))) ∧
      (f.rtr = false → exec (.canFrameReceived b f) s = .next (s.withApp
        ((match (upto (canObjects b)).find? (fun o => canMatch (d.canObj b o) f) with
          | some o => d.canTake b o f
          | none => d).canGo b))))

/-- HEARTBEAT, TASK_SNAPSHOT, COMMIT_RECORD, COMMAND_JOURNAL_ENTRY, FINAL_TAG_RECORD, MIRRORED_SETUP_WRITE, EFFECT_NOTICE,
IMAGE_TRANSFER, STATE_COPY_PAGE, COPY_POINT_RECEIVED, HANDOVER, DROP and ACKNOWLEDGEMENT (R408, R565, R567, R571 to R581). The layouts
of the link are the model's (log entry 137). -/
def Obligations.PairFramesAct : Prop :=
  ∀ (s : State), s.app.life.boot ≠ .held → s.app.pairOn = true →
    let a := s.app
    let b := a.accept
    (∀ x : PeerBeat, exec (.heartbeat x) s = .next (s.withApp ((b.noteBeat x).beatRows x).canShow)) ∧
    (∀ n : W32,
      let c := a.heard.onPar fun p => { p with unacked := p.unacked.filter (fun f => decide (n.toNat < f.seq)) }
      let d := (c.releaseWaits n.toNat).handover
      (d.par.copy = none → exec (.acknowledgement n) s = .next (s.withApp d.resetIfAsked)) ∧
      (∀ x, d.par.copy = some x → (x.point.any fun s => decide (s ≤ n.toNat)) = true → exec (.acknowledgement n) s = .next (s.withApp
        (((d.onPar fun p => { p with copy := none, peerPhase := 3 }).onCtl fun y => { y with stopSel := false }).resetIfAsked)))) ∧
    (∀ c : PeerCommitRec, exec (.commitRecord c) s = .next (s.withApp
      (b.followCommit false c.task c.rel.ts.toNat (c.snapCrc, c.outCrc) (ofActs c.task c.acts)))) ∧
    (b.role = Role.standby → exec .handover s = .next (s.withApp b.takeover)) ∧
    (b.role = Role.joining → b.get Reg.PAR_STAT_phase = 2 →
      (∀ i : CopyItem, exec (.stateCopyPage i) s = .next (s.withApp (b.onPar fun p => { p with stage := p.stage ++ [i] }))) ∧
      (∀ (seq : W64) (pending : List (Fin 64 × PeerRelease)) (units : List PeerUnit),
        exec (.copyPointReceived seq pending units) s = .next (s.withApp
          (((units.foldl App.peerUnit (pending.foldl (fun y (p : Fin 64 × PeerRelease) => y.onTask p.1 fun x => { x with named := some (ofRel p.2) })
            (b.applyStage.set Reg.CSC_COMMIT_commit_seq seq.toNat))).onPar fun p => { p with tracked := [], matched := [], commits := [] }).setRole
              Role.joining 3 0)))) ∧
    (b.follows = true →
      (∀ (t : Fin 64) (r : PeerRelease) (l : List PeerPoint), exec (.taskSnapshot t r l) s = .next (s.withApp
        ((b.onTask t fun x => { x with stream := x.stream ++ [(ofRel r, l.map ofPoint)],
                                       own := x.own.filter (fun o => decide ((ofRel r).ts < o.ts)), named := none }).onPar
          fun p => { p with tracked := if p.tracked.contains t.val then p.tracked else insertNat t.val p.tracked }))) ∧
      (∀ (h : CmdHdr) (op : HostOp), op.cls ≠ .q → exec (.commandJournalEntry h op) s = .next (s.withApp (b.peerCommand h op))) ∧
      (∀ (k : Fin 8) (tag : W64) (f : PeerFinal),
        let c := b.onTags k fun l => l.map fun r =>
          if r.tag == tag then { r with final := some ⟨f.status, f.step, padTo 32 f.result, f.replayed⟩ } else r
        exec (.finalTagRecord k tag f) s = .next (s.withApp
          { c with cmd := { c.cmd with journal := c.cmd.journal.filter (fun e => !(e.hdr.ctx == k && e.hdr.tag == tag)) } })) ∧
      (∀ (o t : W32) (v : W64) r, o.toNat ≠ ethDataAt → o.toNat ≠ canDataAt → regAt o.toNat = some r →
        r.fields.any (fun f => covered (8 * o.toNat + f.lo)) = true →
        exec (.mirroredSetupWrite o t v) s = .next (s.withApp (b.putSetup 0 o.toNat v.toNat))) ∧
      (∀ t svc, exec (.effectNotice (.action t svc)) s = .next (s.withApp
        (b.onPar fun p => { p with commits := (noticeAct t svc.toNat p.commits).filter (fun c => !c.closed) }))) ∧
      (∀ k tag (t : W64) e, b.cmd.journal.find? (fun e => e.hdr.ctx == k && e.hdr.tag == tag && e.peer) = some e →
        exec (.effectNotice (.command k tag (some t))) s = .next (s.withApp (b.peerSwitch e.hdr t.toNat))) ∧
      (∀ d : List Byte,
        let c := b.onCtl fun c => { c with slots := vput c.slots b.freeSlot d, writes := vup c.writes b.freeSlot (· + 1) }
        exec (.imageTransfer (.image d)) s = .next (s.withApp (c.set (Reg.slotState b.freeSlot) (match (c.img b.freeSlot).verify c.fwVersion with
          | none => Slot.verified
          | some _ => Slot.invalid)))) ∧
      (∀ d : List Byte, mapCheck b.runImage (b.img b.freeSlot) d = none → b.cstate = 1 →
        let k : SkimSt := { map := d, slot := b.freeSlot }
        exec (.imageTransfer (.map d)) s = .next (s.withApp
          ((((((b.onCtl fun c => { c with skim := some k }).setCstate 3).buildRegion k false).set Reg.CSC_SKSTAT_phase 2).setB
            Reg.CSC_SKSTAT_reverse false).set Reg.CSC_SKSTAT_passes 0))) ∧
      exec (.drop true) s = .next (s.withApp b.resync) ∧
      exec (.drop false) s = .next (s.withApp (b.setRole Role.joining 2 0).enterCopy))

/-- HEARTBEAT_INTERVAL, STATE_COPY_PASS, COPY_POINT, TRACKING_CRITERION, ACK_TIMEOUT, PARTNER_LOST, LINK_LOST, ALIVE_LINE_FAULT,
ALV_FAULT_CLEAR, LANE_FAILURE, LANE_RESTORED, PAIR_WAIT_EXPIRY, JOINING_RETRY and UPGRADE_WINDOW_CLOSE (R564 to R584). -/
def Obligations.PairEventsAct : Prop :=
  ∀ (s : State), s.app.life.boot ≠ .held →
    let a := s.app
    let phase := a.get Reg.PAR_STAT_phase
    (a.pairOn = true → a.since a.par.beatAt (250 * tUs) = true →
      let b := if a.since a.par.hbAt a.missTicks = true then a.setB Reg.PAR_STAT_partner_seen false else a
      let x := if (b.streams && decide (8 * 2 ^ 20 < b.backlog)) = true then b.dropPartner 3 else b
      let c := x.handover
      exec .heartbeatInterval s = .next (s.withApp
        ((c.onPar fun p => { p with beatAt := c.tick }).linkOut 1 c.beatBytes))) ∧
    (a.role = Role.joining → phase = 2 → exec .stateCopyPass s = .next (s.withApp a.applyStage)) ∧
    (∀ c, a.role ≠ Role.joining → a.par.copy = some c → a.leads = true → exec .stateCopyPass s = .next (s.withApp (a.copyPass c))) ∧
    (∀ c, a.par.copy = some c → c.draining = true → c.point = none → a.leads = true → a.quiet = true →
      exec .copyPoint s = .next (s.withApp (a.copyPoint c))) ∧
    (a.role = Role.joining → phase = 3 → a.since a.par.roleAt (a.get Reg.PAR_SYNC_sync_time * 100 * tMs) = true →
      a.par.tracked.all a.par.matched.contains = true → exec .trackingCriterion s = .next (s.withApp (a.setRole Role.standby 0 0).canShow)) ∧
    (∀ f, a.par.unacked.find? (fun f => f.kind == 3 || f.kind == 4) = some f → a.streams = true →
      a.since f.at_ (a.get Reg.PAR_SYNC_ack_to * 10 * tUs) = true →
      exec .ackTimeout s = .next (s.withApp (((a.satAdd Reg.PAR_CNT_acks_late 1).dropPartner 1).resetIfAsked))) ∧
    (a.pairOn = true → a.par.peer.isSome = true → a.since a.par.rxAt (500 * tUs) = true →
      let b := a.setB Reg.PAR_STAT_partner_seen false
      let done := fun (x : App) => x.onPar fun p => { p with peer := none, upAt := none, delay := none }
      (b.role = Role.standby → a.get Reg.PAR_STAT_partner_role = Role.primary → exec (.partnerLost true) s = .next (s.withApp (done b.takeover))) ∧
      (b.role = Role.joining → 1 ≤ phase → phase ≤ 3 → exec (.partnerLost true) s = .next (s.withApp (done b.goSolo))) ∧
      (b.role = Role.primary → exec (.partnerLost true) s = .next (s.withApp (done (b.partnerGone.setRole Role.solo 0 0))))) ∧
    (a.pairOn = true → a.par.upAt.isSome = true → a.since a.par.rxAt a.missTicks = true → a.on Reg.PAR_STAT_alv_fault = false →
      let b := ((a.onPar fun p => { p with upAt := none }).satAdd Reg.PAR_CNT_link_losses 1).setB Reg.PAR_STAT_partner_seen false
      exec .linkLost s = .next (s.withApp
        (if b.role = Role.standby ∨ (b.role = Role.joining ∧ 1 ≤ phase ∧ phase ≤ 3) then (b.block 9).canShow else b))) ∧
    (a.pairOn = true → a.on Reg.PAR_STAT_alv_fault = false → a.par.upAt.isSome = true → a.since a.par.rxAt (500 * tUs) = false →
      exec .aliveLineFault s = .next (s.withApp
        (((a.setB Reg.PAR_STAT_alv_fault true).onPar fun p => { p with alvAt := a.tick }).record 0x0061 0 0 0 0))) ∧
    (a.on Reg.PAR_STAT_alv_fault = true → a.since a.par.alvAt tS = true →
      exec .alvFaultClear s = .next (s.withApp (a.setB Reg.PAR_STAT_alv_fault false))) ∧
    exec .laneFailure s = .next (s.withApp (a.setB Reg.PAR_STAT_link_degraded true)) ∧
    (let b := a.setB Reg.PAR_STAT_link_degraded false;
      exec .laneRestored s = .next (s.withApp
        (if b.role = Role.joining ∧ b.get Reg.PAR_STAT_phase = 4 ∧ b.get Reg.PAR_STAT_reason = 6 then b.setRole Role.joining 1 0 else b))) ∧
    (a.role = Role.joining → phase = 0 → a.since (max a.par.roleAt a.par.hbAt) (a.get Reg.PAR_TIM_pair_wait * 100 * tMs) = true →
      exec .pairWaitExpiry s = .next (s.withApp a.goSolo.canShow)) ∧
    (a.role = Role.joining → phase = 4 → (a.get Reg.PAR_STAT_reason < 7 ∨
        (a.get Reg.PAR_STAT_reason = 7 ∧ a.passed a.par.offOkAt tS = true) ∨ (a.get Reg.PAR_STAT_reason = 9 ∧ a.passed a.par.upAt tS = true) ∨
        (a.get Reg.PAR_STAT_reason = 8 ∧ a.since a.par.roleAt (600 * tS) = true)) →
      exec .joiningRetry s = .next (s.withApp (a.setRole Role.joining 1 0))) ∧
    (a.on Reg.PAR_STAT_window_open = true → a.get Reg.PAR_UPG_upg_end * 1000000000 ≤ a.now →
      let b := a.setB Reg.PAR_STAT_window_open false
      exec .upgradeWindowClose s = .next (s.withApp
        (if b.role = Role.standby ∧ b.get Reg.PAR_PFW_partner_fw ≠ b.fwVersion ∧ b.par.peer.all (fun p => !p.window) = true
         then (b.block 5).canShow else b)))

/-- POWER_ON_RESET, CARRIER_RESET, WATCHDOG_EXPIRY, DRAM_WIPE_END, BACKGROUND_ERASE_STEP, POWER_FAIL, FEED_LOW, HOT_SWAP_DISABLE and
SCRUB_PASS (R30, R32, R38, R39, R590 to R594, R616 to R619). How long the wipe takes is a guard of the
model (log entry 154). -/
def Obligations.ResetEventsAct : Prop :=
  (∀ (s : State),
    let a := s.app
    (a.failing = true →
      (∀ (ns : W64) (lost : Bool), exec (.powerOnReset ns lost) s = .next (s.withApp (a.onLife fun l => { l with refed := true }))) ∧
      ∀ x, exec (.carrierReset x) s = .next (s.withApp (a.onLife fun l => { l with crst := x }))) ∧
    (a.failing = false →
      (∀ (ns : W64) (lost : Bool),
        let b := a.feedBack ns.toNat lost
        (b.life.crst = false → exec (.powerOnReset ns lost) s = .next (s.withApp (b.doReset 0 0))) ∧
        (b.life.crst = true → exec (.powerOnReset ns lost) s = .next (s.withApp (b.onLife fun l => { l with boot := .held, poweredUp := true })))) ∧
      exec (.carrierReset true) s = .next (s.withApp (a.onLife fun l => { l with boot := .held, crst := true })) ∧
      (let b := a.onLife fun l => { l with crst := false, poweredUp := false };
        (b.life.power = false → exec (.carrierReset false) s = .next (s.withApp b)) ∧
        (b.life.power = true → a.life.poweredUp = true → exec (.carrierReset false) s = .next (s.withApp (b.resetNow 0))) ∧
        (b.life.power = true → a.life.poweredUp = false → exec (.carrierReset false) s = .next (s.withApp (b.resetNow 1))))) ∧
    exec .hotSwapDisable s = .next (s.withApp (a.onLife fun l => { l with hsOpen := true }))) ∧
  (∀ (s : State), s.app.life.boot ≠ .held →
    let a := s.app
    exec .watchdogExpiry s = .next (s.withApp (a.resetNow 2)) ∧
    (a.life.boot = .wiping → a.since a.life.lineAt (850 * tMs) = true →
      let b := a.onLife fun l => { l with boot := .starting }
      let c := b.setB Reg.CSC_PSTAT_ret_valid (!b.ctl.copies.isEmpty)
      exec (.dramWipeEnd none) s = .next (s.withApp c.autoStart.bootEnd) ∧
      (∀ (p : W64) n, c.life.autoSlot = some n → exec (.dramWipeEnd (some p)) s = .next (s.withApp
        (((c.set (Reg.slotState n) Slot.invalid).record 0x0040 4 (p.toNat % 2 ^ 32) (p.toNat / 2 ^ 32) 0).autoStart.bootEnd)))) ∧
    (∀ n, a.life.eraseLeft = n + 1 →
      exec .backgroundEraseStep s = .next (s.withApp
        (((a.onLife fun l => { l with eraseLeft := n }).set Reg.LCY_ERASE_done (100 - n)).setB Reg.LCY_STAT_erasing (n != 0)))) ∧
    (∀ x y v : W16, exec (.powerFail (x, y) v) s = .next (if a.failing = false ∧ v.toNat < failBelow then
      s.withApp (a.onLife fun l => { l with failAt := some a.tick, failFeeds := (x.toNat, y.toNat), refed := false }) else s)) ∧
    (∀ (f : Fin 2) (low : Bool) (bus : W16),
      let r := if f = 0 then Reg.GLB_PWR_feed_a_low else Reg.GLB_PWR_feed_b_low
      let b := a.set Reg.GLB_PWR_bus_min (min (a.get Reg.GLB_PWR_bus_min) bus.toNat)
      (b.on r ≠ low → exec (.feedLow f low bus) s = .next (s.withApp ((b.setB r low).auxUrgent (6 + f)))) ∧
      (b.on r = low → exec (.feedLow f low bus) s = .next (s.withApp b))) ∧
    (∀ m h, a.since (vat a.life.scrubAt (scrubPlace m)) (scrubEvery m) = false → exec (.scrubPass (m, h)) s = .next s) ∧
    (∀ m, a.since (vat a.life.scrubAt (scrubPlace m)) (scrubEvery m) = true →
      let b := (a.onLife fun l => { l with scrubAt := vput l.scrubAt (scrubPlace m) a.tick }).scrubReads m
      exec (.scrubPass (m, none)) s = .next (s.withApp b) ∧
      ∀ (x : EccHit) (p : W64), exec (.scrubPass (m, some (x, p))) s = .next (s.withApp
        (if scrubMeets m x = true then (b.eccHit x).record 0x0040 (eccMemory x) (p.toNat % 2 ^ 32) (p.toNat / 2 ^ 32) 0 else b))))

/-- CISTERN_PERIOD_END, CISTERN_STORE, CISTERN_SUPPLY_LOSS, CISTERN_POWER_UP, CISTERN_WATCHDOG_RESTART, SPARE_CHECK, DEMAND_INTERVAL_END and
PROFILE_INTERVAL_END (R314, R315, R318, R320 to R322, R325, R331, R335). -/
def Obligations.CisternRunsOn : Prop :=
  ∀ (s : State),
    let c := s.cis
    (c.on = false →
      (∀ (points : Vector CalPoints 9) (outage : W64) (kept : Bool),
        let held := kept || decide (outage.toNat ≤ 604800000)
        let c1 := { c with on := true, up := 0, calLeft := 3, work := c.stored, storedAt := 0, seq := 0, pos := 0
                           volts := Vector.replicate 3 [], swId := c.fwCrc
                           clock := if held then c.clock + outage.toNat else c.clockSaved, clockBad := c.clockBad || !held }
        exec (.cisternPowerUp points outage kept) s = .next (s.withCis
          ((((c1.note 1 (min 0xFFFFFFFF (outage.toNat / 1000)) false).takeSlices points).demShort false).profNote 5))) ∧
      (∀ l freq delay, exec (.cisternPeriodEnd l freq delay) s = .next s) ∧ exec .cisternStore s = .next s ∧
      (∀ ch, exec (.profileIntervalEnd ch) s = .next s) ∧ exec .demandIntervalEnd s = .next s ∧ exec .cisternSupplyLoss s = .next s ∧
      exec .cisternWatchdogRestart s = .next s ∧ ∀ zero plus, exec (.spareCheck zero plus) s = .next s) ∧
    (c.on = true →
      (∀ points outage kept, exec (.cisternPowerUp points outage kept) s = .next s) ∧
      (∀ (l : List CisInput) (freq : W32) (delay : Fin 6291457),
        let r := shiftVolts c.volts (l.take 480)
        let c1 : Cistern := { ({ c with tariff := c.tariffNow, volts := r.2 } : Cistern).measure r.1 with
          freq := freq.toNat, clock := c.clock + 100, up := c.up + 100 }
        let c2 := (c1.profNote c1.profBits).onWork fun d =>
          { d with demMs := d.demMs + 100, prof := vup d.prof 1 (fun p =>
              { p with n := p.n + 1, sums := (p.sums.zip ((c1.rms.take 3) ++ ((c1.rms.drop 4).take 3))).map (fun x => x.1 + x.2) }) }
        let mirror := r.1.map (fun x => (upto 8).map (fun i => c2.mirrorWord i (vat x.ch i)))
        let c3 : Cistern := { c2 with snap := c2.snapshot mirror (c.pos * 65536) ((c.pos + 480) * 65536 + delay), seq := c.seq + 1, pos := c.pos + 480
                                      reply := [], calLeft := c2.calLeft - 1 }
        (c.queue = [] → exec (.cisternPeriodEnd l freq delay) s = .next (s.withCis c3)) ∧
        (∀ q t, c.queue = q :: t → exec (.cisternPeriodEnd l freq delay) s = .next (s.withCis { c3 with queue := t, reply := c3.answer q }))) ∧
      exec .cisternStore s = .next (if c.storedAt + 1000 ≤ c.up then
        s.withCis { c with stored := c.work, storedAt := c.up, clockSaved := c.clock / 1000 * 1000 } else s) ∧
      (∀ ch : Fin 2,
        let len := vat c.set.profInt ch * 60000
        let p := vat c.work.prof ch
        let val := if ch = 0 then (c.work.wh.zip p.base).map (fun x => min 0xFFFFFFFF (x.1 - x.2)) else p.sums.map (fun x => x / max 1 p.n)
        let e : ProfEntry := ⟨c.bound len, p.flags ||| c.profBits, p.count % 65536, val⟩
        let q : ProfSt := { entries := (e :: p.entries).take 8192, count := p.count + 1, from_ := c.clock, base := c.work.wh }
        exec (.profileIntervalEnd ch) s = .next (if c.clock / len ≠ p.from_ / len then
          s.withCis (c.onWork fun d => { d with prof := vput d.prof ch q }) else s)) ∧
      (let len := c.set.demInt * 60000
       let next := fun (m : Nat × Nat) (e : Nat) =>
         let w := demandOf e c.work.demMs
         if !c.work.demPart && decide (m.1 < w) then (w, c.bound len) else m
       exec .demandIntervalEnd s = .next (if c.clock / len ≠ c.work.demFrom / len then
         s.withCis (c.onWork fun d =>
           { d with maxI := next d.maxI d.demAcc.1, maxE := next d.maxE d.demAcc.2, demAcc := (0, 0), demMs := 0,
                    demFrom := c.clock, demPart := false }) else s)) ∧
      exec .cisternSupplyLoss s = .next (s.withCis
        { c.note 2 0 false with on := false, stored := c.work, clockSaved := c.clock / 1000 * 1000, session := none, queue := [], reply := [],
                                optical := [], refused := false }) ∧
      exec .cisternWatchdogRestart s = .next (s.withCis (({ c with session := none } : Cistern).note 0x70 0 false)) ∧
      (∀ zero plus : Int,
        let far : Bool := decide (10000 * (zero - c.spare0.1).natAbs > 2 * rangeCode) || decide (10000 * (plus - c.spare0.2).natAbs > 2 * c.spare0.2.natAbs)
        let c' : Cistern := { c with spareAt := c.up, warn := far }
        exec (.spareCheck zero plus) s = .next (if c.spareFor = none ∧ c.spareAt + 60000 ≤ c.up then
          s.withCis (if far = c.warn then c' else c'.note 0x61 far.toNat false) else s)))

/-- SERVICE_SWITCH_HOLD, OPTICAL_READOUT, PROGRAMMING_MODE, PROGRAMMING_TIMEOUT, CALIBRATION, LEGAL_SETTING_CHANGE, REGISTER_RESET,
FIRMWARE_REPLACEMENT, CLOCK_SETTING, DEMAND_RESET and READ_REQUEST (R318, R322, R323, R326, R327, R330, R334). -/
def Obligations.CisternPortActs : Prop :=
  ∀ (s : State),
    let c := s.cis
    let programs := fun i : Instr => (∃ ch g p o, i = .calibration ch g p o) ∨ (∃ x, i = .legalSettingChange x) ∨ i = .registerReset ∨
      (∃ p sg, i = .firmwareReplacement p sg) ∨ (∃ x, i = .clockSetting x) ∨ i = .demandReset
    let denied : Cistern := { c with optical := [], refused := true, session := some c.up }
    (c.session = none → exec .programmingTimeout s = .next s) ∧
    (∀ t, c.session = some t → exec .programmingTimeout s = .next (if t + 120000 ≤ c.up then s.withCis { c with session := none } else s)) ∧
    (c.on = false → exec .serviceSwitchHold s = .next s ∧ exec .opticalReadout s = .next s ∧ (∀ x, exec (.programmingMode x) s = .next s) ∧
      (∀ i, programs i → exec i s = .next s) ∧ ∀ d, exec (.readRequest d) s = .next s) ∧
    (c.on = true →
      exec .serviceSwitchHold s = .next (s.withCis
        (({ c.profNote (64 * (!c.sealed).toNat) with sealed := !c.sealed, session := none } : Cistern).note (if c.sealed = true then 0x11 else 0x10) 0 true)) ∧
      exec .opticalReadout s = .next (s.withCis { c with optical := c.readout, refused := false }) ∧
      (∀ x : W32, exec (.programmingMode x) s = .next (s.withCis (if x.toNat = c.set.code then
        { c with optical := [], refused := false, session := some c.up } else { c with optical := [], refused := true }))) ∧
      (c.session = none → ∀ i, programs i → exec i s = .next (s.withCis { c with optical := [], refused := true })) ∧
      (c.session ≠ none →
        (∀ (ch : Fin 8) (g p o : W32), exec (.calibration ch g p o) s = .next (s.withCis
          (if c.sealed = true then denied else (({ c with cal := vput c.cal ch ⟨g, p, o⟩ } : Cistern).note 0x20 (2 ^ ch.val) true).accept))) ∧
        (∀ x : CisSetting, exec (.legalSettingChange x) s = .next (s.withCis
          (if c.sealed = false ∧ c.settingOk x = true then ((c.putSetting x).note 0x21 (settingNumber x) true).accept else denied))) ∧
        exec .registerReset s = .next (s.withCis (if c.sealed = true then denied else ((c.onWork fun d =>
          { d with energy := Vector.replicate 24 0, prof := vup d.prof 0 (fun p => { p with base := [0, 0, 0, 0] }) }).note 0x23 0 true).accept)) ∧
        (∀ (part : List Byte) (signed : Bool), exec (.firmwareReplacement part signed) s = .next (s.withCis
          (if c.sealed = false ∧ signed = true then
            (({ c with fwCrc := BitVec.ofNat 32 (crc32c part) } : Cistern).note 0x22 c.swId.toNat true).accept else denied))) ∧
        (∀ x : W32,
          let n := x.toNat + 946684800
          let d : Int := (n : Int) - (c.clock / 1000 : Nat)
          let recent := c.adjusts.filter (fun (e : Nat × Int) => decide (c.clock < e.1 + 86400000))
          let set := fun l => ((((({ c with clock := n * 1000, clockBad := false, adjusts := l } : Cistern).demShort false).profNote 3).note 0x30
            (toBits 32 d) true).accept)
          (c.sealed = false ∨ c.clockBad = true → exec (.clockSetting x) s = .next (s.withCis (set []))) ∧
          (c.sealed = true → c.clockBad = false → (recent.foldl (fun (x : Int) e => x + e.2) d).natAbs ≤ 30 →
            exec (.clockSetting x) s = .next (s.withCis
              (set ((n * 1000, d) :: recent.map (fun (e : Nat × Int) => (((e.1 : Int) + 1000 * d).toNat, e.2)))))) ∧
          (c.sealed = true → c.clockBad = false → 30 < (recent.foldl (fun (x : Int) e => x + e.2) d).natAbs →
            exec (.clockSetting x) s = .next (s.withCis (denied.note 0x31 (toBits 32 d) false)))) ∧
        (let c1 := c.onWork fun d => { d with maxI := (0, 0), maxE := (0, 0), resets := d.resets + 1 };
          exec .demandReset s = .next (s.withCis (c1.note 0x40 c1.work.resets.toNat false).accept))) ∧
      (∀ d : List Byte,
        (requestOk d = false → exec (.readRequest d) s = .next (s.withCis c.reject)) ∧
        (requestOk d = true → 8 ≤ c.queue.length → exec (.readRequest d) s = .next (s.withCis { c with reqDropped := c.reqDropped + 1 })) ∧
        (requestOk d = true → c.queue.length < 8 → exec (.readRequest d) s = .next (s.withCis
          { c with queue := c.queue ++ [⟨numAt d 1 1, numAt d 2 2, numAt d 4 4, numAt d 8 2⟩] }))))

/-- The front of the queue runs with the queue's rest (log entry 8). -/
def Obligations.StepRunsFront : Prop :=
  ∀ (c : Instr) (s : State), step { s with pending := c :: s.pending } = exec c s

/-- R40, as its pseudo-code reads; that an empty queue lets one tick pass is the model's (log entry 1). -/
def Obligations.ClockTicks : Prop :=
  ∀ (s : State), s.pending = [] →
    let a0 := { s.app with tick := s.app.tick + 1, opTicks := if s.app.life.power then s.app.opTicks + 1 else s.app.opTicks }
    let u := (a0.clocksTick.sigTick s.app.tim.edgeCount).xbarTick.portsTick
    (s.app.life.boot = .held → step s = .next (s.withApp a0)) ∧
    (s.app.life.boot ≠ .held → step s = .next (s.withApp u.bootStep.failStep) ∧ u.tick = a0.tick ∧ u.opTicks = a0.opTicks ∧
      (let w := s.app.tim.wall
       let incrInt := s.app.tim.incr.toNat / 2 ^ 32
       let incrFrac := s.app.tim.incr.toNat % 2 ^ 32
       let sum := w.frac.toNat + incrFrac
       let ns := w.ns + incrInt + sum / 2 ^ 32
       u.tim.wall.frac.toNat = sum % 2 ^ 32 ∧ u.tim.incr = s.app.tim.incr ∧
       (1000000000 ≤ ns → u.tim.wall.ns = ns - 1000000000 ∧ u.tim.wall.sec = w.sec + 1) ∧
       (ns < 1000000000 → u.tim.wall.ns = ns ∧ u.tim.wall.sec = w.sec)) ∧
      (¬ (u.life.boot = .starting ∧ u.ctl.init = none) → u.life.failAt = none → u.bootStep.failStep.tim = u.tim))

/-- No ordinary data ends a run: a command that a rule refuses answers with its status, and a guard that does not hold leaves
the state as it was (log entry 2). A held module (R591) answers nothing; the islands keep to their own supply, and the Cistern
runs on (R311). -/
def Obligations.NeverStops : Prop :=
  (∀ (c : Instr) (s : State), ∃ t, exec c s = .next t ∧ t.pending = s.pending) ∧
  (∀ (s : State), ∃ t, step s = .next t) ∧
  (∀ (c : Instr) (s : State), ¬ cisternRow c → ¬ islandRow c → s.app.life.boot = .held → exec c s = .next s)

/-- R311: no state of the application partition reaches the Cistern, which measures and stores whatever that partition does. -/
def Obligations.CisternIsolation : Prop :=
  (∀ c, ¬ cisternRow c → ∃ f : State → App, ∀ s, exec c s = .next (s.withApp (f s))) ∧
  (∀ s, s.pending = [] → ∃ a, step s = .next (s.withApp a)) ∧
  (∀ c, cisternRow c → ∃ f : Cistern → Cistern, ∀ s, exec c s = .next (s.withCis (f s.cis))) ∧
  (∀ c s t, exec c s = .next t →
    (t.cis.sealed ≠ s.cis.sealed → c = .serviceSwitchHold) ∧
    (t.cis.set ≠ s.cis.set → (∃ x, c = .legalSettingChange x) ∧ s.cis.sealed = false ∧ s.cis.session.isSome = true) ∧
    (t.cis.cal ≠ s.cis.cal → (∃ ch x y z, c = .calibration ch x y z) ∧ s.cis.sealed = false ∧ s.cis.session.isSome = true) ∧
    (t.cis.fwCrc ≠ s.cis.fwCrc → (∃ p, c = .firmwareReplacement p true) ∧ s.cis.sealed = false ∧ s.cis.session.isSome = true))

/-- The invariant of the Cistern over one step of the whole block. -/
def Obligations.CisternInvKept : Prop := ∀ s t, s.cis.Inv → step s = .next t → t.cis.Inv

/-- State.reset meets it; the settings' reset values that the spec does not give are the model's (log entry 4). -/
def Obligations.CisternInvAtReset : Prop := State.reset.cis.Inv

/-- R318's rule over the registers; the premise rules out a store that differs from the registers while the supply is off. -/
def Obligations.RegistersNeverDecrease : Prop :=
  ∀ s t, s.cis.Inv → step s = .next t →
    s.cis.regsKept t.cis ∨
    ((∃ r, s.pending = .registerReset :: r) ∧ s.cis.on = true ∧ s.cis.sealed = false ∧ s.cis.session.isSome = true ∧
      t.cis.work.energy = Vector.replicate 24 0 ∧ t.cis.audit = s.cis.audit + 1 ∧
      ∃ r l, t.cis.log = r :: l ∧ r.code = 0x23 ∧ r.audit = t.cis.audit)

/-- R327's table. That a refused command renews a session's 120 s is the model's reading of R330. -/
def Obligations.SealProtects : Prop :=
  ∀ (s : State),
    let c := s.cis
    let no := s.withCis { c with optical := [], refused := true }
    let noIn := s.withCis { c with optical := [], refused := true, session := some c.up }
    c.on = true →
    (c.session = none →
      (∀ (ch : Fin 8) (x y z : W32), exec (.calibration ch x y z) s = .next no) ∧ (∀ x, exec (.legalSettingChange x) s = .next no) ∧
      exec .registerReset s = .next no ∧ (∀ p v, exec (.firmwareReplacement p v) s = .next no) ∧
      (∀ x, exec (.clockSetting x) s = .next no) ∧ exec .demandReset s = .next no) ∧
    (c.session.isSome = true → c.sealed = true →
      (∀ (ch : Fin 8) (x y z : W32), exec (.calibration ch x y z) s = .next noIn) ∧ (∀ x, exec (.legalSettingChange x) s = .next noIn) ∧
      exec .registerReset s = .next noIn ∧ (∀ p v, exec (.firmwareReplacement p v) s = .next noIn) ∧
      (∀ x : W32, c.clockBad = false →
        let d : Int := ((x.toNat + 946684800 : Nat) : Int) - (c.clock / 1000 : Nat)
        let recent := c.adjusts.filter (fun (e : Nat × Int) => decide (c.clock < e.1 + 86400000))
        30 < (recent.foldl (fun (y : Int) e => y + e.2) d).natAbs →
        exec (.clockSetting x) s = .next (s.withCis
          (({ c with optical := [], refused := true, session := some c.up } : Cistern).note 0x31 (toBits 32 d) false)))) ∧
    exec .opticalReadout s = .next (s.withCis { c with optical := c.readout, refused := false }) ∧
    (c.session.isSome = true → ∃ t, exec .demandReset s = .next t ∧ t.app = s.app ∧ t.cis.work.maxI = (0, 0) ∧ t.cis.work.maxE = (0, 0) ∧
      t.cis.work.resets = c.work.resets + 1 ∧ t.cis.work.energy = c.work.energy ∧ t.cis.refused = false)

/-- R324's two counters, over every command. -/
def Obligations.AuditCounts : Prop :=
  ∀ c s t, exec c s = .next t →
    (t.cis.audit = s.cis.audit ∨
      (t.cis.audit = s.cis.audit + 1 ∧ s.cis.on = true ∧ (∃ r l, t.cis.log = r :: l ∧ r.audit = t.cis.audit) ∧
        (c = .serviceSwitchHold ∨
          (s.cis.session.isSome = true ∧
            ((s.cis.sealed = false ∧ ((∃ ch x y z, c = .calibration ch x y z) ∨ (∃ x, c = .legalSettingChange x) ∨ c = .registerReset ∨
              (∃ p, c = .firmwareReplacement p true))) ∨ (∃ x, c = .clockSetting x)))))) ∧
    (t.cis.rejects = s.cis.rejects ∨
      (t.cis.rejects = s.cis.rejects + 1 ∧ t.cis.audit = s.cis.audit ∧ s.cis.on = true ∧ ∃ d, c = .readRequest d ∧ requestOk d = false))

/-- State.reset is the module right after its first power-on reset with factory contents; the two records and the contents of the
stores are the model's choice (log entries 4 and 5). -/
def Obligations.ResetValues : Prop :=
  let a := State.reset.app
  let c := State.reset.cis
  (∀ f : Fld, f.bit ≠ Reg.EVR_TOTAL_n.bit → a.get f = fieldReset f.bit) ∧ a.get Reg.EVR_TOTAL_n = 2 ∧ a.life.records.map (·.2.code) = [0x0013, 0x0001] ∧
  (∀ k : Fin 8, a.get (Reg.HCX_STAT_state k) = 0) ∧ a.get Reg.LCY_STAT_state = 0 ∧ a.get Reg.PAR_STAT_role = 0 ∧
  a.tim.wall = { sec := 0, ns := 0, frac := 0 } ∧ a.tim.tq = .invalid ∧ a.tim.tsc = 0 ∧ a.tim.incr = 0x0000000400000000#64 ∧
  c.sealed = false ∧ c.clockBad = true ∧ (∀ i : Fin 24, c.work.reg i = 0) ∧ c.audit = 0 ∧ State.reset.pending = []

/-- The register file (log entry 3) and the access codes of R15 and R17 as an accepted write applies them; the byte memory of
instance data; and the table spaces behind the table registers. -/
def Obligations.StoresReadBack : Prop :=
  (∀ (a : App) (f : Fld) (v : Nat), (a.set f v).get f = v % 2 ^ f.w ∧ (a.regs.wf = true → (a.set f v).regs.wf = true) ∧
    (∀ g : Fld, g.bit ≠ f.bit → (a.set f v).get g = a.get g)) ∧
  (∀ r q : RegFile, r.wf = true → q.wf = true → (∀ b, r.get b = q.get b) → r = q) ∧
  (∀ (a : App) (o v : Nat) (r : RegDef), (r.fields.map (·.lo)).Nodup →
    (∀ f ∈ r.fields,
      let now := (a.putFields o v r).regs.get (8 * o + f.lo)
      let was := a.regs.get (8 * o + f.lo)
      ((f.acc = .rw ∨ f.acc = .rwc) → now = bitsOf v f.lo f.w) ∧
      (f.acc = .rw1c → (8 * o + f.lo, a.tick) ∉ a.raised → now = was - (was &&& bitsOf v f.lo f.w)) ∧
      (f.acc = .rw1c → (8 * o + f.lo, a.tick) ∈ a.raised → now = was) ∧
      ((f.acc = .ro ∨ f.acc = .wo) → now = was)) ∧
    (∀ b, (∀ f ∈ r.fields, b ≠ 8 * o + f.lo) → (a.putFields o v r).regs.get b = a.regs.get b)) ∧
  (∀ (m : Mem) (o : Nat) (bs : List Byte),
    (∀ i, i < bs.length → (m.write o bs).get (o + i) = bs.getD i 0) ∧
    (∀ p, p < o ∨ o + bs.length ≤ p → (m.write o bs).get p = m.get p) ∧
    (m.wf = true → (m.write o bs).wf = true)) ∧
  (∀ m n : Mem, m.wf = true → n.wf = true → (∀ o, m.get o = n.get o) → m = n) ∧
  (∀ (t : Tbl) (o v : Nat), (t.put o v).get o = v ∧ (∀ p, p ≠ o → (t.put o v).get p = t.get p) ∧ (t.wf = true → (t.put o v).wf = true))

/-- R16 and R461 over every offset, width and value. -/
def Obligations.RefusedWriteChangesNothing : Prop :=
  ∀ (s : State) (k : Fin 8) (o : W32) (w : Byte) (v : W64) (reason : Nat), s.app.life.boot ≠ .held →
    s.app.writeReason k o.toNat w.toNat (if w.toNat = 4 then v.toNat % 2 ^ 32 else v.toNat) = some reason →
    ∃ t, exec (.setupWrite k o w v) s = .next t ∧ t.cis = s.cis ∧ t.pending = s.pending ∧
      t.app = { s.app with regs := t.app.regs, raised := t.app.raised, ctxs := t.app.ctxs } ∧
      (∀ j : Fin 8, j ≠ k → vat t.app.ctxs j = vat s.app.ctxs j) ∧
      (∀ f : Fld, f.bit ≠ (Reg.HCX_CNT_refused k).bit → f.bit ≠ (Reg.HCX_RFSD_offset k).bit → f.bit ≠ (Reg.HCX_RFSD_reason k).bit →
        f.bit ≠ (Reg.HCX_RFSD_valid k).bit → t.app.get f = s.app.get f) ∧
      (s.app.on (Reg.HCX_RFSD_valid k) = false → t.app.get (Reg.HCX_RFSD_offset k) = o.toNat % 2 ^ (Reg.HCX_RFSD_offset k).w ∧
        t.app.get (Reg.HCX_RFSD_reason k) = reason % 2 ^ (Reg.HCX_RFSD_reason k).w ∧ t.app.on (Reg.HCX_RFSD_valid k) = true)

/-- R489 to R491, and R38 for the power-fail sequence, for any command `i` that is carried out as the host command `op` under the header `h`. -/
def Obligations.CommandChecks : Prop :=
  (∀ (i : Instr) (h : CmdHdr) (op : HostOp) (range : App → Option Nat) (objs : App → List Nat) (eff : App → App → App × Reply),
    (∀ s, exec i s = s.onApp fun a => a.process h op (range a) (objs a) (eff a)) →
    ∀ s, s.app.life.boot ≠ .held →
      let a := s.app
      ((a.failing && op.cls != .q) = true → exec i s = .next s) ∧
      ((a.failing && op.cls != .q) = false →
      (h.tag = 0#64 → exec i s = .next (s.withApp (a.reply h op.opcode Status.badTag 0 [] false false))) ∧
      (h.tag ≠ 0#64 → ∀ r, a.tagRec h.ctx h.tag = some r →
        (r.opcode.toNat ≠ op.opcode ∨ r.crc.toNat ≠ op.crc →
          exec i s = .next (s.withApp (a.reply h op.opcode Status.tagReused 0 (le 4 r.opcode.toNat) false false))) ∧
        (r.opcode.toNat = op.opcode → r.crc.toNat = op.crc → ∀ f, r.final = some f →
          exec i s = .next (s.withApp (a.reply h op.opcode f.status.toNat f.step.toNat f.result true f.replayed))) ∧
        (r.opcode.toNat = op.opcode → r.crc.toNat = op.crc → r.final = none →
          exec i s = .next (s.withApp (a.onTags h.ctx fun l => l.map fun q => if q.tag == h.tag then { q with links := q.links ++ [h.index] } else q)))) ∧
      (h.tag ≠ 0#64 → a.tagRec h.ctx h.tag = none → ∀ st d, a.cmdCheck h op (range a) (objs a) = some (st, d) →
        ∃ b, exec i s = .next (s.withApp b) ∧ b = { a with xbar := b.xbar, ctxs := b.ctxs, cmd := b.cmd, par := b.par, sent := b.sent } ∧
          (op.cls = .q → b = a.finish h op.opcode st 0 (le 4 d) false) ∧
          (op.cls ≠ .q →
            let kept : TagRec := { tag := h.tag, opcode := BitVec.ofNat 16 op.opcode, crc := BitVec.ofNat 32 op.crc, index := h.index }
            b = (a.keepTag h.ctx kept).finish h op.opcode st 0 (le 4 d) false)))) ∧
  (∀ (a : App) (h : CmdHdr) (op : HostOp) (range : Option Nat) (objs : List Nat),
    let servo := op.servoOnly = false ∨ (a.on Reg.TIM_CTL_servo_sel = true ∧ a.servoCtx = h.ctx)
    let role := op.roles.contains (a.get (Reg.HCX_ROLE_active_role h.ctx)) = true
    let mode := a.accepts h.ctx op = true
    (¬ servo → a.cmdCheck h op range objs = some (Status.notServo, 0)) ∧
    (servo → ¬ role → a.cmdCheck h op range objs = some (Status.role, a.get (Reg.HCX_ROLE_active_role h.ctx))) ∧
    (servo → role → ¬ mode → a.cmdCheck h op range objs = some (Status.state, a.lcy)) ∧
    (servo → role → mode → ∀ n, range = some n → a.cmdCheck h op range objs = some (Status.range, op.offsetOf n)) ∧
    (servo → role → mode → range = none →
      (a.cmdCheck h op range objs = none ↔ ∀ x ∈ objs, (a.ownerOf x).map (·.ctx) = some h.ctx.val)))

/-- The filters of R150 lose nothing to the wrap of their registers, and keep the bounds of R151. -/
def Obligations.CicIsMovingSum : Prop :=
  ∀ (k t : Nat) (x : Nat → Bool), 3 ≤ k → k ≤ 5 →
    let bit := fun n => if x n then (1 : Int) else -1
    let pool := ((Cic.feed k 64 x (64 * t + 64) : Cic 32 × Int)).2
    let jet := ((Cic.feed k 8 x (8 * t + 8) : Cic 18 × Int)).2
    pool = (movingSum 64)^[k] bit (64 * t + 63) ∧ jet = (movingSum 8)^[k] bit (8 * t + 7) ∧
    -(64 ^ k) ≤ pool ∧ pool ≤ 64 ^ k ∧ -(8 ^ k) ≤ jet ∧ jet ≤ 8 ^ k

/-- R150, R152, R160 and R294 over one tick. The bit that a modulator gives is a free value (log entry 163). -/
def Obligations.EdgeMeasures : Prop :=
  ∀ (s : State), s.pending = [] → s.app.life.boot ≠ .held →
    let a := ({ s.app with tick := s.app.tick + 1, opTicks := if s.app.life.power then s.app.opTicks + 1 else s.app.opTicks } : App).clocksTick
    let e := a.tim.edgeCount.toNat
    let bare := fun (g : Nat → Bool) (l : List PoolRow) => l.map (PoolRow.without g)
    a.tim.edgeCount ≠ s.app.tim.edgeCount →
    ∃ u : App, step s = .next (s.withApp u.xbarTick.portsTick.bootStep.failStep) ∧
      u.still = a.still ∧
      (∀ f : Fld, f.bit ∉ edgeFields → u.get f = a.get f) ∧
      (∀ i : Fin 36,
        let z := vat s.app.sig.slices i
        let pool := z.pool.clock (bitStep (Config.modBit i s.app.sig.edges))
        let jet := z.jet.clock (bitStep (Config.modBit i s.app.sig.edges))
        (vat u.sig.slices i).pool = (if e % 64 = 63 then (pool.dump (a.poolK (i / 9))).2 else pool) ∧
        (vat u.sig.slices i).jet = (if e % 8 = 7 then (jet.dump (a.jetK (i / 9))).2 else jet)) ∧
      (e % 8 = 7 → u.sig.jetCount = s.app.sig.jetCount + 1 ∧
        ∃ f : JetFrame, u.sig.ring = (f :: s.app.sig.ring).take 33554432 ∧ f.edge = a.edge16 e ∧ ∀ b : Fin 4, vat f.ang b = a.angleFx b) ∧
      (e % 8 ≠ 7 → u.sig.jetCount = s.app.sig.jetCount ∧ u.sig.ring = s.app.sig.ring) ∧
      (e % 64 = 63 ∧ (e / 64 + 1) % a.navg = 0 →
        ∃ r : PoolRow, r.no = e / 64 / a.navg ∧ r.edge = a.edge16 e ∧
          ∀ g : Nat → Bool, (∀ n, n < 4 → a.isSub n = true → g n = true) → bare g u.sig.rows = bare g ((r :: s.app.sig.rows).take 1290555)) ∧
      (¬ (e % 64 = 63 ∧ (e / 64 + 1) % a.navg = 0) →
        ∀ g : Nat → Bool, (∀ n, n < 4 → a.isSub n = true → g n = true) → bare g u.sig.rows = bare g s.app.sig.rows)
end

