-- ==== Sys2Proof/Laws/Rows.lean ====
section
/-! SUPPORT. What any row can reach, said once: the application partition while it is not held, the application partition, or
the Cistern. -/

namespace Sys2Proof.Machine

open Host

theorem onApp_eq (s : State) (f : App → App) : s.onApp f = .next (s.withApp (if s.app.life.boot = .held then s.app else f s.app)) := rfl
theorem onIsland_eq (s : State) (f : App → App) : s.onIsland f = .next (s.withApp (f s.app)) := rfl
theorem onCis_eq (s : State) (f : Cistern → Cistern) : s.onCis f = .next (s.withCis (f s.cis)) := rfl

theorem onApp_held (s : State) (f : App → App) (h : s.app.life.boot = .held) : s.onApp f = .next s := by
  rw [onApp_eq, if_pos h]
  rfl

/-- Every row is of one of three kinds. -/
theorem exec_kinds (c : Instr) :
    (¬ cisternRow c ∧ ¬ islandRow c ∧ ∃ f, ∀ s, exec c s = State.onApp s f) ∨
    (¬ cisternRow c ∧ islandRow c ∧ ∃ f, ∀ s, exec c s = State.onIsland s f) ∨
    (cisternRow c ∧ ∃ f, ∀ s, exec c s = State.onCis s f) := by
  cases c with
  | nop h => exact .inl ⟨by simp [cisternRow], by simp [islandRow], _, fun s => show execNop h s = _ from rfl⟩
  | select h obj hold => exact .inl ⟨by simp [cisternRow], by simp [islandRow], _, fun s => show execSelect h obj hold s = _ from rfl⟩
  | deselect h obj => exact .inl ⟨by simp [cisternRow], by simp [islandRow], _, fun s => show execDeselect h obj s = _ from rfl⟩
  | cancel h target => exact .inl ⟨by simp [cisternRow], by simp [islandRow], _, fun s => show execCancel h target s = _ from rfl⟩
  | moduleStatus h => exact .inl ⟨by simp [cisternRow], by simp [islandRow], _, fun s => show execModuleStatus h s = _ from rfl⟩
  | readTime h out clear => exact .inl ⟨by simp [cisternRow], by simp [islandRow], _, fun s => show execReadTime h out clear s = _ from rfl⟩
  | forceTime h mode ns value => exact .inl ⟨by simp [cisternRow], by simp [islandRow], _, fun s => show execForceTime h mode ns value s = _ from rfl⟩
  | adjustRate h incr lock => exact .inl ⟨by simp [cisternRow], by simp [islandRow], _, fun s => show execAdjustRate h incr lock s = _ from rfl⟩
  | stepTime h offset => exact .inl ⟨by simp [cisternRow], by simp [islandRow], _, fun s => show execStepTime h offset s = _ from rfl⟩
  | readAngle h out bay clear => exact .inl ⟨by simp [cisternRow], by simp [islandRow], _, fun s => show execReadAngle h out bay clear s = _ from rfl⟩
  | writeSettings h group first count desc => exact .inl ⟨by simp [cisternRow], by simp [islandRow], _, fun s => show execWriteSettings h group first count desc s = _ from rfl⟩
  | selectGroup h bay group => exact .inl ⟨by simp [cisternRow], by simp [islandRow], _, fun s => show execSelectGroup h bay group s = _ from rfl⟩
  | setCurve h body => exact .inl ⟨by simp [cisternRow], by simp [islandRow], _, fun s => show execSetCurve h body s = _ from rfl⟩
  | readSettings h out group first count => exact .inl ⟨by simp [cisternRow], by simp [islandRow], _, fun s => show execReadSettings h out group first count s = _ from rfl⟩
  | selfCal h => exact .inl ⟨by simp [cisternRow], by simp [islandRow], _, fun s => show execSelfCal h s = _ from rfl⟩
  | auxStart h seq slot => exact .inl ⟨by simp [cisternRow], by simp [islandRow], _, fun s => show execAuxStart h seq slot s = _ from rfl⟩
  | readAux h out seq => exact .inl ⟨by simp [cisternRow], by simp [islandRow], _, fun s => show execReadAux h out seq s = _ from rfl⟩
  | breakerClose h bay mode target => exact .inl ⟨by simp [cisternRow], by simp [islandRow], _, fun s => show execBreakerClose h bay mode target s = _ from rfl⟩
  | breakerOpen h bay mode target => exact .inl ⟨by simp [cisternRow], by simp [islandRow], _, fun s => show execBreakerOpen h bay mode target s = _ from rfl⟩
  | clearTripFault h channel => exact .inl ⟨by simp [cisternRow], by simp [islandRow], _, fun s => show execClearTripFault h channel s = _ from rfl⟩
  | armCapture h slot arm => exact .inl ⟨by simp [cisternRow], by simp [islandRow], _, fun s => show execArmCapture h slot arm s = _ from rfl⟩
  | fireCapture h slot => exact .inl ⟨by simp [cisternRow], by simp [islandRow], _, fun s => show execFireCapture h slot s = _ from rfl⟩
  | cutTwRecord h bay at_ => exact .inl ⟨by simp [cisternRow], by simp [islandRow], _, fun s => show execCutTwRecord h bay at_ s = _ from rfl⟩
  | readTwRecord h out seq => exact .inl ⟨by simp [cisternRow], by simp [islandRow], _, fun s => show execReadTwRecord h out seq s = _ from rfl⟩
  | readSnapshot h out => exact .inl ⟨by simp [cisternRow], by simp [islandRow], _, fun s => show execReadSnapshot h out s = _ from rfl⟩
  | cisternRequest h out req count first => exact .inl ⟨by simp [cisternRow], by simp [islandRow], _, fun s => show execCisternRequest h out req count first s = _ from rfl⟩
  | loadImage h slot size src => exact .inl ⟨by simp [cisternRow], by simp [islandRow], _, fun s => show execLoadImage h slot size src s = _ from rfl⟩
  | verifyImage h slot => exact .inl ⟨by simp [cisternRow], by simp [islandRow], _, fun s => show execVerifyImage h slot s = _ from rfl⟩
  | eraseSlot h slot => exact .inl ⟨by simp [cisternRow], by simp [islandRow], _, fun s => show execEraseSlot h slot s = _ from rfl⟩
  | startProgram h slot warm => exact .inl ⟨by simp [cisternRow], by simp [islandRow], _, fun s => show execStartProgram h slot warm s = _ from rfl⟩
  | stopProgram h => exact .inl ⟨by simp [cisternRow], by simp [islandRow], _, fun s => show execStopProgram h s = _ from rfl⟩
  | holdProgram h hold => exact .inl ⟨by simp [cisternRow], by simp [islandRow], _, fun s => show execHoldProgram h hold s = _ from rfl⟩
  | writePoint h quality point value => exact .inl ⟨by simp [cisternRow], by simp [islandRow], _, fun s => show execWritePoint h quality point value s = _ from rfl⟩
  | readPoints h out first count => exact .inl ⟨by simp [cisternRow], by simp [islandRow], _, fun s => show execReadPoints h out first count s = _ from rfl⟩
  | flagSet h task flag => exact .inl ⟨by simp [cisternRow], by simp [islandRow], _, fun s => show execFlagSet h task flag s = _ from rfl⟩
  | flagCancel h task mask => exact .inl ⟨by simp [cisternRow], by simp [islandRow], _, fun s => show execFlagCancel h task mask s = _ from rfl⟩
  | skimPrepare h len map => exact .inl ⟨by simp [cisternRow], by simp [islandRow], _, fun s => show execSkimPrepare h len map s = _ from rfl⟩
  | skimSwitch h earliest => exact .inl ⟨by simp [cisternRow], by simp [islandRow], _, fun s => show execSkimSwitch h earliest s = _ from rfl⟩
  | skimAbort h => exact .inl ⟨by simp [cisternRow], by simp [islandRow], _, fun s => show execSkimAbort h s = _ from rfl⟩
  | skimRollback h => exact .inl ⟨by simp [cisternRow], by simp [islandRow], _, fun s => show execSkimRollback h s = _ from rfl⟩
  | skimConfirm h => exact .inl ⟨by simp [cisternRow], by simp [islandRow], _, fun s => show execSkimConfirm h s = _ from rfl⟩
  | forceSet h quality point value tag => exact .inl ⟨by simp [cisternRow], by simp [islandRow], _, fun s => show execForceSet h quality point value tag s = _ from rfl⟩
  | forceClear h orphan point => exact .inl ⟨by simp [cisternRow], by simp [islandRow], _, fun s => show execForceClear h orphan point s = _ from rfl⟩
  | readForces h out => exact .inl ⟨by simp [cisternRow], by simp [islandRow], _, fun s => show execReadForces h out s = _ from rfl⟩
  | fieldRearm h supply => exact .inl ⟨by simp [cisternRow], by simp [islandRow], _, fun s => show execFieldRearm h supply s = _ from rfl⟩
  | lifecycleSet h target confirm => exact .inl ⟨by simp [cisternRow], by simp [islandRow], _, fun s => show execLifecycleSet h target confirm s = _ from rfl⟩
  | resetModule h kind => exact .inl ⟨by simp [cisternRow], by simp [islandRow], _, fun s => show execResetModule h kind s = _ from rfl⟩
  | loadFirmware h slot size src => exact .inl ⟨by simp [cisternRow], by simp [islandRow], _, fun s => show execLoadFirmware h slot size src s = _ from rfl⟩
  | requestRemoval h => exact .inl ⟨by simp [cisternRow], by simp [islandRow], _, fun s => show execRequestRemoval h s = _ from rfl⟩
  | nopInstruction core => exact .inl ⟨by simp [cisternRow], by simp [islandRow], _, fun s => show execNopInstruction core s = _ from rfl⟩
  | mov core => exact .inl ⟨by simp [cisternRow], by simp [islandRow], _, fun s => show execMov core s = _ from rfl⟩
  | ldi core => exact .inl ⟨by simp [cisternRow], by simp [islandRow], _, fun s => show execLdi core s = _ from rfl⟩
  | ldc core => exact .inl ⟨by simp [cisternRow], by simp [islandRow], _, fun s => show execLdc core s = _ from rfl⟩
  | tag core => exact .inl ⟨by simp [cisternRow], by simp [islandRow], _, fun s => show execTag core s = _ from rfl⟩
  | cvt core => exact .inl ⟨by simp [cisternRow], by simp [islandRow], _, fun s => show execCvt core s = _ from rfl⟩
  | sel core => exact .inl ⟨by simp [cisternRow], by simp [islandRow], _, fun s => show execSel core s = _ from rfl⟩
  | add core => exact .inl ⟨by simp [cisternRow], by simp [islandRow], _, fun s => show execAdd core s = _ from rfl⟩
  | sub core => exact .inl ⟨by simp [cisternRow], by simp [islandRow], _, fun s => show execSub core s = _ from rfl⟩
  | mul core => exact .inl ⟨by simp [cisternRow], by simp [islandRow], _, fun s => show execMul core s = _ from rfl⟩
  | div core => exact .inl ⟨by simp [cisternRow], by simp [islandRow], _, fun s => show execDiv core s = _ from rfl⟩
  | mod core => exact .inl ⟨by simp [cisternRow], by simp [islandRow], _, fun s => show execMod core s = _ from rfl⟩
  | neg core => exact .inl ⟨by simp [cisternRow], by simp [islandRow], _, fun s => show execNeg core s = _ from rfl⟩
  | abs core => exact .inl ⟨by simp [cisternRow], by simp [islandRow], _, fun s => show execAbs core s = _ from rfl⟩
  | min core => exact .inl ⟨by simp [cisternRow], by simp [islandRow], _, fun s => show execMin core s = _ from rfl⟩
  | max core => exact .inl ⟨by simp [cisternRow], by simp [islandRow], _, fun s => show execMax core s = _ from rfl⟩
  | addi core => exact .inl ⟨by simp [cisternRow], by simp [islandRow], _, fun s => show execAddi core s = _ from rfl⟩
  | and core => exact .inl ⟨by simp [cisternRow], by simp [islandRow], _, fun s => show execAnd core s = _ from rfl⟩
  | or core => exact .inl ⟨by simp [cisternRow], by simp [islandRow], _, fun s => show execOr core s = _ from rfl⟩
  | xor core => exact .inl ⟨by simp [cisternRow], by simp [islandRow], _, fun s => show execXor core s = _ from rfl⟩
  | not core => exact .inl ⟨by simp [cisternRow], by simp [islandRow], _, fun s => show execNot core s = _ from rfl⟩
  | shl core => exact .inl ⟨by simp [cisternRow], by simp [islandRow], _, fun s => show execShl core s = _ from rfl⟩
  | shr core => exact .inl ⟨by simp [cisternRow], by simp [islandRow], _, fun s => show execShr core s = _ from rfl⟩
  | sar core => exact .inl ⟨by simp [cisternRow], by simp [islandRow], _, fun s => show execSar core s = _ from rfl⟩
  | rol core => exact .inl ⟨by simp [cisternRow], by simp [islandRow], _, fun s => show execRol core s = _ from rfl⟩
  | ror core => exact .inl ⟨by simp [cisternRow], by simp [islandRow], _, fun s => show execRor core s = _ from rfl⟩
  | fadd core => exact .inl ⟨by simp [cisternRow], by simp [islandRow], _, fun s => show execFadd core s = _ from rfl⟩
  | fsub core => exact .inl ⟨by simp [cisternRow], by simp [islandRow], _, fun s => show execFsub core s = _ from rfl⟩
  | fmul core => exact .inl ⟨by simp [cisternRow], by simp [islandRow], _, fun s => show execFmul core s = _ from rfl⟩
  | fdiv core => exact .inl ⟨by simp [cisternRow], by simp [islandRow], _, fun s => show execFdiv core s = _ from rfl⟩
  | fsqrt core => exact .inl ⟨by simp [cisternRow], by simp [islandRow], _, fun s => show execFsqrt core s = _ from rfl⟩
  | fabs core => exact .inl ⟨by simp [cisternRow], by simp [islandRow], _, fun s => show execFabs core s = _ from rfl⟩
  | fneg core => exact .inl ⟨by simp [cisternRow], by simp [islandRow], _, fun s => show execFneg core s = _ from rfl⟩
  | fmin core => exact .inl ⟨by simp [cisternRow], by simp [islandRow], _, fun s => show execFmin core s = _ from rfl⟩
  | fmax core => exact .inl ⟨by simp [cisternRow], by simp [islandRow], _, fun s => show execFmax core s = _ from rfl⟩
  | ceq core => exact .inl ⟨by simp [cisternRow], by simp [islandRow], _, fun s => show execCeq core s = _ from rfl⟩
  | cne core => exact .inl ⟨by simp [cisternRow], by simp [islandRow], _, fun s => show execCne core s = _ from rfl⟩
  | clt core => exact .inl ⟨by simp [cisternRow], by simp [islandRow], _, fun s => show execClt core s = _ from rfl⟩
  | cle core => exact .inl ⟨by simp [cisternRow], by simp [islandRow], _, fun s => show execCle core s = _ from rfl⟩
  | ldk core => exact .inl ⟨by simp [cisternRow], by simp [islandRow], _, fun s => show execLdk core s = _ from rfl⟩
  | stk core => exact .inl ⟨by simp [cisternRow], by simp [islandRow], _, fun s => show execStk core s = _ from rfl⟩
  | ldf core => exact .inl ⟨by simp [cisternRow], by simp [islandRow], _, fun s => show execLdf core s = _ from rfl⟩
  | stf core => exact .inl ⟨by simp [cisternRow], by simp [islandRow], _, fun s => show execStf core s = _ from rfl⟩
  | ldp core => exact .inl ⟨by simp [cisternRow], by simp [islandRow], _, fun s => show execLdp core s = _ from rfl⟩
  | ldpq core => exact .inl ⟨by simp [cisternRow], by simp [islandRow], _, fun s => show execLdpq core s = _ from rfl⟩
  | ldps core => exact .inl ⟨by simp [cisternRow], by simp [islandRow], _, fun s => show execLdps core s = _ from rfl⟩
  | stp core => exact .inl ⟨by simp [cisternRow], by simp [islandRow], _, fun s => show execStp core s = _ from rfl⟩
  | stpq core => exact .inl ⟨by simp [cisternRow], by simp [islandRow], _, fun s => show execStpq core s = _ from rfl⟩
  | br core => exact .inl ⟨by simp [cisternRow], by simp [islandRow], _, fun s => show execBr core s = _ from rfl⟩
  | bt core => exact .inl ⟨by simp [cisternRow], by simp [islandRow], _, fun s => show execBt core s = _ from rfl⟩
  | bf core => exact .inl ⟨by simp [cisternRow], by simp [islandRow], _, fun s => show execBf core s = _ from rfl⟩
  | lpc core => exact .inl ⟨by simp [cisternRow], by simp [islandRow], _, fun s => show execLpc core s = _ from rfl⟩
  | loop core => exact .inl ⟨by simp [cisternRow], by simp [islandRow], _, fun s => show execLoop core s = _ from rfl⟩
  | call core => exact .inl ⟨by simp [cisternRow], by simp [islandRow], _, fun s => show execCall core s = _ from rfl⟩
  | callb core => exact .inl ⟨by simp [cisternRow], by simp [islandRow], _, fun s => show execCallb core s = _ from rfl⟩
  | ret core => exact .inl ⟨by simp [cisternRow], by simp [islandRow], _, fun s => show execRet core s = _ from rfl⟩
  | frame core => exact .inl ⟨by simp [cisternRow], by simp [islandRow], _, fun s => show execFrame core s = _ from rfl⟩
  | waitWork core => exact .inl ⟨by simp [cisternRow], by simp [islandRow], _, fun s => show execWaitWork core s = _ from rfl⟩
  | endScan core => exact .inl ⟨by simp [cisternRow], by simp [islandRow], _, fun s => show execEndScan core s = _ from rfl⟩
  | scanTime core => exact .inl ⟨by simp [cisternRow], by simp [islandRow], _, fun s => show execScanTime core s = _ from rfl⟩
  | scanQual core => exact .inl ⟨by simp [cisternRow], by simp [islandRow], _, fun s => show execScanQual core s = _ from rfl⟩
  | scanAngle core => exact .inl ⟨by simp [cisternRow], by simp [islandRow], _, fun s => show execScanAngle core s = _ from rfl⟩
  | scanCycle core => exact .inl ⟨by simp [cisternRow], by simp [islandRow], _, fun s => show execScanCycle core s = _ from rfl⟩
  | breaker core => exact .inl ⟨by simp [cisternRow], by simp [islandRow], _, fun s => show execBreaker core s = _ from rfl⟩
  | group core => exact .inl ⟨by simp [cisternRow], by simp [islandRow], _, fun s => show execGroup core s = _ from rfl⟩
  | captureArm core => exact .inl ⟨by simp [cisternRow], by simp [islandRow], _, fun s => show execCaptureArm core s = _ from rfl⟩
  | captureFire core => exact .inl ⟨by simp [cisternRow], by simp [islandRow], _, fun s => show execCaptureFire core s = _ from rfl⟩
  | auxSeq core => exact .inl ⟨by simp [cisternRow], by simp [islandRow], _, fun s => show execAuxSeq core s = _ from rfl⟩
  | svcFlagSet core => exact .inl ⟨by simp [cisternRow], by simp [islandRow], _, fun s => show execSvcFlagSet core s = _ from rfl⟩
  | svcFlagCancel core => exact .inl ⟨by simp [cisternRow], by simp [islandRow], _, fun s => show execSvcFlagCancel core s = _ from rfl⟩
  | commit core => exact .inl ⟨by simp [cisternRow], by simp [islandRow], _, fun s => show execCommit core s = _ from rfl⟩
  | deferredAction => exact .inl ⟨by simp [cisternRow], by simp [islandRow], _, fun s => show execDeferredAction s = _ from rfl⟩
  | lockstepMismatch core sram => exact .inl ⟨by simp [cisternRow], by simp [islandRow], _, fun s => show execLockstepMismatch core sram s = _ from rfl⟩
  | selfTestEnd core pass => exact .inl ⟨by simp [cisternRow], by simp [islandRow], _, fun s => show execSelfTestEnd core pass s = _ from rfl⟩
  | scanBudgetExpiry core => exact .inl ⟨by simp [cisternRow], by simp [islandRow], _, fun s => show execScanBudgetExpiry core s = _ from rfl⟩
  | initBudgetExpiry core => exact .inl ⟨by simp [cisternRow], by simp [islandRow], _, fun s => show execInitBudgetExpiry core s = _ from rfl⟩
  | dispatcherCycle => exact .inl ⟨by simp [cisternRow], by simp [islandRow], _, fun s => show execDispatcherCycle s = _ from rfl⟩
  | retainedCopy => exact .inl ⟨by simp [cisternRow], by simp [islandRow], _, fun s => show execRetainedCopy s = _ from rfl⟩
  | wallCompareFire unit => exact .inl ⟨by simp [cisternRow], by simp [islandRow], _, fun s => show execWallCompareFire unit s = _ from rfl⟩
  | angleCompareFire bay unit target => exact .inl ⟨by simp [cisternRow], by simp [islandRow], _, fun s => show execAngleCompareFire bay unit target s = _ from rfl⟩
  | wallCompareWrite ctx unit reg value => exact .inl ⟨by simp [cisternRow], by simp [islandRow], _, fun s => show execWallCompareWrite ctx unit reg value s = _ from rfl⟩
  | angleCompareWrite ctx bay unit reg value => exact .inl ⟨by simp [cisternRow], by simp [islandRow], _, fun s => show execAngleCompareWrite ctx bay unit reg value s = _ from rfl⟩
  | angleClockEnable ctx bay value => exact .inl ⟨by simp [cisternRow], by simp [islandRow], _, fun s => show execAngleClockEnable ctx bay value s = _ from rfl⟩
  | lockCriterion bay => exact .inl ⟨by simp [cisternRow], by simp [islandRow], _, fun s => show execLockCriterion bay s = _ from rfl⟩
  | voltageValidCount bay => exact .inl ⟨by simp [cisternRow], by simp [islandRow], _, fun s => show execVoltageValidCount bay s = _ from rfl⟩
  | freezeMax bay => exact .inl ⟨by simp [cisternRow], by simp [islandRow], _, fun s => show execFreezeMax bay s = _ from rfl⟩
  | settleComplete bay => exact .inl ⟨by simp [cisternRow], by simp [islandRow], _, fun s => show execSettleComplete bay s = _ from rfl⟩
  | holdMax bay => exact .inl ⟨by simp [cisternRow], by simp [islandRow], _, fun s => show execHoldMax bay s = _ from rfl⟩
  | ptpMessageRx port msg raw => exact .inl ⟨by simp [cisternRow], by simp [islandRow], _, fun s => show execPtpMessageRx port msg raw s = _ from rfl⟩
  | pdelayInterval pair side => exact .inl ⟨by simp [cisternRow], by simp [islandRow], _, fun s => show execPdelayInterval pair side s = _ from rfl⟩
  | announceTimeout => exact .inl ⟨by simp [cisternRow], by simp [islandRow], _, fun s => show execAnnounceTimeout s = _ from rfl⟩
  | hostServoSilence => exact .inl ⟨by simp [cisternRow], by simp [islandRow], _, fun s => show execHostServoSilence s = _ from rfl⟩
  | holdLimitReached => exact .inl ⟨by simp [cisternRow], by simp [islandRow], _, fun s => show execHoldLimitReached s = _ from rfl⟩
  | referenceEdge signal => exact .inl ⟨by simp [cisternRow], by simp [islandRow], _, fun s => show execReferenceEdge signal s = _ from rfl⟩
  | referenceLost => exact .inl ⟨by simp [cisternRow], by simp [islandRow], _, fun s => show execReferenceLost s = _ from rfl⟩
  | backupWrite => exact .inl ⟨by simp [cisternRow], by simp [islandRow], _, fun s => show execBackupWrite s = _ from rfl⟩
  | otMirror => exact .inl ⟨by simp [cisternRow], by simp [islandRow], _, fun s => show execOtMirror s = _ from rfl⟩
  | anchorPeriodic => exact .inl ⟨by simp [cisternRow], by simp [islandRow], _, fun s => show execAnchorPeriodic s = _ from rfl⟩
  | selfCalComplete points => exact .inl ⟨by simp [cisternRow], by simp [islandRow], _, fun s => show execSelfCalComplete points s = _ from rfl⟩
  | handoverStart bay => exact .inl ⟨by simp [cisternRow], by simp [islandRow], _, fun s => show execHandoverStart bay s = _ from rfl⟩
  | handoverSettleEnd bay => exact .inl ⟨by simp [cisternRow], by simp [islandRow], _, fun s => show execHandoverSettleEnd bay s = _ from rfl⟩
  | comparisonWindowEnd bay => exact .inl ⟨by simp [cisternRow], by simp [islandRow], _, fun s => show execComparisonWindowEnd bay s = _ from rfl⟩
  | verifyWindowEnd bay => exact .inl ⟨by simp [cisternRow], by simp [islandRow], _, fun s => show execVerifyWindowEnd bay s = _ from rfl⟩
  | takeOver bay => exact .inl ⟨by simp [cisternRow], by simp [islandRow], _, fun s => show execTakeOver bay s = _ from rfl⟩
  | sliceCalibrationEnd bay points => exact .inl ⟨by simp [cisternRow], by simp [islandRow], _, fun s => show execSliceCalibrationEnd bay points s = _ from rfl⟩
  | handoverRetry bay => exact .inl ⟨by simp [cisternRow], by simp [islandRow], _, fun s => show execHandoverRetry bay s = _ from rfl⟩
  | calOverdue bay => exact .inl ⟨by simp [cisternRow], by simp [islandRow], _, fun s => show execCalOverdue bay s = _ from rfl⟩
  | sliceLoopReset bay slice => exact .inl ⟨by simp [cisternRow], by simp [islandRow], _, fun s => show execSliceLoopReset bay slice s = _ from rfl⟩
  | rangeChange bay ch => exact .inl ⟨by simp [cisternRow], by simp [islandRow], _, fun s => show execRangeChange bay ch s = _ from rfl⟩
  | referenceSourceChange bay => exact .inl ⟨by simp [cisternRow], by simp [islandRow], _, fun s => show execReferenceSourceChange bay s = _ from rfl⟩
  | housekeepingDue => exact .inl ⟨by simp [cisternRow], by simp [islandRow], _, fun s => show execHousekeepingDue s = _ from rfl⟩
  | auxConversionEnd samples => exact .inl ⟨by simp [cisternRow], by simp [islandRow], _, fun s => show execAuxConversionEnd samples s = _ from rfl⟩
  | refSettled => exact .inl ⟨by simp [cisternRow], by simp [islandRow], _, fun s => show execRefSettled s = _ from rfl⟩
  | decChangeEdge => exact .inl ⟨by simp [cisternRow], by simp [islandRow], _, fun s => show execDecChangeEdge s = _ from rfl⟩
  | decWrite ctx reg value => exact .inl ⟨by simp [cisternRow], by simp [islandRow], _, fun s => show execDecWrite ctx reg value s = _ from rfl⟩
  | integratorSettleEnd bay ch => exact .inl ⟨by simp [cisternRow], by simp [islandRow], _, fun s => show execIntegratorSettleEnd bay ch s = _ from rfl⟩
  | tickEvaluation engine => exact .inl ⟨by simp [cisternRow], by simp [islandRow], _, fun s => show execTickEvaluation engine s = _ from rfl⟩
  | pairDisagree slot => exact .inl ⟨by simp [cisternRow], by simp [islandRow], _, fun s => show execPairDisagree slot s = _ from rfl⟩
  | engineFaulted engine internal => exact .inl ⟨by simp [cisternRow], by simp [islandRow], _, fun s => show execEngineFaulted engine internal s = _ from rfl⟩
  | engineReloadEnd engine => exact .inl ⟨by simp [cisternRow], by simp [islandRow], _, fun s => show execEngineReloadEnd engine s = _ from rfl⟩
  | substitutionChange bay => exact .inl ⟨by simp [cisternRow], by simp [islandRow], _, fun s => show execSubstitutionChange bay s = _ from rfl⟩
  | svFallback bay => exact .inl ⟨by simp [cisternRow], by simp [islandRow], _, fun s => show execSvFallback bay s = _ from rfl⟩
  | instantaneousPickup bay ch => exact .inl ⟨by simp [cisternRow], by simp [islandRow], _, fun s => show execInstantaneousPickup bay ch s = _ from rfl⟩
  | instantaneousDropout bay ch => exact .inl ⟨by simp [cisternRow], by simp [islandRow], _, fun s => show execInstantaneousDropout bay ch s = _ from rfl⟩
  | disturbancePickup bay => exact .inl ⟨by simp [cisternRow], by simp [islandRow], _, fun s => show execDisturbancePickup bay s = _ from rfl⟩
  | disturbanceDropout bay => exact .inl ⟨by simp [cisternRow], by simp [islandRow], _, fun s => show execDisturbanceDropout bay s = _ from rfl⟩
  | matrixScan => exact .inl ⟨by simp [cisternRow], by simp [islandRow], _, fun s => show execMatrixScan s = _ from rfl⟩
  | tripOverload ch => exact .inr (.inl ⟨by simp [cisternRow], by simp [islandRow], _, fun s => show execTripOverload ch s = _ from rfl⟩)
  | sealInRelease ch => exact .inr (.inl ⟨by simp [cisternRow], by simp [islandRow], _, fun s => show execSealInRelease ch s = _ from rfl⟩)
  | sealTimeout ch => exact .inr (.inl ⟨by simp [cisternRow], by simp [islandRow], _, fun s => show execSealTimeout ch s = _ from rfl⟩)
  | tripLogicSilent ch => exact .inr (.inl ⟨by simp [cisternRow], by simp [islandRow], _, fun s => show execTripLogicSilent ch s = _ from rfl⟩)
  | tcsMeasurement ch iOut tsp vSw => exact .inr (.inl ⟨by simp [cisternRow], by simp [islandRow], _, fun s => show execTcsMeasurement ch iOut tsp vSw s = _ from rfl⟩)
  | tcsDiagnosis ch => exact .inl ⟨by simp [cisternRow], by simp [islandRow], _, fun s => show execTcsDiagnosis ch s = _ from rfl⟩
  | breakerExecution bay => exact .inl ⟨by simp [cisternRow], by simp [islandRow], _, fun s => show execBreakerExecution bay s = _ from rfl⟩
  | breakerOutputEnd bay => exact .inl ⟨by simp [cisternRow], by simp [islandRow], _, fun s => show execBreakerOutputEnd bay s = _ from rfl⟩
  | opTimeout bay => exact .inl ⟨by simp [cisternRow], by simp [islandRow], _, fun s => show execOpTimeout bay s = _ from rfl⟩
  | onsetSearchEnd bay => exact .inl ⟨by simp [cisternRow], by simp [islandRow], _, fun s => show execOnsetSearchEnd bay s = _ from rfl⟩
  | frameRelease number descs => exact .inl ⟨by simp [cisternRow], by simp [islandRow], _, fun s => show execFrameRelease number descs s = _ from rfl⟩
  | triggerFire unit => exact .inl ⟨by simp [cisternRow], by simp [islandRow], _, fun s => show execTriggerFire unit s = _ from rfl⟩
  | groupMessageRx data => exact .inl ⟨by simp [cisternRow], by simp [islandRow], _, fun s => show execGroupMessageRx data s = _ from rfl⟩
  | groupMessageRepeat => exact .inl ⟨by simp [cisternRow], by simp [islandRow], _, fun s => show execGroupMessageRepeat s = _ from rfl⟩
  | wavefrontPickup bay => exact .inl ⟨by simp [cisternRow], by simp [islandRow], _, fun s => show execWavefrontPickup bay s = _ from rfl⟩
  | qualification bay => exact .inl ⟨by simp [cisternRow], by simp [islandRow], _, fun s => show execQualification bay s = _ from rfl⟩
  | twRecordCut bay => exact .inl ⟨by simp [cisternRow], by simp [islandRow], _, fun s => show execTwRecordCut bay s = _ from rfl⟩
  | arrivalMessageRx data => exact .inl ⟨by simp [cisternRow], by simp [islandRow], _, fun s => show execArrivalMessageRx data s = _ from rfl⟩
  | arrivalMessageRepeat => exact .inl ⟨by simp [cisternRow], by simp [islandRow], _, fun s => show execArrivalMessageRepeat s = _ from rfl⟩
  | remWaitExpiry bay => exact .inl ⟨by simp [cisternRow], by simp [islandRow], _, fun s => show execRemWaitExpiry bay s = _ from rfl⟩
  | snapshotRx data start => exact .inl ⟨by simp [cisternRow], by simp [islandRow], _, fun s => show execSnapshotRx data start s = _ from rfl⟩
  | cisternSilent => exact .inl ⟨by simp [cisternRow], by simp [islandRow], _, fun s => show execCisternSilent s = _ from rfl⟩
  | cisRequestTimeout => exact .inl ⟨by simp [cisternRow], by simp [islandRow], _, fun s => show execCisRequestTimeout s = _ from rfl⟩
  | readRequest data => exact .inr (.inr ⟨by simp [cisternRow], _, fun s => show execReadRequest data s = _ from rfl⟩)
  | cisternPeriodEnd samples freq delay => exact .inr (.inr ⟨by simp [cisternRow], _, fun s => show execCisternPeriodEnd samples freq delay s = _ from rfl⟩)
  | cisternStore => exact .inr (.inr ⟨by simp [cisternRow], _, fun s => show execCisternStore s = _ from rfl⟩)
  | cisternSupplyLoss => exact .inr (.inr ⟨by simp [cisternRow], _, fun s => show execCisternSupplyLoss s = _ from rfl⟩)
  | cisternPowerUp points outage kept => exact .inr (.inr ⟨by simp [cisternRow], _, fun s => show execCisternPowerUp points outage kept s = _ from rfl⟩)
  | cisternWatchdogRestart => exact .inr (.inr ⟨by simp [cisternRow], _, fun s => show execCisternWatchdogRestart s = _ from rfl⟩)
  | spareCheck zero plus => exact .inr (.inr ⟨by simp [cisternRow], _, fun s => show execSpareCheck zero plus s = _ from rfl⟩)
  | demandIntervalEnd => exact .inr (.inr ⟨by simp [cisternRow], _, fun s => show execDemandIntervalEnd s = _ from rfl⟩)
  | profileIntervalEnd ch => exact .inr (.inr ⟨by simp [cisternRow], _, fun s => show execProfileIntervalEnd ch s = _ from rfl⟩)
  | serviceSwitchHold => exact .inr (.inr ⟨by simp [cisternRow], _, fun s => show execServiceSwitchHold s = _ from rfl⟩)
  | opticalReadout => exact .inr (.inr ⟨by simp [cisternRow], _, fun s => show execOpticalReadout s = _ from rfl⟩)
  | programmingMode code => exact .inr (.inr ⟨by simp [cisternRow], _, fun s => show execProgrammingMode code s = _ from rfl⟩)
  | programmingTimeout => exact .inr (.inr ⟨by simp [cisternRow], _, fun s => show execProgrammingTimeout s = _ from rfl⟩)
  | calibration ch gain phase offset => exact .inr (.inr ⟨by simp [cisternRow], _, fun s => show execCalibration ch gain phase offset s = _ from rfl⟩)
  | legalSettingChange setting => exact .inr (.inr ⟨by simp [cisternRow], _, fun s => show execLegalSettingChange setting s = _ from rfl⟩)
  | registerReset => exact .inr (.inr ⟨by simp [cisternRow], _, fun s => show execRegisterReset s = _ from rfl⟩)
  | firmwareReplacement part signed => exact .inr (.inr ⟨by simp [cisternRow], _, fun s => show execFirmwareReplacement part signed s = _ from rfl⟩)
  | clockSetting sec => exact .inr (.inr ⟨by simp [cisternRow], _, fun s => show execClockSetting sec s = _ from rfl⟩)
  | demandReset => exact .inr (.inr ⟨by simp [cisternRow], _, fun s => show execDemandReset s = _ from rfl⟩)
  | longOperationStep ctx data more => exact .inl ⟨by simp [cisternRow], by simp [islandRow], _, fun s => show execLongOperationStep ctx data more s = _ from rfl⟩
  | migrationPass => exact .inl ⟨by simp [cisternRow], by simp [islandRow], _, fun s => show execMigrationPass s = _ from rfl⟩
  | switchInstant => exact .inl ⟨by simp [cisternRow], by simp [islandRow], _, fun s => show execSwitchInstant s = _ from rfl⟩
  | switchDrainEnd => exact .inl ⟨by simp [cisternRow], by simp [islandRow], _, fun s => show execSwitchDrainEnd s = _ from rfl⟩
  | dirtyTimeout => exact .inl ⟨by simp [cisternRow], by simp [islandRow], _, fun s => show execDirtyTimeout s = _ from rfl⟩
  | rollbackWindowEnd => exact .inl ⟨by simp [cisternRow], by simp [islandRow], _, fun s => show execRollbackWindowEnd s = _ from rfl⟩
  | debounceComplete ch level t => exact .inl ⟨by simp [cisternRow], by simp [islandRow], _, fun s => show execDebounceComplete ch level t s = _ from rfl⟩
  | supervisionDiagnosis ch current => exact .inl ⟨by simp [cisternRow], by simp [islandRow], _, fun s => show execSupervisionDiagnosis ch current s = _ from rfl⟩
  | heldChangeTimeout ch => exact .inl ⟨by simp [cisternRow], by simp [islandRow], _, fun s => show execHeldChangeTimeout ch s = _ from rfl⟩
  | chatterSettled ch => exact .inl ⟨by simp [cisternRow], by simp [islandRow], _, fun s => show execChatterSettled ch s = _ from rfl⟩
  | stuckTime ch => exact .inl ⟨by simp [cisternRow], by simp [islandRow], _, fun s => show execStuckTime ch s = _ from rfl⟩
  | outputDiagnosis ch meas => exact .inr (.inl ⟨by simp [cisternRow], by simp [islandRow], _, fun s => show execOutputDiagnosis ch meas s = _ from rfl⟩)
  | overloadRetry ch => exact .inr (.inl ⟨by simp [cisternRow], by simp [islandRow], _, fun s => show execOverloadRetry ch s = _ from rfl⟩)
  | islandSilent ch => exact .inl ⟨by simp [cisternRow], by simp [islandRow], _, fun s => show execIslandSilent ch s = _ from rfl⟩
  | fieldSilence ch => exact .inr (.inl ⟨by simp [cisternRow], by simp [islandRow], _, fun s => show execFieldSilence ch s = _ from rfl⟩)
  | fieldSupplyRise ch => exact .inr (.inl ⟨by simp [cisternRow], by simp [islandRow], _, fun s => show execFieldSupplyRise ch s = _ from rfl⟩)
  | fsLow supply low => exact .inl ⟨by simp [cisternRow], by simp [islandRow], _, fun s => show execFsLow supply low s = _ from rfl⟩
  | fsDead supply => exact .inl ⟨by simp [cisternRow], by simp [islandRow], _, fun s => show execFsDead supply s = _ from rfl⟩
  | outputShutdownSlot ch => exact .inr (.inl ⟨by simp [cisternRow], by simp [islandRow], _, fun s => show execOutputShutdownSlot ch s = _ from rfl⟩)
  | latchRelease supply => exact .inl ⟨by simp [cisternRow], by simp [islandRow], _, fun s => show execLatchRelease supply s = _ from rfl⟩
  | channelReenable ch => exact .inl ⟨by simp [cisternRow], by simp [islandRow], _, fun s => show execChannelReenable ch s = _ from rfl⟩
  | fioCfgWrite ctx channel value => exact .inl ⟨by simp [cisternRow], by simp [islandRow], _, fun s => show execFioCfgWrite ctx channel value s = _ from rfl⟩
  | doorbellFetch ctx page slots => exact .inl ⟨by simp [cisternRow], by simp [islandRow], _, fun s => show execDoorbellFetch ctx page slots s = _ from rfl⟩
  | contextEnable ctx holdoff => exact .inl ⟨by simp [cisternRow], by simp [islandRow], _, fun s => show execContextEnable ctx holdoff s = _ from rfl⟩
  | contextDisable ctx holdoff => exact .inl ⟨by simp [cisternRow], by simp [islandRow], _, fun s => show execContextDisable ctx holdoff s = _ from rfl⟩
  | functionLevelReset ctx => exact .inl ⟨by simp [cisternRow], by simp [islandRow], _, fun s => show execFunctionLevelReset ctx s = _ from rfl⟩
  | linkDown port => exact .inl ⟨by simp [cisternRow], by simp [islandRow], _, fun s => show execLinkDown port s = _ from rfl⟩
  | linkUp port speed width => exact .inl ⟨by simp [cisternRow], by simp [islandRow], _, fun s => show execLinkUp port speed width s = _ from rfl⟩
  | interruptHoldoffEnd ctx vector => exact .inl ⟨by simp [cisternRow], by simp [islandRow], _, fun s => show execInterruptHoldoffEnd ctx vector s = _ from rfl⟩
  | ownershipExpiry object => exact .inl ⟨by simp [cisternRow], by simp [islandRow], _, fun s => show execOwnershipExpiry object s = _ from rfl⟩
  | setupWrite ctx offset width value => exact .inl ⟨by simp [cisternRow], by simp [islandRow], _, fun s => show execSetupWrite ctx offset width value s = _ from rfl⟩
  | latchedRead ctx offset width => exact .inl ⟨by simp [cisternRow], by simp [islandRow], _, fun s => show execLatchedRead ctx offset width s = _ from rfl⟩
  | ethTbldataWrite ctx value => exact .inl ⟨by simp [cisternRow], by simp [islandRow], _, fun s => show execEthTbldataWrite ctx value s = _ from rfl⟩
  | ethTbldataRead ctx => exact .inl ⟨by simp [cisternRow], by simp [islandRow], _, fun s => show execEthTbldataRead ctx s = _ from rfl⟩
  | canTbldataWrite ctx value => exact .inl ⟨by simp [cisternRow], by simp [islandRow], _, fun s => show execCanTbldataWrite ctx value s = _ from rfl⟩
  | canTbldataRead ctx => exact .inl ⟨by simp [cisternRow], by simp [islandRow], _, fun s => show execCanTbldataRead ctx s = _ from rfl⟩
  | evrRdidxWrite ctx value => exact .inl ⟨by simp [cisternRow], by simp [islandRow], _, fun s => show execEvrRdidxWrite ctx value s = _ from rfl⟩
  | trpBkinitWrite ctx bay opens value => exact .inl ⟨by simp [cisternRow], by simp [islandRow], _, fun s => show execTrpBkinitWrite ctx bay opens value s = _ from rfl⟩
  | trpBklimWrite ctx bay value => exact .inl ⟨by simp [cisternRow], by simp [islandRow], _, fun s => show execTrpBklimWrite ctx bay value s = _ from rfl⟩
  | protectionStateWrite ctx value => exact .inl ⟨by simp [cisternRow], by simp [islandRow], _, fun s => show execProtectionStateWrite ctx value s = _ from rfl⟩
  | outputEnableWrite ctx value => exact .inl ⟨by simp [cisternRow], by simp [islandRow], _, fun s => show execOutputEnableWrite ctx value s = _ from rfl⟩
  | hcxRoleWrite ctx target value => exact .inl ⟨by simp [cisternRow], by simp [islandRow], _, fun s => show execHcxRoleWrite ctx target value s = _ from rfl⟩
  | parUpgWrite ctx value => exact .inl ⟨by simp [cisternRow], by simp [islandRow], _, fun s => show execParUpgWrite ctx value s = _ from rfl⟩
  | dmaTailAdvance channel slots forCtx => exact .inl ⟨by simp [cisternRow], by simp [islandRow], _, fun s => show execDmaTailAdvance channel slots forCtx s = _ from rfl⟩
  | dmaBurst io => exact .inl ⟨by simp [cisternRow], by simp [islandRow], _, fun s => show execDmaBurst io s = _ from rfl⟩
  | dmaConfirmationRead channel ok => exact .inl ⟨by simp [cisternRow], by simp [islandRow], _, fun s => show execDmaConfirmationRead channel ok s = _ from rfl⟩
  | dmaAbort channel => exact .inl ⟨by simp [cisternRow], by simp [islandRow], _, fun s => show execDmaAbort channel s = _ from rfl⟩
  | dmaRestart channel => exact .inl ⟨by simp [cisternRow], by simp [islandRow], _, fun s => show execDmaRestart channel s = _ from rfl⟩
  | gooseRetransmission dataset => exact .inl ⟨by simp [cisternRow], by simp [islandRow], _, fun s => show execGooseRetransmission dataset s = _ from rfl⟩
  | gooseFrameRx frame => exact .inl ⟨by simp [cisternRow], by simp [islandRow], _, fun s => show execGooseFrameRx frame s = _ from rfl⟩
  | gooseExpiry cb => exact .inl ⟨by simp [cisternRow], by simp [islandRow], _, fun s => show execGooseExpiry cb s = _ from rfl⟩
  | svAsduRx asdu => exact .inl ⟨by simp [cisternRow], by simp [islandRow], _, fun s => show execSvAsduRx asdu s = _ from rfl⟩
  | svStreamLost stream => exact .inl ⟨by simp [cisternRow], by simp [islandRow], _, fun s => show execSvStreamLost stream s = _ from rfl⟩
  | svPublication bay frame => exact .inl ⟨by simp [cisternRow], by simp [islandRow], _, fun s => show execSvPublication bay frame s = _ from rfl⟩
  | supervisionFrame pair => exact .inl ⟨by simp [cisternRow], by simp [islandRow], _, fun s => show execSupervisionFrame pair s = _ from rfl⟩
  | hsrFrameRx port good src seq data ptp resid => exact .inl ⟨by simp [cisternRow], by simp [islandRow], _, fun s => show execHsrFrameRx port good src seq data ptp resid s = _ from rfl⟩
  | canWindowStart bus idle => exact .inl ⟨by simp [cisternRow], by simp [islandRow], _, fun s => show execCanWindowStart bus idle s = _ from rfl⟩
  | canWindowEnd bus => exact .inl ⟨by simp [cisternRow], by simp [islandRow], _, fun s => show execCanWindowEnd bus s = _ from rfl⟩
  | canFrameReceived bus frame => exact .inl ⟨by simp [cisternRow], by simp [islandRow], _, fun s => show execCanFrameReceived bus frame s = _ from rfl⟩
  | canFrameSent bus ts result => exact .inl ⟨by simp [cisternRow], by simp [islandRow], _, fun s => show execCanFrameSent bus ts result s = _ from rfl⟩
  | canMessageTransmit bus idle => exact .inl ⟨by simp [cisternRow], by simp [islandRow], _, fun s => show execCanMessageTransmit bus idle s = _ from rfl⟩
  | canRxTimeout bus obj => exact .inl ⟨by simp [cisternRow], by simp [islandRow], _, fun s => show execCanRxTimeout bus obj s = _ from rfl⟩
  | busOffRecovery bus => exact .inl ⟨by simp [cisternRow], by simp [islandRow], _, fun s => show execBusOffRecovery bus s = _ from rfl⟩
  | canCorrelation => exact .inl ⟨by simp [cisternRow], by simp [islandRow], _, fun s => show execCanCorrelation s = _ from rfl⟩
  | canBlockFlush sub descs => exact .inl ⟨by simp [cisternRow], by simp [islandRow], _, fun s => show execCanBlockFlush sub descs s = _ from rfl⟩
  | heartbeatInterval => exact .inl ⟨by simp [cisternRow], by simp [islandRow], _, fun s => show execHeartbeatInterval s = _ from rfl⟩
  | heartbeat beat => exact .inl ⟨by simp [cisternRow], by simp [islandRow], _, fun s => show execHeartbeat beat s = _ from rfl⟩
  | taskSnapshot task rel snap => exact .inl ⟨by simp [cisternRow], by simp [islandRow], _, fun s => show execTaskSnapshot task rel snap s = _ from rfl⟩
  | commitRecord c => exact .inl ⟨by simp [cisternRow], by simp [islandRow], _, fun s => show execCommitRecord c s = _ from rfl⟩
  | commandJournalEntry h op => exact .inl ⟨by simp [cisternRow], by simp [islandRow], _, fun s => show execCommandJournalEntry h op s = _ from rfl⟩
  | finalTagRecord ctx tag final => exact .inl ⟨by simp [cisternRow], by simp [islandRow], _, fun s => show execFinalTagRecord ctx tag final s = _ from rfl⟩
  | mirroredSetupWrite offset tblAddr value => exact .inl ⟨by simp [cisternRow], by simp [islandRow], _, fun s => show execMirroredSetupWrite offset tblAddr value s = _ from rfl⟩
  | effectNotice n => exact .inl ⟨by simp [cisternRow], by simp [islandRow], _, fun s => show execEffectNotice n s = _ from rfl⟩
  | stateCopyPage item => exact .inl ⟨by simp [cisternRow], by simp [islandRow], _, fun s => show execStateCopyPage item s = _ from rfl⟩
  | imageTransfer t => exact .inl ⟨by simp [cisternRow], by simp [islandRow], _, fun s => show execImageTransfer t s = _ from rfl⟩
  | copyPointReceived commitSeq pending units => exact .inl ⟨by simp [cisternRow], by simp [islandRow], _, fun s => show execCopyPointReceived commitSeq pending units s = _ from rfl⟩
  | handover => exact .inl ⟨by simp [cisternRow], by simp [islandRow], _, fun s => show execHandover s = _ from rfl⟩
  | drop backlog => exact .inl ⟨by simp [cisternRow], by simp [islandRow], _, fun s => show execDrop backlog s = _ from rfl⟩
  | acknowledgement n => exact .inl ⟨by simp [cisternRow], by simp [islandRow], _, fun s => show execAcknowledgement n s = _ from rfl⟩
  | stateCopyPass => exact .inl ⟨by simp [cisternRow], by simp [islandRow], _, fun s => show execStateCopyPass s = _ from rfl⟩
  | copyPoint => exact .inl ⟨by simp [cisternRow], by simp [islandRow], _, fun s => show execCopyPoint s = _ from rfl⟩
  | trackingCriterion => exact .inl ⟨by simp [cisternRow], by simp [islandRow], _, fun s => show execTrackingCriterion s = _ from rfl⟩
  | ackTimeout => exact .inl ⟨by simp [cisternRow], by simp [islandRow], _, fun s => show execAckTimeout s = _ from rfl⟩
  | partnerLost off => exact .inl ⟨by simp [cisternRow], by simp [islandRow], _, fun s => show execPartnerLost off s = _ from rfl⟩
  | linkLost => exact .inl ⟨by simp [cisternRow], by simp [islandRow], _, fun s => show execLinkLost s = _ from rfl⟩
  | aliveLineFault => exact .inl ⟨by simp [cisternRow], by simp [islandRow], _, fun s => show execAliveLineFault s = _ from rfl⟩
  | alvFaultClear => exact .inl ⟨by simp [cisternRow], by simp [islandRow], _, fun s => show execAlvFaultClear s = _ from rfl⟩
  | pairWaitExpiry => exact .inl ⟨by simp [cisternRow], by simp [islandRow], _, fun s => show execPairWaitExpiry s = _ from rfl⟩
  | joiningRetry => exact .inl ⟨by simp [cisternRow], by simp [islandRow], _, fun s => show execJoiningRetry s = _ from rfl⟩
  | upgradeWindowClose => exact .inl ⟨by simp [cisternRow], by simp [islandRow], _, fun s => show execUpgradeWindowClose s = _ from rfl⟩
  | powerOnReset unpowered lost => exact .inr (.inl ⟨by simp [cisternRow], by simp [islandRow], _, fun s => show execPowerOnReset unpowered lost s = _ from rfl⟩)
  | carrierReset asserted => exact .inr (.inl ⟨by simp [cisternRow], by simp [islandRow], _, fun s => show execCarrierReset asserted s = _ from rfl⟩)
  | watchdogExpiry => exact .inl ⟨by simp [cisternRow], by simp [islandRow], _, fun s => show execWatchdogExpiry s = _ from rfl⟩
  | dramWipeEnd bad => exact .inl ⟨by simp [cisternRow], by simp [islandRow], _, fun s => show execDramWipeEnd bad s = _ from rfl⟩
  | backgroundEraseStep => exact .inl ⟨by simp [cisternRow], by simp [islandRow], _, fun s => show execBackgroundEraseStep s = _ from rfl⟩
  | powerFail feeds bus => exact .inl ⟨by simp [cisternRow], by simp [islandRow], _, fun s => show execPowerFail feeds bus s = _ from rfl⟩
  | feedLow feed low bus => exact .inl ⟨by simp [cisternRow], by simp [islandRow], _, fun s => show execFeedLow feed low bus s = _ from rfl⟩
  | hotSwapDisable => exact .inr (.inl ⟨by simp [cisternRow], by simp [islandRow], _, fun s => show execHotSwapDisable s = _ from rfl⟩)
  | scrubPass pass => exact .inl ⟨by simp [cisternRow], by simp [islandRow], _, fun s => show execScrubPass pass s = _ from rfl⟩
  | fsDeadClear supply => exact .inl ⟨by simp [cisternRow], by simp [islandRow], _, fun s => show execFsDeadClear supply s = _ from rfl⟩
  | laneFailure => exact .inl ⟨by simp [cisternRow], by simp [islandRow], _, fun s => show execLaneFailure s = _ from rfl⟩
  | laneRestored => exact .inl ⟨by simp [cisternRow], by simp [islandRow], _, fun s => show execLaneRestored s = _ from rfl⟩
  | ethLinkChange port link an => exact .inl ⟨by simp [cisternRow], by simp [islandRow], _, fun s => show execEthLinkChange port link an s = _ from rfl⟩
  | canErrorDetected bus ts code data heavy => exact .inl ⟨by simp [cisternRow], by simp [islandRow], _, fun s => show execCanErrorDetected bus ts code data heavy s = _ from rfl⟩
  | hotReset port => exact .inl ⟨by simp [cisternRow], by simp [islandRow], _, fun s => show execHotReset port s = _ from rfl⟩
  | fieldSilenceEnd ch => exact .inl ⟨by simp [cisternRow], by simp [islandRow], _, fun s => show execFieldSilenceEnd ch s = _ from rfl⟩
  | tripLogicReturn ch => exact .inl ⟨by simp [cisternRow], by simp [islandRow], _, fun s => show execTripLogicReturn ch s = _ from rfl⟩
  | islandFramesResumed ch => exact .inl ⟨by simp [cisternRow], by simp [islandRow], _, fun s => show execIslandFramesResumed ch s = _ from rfl⟩

end Sys2Proof.Machine
end

