-- ==== Sys2Proof/Laws/Cistern.lean ====
section
/-! SUPPORT. What the shared operations of the Cistern leave as they were, one lemma for each field, and how a command of the
optical port answers. -/

namespace Sys2Proof.Machine

open Host

@[simp] theorem cis_note_on (c : Cistern) (k p : Nat) (b : Bool) : (c.note k p b).on = c.on := by rfl
@[simp] theorem cis_note_sealed (c : Cistern) (k p : Nat) (b : Bool) : (c.note k p b).sealed = c.sealed := by rfl
@[simp] theorem cis_note_clock (c : Cistern) (k p : Nat) (b : Bool) : (c.note k p b).clock = c.clock := by rfl
@[simp] theorem cis_note_clockBad (c : Cistern) (k p : Nat) (b : Bool) : (c.note k p b).clockBad = c.clockBad := by rfl
@[simp] theorem cis_note_clockSaved (c : Cistern) (k p : Nat) (b : Bool) : (c.note k p b).clockSaved = c.clockSaved := by rfl
@[simp] theorem cis_note_up (c : Cistern) (k p : Nat) (b : Bool) : (c.note k p b).up = c.up := by rfl
@[simp] theorem cis_note_calLeft (c : Cistern) (k p : Nat) (b : Bool) : (c.note k p b).calLeft = c.calLeft := by rfl
@[simp] theorem cis_note_set (c : Cistern) (k p : Nat) (b : Bool) : (c.note k p b).set = c.set := by rfl
@[simp] theorem cis_note_cal (c : Cistern) (k p : Nat) (b : Bool) : (c.note k p b).cal = c.cal := by rfl
@[simp] theorem cis_note_fwCrc (c : Cistern) (k p : Nat) (b : Bool) : (c.note k p b).fwCrc = c.fwCrc := by rfl
@[simp] theorem cis_note_swId (c : Cistern) (k p : Nat) (b : Bool) : (c.note k p b).swId = c.swId := by rfl
@[simp] theorem cis_note_rejects (c : Cistern) (k p : Nat) (b : Bool) : (c.note k p b).rejects = c.rejects := by rfl
@[simp] theorem cis_note_reqDropped (c : Cistern) (k p : Nat) (b : Bool) : (c.note k p b).reqDropped = c.reqDropped := by rfl
@[simp] theorem cis_note_work (c : Cistern) (k p : Nat) (b : Bool) : (c.note k p b).work = c.work := by rfl
@[simp] theorem cis_note_stored (c : Cistern) (k p : Nat) (b : Bool) : (c.note k p b).stored = c.stored := by rfl
@[simp] theorem cis_note_storedAt (c : Cistern) (k p : Nat) (b : Bool) : (c.note k p b).storedAt = c.storedAt := by rfl
@[simp] theorem cis_note_spareFor (c : Cistern) (k p : Nat) (b : Bool) : (c.note k p b).spareFor = c.spareFor := by rfl
@[simp] theorem cis_note_dead (c : Cistern) (k p : Nat) (b : Bool) : (c.note k p b).dead = c.dead := by rfl
@[simp] theorem cis_note_spare0 (c : Cistern) (k p : Nat) (b : Bool) : (c.note k p b).spare0 = c.spare0 := by rfl
@[simp] theorem cis_note_spareAt (c : Cistern) (k p : Nat) (b : Bool) : (c.note k p b).spareAt = c.spareAt := by rfl
@[simp] theorem cis_note_warn (c : Cistern) (k p : Nat) (b : Bool) : (c.note k p b).warn = c.warn := by rfl
@[simp] theorem cis_note_session (c : Cistern) (k p : Nat) (b : Bool) : (c.note k p b).session = c.session := by rfl
@[simp] theorem cis_note_adjusts (c : Cistern) (k p : Nat) (b : Bool) : (c.note k p b).adjusts = c.adjusts := by rfl
@[simp] theorem cis_note_optical (c : Cistern) (k p : Nat) (b : Bool) : (c.note k p b).optical = c.optical := by rfl
@[simp] theorem cis_note_refused (c : Cistern) (k p : Nat) (b : Bool) : (c.note k p b).refused = c.refused := by rfl
@[simp] theorem cis_note_queue (c : Cistern) (k p : Nat) (b : Bool) : (c.note k p b).queue = c.queue := by rfl
@[simp] theorem cis_note_reply (c : Cistern) (k p : Nat) (b : Bool) : (c.note k p b).reply = c.reply := by rfl
@[simp] theorem cis_note_seq (c : Cistern) (k p : Nat) (b : Bool) : (c.note k p b).seq = c.seq := by rfl
@[simp] theorem cis_note_pos (c : Cistern) (k p : Nat) (b : Bool) : (c.note k p b).pos = c.pos := by rfl
@[simp] theorem cis_note_rms (c : Cistern) (k p : Nat) (b : Bool) : (c.note k p b).rms = c.rms := by rfl
@[simp] theorem cis_note_power (c : Cistern) (k p : Nat) (b : Bool) : (c.note k p b).power = c.power := by rfl
@[simp] theorem cis_note_freq (c : Cistern) (k p : Nat) (b : Bool) : (c.note k p b).freq = c.freq := by rfl
@[simp] theorem cis_note_tariff (c : Cistern) (k p : Nat) (b : Bool) : (c.note k p b).tariff = c.tariff := by rfl
@[simp] theorem cis_note_pulses (c : Cistern) (k p : Nat) (b : Bool) : (c.note k p b).pulses = c.pulses := by rfl
@[simp] theorem cis_note_pulseRest (c : Cistern) (k p : Nat) (b : Bool) : (c.note k p b).pulseRest = c.pulseRest := by rfl
@[simp] theorem cis_note_snap (c : Cistern) (k p : Nat) (b : Bool) : (c.note k p b).snap = c.snap := by rfl
@[simp] theorem cis_note_audit (c : Cistern) (k p : Nat) (b : Bool) : (c.note k p b).audit = if b then c.audit + 1 else c.audit := rfl
@[simp] theorem cis_note_log (c : Cistern) (k p : Nat) (b : Bool) : (c.note k p b).log = ((⟨k, c.sealed.toNat + 2 * c.clockBad.toNat, c.ctime, if b then c.audit + 1 else c.audit, BitVec.ofNat 32 p⟩ : CisRec) :: c.log).take 1024 := rfl
@[simp] theorem cis_onWork_on (c : Cistern) (f : CisData → CisData) : (c.onWork f).on = c.on := by rfl
@[simp] theorem cis_onWork_sealed (c : Cistern) (f : CisData → CisData) : (c.onWork f).sealed = c.sealed := by rfl
@[simp] theorem cis_onWork_clock (c : Cistern) (f : CisData → CisData) : (c.onWork f).clock = c.clock := by rfl
@[simp] theorem cis_onWork_clockBad (c : Cistern) (f : CisData → CisData) : (c.onWork f).clockBad = c.clockBad := by rfl
@[simp] theorem cis_onWork_clockSaved (c : Cistern) (f : CisData → CisData) : (c.onWork f).clockSaved = c.clockSaved := by rfl
@[simp] theorem cis_onWork_up (c : Cistern) (f : CisData → CisData) : (c.onWork f).up = c.up := by rfl
@[simp] theorem cis_onWork_calLeft (c : Cistern) (f : CisData → CisData) : (c.onWork f).calLeft = c.calLeft := by rfl
@[simp] theorem cis_onWork_set (c : Cistern) (f : CisData → CisData) : (c.onWork f).set = c.set := by rfl
@[simp] theorem cis_onWork_cal (c : Cistern) (f : CisData → CisData) : (c.onWork f).cal = c.cal := by rfl
@[simp] theorem cis_onWork_fwCrc (c : Cistern) (f : CisData → CisData) : (c.onWork f).fwCrc = c.fwCrc := by rfl
@[simp] theorem cis_onWork_swId (c : Cistern) (f : CisData → CisData) : (c.onWork f).swId = c.swId := by rfl
@[simp] theorem cis_onWork_audit (c : Cistern) (f : CisData → CisData) : (c.onWork f).audit = c.audit := by rfl
@[simp] theorem cis_onWork_rejects (c : Cistern) (f : CisData → CisData) : (c.onWork f).rejects = c.rejects := by rfl
@[simp] theorem cis_onWork_reqDropped (c : Cistern) (f : CisData → CisData) : (c.onWork f).reqDropped = c.reqDropped := by rfl
@[simp] theorem cis_onWork_log (c : Cistern) (f : CisData → CisData) : (c.onWork f).log = c.log := by rfl
@[simp] theorem cis_onWork_logCount (c : Cistern) (f : CisData → CisData) : (c.onWork f).logCount = c.logCount := by rfl
@[simp] theorem cis_onWork_stored (c : Cistern) (f : CisData → CisData) : (c.onWork f).stored = c.stored := by rfl
@[simp] theorem cis_onWork_storedAt (c : Cistern) (f : CisData → CisData) : (c.onWork f).storedAt = c.storedAt := by rfl
@[simp] theorem cis_onWork_spareFor (c : Cistern) (f : CisData → CisData) : (c.onWork f).spareFor = c.spareFor := by rfl
@[simp] theorem cis_onWork_dead (c : Cistern) (f : CisData → CisData) : (c.onWork f).dead = c.dead := by rfl
@[simp] theorem cis_onWork_spare0 (c : Cistern) (f : CisData → CisData) : (c.onWork f).spare0 = c.spare0 := by rfl
@[simp] theorem cis_onWork_spareAt (c : Cistern) (f : CisData → CisData) : (c.onWork f).spareAt = c.spareAt := by rfl
@[simp] theorem cis_onWork_warn (c : Cistern) (f : CisData → CisData) : (c.onWork f).warn = c.warn := by rfl
@[simp] theorem cis_onWork_session (c : Cistern) (f : CisData → CisData) : (c.onWork f).session = c.session := by rfl
@[simp] theorem cis_onWork_adjusts (c : Cistern) (f : CisData → CisData) : (c.onWork f).adjusts = c.adjusts := by rfl
@[simp] theorem cis_onWork_optical (c : Cistern) (f : CisData → CisData) : (c.onWork f).optical = c.optical := by rfl
@[simp] theorem cis_onWork_refused (c : Cistern) (f : CisData → CisData) : (c.onWork f).refused = c.refused := by rfl
@[simp] theorem cis_onWork_queue (c : Cistern) (f : CisData → CisData) : (c.onWork f).queue = c.queue := by rfl
@[simp] theorem cis_onWork_reply (c : Cistern) (f : CisData → CisData) : (c.onWork f).reply = c.reply := by rfl
@[simp] theorem cis_onWork_seq (c : Cistern) (f : CisData → CisData) : (c.onWork f).seq = c.seq := by rfl
@[simp] theorem cis_onWork_pos (c : Cistern) (f : CisData → CisData) : (c.onWork f).pos = c.pos := by rfl
@[simp] theorem cis_onWork_rms (c : Cistern) (f : CisData → CisData) : (c.onWork f).rms = c.rms := by rfl
@[simp] theorem cis_onWork_power (c : Cistern) (f : CisData → CisData) : (c.onWork f).power = c.power := by rfl
@[simp] theorem cis_onWork_freq (c : Cistern) (f : CisData → CisData) : (c.onWork f).freq = c.freq := by rfl
@[simp] theorem cis_onWork_tariff (c : Cistern) (f : CisData → CisData) : (c.onWork f).tariff = c.tariff := by rfl
@[simp] theorem cis_onWork_pulses (c : Cistern) (f : CisData → CisData) : (c.onWork f).pulses = c.pulses := by rfl
@[simp] theorem cis_onWork_pulseRest (c : Cistern) (f : CisData → CisData) : (c.onWork f).pulseRest = c.pulseRest := by rfl
@[simp] theorem cis_onWork_snap (c : Cistern) (f : CisData → CisData) : (c.onWork f).snap = c.snap := by rfl
@[simp] theorem cis_onWork_work (c : Cistern) (f : CisData → CisData) : (c.onWork f).work = f c.work := rfl
@[simp] theorem cis_profNote_on (c : Cistern) (n : Nat) : (c.profNote n).on = c.on := by rfl
@[simp] theorem cis_profNote_sealed (c : Cistern) (n : Nat) : (c.profNote n).sealed = c.sealed := by rfl
@[simp] theorem cis_profNote_clock (c : Cistern) (n : Nat) : (c.profNote n).clock = c.clock := by rfl
@[simp] theorem cis_profNote_clockBad (c : Cistern) (n : Nat) : (c.profNote n).clockBad = c.clockBad := by rfl
@[simp] theorem cis_profNote_clockSaved (c : Cistern) (n : Nat) : (c.profNote n).clockSaved = c.clockSaved := by rfl
@[simp] theorem cis_profNote_up (c : Cistern) (n : Nat) : (c.profNote n).up = c.up := by rfl
@[simp] theorem cis_profNote_calLeft (c : Cistern) (n : Nat) : (c.profNote n).calLeft = c.calLeft := by rfl
@[simp] theorem cis_profNote_set (c : Cistern) (n : Nat) : (c.profNote n).set = c.set := by rfl
@[simp] theorem cis_profNote_cal (c : Cistern) (n : Nat) : (c.profNote n).cal = c.cal := by rfl
@[simp] theorem cis_profNote_fwCrc (c : Cistern) (n : Nat) : (c.profNote n).fwCrc = c.fwCrc := by rfl
@[simp] theorem cis_profNote_swId (c : Cistern) (n : Nat) : (c.profNote n).swId = c.swId := by rfl
@[simp] theorem cis_profNote_audit (c : Cistern) (n : Nat) : (c.profNote n).audit = c.audit := by rfl
@[simp] theorem cis_profNote_rejects (c : Cistern) (n : Nat) : (c.profNote n).rejects = c.rejects := by rfl
@[simp] theorem cis_profNote_reqDropped (c : Cistern) (n : Nat) : (c.profNote n).reqDropped = c.reqDropped := by rfl
@[simp] theorem cis_profNote_log (c : Cistern) (n : Nat) : (c.profNote n).log = c.log := by rfl
@[simp] theorem cis_profNote_logCount (c : Cistern) (n : Nat) : (c.profNote n).logCount = c.logCount := by rfl
@[simp] theorem cis_profNote_stored (c : Cistern) (n : Nat) : (c.profNote n).stored = c.stored := by rfl
@[simp] theorem cis_profNote_storedAt (c : Cistern) (n : Nat) : (c.profNote n).storedAt = c.storedAt := by rfl
@[simp] theorem cis_profNote_spareFor (c : Cistern) (n : Nat) : (c.profNote n).spareFor = c.spareFor := by rfl
@[simp] theorem cis_profNote_dead (c : Cistern) (n : Nat) : (c.profNote n).dead = c.dead := by rfl
@[simp] theorem cis_profNote_spare0 (c : Cistern) (n : Nat) : (c.profNote n).spare0 = c.spare0 := by rfl
@[simp] theorem cis_profNote_spareAt (c : Cistern) (n : Nat) : (c.profNote n).spareAt = c.spareAt := by rfl
@[simp] theorem cis_profNote_warn (c : Cistern) (n : Nat) : (c.profNote n).warn = c.warn := by rfl
@[simp] theorem cis_profNote_session (c : Cistern) (n : Nat) : (c.profNote n).session = c.session := by rfl
@[simp] theorem cis_profNote_adjusts (c : Cistern) (n : Nat) : (c.profNote n).adjusts = c.adjusts := by rfl
@[simp] theorem cis_profNote_optical (c : Cistern) (n : Nat) : (c.profNote n).optical = c.optical := by rfl
@[simp] theorem cis_profNote_refused (c : Cistern) (n : Nat) : (c.profNote n).refused = c.refused := by rfl
@[simp] theorem cis_profNote_queue (c : Cistern) (n : Nat) : (c.profNote n).queue = c.queue := by rfl
@[simp] theorem cis_profNote_reply (c : Cistern) (n : Nat) : (c.profNote n).reply = c.reply := by rfl
@[simp] theorem cis_profNote_seq (c : Cistern) (n : Nat) : (c.profNote n).seq = c.seq := by rfl
@[simp] theorem cis_profNote_pos (c : Cistern) (n : Nat) : (c.profNote n).pos = c.pos := by rfl
@[simp] theorem cis_profNote_rms (c : Cistern) (n : Nat) : (c.profNote n).rms = c.rms := by rfl
@[simp] theorem cis_profNote_power (c : Cistern) (n : Nat) : (c.profNote n).power = c.power := by rfl
@[simp] theorem cis_profNote_freq (c : Cistern) (n : Nat) : (c.profNote n).freq = c.freq := by rfl
@[simp] theorem cis_profNote_tariff (c : Cistern) (n : Nat) : (c.profNote n).tariff = c.tariff := by rfl
@[simp] theorem cis_profNote_pulses (c : Cistern) (n : Nat) : (c.profNote n).pulses = c.pulses := by rfl
@[simp] theorem cis_profNote_pulseRest (c : Cistern) (n : Nat) : (c.profNote n).pulseRest = c.pulseRest := by rfl
@[simp] theorem cis_profNote_snap (c : Cistern) (n : Nat) : (c.profNote n).snap = c.snap := by rfl
@[simp] theorem cis_demShort_on (c : Cistern) (b : Bool) : (c.demShort b).on = c.on := by rfl
@[simp] theorem cis_demShort_sealed (c : Cistern) (b : Bool) : (c.demShort b).sealed = c.sealed := by rfl
@[simp] theorem cis_demShort_clock (c : Cistern) (b : Bool) : (c.demShort b).clock = c.clock := by rfl
@[simp] theorem cis_demShort_clockBad (c : Cistern) (b : Bool) : (c.demShort b).clockBad = c.clockBad := by rfl
@[simp] theorem cis_demShort_clockSaved (c : Cistern) (b : Bool) : (c.demShort b).clockSaved = c.clockSaved := by rfl
@[simp] theorem cis_demShort_up (c : Cistern) (b : Bool) : (c.demShort b).up = c.up := by rfl
@[simp] theorem cis_demShort_calLeft (c : Cistern) (b : Bool) : (c.demShort b).calLeft = c.calLeft := by rfl
@[simp] theorem cis_demShort_set (c : Cistern) (b : Bool) : (c.demShort b).set = c.set := by rfl
@[simp] theorem cis_demShort_cal (c : Cistern) (b : Bool) : (c.demShort b).cal = c.cal := by rfl
@[simp] theorem cis_demShort_fwCrc (c : Cistern) (b : Bool) : (c.demShort b).fwCrc = c.fwCrc := by rfl
@[simp] theorem cis_demShort_swId (c : Cistern) (b : Bool) : (c.demShort b).swId = c.swId := by rfl
@[simp] theorem cis_demShort_audit (c : Cistern) (b : Bool) : (c.demShort b).audit = c.audit := by rfl
@[simp] theorem cis_demShort_rejects (c : Cistern) (b : Bool) : (c.demShort b).rejects = c.rejects := by rfl
@[simp] theorem cis_demShort_reqDropped (c : Cistern) (b : Bool) : (c.demShort b).reqDropped = c.reqDropped := by rfl
@[simp] theorem cis_demShort_log (c : Cistern) (b : Bool) : (c.demShort b).log = c.log := by rfl
@[simp] theorem cis_demShort_logCount (c : Cistern) (b : Bool) : (c.demShort b).logCount = c.logCount := by rfl
@[simp] theorem cis_demShort_stored (c : Cistern) (b : Bool) : (c.demShort b).stored = c.stored := by rfl
@[simp] theorem cis_demShort_storedAt (c : Cistern) (b : Bool) : (c.demShort b).storedAt = c.storedAt := by rfl
@[simp] theorem cis_demShort_spareFor (c : Cistern) (b : Bool) : (c.demShort b).spareFor = c.spareFor := by rfl
@[simp] theorem cis_demShort_dead (c : Cistern) (b : Bool) : (c.demShort b).dead = c.dead := by rfl
@[simp] theorem cis_demShort_spare0 (c : Cistern) (b : Bool) : (c.demShort b).spare0 = c.spare0 := by rfl
@[simp] theorem cis_demShort_spareAt (c : Cistern) (b : Bool) : (c.demShort b).spareAt = c.spareAt := by rfl
@[simp] theorem cis_demShort_warn (c : Cistern) (b : Bool) : (c.demShort b).warn = c.warn := by rfl
@[simp] theorem cis_demShort_session (c : Cistern) (b : Bool) : (c.demShort b).session = c.session := by rfl
@[simp] theorem cis_demShort_adjusts (c : Cistern) (b : Bool) : (c.demShort b).adjusts = c.adjusts := by rfl
@[simp] theorem cis_demShort_optical (c : Cistern) (b : Bool) : (c.demShort b).optical = c.optical := by rfl
@[simp] theorem cis_demShort_refused (c : Cistern) (b : Bool) : (c.demShort b).refused = c.refused := by rfl
@[simp] theorem cis_demShort_queue (c : Cistern) (b : Bool) : (c.demShort b).queue = c.queue := by rfl
@[simp] theorem cis_demShort_reply (c : Cistern) (b : Bool) : (c.demShort b).reply = c.reply := by rfl
@[simp] theorem cis_demShort_seq (c : Cistern) (b : Bool) : (c.demShort b).seq = c.seq := by rfl
@[simp] theorem cis_demShort_pos (c : Cistern) (b : Bool) : (c.demShort b).pos = c.pos := by rfl
@[simp] theorem cis_demShort_rms (c : Cistern) (b : Bool) : (c.demShort b).rms = c.rms := by rfl
@[simp] theorem cis_demShort_power (c : Cistern) (b : Bool) : (c.demShort b).power = c.power := by rfl
@[simp] theorem cis_demShort_freq (c : Cistern) (b : Bool) : (c.demShort b).freq = c.freq := by rfl
@[simp] theorem cis_demShort_tariff (c : Cistern) (b : Bool) : (c.demShort b).tariff = c.tariff := by rfl
@[simp] theorem cis_demShort_pulses (c : Cistern) (b : Bool) : (c.demShort b).pulses = c.pulses := by rfl
@[simp] theorem cis_demShort_pulseRest (c : Cistern) (b : Bool) : (c.demShort b).pulseRest = c.pulseRest := by rfl
@[simp] theorem cis_demShort_snap (c : Cistern) (b : Bool) : (c.demShort b).snap = c.snap := by rfl
@[simp] theorem cis_refuse_on (c : Cistern) : (c.refuse).on = c.on := by rfl
@[simp] theorem cis_refuse_sealed (c : Cistern) : (c.refuse).sealed = c.sealed := by rfl
@[simp] theorem cis_refuse_clock (c : Cistern) : (c.refuse).clock = c.clock := by rfl
@[simp] theorem cis_refuse_clockBad (c : Cistern) : (c.refuse).clockBad = c.clockBad := by rfl
@[simp] theorem cis_refuse_clockSaved (c : Cistern) : (c.refuse).clockSaved = c.clockSaved := by rfl
@[simp] theorem cis_refuse_up (c : Cistern) : (c.refuse).up = c.up := by rfl
@[simp] theorem cis_refuse_calLeft (c : Cistern) : (c.refuse).calLeft = c.calLeft := by rfl
@[simp] theorem cis_refuse_set (c : Cistern) : (c.refuse).set = c.set := by rfl
@[simp] theorem cis_refuse_cal (c : Cistern) : (c.refuse).cal = c.cal := by rfl
@[simp] theorem cis_refuse_fwCrc (c : Cistern) : (c.refuse).fwCrc = c.fwCrc := by rfl
@[simp] theorem cis_refuse_swId (c : Cistern) : (c.refuse).swId = c.swId := by rfl
@[simp] theorem cis_refuse_audit (c : Cistern) : (c.refuse).audit = c.audit := by rfl
@[simp] theorem cis_refuse_rejects (c : Cistern) : (c.refuse).rejects = c.rejects := by rfl
@[simp] theorem cis_refuse_reqDropped (c : Cistern) : (c.refuse).reqDropped = c.reqDropped := by rfl
@[simp] theorem cis_refuse_log (c : Cistern) : (c.refuse).log = c.log := by rfl
@[simp] theorem cis_refuse_logCount (c : Cistern) : (c.refuse).logCount = c.logCount := by rfl
@[simp] theorem cis_refuse_work (c : Cistern) : (c.refuse).work = c.work := by rfl
@[simp] theorem cis_refuse_stored (c : Cistern) : (c.refuse).stored = c.stored := by rfl
@[simp] theorem cis_refuse_storedAt (c : Cistern) : (c.refuse).storedAt = c.storedAt := by rfl
@[simp] theorem cis_refuse_spareFor (c : Cistern) : (c.refuse).spareFor = c.spareFor := by rfl
@[simp] theorem cis_refuse_dead (c : Cistern) : (c.refuse).dead = c.dead := by rfl
@[simp] theorem cis_refuse_spare0 (c : Cistern) : (c.refuse).spare0 = c.spare0 := by rfl
@[simp] theorem cis_refuse_spareAt (c : Cistern) : (c.refuse).spareAt = c.spareAt := by rfl
@[simp] theorem cis_refuse_warn (c : Cistern) : (c.refuse).warn = c.warn := by rfl
@[simp] theorem cis_refuse_session (c : Cistern) : (c.refuse).session = c.session := by rfl
@[simp] theorem cis_refuse_adjusts (c : Cistern) : (c.refuse).adjusts = c.adjusts := by rfl
@[simp] theorem cis_refuse_queue (c : Cistern) : (c.refuse).queue = c.queue := by rfl
@[simp] theorem cis_refuse_reply (c : Cistern) : (c.refuse).reply = c.reply := by rfl
@[simp] theorem cis_refuse_seq (c : Cistern) : (c.refuse).seq = c.seq := by rfl
@[simp] theorem cis_refuse_pos (c : Cistern) : (c.refuse).pos = c.pos := by rfl
@[simp] theorem cis_refuse_rms (c : Cistern) : (c.refuse).rms = c.rms := by rfl
@[simp] theorem cis_refuse_power (c : Cistern) : (c.refuse).power = c.power := by rfl
@[simp] theorem cis_refuse_freq (c : Cistern) : (c.refuse).freq = c.freq := by rfl
@[simp] theorem cis_refuse_tariff (c : Cistern) : (c.refuse).tariff = c.tariff := by rfl
@[simp] theorem cis_refuse_pulses (c : Cistern) : (c.refuse).pulses = c.pulses := by rfl
@[simp] theorem cis_refuse_pulseRest (c : Cistern) : (c.refuse).pulseRest = c.pulseRest := by rfl
@[simp] theorem cis_refuse_snap (c : Cistern) : (c.refuse).snap = c.snap := by rfl
@[simp] theorem cis_accept_on (c : Cistern) : (c.accept).on = c.on := by rfl
@[simp] theorem cis_accept_sealed (c : Cistern) : (c.accept).sealed = c.sealed := by rfl
@[simp] theorem cis_accept_clock (c : Cistern) : (c.accept).clock = c.clock := by rfl
@[simp] theorem cis_accept_clockBad (c : Cistern) : (c.accept).clockBad = c.clockBad := by rfl
@[simp] theorem cis_accept_clockSaved (c : Cistern) : (c.accept).clockSaved = c.clockSaved := by rfl
@[simp] theorem cis_accept_up (c : Cistern) : (c.accept).up = c.up := by rfl
@[simp] theorem cis_accept_calLeft (c : Cistern) : (c.accept).calLeft = c.calLeft := by rfl
@[simp] theorem cis_accept_set (c : Cistern) : (c.accept).set = c.set := by rfl
@[simp] theorem cis_accept_cal (c : Cistern) : (c.accept).cal = c.cal := by rfl
@[simp] theorem cis_accept_fwCrc (c : Cistern) : (c.accept).fwCrc = c.fwCrc := by rfl
@[simp] theorem cis_accept_swId (c : Cistern) : (c.accept).swId = c.swId := by rfl
@[simp] theorem cis_accept_audit (c : Cistern) : (c.accept).audit = c.audit := by rfl
@[simp] theorem cis_accept_rejects (c : Cistern) : (c.accept).rejects = c.rejects := by rfl
@[simp] theorem cis_accept_reqDropped (c : Cistern) : (c.accept).reqDropped = c.reqDropped := by rfl
@[simp] theorem cis_accept_log (c : Cistern) : (c.accept).log = c.log := by rfl
@[simp] theorem cis_accept_logCount (c : Cistern) : (c.accept).logCount = c.logCount := by rfl
@[simp] theorem cis_accept_work (c : Cistern) : (c.accept).work = c.work := by rfl
@[simp] theorem cis_accept_stored (c : Cistern) : (c.accept).stored = c.stored := by rfl
@[simp] theorem cis_accept_storedAt (c : Cistern) : (c.accept).storedAt = c.storedAt := by rfl
@[simp] theorem cis_accept_spareFor (c : Cistern) : (c.accept).spareFor = c.spareFor := by rfl
@[simp] theorem cis_accept_dead (c : Cistern) : (c.accept).dead = c.dead := by rfl
@[simp] theorem cis_accept_spare0 (c : Cistern) : (c.accept).spare0 = c.spare0 := by rfl
@[simp] theorem cis_accept_spareAt (c : Cistern) : (c.accept).spareAt = c.spareAt := by rfl
@[simp] theorem cis_accept_warn (c : Cistern) : (c.accept).warn = c.warn := by rfl
@[simp] theorem cis_accept_adjusts (c : Cistern) : (c.accept).adjusts = c.adjusts := by rfl
@[simp] theorem cis_accept_queue (c : Cistern) : (c.accept).queue = c.queue := by rfl
@[simp] theorem cis_accept_reply (c : Cistern) : (c.accept).reply = c.reply := by rfl
@[simp] theorem cis_accept_seq (c : Cistern) : (c.accept).seq = c.seq := by rfl
@[simp] theorem cis_accept_pos (c : Cistern) : (c.accept).pos = c.pos := by rfl
@[simp] theorem cis_accept_rms (c : Cistern) : (c.accept).rms = c.rms := by rfl
@[simp] theorem cis_accept_power (c : Cistern) : (c.accept).power = c.power := by rfl
@[simp] theorem cis_accept_freq (c : Cistern) : (c.accept).freq = c.freq := by rfl
@[simp] theorem cis_accept_tariff (c : Cistern) : (c.accept).tariff = c.tariff := by rfl
@[simp] theorem cis_accept_pulses (c : Cistern) : (c.accept).pulses = c.pulses := by rfl
@[simp] theorem cis_accept_pulseRest (c : Cistern) : (c.accept).pulseRest = c.pulseRest := by rfl
@[simp] theorem cis_accept_snap (c : Cistern) : (c.accept).snap = c.snap := by rfl
@[simp] theorem cis_reject_on (c : Cistern) : (c.reject).on = c.on := by unfold Cistern.reject; dsimp only; split <;> (try split) <;> rfl
@[simp] theorem cis_reject_sealed (c : Cistern) : (c.reject).sealed = c.sealed := by unfold Cistern.reject; dsimp only; split <;> (try split) <;> rfl
@[simp] theorem cis_reject_clock (c : Cistern) : (c.reject).clock = c.clock := by unfold Cistern.reject; dsimp only; split <;> (try split) <;> rfl
@[simp] theorem cis_reject_clockBad (c : Cistern) : (c.reject).clockBad = c.clockBad := by unfold Cistern.reject; dsimp only; split <;> (try split) <;> rfl
@[simp] theorem cis_reject_clockSaved (c : Cistern) : (c.reject).clockSaved = c.clockSaved := by unfold Cistern.reject; dsimp only; split <;> (try split) <;> rfl
@[simp] theorem cis_reject_up (c : Cistern) : (c.reject).up = c.up := by unfold Cistern.reject; dsimp only; split <;> (try split) <;> rfl
@[simp] theorem cis_reject_calLeft (c : Cistern) : (c.reject).calLeft = c.calLeft := by unfold Cistern.reject; dsimp only; split <;> (try split) <;> rfl
@[simp] theorem cis_reject_set (c : Cistern) : (c.reject).set = c.set := by unfold Cistern.reject; dsimp only; split <;> (try split) <;> rfl
@[simp] theorem cis_reject_cal (c : Cistern) : (c.reject).cal = c.cal := by unfold Cistern.reject; dsimp only; split <;> (try split) <;> rfl
@[simp] theorem cis_reject_fwCrc (c : Cistern) : (c.reject).fwCrc = c.fwCrc := by unfold Cistern.reject; dsimp only; split <;> (try split) <;> rfl
@[simp] theorem cis_reject_swId (c : Cistern) : (c.reject).swId = c.swId := by unfold Cistern.reject; dsimp only; split <;> (try split) <;> rfl
@[simp] theorem cis_reject_audit (c : Cistern) : (c.reject).audit = c.audit := by unfold Cistern.reject; dsimp only; split <;> (try split) <;> rfl
@[simp] theorem cis_reject_reqDropped (c : Cistern) : (c.reject).reqDropped = c.reqDropped := by unfold Cistern.reject; dsimp only; split <;> (try split) <;> rfl
@[simp] theorem cis_reject_work (c : Cistern) : (c.reject).work = c.work := by unfold Cistern.reject; dsimp only; split <;> (try split) <;> rfl
@[simp] theorem cis_reject_stored (c : Cistern) : (c.reject).stored = c.stored := by unfold Cistern.reject; dsimp only; split <;> (try split) <;> rfl
@[simp] theorem cis_reject_storedAt (c : Cistern) : (c.reject).storedAt = c.storedAt := by unfold Cistern.reject; dsimp only; split <;> (try split) <;> rfl
@[simp] theorem cis_reject_spareFor (c : Cistern) : (c.reject).spareFor = c.spareFor := by unfold Cistern.reject; dsimp only; split <;> (try split) <;> rfl
@[simp] theorem cis_reject_dead (c : Cistern) : (c.reject).dead = c.dead := by unfold Cistern.reject; dsimp only; split <;> (try split) <;> rfl
@[simp] theorem cis_reject_spare0 (c : Cistern) : (c.reject).spare0 = c.spare0 := by unfold Cistern.reject; dsimp only; split <;> (try split) <;> rfl
@[simp] theorem cis_reject_spareAt (c : Cistern) : (c.reject).spareAt = c.spareAt := by unfold Cistern.reject; dsimp only; split <;> (try split) <;> rfl
@[simp] theorem cis_reject_warn (c : Cistern) : (c.reject).warn = c.warn := by unfold Cistern.reject; dsimp only; split <;> (try split) <;> rfl
@[simp] theorem cis_reject_session (c : Cistern) : (c.reject).session = c.session := by unfold Cistern.reject; dsimp only; split <;> (try split) <;> rfl
@[simp] theorem cis_reject_adjusts (c : Cistern) : (c.reject).adjusts = c.adjusts := by unfold Cistern.reject; dsimp only; split <;> (try split) <;> rfl
@[simp] theorem cis_reject_optical (c : Cistern) : (c.reject).optical = c.optical := by unfold Cistern.reject; dsimp only; split <;> (try split) <;> rfl
@[simp] theorem cis_reject_refused (c : Cistern) : (c.reject).refused = c.refused := by unfold Cistern.reject; dsimp only; split <;> (try split) <;> rfl
@[simp] theorem cis_reject_queue (c : Cistern) : (c.reject).queue = c.queue := by unfold Cistern.reject; dsimp only; split <;> (try split) <;> rfl
@[simp] theorem cis_reject_reply (c : Cistern) : (c.reject).reply = c.reply := by unfold Cistern.reject; dsimp only; split <;> (try split) <;> rfl
@[simp] theorem cis_reject_seq (c : Cistern) : (c.reject).seq = c.seq := by unfold Cistern.reject; dsimp only; split <;> (try split) <;> rfl
@[simp] theorem cis_reject_pos (c : Cistern) : (c.reject).pos = c.pos := by unfold Cistern.reject; dsimp only; split <;> (try split) <;> rfl
@[simp] theorem cis_reject_rms (c : Cistern) : (c.reject).rms = c.rms := by unfold Cistern.reject; dsimp only; split <;> (try split) <;> rfl
@[simp] theorem cis_reject_power (c : Cistern) : (c.reject).power = c.power := by unfold Cistern.reject; dsimp only; split <;> (try split) <;> rfl
@[simp] theorem cis_reject_freq (c : Cistern) : (c.reject).freq = c.freq := by unfold Cistern.reject; dsimp only; split <;> (try split) <;> rfl
@[simp] theorem cis_reject_tariff (c : Cistern) : (c.reject).tariff = c.tariff := by unfold Cistern.reject; dsimp only; split <;> (try split) <;> rfl
@[simp] theorem cis_reject_pulses (c : Cistern) : (c.reject).pulses = c.pulses := by unfold Cistern.reject; dsimp only; split <;> (try split) <;> rfl
@[simp] theorem cis_reject_pulseRest (c : Cistern) : (c.reject).pulseRest = c.pulseRest := by unfold Cistern.reject; dsimp only; split <;> (try split) <;> rfl
@[simp] theorem cis_reject_snap (c : Cistern) : (c.reject).snap = c.snap := by unfold Cistern.reject; dsimp only; split <;> (try split) <;> rfl
@[simp] theorem cis_register_on (c : Cistern) (t : Nat) (p q : Int) (x y z : Nat) : (c.register t p q x y z).on = c.on := by unfold Cistern.register; rfl
@[simp] theorem cis_register_sealed (c : Cistern) (t : Nat) (p q : Int) (x y z : Nat) : (c.register t p q x y z).sealed = c.sealed := by unfold Cistern.register; rfl
@[simp] theorem cis_register_clock (c : Cistern) (t : Nat) (p q : Int) (x y z : Nat) : (c.register t p q x y z).clock = c.clock := by unfold Cistern.register; rfl
@[simp] theorem cis_register_clockBad (c : Cistern) (t : Nat) (p q : Int) (x y z : Nat) : (c.register t p q x y z).clockBad = c.clockBad := by unfold Cistern.register; rfl
@[simp] theorem cis_register_clockSaved (c : Cistern) (t : Nat) (p q : Int) (x y z : Nat) : (c.register t p q x y z).clockSaved = c.clockSaved := by unfold Cistern.register; rfl
@[simp] theorem cis_register_up (c : Cistern) (t : Nat) (p q : Int) (x y z : Nat) : (c.register t p q x y z).up = c.up := by unfold Cistern.register; rfl
@[simp] theorem cis_register_calLeft (c : Cistern) (t : Nat) (p q : Int) (x y z : Nat) : (c.register t p q x y z).calLeft = c.calLeft := by unfold Cistern.register; rfl
@[simp] theorem cis_register_set (c : Cistern) (t : Nat) (p q : Int) (x y z : Nat) : (c.register t p q x y z).set = c.set := by unfold Cistern.register; rfl
@[simp] theorem cis_register_cal (c : Cistern) (t : Nat) (p q : Int) (x y z : Nat) : (c.register t p q x y z).cal = c.cal := by unfold Cistern.register; rfl
@[simp] theorem cis_register_fwCrc (c : Cistern) (t : Nat) (p q : Int) (x y z : Nat) : (c.register t p q x y z).fwCrc = c.fwCrc := by unfold Cistern.register; rfl
@[simp] theorem cis_register_swId (c : Cistern) (t : Nat) (p q : Int) (x y z : Nat) : (c.register t p q x y z).swId = c.swId := by unfold Cistern.register; rfl
@[simp] theorem cis_register_audit (c : Cistern) (t : Nat) (p q : Int) (x y z : Nat) : (c.register t p q x y z).audit = c.audit := by unfold Cistern.register; rfl
@[simp] theorem cis_register_rejects (c : Cistern) (t : Nat) (p q : Int) (x y z : Nat) : (c.register t p q x y z).rejects = c.rejects := by unfold Cistern.register; rfl
@[simp] theorem cis_register_reqDropped (c : Cistern) (t : Nat) (p q : Int) (x y z : Nat) : (c.register t p q x y z).reqDropped = c.reqDropped := by unfold Cistern.register; rfl
@[simp] theorem cis_register_log (c : Cistern) (t : Nat) (p q : Int) (x y z : Nat) : (c.register t p q x y z).log = c.log := by unfold Cistern.register; rfl
@[simp] theorem cis_register_logCount (c : Cistern) (t : Nat) (p q : Int) (x y z : Nat) : (c.register t p q x y z).logCount = c.logCount := by unfold Cistern.register; rfl
@[simp] theorem cis_register_stored (c : Cistern) (t : Nat) (p q : Int) (x y z : Nat) : (c.register t p q x y z).stored = c.stored := by unfold Cistern.register; rfl
@[simp] theorem cis_register_storedAt (c : Cistern) (t : Nat) (p q : Int) (x y z : Nat) : (c.register t p q x y z).storedAt = c.storedAt := by unfold Cistern.register; rfl
@[simp] theorem cis_register_spareFor (c : Cistern) (t : Nat) (p q : Int) (x y z : Nat) : (c.register t p q x y z).spareFor = c.spareFor := by unfold Cistern.register; rfl
@[simp] theorem cis_register_dead (c : Cistern) (t : Nat) (p q : Int) (x y z : Nat) : (c.register t p q x y z).dead = c.dead := by unfold Cistern.register; rfl
@[simp] theorem cis_register_spare0 (c : Cistern) (t : Nat) (p q : Int) (x y z : Nat) : (c.register t p q x y z).spare0 = c.spare0 := by unfold Cistern.register; rfl
@[simp] theorem cis_register_spareAt (c : Cistern) (t : Nat) (p q : Int) (x y z : Nat) : (c.register t p q x y z).spareAt = c.spareAt := by unfold Cistern.register; rfl
@[simp] theorem cis_register_warn (c : Cistern) (t : Nat) (p q : Int) (x y z : Nat) : (c.register t p q x y z).warn = c.warn := by unfold Cistern.register; rfl
@[simp] theorem cis_register_session (c : Cistern) (t : Nat) (p q : Int) (x y z : Nat) : (c.register t p q x y z).session = c.session := by unfold Cistern.register; rfl
@[simp] theorem cis_register_adjusts (c : Cistern) (t : Nat) (p q : Int) (x y z : Nat) : (c.register t p q x y z).adjusts = c.adjusts := by unfold Cistern.register; rfl
@[simp] theorem cis_register_optical (c : Cistern) (t : Nat) (p q : Int) (x y z : Nat) : (c.register t p q x y z).optical = c.optical := by unfold Cistern.register; rfl
@[simp] theorem cis_register_refused (c : Cistern) (t : Nat) (p q : Int) (x y z : Nat) : (c.register t p q x y z).refused = c.refused := by unfold Cistern.register; rfl
@[simp] theorem cis_register_queue (c : Cistern) (t : Nat) (p q : Int) (x y z : Nat) : (c.register t p q x y z).queue = c.queue := by unfold Cistern.register; rfl
@[simp] theorem cis_register_reply (c : Cistern) (t : Nat) (p q : Int) (x y z : Nat) : (c.register t p q x y z).reply = c.reply := by unfold Cistern.register; rfl
@[simp] theorem cis_register_seq (c : Cistern) (t : Nat) (p q : Int) (x y z : Nat) : (c.register t p q x y z).seq = c.seq := by unfold Cistern.register; rfl
@[simp] theorem cis_register_pos (c : Cistern) (t : Nat) (p q : Int) (x y z : Nat) : (c.register t p q x y z).pos = c.pos := by unfold Cistern.register; rfl
@[simp] theorem cis_register_rms (c : Cistern) (t : Nat) (p q : Int) (x y z : Nat) : (c.register t p q x y z).rms = c.rms := by unfold Cistern.register; rfl
@[simp] theorem cis_register_power (c : Cistern) (t : Nat) (p q : Int) (x y z : Nat) : (c.register t p q x y z).power = c.power := by unfold Cistern.register; rfl
@[simp] theorem cis_register_freq (c : Cistern) (t : Nat) (p q : Int) (x y z : Nat) : (c.register t p q x y z).freq = c.freq := by unfold Cistern.register; rfl
@[simp] theorem cis_register_tariff (c : Cistern) (t : Nat) (p q : Int) (x y z : Nat) : (c.register t p q x y z).tariff = c.tariff := by unfold Cistern.register; rfl
@[simp] theorem cis_register_snap (c : Cistern) (t : Nat) (p q : Int) (x y z : Nat) : (c.register t p q x y z).snap = c.snap := by unfold Cistern.register; rfl
@[simp] theorem cis_measure_on (c : Cistern) (l : List CisSample) : (c.measure l).on = c.on := by 
  unfold Cistern.measure; dsimp only
  split
  · rfl
  · split
    · rfl
    · rw [cis_register_on]
@[simp] theorem cis_measure_sealed (c : Cistern) (l : List CisSample) : (c.measure l).sealed = c.sealed := by 
  unfold Cistern.measure; dsimp only
  split
  · rfl
  · split
    · rfl
    · rw [cis_register_sealed]
@[simp] theorem cis_measure_clock (c : Cistern) (l : List CisSample) : (c.measure l).clock = c.clock := by 
  unfold Cistern.measure; dsimp only
  split
  · rfl
  · split
    · rfl
    · rw [cis_register_clock]
@[simp] theorem cis_measure_clockBad (c : Cistern) (l : List CisSample) : (c.measure l).clockBad = c.clockBad := by 
  unfold Cistern.measure; dsimp only
  split
  · rfl
  · split
    · rfl
    · rw [cis_register_clockBad]
@[simp] theorem cis_measure_clockSaved (c : Cistern) (l : List CisSample) : (c.measure l).clockSaved = c.clockSaved := by 
  unfold Cistern.measure; dsimp only
  split
  · rfl
  · split
    · rfl
    · rw [cis_register_clockSaved]
@[simp] theorem cis_measure_up (c : Cistern) (l : List CisSample) : (c.measure l).up = c.up := by 
  unfold Cistern.measure; dsimp only
  split
  · rfl
  · split
    · rfl
    · rw [cis_register_up]
@[simp] theorem cis_measure_calLeft (c : Cistern) (l : List CisSample) : (c.measure l).calLeft = c.calLeft := by 
  unfold Cistern.measure; dsimp only
  split
  · rfl
  · split
    · rfl
    · rw [cis_register_calLeft]
@[simp] theorem cis_measure_set (c : Cistern) (l : List CisSample) : (c.measure l).set = c.set := by 
  unfold Cistern.measure; dsimp only
  split
  · rfl
  · split
    · rfl
    · rw [cis_register_set]
@[simp] theorem cis_measure_cal (c : Cistern) (l : List CisSample) : (c.measure l).cal = c.cal := by 
  unfold Cistern.measure; dsimp only
  split
  · rfl
  · split
    · rfl
    · rw [cis_register_cal]
@[simp] theorem cis_measure_fwCrc (c : Cistern) (l : List CisSample) : (c.measure l).fwCrc = c.fwCrc := by 
  unfold Cistern.measure; dsimp only
  split
  · rfl
  · split
    · rfl
    · rw [cis_register_fwCrc]
@[simp] theorem cis_measure_swId (c : Cistern) (l : List CisSample) : (c.measure l).swId = c.swId := by 
  unfold Cistern.measure; dsimp only
  split
  · rfl
  · split
    · rfl
    · rw [cis_register_swId]
@[simp] theorem cis_measure_audit (c : Cistern) (l : List CisSample) : (c.measure l).audit = c.audit := by 
  unfold Cistern.measure; dsimp only
  split
  · rfl
  · split
    · rfl
    · rw [cis_register_audit]
@[simp] theorem cis_measure_rejects (c : Cistern) (l : List CisSample) : (c.measure l).rejects = c.rejects := by 
  unfold Cistern.measure; dsimp only
  split
  · rfl
  · split
    · rfl
    · rw [cis_register_rejects]
@[simp] theorem cis_measure_reqDropped (c : Cistern) (l : List CisSample) : (c.measure l).reqDropped = c.reqDropped := by 
  unfold Cistern.measure; dsimp only
  split
  · rfl
  · split
    · rfl
    · rw [cis_register_reqDropped]
@[simp] theorem cis_measure_log (c : Cistern) (l : List CisSample) : (c.measure l).log = c.log := by 
  unfold Cistern.measure; dsimp only
  split
  · rfl
  · split
    · rfl
    · rw [cis_register_log]
@[simp] theorem cis_measure_logCount (c : Cistern) (l : List CisSample) : (c.measure l).logCount = c.logCount := by 
  unfold Cistern.measure; dsimp only
  split
  · rfl
  · split
    · rfl
    · rw [cis_register_logCount]
@[simp] theorem cis_measure_stored (c : Cistern) (l : List CisSample) : (c.measure l).stored = c.stored := by 
  unfold Cistern.measure; dsimp only
  split
  · rfl
  · split
    · rfl
    · rw [cis_register_stored]
@[simp] theorem cis_measure_storedAt (c : Cistern) (l : List CisSample) : (c.measure l).storedAt = c.storedAt := by 
  unfold Cistern.measure; dsimp only
  split
  · rfl
  · split
    · rfl
    · rw [cis_register_storedAt]
@[simp] theorem cis_measure_spareFor (c : Cistern) (l : List CisSample) : (c.measure l).spareFor = c.spareFor := by 
  unfold Cistern.measure; dsimp only
  split
  · rfl
  · split
    · rfl
    · rw [cis_register_spareFor]
@[simp] theorem cis_measure_dead (c : Cistern) (l : List CisSample) : (c.measure l).dead = c.dead := by 
  unfold Cistern.measure; dsimp only
  split
  · rfl
  · split
    · rfl
    · rw [cis_register_dead]
@[simp] theorem cis_measure_spare0 (c : Cistern) (l : List CisSample) : (c.measure l).spare0 = c.spare0 := by 
  unfold Cistern.measure; dsimp only
  split
  · rfl
  · split
    · rfl
    · rw [cis_register_spare0]
@[simp] theorem cis_measure_spareAt (c : Cistern) (l : List CisSample) : (c.measure l).spareAt = c.spareAt := by 
  unfold Cistern.measure; dsimp only
  split
  · rfl
  · split
    · rfl
    · rw [cis_register_spareAt]
@[simp] theorem cis_measure_warn (c : Cistern) (l : List CisSample) : (c.measure l).warn = c.warn := by 
  unfold Cistern.measure; dsimp only
  split
  · rfl
  · split
    · rfl
    · rw [cis_register_warn]
@[simp] theorem cis_measure_session (c : Cistern) (l : List CisSample) : (c.measure l).session = c.session := by 
  unfold Cistern.measure; dsimp only
  split
  · rfl
  · split
    · rfl
    · rw [cis_register_session]
@[simp] theorem cis_measure_adjusts (c : Cistern) (l : List CisSample) : (c.measure l).adjusts = c.adjusts := by 
  unfold Cistern.measure; dsimp only
  split
  · rfl
  · split
    · rfl
    · rw [cis_register_adjusts]
@[simp] theorem cis_measure_optical (c : Cistern) (l : List CisSample) : (c.measure l).optical = c.optical := by 
  unfold Cistern.measure; dsimp only
  split
  · rfl
  · split
    · rfl
    · rw [cis_register_optical]
@[simp] theorem cis_measure_refused (c : Cistern) (l : List CisSample) : (c.measure l).refused = c.refused := by 
  unfold Cistern.measure; dsimp only
  split
  · rfl
  · split
    · rfl
    · rw [cis_register_refused]
@[simp] theorem cis_measure_queue (c : Cistern) (l : List CisSample) : (c.measure l).queue = c.queue := by 
  unfold Cistern.measure; dsimp only
  split
  · rfl
  · split
    · rfl
    · rw [cis_register_queue]
@[simp] theorem cis_measure_reply (c : Cistern) (l : List CisSample) : (c.measure l).reply = c.reply := by 
  unfold Cistern.measure; dsimp only
  split
  · rfl
  · split
    · rfl
    · rw [cis_register_reply]
@[simp] theorem cis_measure_seq (c : Cistern) (l : List CisSample) : (c.measure l).seq = c.seq := by 
  unfold Cistern.measure; dsimp only
  split
  · rfl
  · split
    · rfl
    · rw [cis_register_seq]
@[simp] theorem cis_measure_pos (c : Cistern) (l : List CisSample) : (c.measure l).pos = c.pos := by 
  unfold Cistern.measure; dsimp only
  split
  · rfl
  · split
    · rfl
    · rw [cis_register_pos]
@[simp] theorem cis_measure_freq (c : Cistern) (l : List CisSample) : (c.measure l).freq = c.freq := by 
  unfold Cistern.measure; dsimp only
  split
  · rfl
  · split
    · rfl
    · rw [cis_register_freq]
@[simp] theorem cis_measure_tariff (c : Cistern) (l : List CisSample) : (c.measure l).tariff = c.tariff := by 
  unfold Cistern.measure; dsimp only
  split
  · rfl
  · split
    · rfl
    · rw [cis_register_tariff]
@[simp] theorem cis_measure_snap (c : Cistern) (l : List CisSample) : (c.measure l).snap = c.snap := by 
  unfold Cistern.measure; dsimp only
  split
  · rfl
  · split
    · rfl
    · rw [cis_register_snap]
theorem cis_takeFold_on (bad : Nat → Bool) (l : List Nat) (c : Cistern) : (l.foldl (fun (c : Cistern) i =>
    if !bad i then c
    else
      let c := c.note 0x60 i false
      if c.spareFor.isNone && !bad 8 then { c with spareFor := some i }
      else { c with dead := vput c.dead i true }.note 0x62 i false) c).on = c.on := by
  induction l generalizing c with
  | nil => rfl
  | cons i l ih =>
    rw [List.foldl_cons, ih]
    split
    · rfl
    · dsimp only; split <;> rfl
@[simp] theorem cis_takeSlices_on (c : Cistern) (p : Vector CalPoints 9) : (c.takeSlices p).on = c.on := by
  unfold Cistern.takeSlices
  dsimp only
  rw [cis_takeFold_on (fun i => (calFactors (vat p i)).isNone)]
  split <;> rfl
theorem cis_takeFold_sealed (bad : Nat → Bool) (l : List Nat) (c : Cistern) : (l.foldl (fun (c : Cistern) i =>
    if !bad i then c
    else
      let c := c.note 0x60 i false
      if c.spareFor.isNone && !bad 8 then { c with spareFor := some i }
      else { c with dead := vput c.dead i true }.note 0x62 i false) c).sealed = c.sealed := by
  induction l generalizing c with
  | nil => rfl
  | cons i l ih =>
    rw [List.foldl_cons, ih]
    split
    · rfl
    · dsimp only; split <;> rfl
@[simp] theorem cis_takeSlices_sealed (c : Cistern) (p : Vector CalPoints 9) : (c.takeSlices p).sealed = c.sealed := by
  unfold Cistern.takeSlices
  dsimp only
  rw [cis_takeFold_sealed (fun i => (calFactors (vat p i)).isNone)]
  split <;> rfl
theorem cis_takeFold_clock (bad : Nat → Bool) (l : List Nat) (c : Cistern) : (l.foldl (fun (c : Cistern) i =>
    if !bad i then c
    else
      let c := c.note 0x60 i false
      if c.spareFor.isNone && !bad 8 then { c with spareFor := some i }
      else { c with dead := vput c.dead i true }.note 0x62 i false) c).clock = c.clock := by
  induction l generalizing c with
  | nil => rfl
  | cons i l ih =>
    rw [List.foldl_cons, ih]
    split
    · rfl
    · dsimp only; split <;> rfl
@[simp] theorem cis_takeSlices_clock (c : Cistern) (p : Vector CalPoints 9) : (c.takeSlices p).clock = c.clock := by
  unfold Cistern.takeSlices
  dsimp only
  rw [cis_takeFold_clock (fun i => (calFactors (vat p i)).isNone)]
  split <;> rfl
theorem cis_takeFold_clockBad (bad : Nat → Bool) (l : List Nat) (c : Cistern) : (l.foldl (fun (c : Cistern) i =>
    if !bad i then c
    else
      let c := c.note 0x60 i false
      if c.spareFor.isNone && !bad 8 then { c with spareFor := some i }
      else { c with dead := vput c.dead i true }.note 0x62 i false) c).clockBad = c.clockBad := by
  induction l generalizing c with
  | nil => rfl
  | cons i l ih =>
    rw [List.foldl_cons, ih]
    split
    · rfl
    · dsimp only; split <;> rfl
@[simp] theorem cis_takeSlices_clockBad (c : Cistern) (p : Vector CalPoints 9) : (c.takeSlices p).clockBad = c.clockBad := by
  unfold Cistern.takeSlices
  dsimp only
  rw [cis_takeFold_clockBad (fun i => (calFactors (vat p i)).isNone)]
  split <;> rfl
theorem cis_takeFold_clockSaved (bad : Nat → Bool) (l : List Nat) (c : Cistern) : (l.foldl (fun (c : Cistern) i =>
    if !bad i then c
    else
      let c := c.note 0x60 i false
      if c.spareFor.isNone && !bad 8 then { c with spareFor := some i }
      else { c with dead := vput c.dead i true }.note 0x62 i false) c).clockSaved = c.clockSaved := by
  induction l generalizing c with
  | nil => rfl
  | cons i l ih =>
    rw [List.foldl_cons, ih]
    split
    · rfl
    · dsimp only; split <;> rfl
@[simp] theorem cis_takeSlices_clockSaved (c : Cistern) (p : Vector CalPoints 9) : (c.takeSlices p).clockSaved = c.clockSaved := by
  unfold Cistern.takeSlices
  dsimp only
  rw [cis_takeFold_clockSaved (fun i => (calFactors (vat p i)).isNone)]
  split <;> rfl
theorem cis_takeFold_up (bad : Nat → Bool) (l : List Nat) (c : Cistern) : (l.foldl (fun (c : Cistern) i =>
    if !bad i then c
    else
      let c := c.note 0x60 i false
      if c.spareFor.isNone && !bad 8 then { c with spareFor := some i }
      else { c with dead := vput c.dead i true }.note 0x62 i false) c).up = c.up := by
  induction l generalizing c with
  | nil => rfl
  | cons i l ih =>
    rw [List.foldl_cons, ih]
    split
    · rfl
    · dsimp only; split <;> rfl
@[simp] theorem cis_takeSlices_up (c : Cistern) (p : Vector CalPoints 9) : (c.takeSlices p).up = c.up := by
  unfold Cistern.takeSlices
  dsimp only
  rw [cis_takeFold_up (fun i => (calFactors (vat p i)).isNone)]
  split <;> rfl
theorem cis_takeFold_calLeft (bad : Nat → Bool) (l : List Nat) (c : Cistern) : (l.foldl (fun (c : Cistern) i =>
    if !bad i then c
    else
      let c := c.note 0x60 i false
      if c.spareFor.isNone && !bad 8 then { c with spareFor := some i }
      else { c with dead := vput c.dead i true }.note 0x62 i false) c).calLeft = c.calLeft := by
  induction l generalizing c with
  | nil => rfl
  | cons i l ih =>
    rw [List.foldl_cons, ih]
    split
    · rfl
    · dsimp only; split <;> rfl
@[simp] theorem cis_takeSlices_calLeft (c : Cistern) (p : Vector CalPoints 9) : (c.takeSlices p).calLeft = c.calLeft := by
  unfold Cistern.takeSlices
  dsimp only
  rw [cis_takeFold_calLeft (fun i => (calFactors (vat p i)).isNone)]
  split <;> rfl
theorem cis_takeFold_set (bad : Nat → Bool) (l : List Nat) (c : Cistern) : (l.foldl (fun (c : Cistern) i =>
    if !bad i then c
    else
      let c := c.note 0x60 i false
      if c.spareFor.isNone && !bad 8 then { c with spareFor := some i }
      else { c with dead := vput c.dead i true }.note 0x62 i false) c).set = c.set := by
  induction l generalizing c with
  | nil => rfl
  | cons i l ih =>
    rw [List.foldl_cons, ih]
    split
    · rfl
    · dsimp only; split <;> rfl
@[simp] theorem cis_takeSlices_set (c : Cistern) (p : Vector CalPoints 9) : (c.takeSlices p).set = c.set := by
  unfold Cistern.takeSlices
  dsimp only
  rw [cis_takeFold_set (fun i => (calFactors (vat p i)).isNone)]
  split <;> rfl
theorem cis_takeFold_cal (bad : Nat → Bool) (l : List Nat) (c : Cistern) : (l.foldl (fun (c : Cistern) i =>
    if !bad i then c
    else
      let c := c.note 0x60 i false
      if c.spareFor.isNone && !bad 8 then { c with spareFor := some i }
      else { c with dead := vput c.dead i true }.note 0x62 i false) c).cal = c.cal := by
  induction l generalizing c with
  | nil => rfl
  | cons i l ih =>
    rw [List.foldl_cons, ih]
    split
    · rfl
    · dsimp only; split <;> rfl
@[simp] theorem cis_takeSlices_cal (c : Cistern) (p : Vector CalPoints 9) : (c.takeSlices p).cal = c.cal := by
  unfold Cistern.takeSlices
  dsimp only
  rw [cis_takeFold_cal (fun i => (calFactors (vat p i)).isNone)]
  split <;> rfl
theorem cis_takeFold_fwCrc (bad : Nat → Bool) (l : List Nat) (c : Cistern) : (l.foldl (fun (c : Cistern) i =>
    if !bad i then c
    else
      let c := c.note 0x60 i false
      if c.spareFor.isNone && !bad 8 then { c with spareFor := some i }
      else { c with dead := vput c.dead i true }.note 0x62 i false) c).fwCrc = c.fwCrc := by
  induction l generalizing c with
  | nil => rfl
  | cons i l ih =>
    rw [List.foldl_cons, ih]
    split
    · rfl
    · dsimp only; split <;> rfl
@[simp] theorem cis_takeSlices_fwCrc (c : Cistern) (p : Vector CalPoints 9) : (c.takeSlices p).fwCrc = c.fwCrc := by
  unfold Cistern.takeSlices
  dsimp only
  rw [cis_takeFold_fwCrc (fun i => (calFactors (vat p i)).isNone)]
  split <;> rfl
theorem cis_takeFold_swId (bad : Nat → Bool) (l : List Nat) (c : Cistern) : (l.foldl (fun (c : Cistern) i =>
    if !bad i then c
    else
      let c := c.note 0x60 i false
      if c.spareFor.isNone && !bad 8 then { c with spareFor := some i }
      else { c with dead := vput c.dead i true }.note 0x62 i false) c).swId = c.swId := by
  induction l generalizing c with
  | nil => rfl
  | cons i l ih =>
    rw [List.foldl_cons, ih]
    split
    · rfl
    · dsimp only; split <;> rfl
@[simp] theorem cis_takeSlices_swId (c : Cistern) (p : Vector CalPoints 9) : (c.takeSlices p).swId = c.swId := by
  unfold Cistern.takeSlices
  dsimp only
  rw [cis_takeFold_swId (fun i => (calFactors (vat p i)).isNone)]
  split <;> rfl
theorem cis_takeFold_audit (bad : Nat → Bool) (l : List Nat) (c : Cistern) : (l.foldl (fun (c : Cistern) i =>
    if !bad i then c
    else
      let c := c.note 0x60 i false
      if c.spareFor.isNone && !bad 8 then { c with spareFor := some i }
      else { c with dead := vput c.dead i true }.note 0x62 i false) c).audit = c.audit := by
  induction l generalizing c with
  | nil => rfl
  | cons i l ih =>
    rw [List.foldl_cons, ih]
    split
    · rfl
    · dsimp only; split <;> rfl
@[simp] theorem cis_takeSlices_audit (c : Cistern) (p : Vector CalPoints 9) : (c.takeSlices p).audit = c.audit := by
  unfold Cistern.takeSlices
  dsimp only
  rw [cis_takeFold_audit (fun i => (calFactors (vat p i)).isNone)]
  split <;> rfl
theorem cis_takeFold_rejects (bad : Nat → Bool) (l : List Nat) (c : Cistern) : (l.foldl (fun (c : Cistern) i =>
    if !bad i then c
    else
      let c := c.note 0x60 i false
      if c.spareFor.isNone && !bad 8 then { c with spareFor := some i }
      else { c with dead := vput c.dead i true }.note 0x62 i false) c).rejects = c.rejects := by
  induction l generalizing c with
  | nil => rfl
  | cons i l ih =>
    rw [List.foldl_cons, ih]
    split
    · rfl
    · dsimp only; split <;> rfl
@[simp] theorem cis_takeSlices_rejects (c : Cistern) (p : Vector CalPoints 9) : (c.takeSlices p).rejects = c.rejects := by
  unfold Cistern.takeSlices
  dsimp only
  rw [cis_takeFold_rejects (fun i => (calFactors (vat p i)).isNone)]
  split <;> rfl
theorem cis_takeFold_reqDropped (bad : Nat → Bool) (l : List Nat) (c : Cistern) : (l.foldl (fun (c : Cistern) i =>
    if !bad i then c
    else
      let c := c.note 0x60 i false
      if c.spareFor.isNone && !bad 8 then { c with spareFor := some i }
      else { c with dead := vput c.dead i true }.note 0x62 i false) c).reqDropped = c.reqDropped := by
  induction l generalizing c with
  | nil => rfl
  | cons i l ih =>
    rw [List.foldl_cons, ih]
    split
    · rfl
    · dsimp only; split <;> rfl
@[simp] theorem cis_takeSlices_reqDropped (c : Cistern) (p : Vector CalPoints 9) : (c.takeSlices p).reqDropped = c.reqDropped := by
  unfold Cistern.takeSlices
  dsimp only
  rw [cis_takeFold_reqDropped (fun i => (calFactors (vat p i)).isNone)]
  split <;> rfl
theorem cis_takeFold_work (bad : Nat → Bool) (l : List Nat) (c : Cistern) : (l.foldl (fun (c : Cistern) i =>
    if !bad i then c
    else
      let c := c.note 0x60 i false
      if c.spareFor.isNone && !bad 8 then { c with spareFor := some i }
      else { c with dead := vput c.dead i true }.note 0x62 i false) c).work = c.work := by
  induction l generalizing c with
  | nil => rfl
  | cons i l ih =>
    rw [List.foldl_cons, ih]
    split
    · rfl
    · dsimp only; split <;> rfl
@[simp] theorem cis_takeSlices_work (c : Cistern) (p : Vector CalPoints 9) : (c.takeSlices p).work = c.work := by
  unfold Cistern.takeSlices
  dsimp only
  rw [cis_takeFold_work (fun i => (calFactors (vat p i)).isNone)]
  split <;> rfl
theorem cis_takeFold_stored (bad : Nat → Bool) (l : List Nat) (c : Cistern) : (l.foldl (fun (c : Cistern) i =>
    if !bad i then c
    else
      let c := c.note 0x60 i false
      if c.spareFor.isNone && !bad 8 then { c with spareFor := some i }
      else { c with dead := vput c.dead i true }.note 0x62 i false) c).stored = c.stored := by
  induction l generalizing c with
  | nil => rfl
  | cons i l ih =>
    rw [List.foldl_cons, ih]
    split
    · rfl
    · dsimp only; split <;> rfl
@[simp] theorem cis_takeSlices_stored (c : Cistern) (p : Vector CalPoints 9) : (c.takeSlices p).stored = c.stored := by
  unfold Cistern.takeSlices
  dsimp only
  rw [cis_takeFold_stored (fun i => (calFactors (vat p i)).isNone)]
  split <;> rfl
theorem cis_takeFold_storedAt (bad : Nat → Bool) (l : List Nat) (c : Cistern) : (l.foldl (fun (c : Cistern) i =>
    if !bad i then c
    else
      let c := c.note 0x60 i false
      if c.spareFor.isNone && !bad 8 then { c with spareFor := some i }
      else { c with dead := vput c.dead i true }.note 0x62 i false) c).storedAt = c.storedAt := by
  induction l generalizing c with
  | nil => rfl
  | cons i l ih =>
    rw [List.foldl_cons, ih]
    split
    · rfl
    · dsimp only; split <;> rfl
@[simp] theorem cis_takeSlices_storedAt (c : Cistern) (p : Vector CalPoints 9) : (c.takeSlices p).storedAt = c.storedAt := by
  unfold Cistern.takeSlices
  dsimp only
  rw [cis_takeFold_storedAt (fun i => (calFactors (vat p i)).isNone)]
  split <;> rfl
theorem cis_takeFold_session (bad : Nat → Bool) (l : List Nat) (c : Cistern) : (l.foldl (fun (c : Cistern) i =>
    if !bad i then c
    else
      let c := c.note 0x60 i false
      if c.spareFor.isNone && !bad 8 then { c with spareFor := some i }
      else { c with dead := vput c.dead i true }.note 0x62 i false) c).session = c.session := by
  induction l generalizing c with
  | nil => rfl
  | cons i l ih =>
    rw [List.foldl_cons, ih]
    split
    · rfl
    · dsimp only; split <;> rfl
@[simp] theorem cis_takeSlices_session (c : Cistern) (p : Vector CalPoints 9) : (c.takeSlices p).session = c.session := by
  unfold Cistern.takeSlices
  dsimp only
  rw [cis_takeFold_session (fun i => (calFactors (vat p i)).isNone)]
  split <;> rfl
theorem cis_takeFold_adjusts (bad : Nat → Bool) (l : List Nat) (c : Cistern) : (l.foldl (fun (c : Cistern) i =>
    if !bad i then c
    else
      let c := c.note 0x60 i false
      if c.spareFor.isNone && !bad 8 then { c with spareFor := some i }
      else { c with dead := vput c.dead i true }.note 0x62 i false) c).adjusts = c.adjusts := by
  induction l generalizing c with
  | nil => rfl
  | cons i l ih =>
    rw [List.foldl_cons, ih]
    split
    · rfl
    · dsimp only; split <;> rfl
@[simp] theorem cis_takeSlices_adjusts (c : Cistern) (p : Vector CalPoints 9) : (c.takeSlices p).adjusts = c.adjusts := by
  unfold Cistern.takeSlices
  dsimp only
  rw [cis_takeFold_adjusts (fun i => (calFactors (vat p i)).isNone)]
  split <;> rfl
theorem cis_takeFold_optical (bad : Nat → Bool) (l : List Nat) (c : Cistern) : (l.foldl (fun (c : Cistern) i =>
    if !bad i then c
    else
      let c := c.note 0x60 i false
      if c.spareFor.isNone && !bad 8 then { c with spareFor := some i }
      else { c with dead := vput c.dead i true }.note 0x62 i false) c).optical = c.optical := by
  induction l generalizing c with
  | nil => rfl
  | cons i l ih =>
    rw [List.foldl_cons, ih]
    split
    · rfl
    · dsimp only; split <;> rfl
@[simp] theorem cis_takeSlices_optical (c : Cistern) (p : Vector CalPoints 9) : (c.takeSlices p).optical = c.optical := by
  unfold Cistern.takeSlices
  dsimp only
  rw [cis_takeFold_optical (fun i => (calFactors (vat p i)).isNone)]
  split <;> rfl
theorem cis_takeFold_refused (bad : Nat → Bool) (l : List Nat) (c : Cistern) : (l.foldl (fun (c : Cistern) i =>
    if !bad i then c
    else
      let c := c.note 0x60 i false
      if c.spareFor.isNone && !bad 8 then { c with spareFor := some i }
      else { c with dead := vput c.dead i true }.note 0x62 i false) c).refused = c.refused := by
  induction l generalizing c with
  | nil => rfl
  | cons i l ih =>
    rw [List.foldl_cons, ih]
    split
    · rfl
    · dsimp only; split <;> rfl
@[simp] theorem cis_takeSlices_refused (c : Cistern) (p : Vector CalPoints 9) : (c.takeSlices p).refused = c.refused := by
  unfold Cistern.takeSlices
  dsimp only
  rw [cis_takeFold_refused (fun i => (calFactors (vat p i)).isNone)]
  split <;> rfl
theorem cis_takeFold_queue (bad : Nat → Bool) (l : List Nat) (c : Cistern) : (l.foldl (fun (c : Cistern) i =>
    if !bad i then c
    else
      let c := c.note 0x60 i false
      if c.spareFor.isNone && !bad 8 then { c with spareFor := some i }
      else { c with dead := vput c.dead i true }.note 0x62 i false) c).queue = c.queue := by
  induction l generalizing c with
  | nil => rfl
  | cons i l ih =>
    rw [List.foldl_cons, ih]
    split
    · rfl
    · dsimp only; split <;> rfl
@[simp] theorem cis_takeSlices_queue (c : Cistern) (p : Vector CalPoints 9) : (c.takeSlices p).queue = c.queue := by
  unfold Cistern.takeSlices
  dsimp only
  rw [cis_takeFold_queue (fun i => (calFactors (vat p i)).isNone)]
  split <;> rfl
theorem cis_takeFold_reply (bad : Nat → Bool) (l : List Nat) (c : Cistern) : (l.foldl (fun (c : Cistern) i =>
    if !bad i then c
    else
      let c := c.note 0x60 i false
      if c.spareFor.isNone && !bad 8 then { c with spareFor := some i }
      else { c with dead := vput c.dead i true }.note 0x62 i false) c).reply = c.reply := by
  induction l generalizing c with
  | nil => rfl
  | cons i l ih =>
    rw [List.foldl_cons, ih]
    split
    · rfl
    · dsimp only; split <;> rfl
@[simp] theorem cis_takeSlices_reply (c : Cistern) (p : Vector CalPoints 9) : (c.takeSlices p).reply = c.reply := by
  unfold Cistern.takeSlices
  dsimp only
  rw [cis_takeFold_reply (fun i => (calFactors (vat p i)).isNone)]
  split <;> rfl
theorem cis_takeFold_seq (bad : Nat → Bool) (l : List Nat) (c : Cistern) : (l.foldl (fun (c : Cistern) i =>
    if !bad i then c
    else
      let c := c.note 0x60 i false
      if c.spareFor.isNone && !bad 8 then { c with spareFor := some i }
      else { c with dead := vput c.dead i true }.note 0x62 i false) c).seq = c.seq := by
  induction l generalizing c with
  | nil => rfl
  | cons i l ih =>
    rw [List.foldl_cons, ih]
    split
    · rfl
    · dsimp only; split <;> rfl
@[simp] theorem cis_takeSlices_seq (c : Cistern) (p : Vector CalPoints 9) : (c.takeSlices p).seq = c.seq := by
  unfold Cistern.takeSlices
  dsimp only
  rw [cis_takeFold_seq (fun i => (calFactors (vat p i)).isNone)]
  split <;> rfl
theorem cis_takeFold_pos (bad : Nat → Bool) (l : List Nat) (c : Cistern) : (l.foldl (fun (c : Cistern) i =>
    if !bad i then c
    else
      let c := c.note 0x60 i false
      if c.spareFor.isNone && !bad 8 then { c with spareFor := some i }
      else { c with dead := vput c.dead i true }.note 0x62 i false) c).pos = c.pos := by
  induction l generalizing c with
  | nil => rfl
  | cons i l ih =>
    rw [List.foldl_cons, ih]
    split
    · rfl
    · dsimp only; split <;> rfl
@[simp] theorem cis_takeSlices_pos (c : Cistern) (p : Vector CalPoints 9) : (c.takeSlices p).pos = c.pos := by
  unfold Cistern.takeSlices
  dsimp only
  rw [cis_takeFold_pos (fun i => (calFactors (vat p i)).isNone)]
  split <;> rfl
theorem cis_takeFold_rms (bad : Nat → Bool) (l : List Nat) (c : Cistern) : (l.foldl (fun (c : Cistern) i =>
    if !bad i then c
    else
      let c := c.note 0x60 i false
      if c.spareFor.isNone && !bad 8 then { c with spareFor := some i }
      else { c with dead := vput c.dead i true }.note 0x62 i false) c).rms = c.rms := by
  induction l generalizing c with
  | nil => rfl
  | cons i l ih =>
    rw [List.foldl_cons, ih]
    split
    · rfl
    · dsimp only; split <;> rfl
@[simp] theorem cis_takeSlices_rms (c : Cistern) (p : Vector CalPoints 9) : (c.takeSlices p).rms = c.rms := by
  unfold Cistern.takeSlices
  dsimp only
  rw [cis_takeFold_rms (fun i => (calFactors (vat p i)).isNone)]
  split <;> rfl
theorem cis_takeFold_power (bad : Nat → Bool) (l : List Nat) (c : Cistern) : (l.foldl (fun (c : Cistern) i =>
    if !bad i then c
    else
      let c := c.note 0x60 i false
      if c.spareFor.isNone && !bad 8 then { c with spareFor := some i }
      else { c with dead := vput c.dead i true }.note 0x62 i false) c).power = c.power := by
  induction l generalizing c with
  | nil => rfl
  | cons i l ih =>
    rw [List.foldl_cons, ih]
    split
    · rfl
    · dsimp only; split <;> rfl
@[simp] theorem cis_takeSlices_power (c : Cistern) (p : Vector CalPoints 9) : (c.takeSlices p).power = c.power := by
  unfold Cistern.takeSlices
  dsimp only
  rw [cis_takeFold_power (fun i => (calFactors (vat p i)).isNone)]
  split <;> rfl
theorem cis_takeFold_freq (bad : Nat → Bool) (l : List Nat) (c : Cistern) : (l.foldl (fun (c : Cistern) i =>
    if !bad i then c
    else
      let c := c.note 0x60 i false
      if c.spareFor.isNone && !bad 8 then { c with spareFor := some i }
      else { c with dead := vput c.dead i true }.note 0x62 i false) c).freq = c.freq := by
  induction l generalizing c with
  | nil => rfl
  | cons i l ih =>
    rw [List.foldl_cons, ih]
    split
    · rfl
    · dsimp only; split <;> rfl
@[simp] theorem cis_takeSlices_freq (c : Cistern) (p : Vector CalPoints 9) : (c.takeSlices p).freq = c.freq := by
  unfold Cistern.takeSlices
  dsimp only
  rw [cis_takeFold_freq (fun i => (calFactors (vat p i)).isNone)]
  split <;> rfl
theorem cis_takeFold_tariff (bad : Nat → Bool) (l : List Nat) (c : Cistern) : (l.foldl (fun (c : Cistern) i =>
    if !bad i then c
    else
      let c := c.note 0x60 i false
      if c.spareFor.isNone && !bad 8 then { c with spareFor := some i }
      else { c with dead := vput c.dead i true }.note 0x62 i false) c).tariff = c.tariff := by
  induction l generalizing c with
  | nil => rfl
  | cons i l ih =>
    rw [List.foldl_cons, ih]
    split
    · rfl
    · dsimp only; split <;> rfl
@[simp] theorem cis_takeSlices_tariff (c : Cistern) (p : Vector CalPoints 9) : (c.takeSlices p).tariff = c.tariff := by
  unfold Cistern.takeSlices
  dsimp only
  rw [cis_takeFold_tariff (fun i => (calFactors (vat p i)).isNone)]
  split <;> rfl
theorem cis_takeFold_pulses (bad : Nat → Bool) (l : List Nat) (c : Cistern) : (l.foldl (fun (c : Cistern) i =>
    if !bad i then c
    else
      let c := c.note 0x60 i false
      if c.spareFor.isNone && !bad 8 then { c with spareFor := some i }
      else { c with dead := vput c.dead i true }.note 0x62 i false) c).pulses = c.pulses := by
  induction l generalizing c with
  | nil => rfl
  | cons i l ih =>
    rw [List.foldl_cons, ih]
    split
    · rfl
    · dsimp only; split <;> rfl
@[simp] theorem cis_takeSlices_pulses (c : Cistern) (p : Vector CalPoints 9) : (c.takeSlices p).pulses = c.pulses := by
  unfold Cistern.takeSlices
  dsimp only
  rw [cis_takeFold_pulses (fun i => (calFactors (vat p i)).isNone)]
  split <;> rfl
theorem cis_takeFold_pulseRest (bad : Nat → Bool) (l : List Nat) (c : Cistern) : (l.foldl (fun (c : Cistern) i =>
    if !bad i then c
    else
      let c := c.note 0x60 i false
      if c.spareFor.isNone && !bad 8 then { c with spareFor := some i }
      else { c with dead := vput c.dead i true }.note 0x62 i false) c).pulseRest = c.pulseRest := by
  induction l generalizing c with
  | nil => rfl
  | cons i l ih =>
    rw [List.foldl_cons, ih]
    split
    · rfl
    · dsimp only; split <;> rfl
@[simp] theorem cis_takeSlices_pulseRest (c : Cistern) (p : Vector CalPoints 9) : (c.takeSlices p).pulseRest = c.pulseRest := by
  unfold Cistern.takeSlices
  dsimp only
  rw [cis_takeFold_pulseRest (fun i => (calFactors (vat p i)).isNone)]
  split <;> rfl
theorem cis_takeFold_snap (bad : Nat → Bool) (l : List Nat) (c : Cistern) : (l.foldl (fun (c : Cistern) i =>
    if !bad i then c
    else
      let c := c.note 0x60 i false
      if c.spareFor.isNone && !bad 8 then { c with spareFor := some i }
      else { c with dead := vput c.dead i true }.note 0x62 i false) c).snap = c.snap := by
  induction l generalizing c with
  | nil => rfl
  | cons i l ih =>
    rw [List.foldl_cons, ih]
    split
    · rfl
    · dsimp only; split <;> rfl
@[simp] theorem cis_takeSlices_snap (c : Cistern) (p : Vector CalPoints 9) : (c.takeSlices p).snap = c.snap := by
  unfold Cistern.takeSlices
  dsimp only
  rw [cis_takeFold_snap (fun i => (calFactors (vat p i)).isNone)]
  split <;> rfl

/-- A programming command: not without supply, refused without a session or where the seal forbids it, else carried out (R327). -/
theorem command_cases (c : Cistern) (b : Bool) (f : Cistern → Cistern) :
    (c.on = false ∧ c.command b f = c) ∨ (c.on = true ∧ c.session = none ∧ c.command b f = c.refuse) ∨
    (c.on = true ∧ c.session.isSome = true ∧ b = true ∧ c.command b f = (f c).accept) ∨
    (c.on = true ∧ c.session.isSome = true ∧ b = false ∧ c.command b f = { c.refuse with session := some c.up }) := by
  unfold Cistern.command
  cases h : c.on <;> cases h2 : c.session <;> cases b <;> simp

/-- A setting reaches nothing but the settings and the intervals in progress. -/
theorem putSetting_fr (c : Cistern) (x : CisSetting) :
    (c.putSetting x).sealed = c.sealed ∧ (c.putSetting x).cal = c.cal ∧ (c.putSetting x).fwCrc = c.fwCrc ∧ (c.putSetting x).audit = c.audit ∧
    (c.putSetting x).rejects = c.rejects ∧ (c.putSetting x).log = c.log ∧ (c.putSetting x).on = c.on ∧ (c.putSetting x).up = c.up ∧
    (c.putSetting x).queue = c.queue ∧ (c.putSetting x).reply = c.reply ∧ (c.putSetting x).rms = c.rms ∧ (c.putSetting x).power = c.power ∧
    (c.putSetting x).tariff = c.tariff ∧ (c.putSetting x).stored = c.stored ∧ (c.putSetting x).work.energy = c.work.energy := by
  unfold Cistern.putSetting
  cases x <;> dsimp only <;> (try simp) <;> (try (unfold Cistern.demShort; simp)) 


end Sys2Proof.Machine
end

