-- ==== Sys2Proof/Laws/State.lean ====
section
/-! SUPPORT. What each named update of the state leaves as it was, and what it changes: one lemma for a field and an update. -/

namespace Sys2Proof.Machine

open Host

/-! ### Whole-state meanings -/

@[simp] theorem State.onIsland_eq (s : State) (f : App → App) : s.onIsland f = .next { s with app := f s.app } := rfl

@[simp] theorem State.onCis_eq (s : State) (f : Cistern → Cistern) : s.onCis f = .next { s with cis := f s.cis } := rfl

theorem State.onApp_held (s : State) (f : App → App) (h : s.app.life.boot = .held) : s.onApp f = .next s := by
  simp [State.onApp, h]

theorem State.onApp_live (s : State) (f : App → App) (h : s.app.life.boot ≠ .held) :
    s.onApp f = .next { s with app := f s.app } := by
  simp [State.onApp, h]

/-- A meaning of the application partition answers a next state in which the Cistern and the queue are as they were. -/
theorem State.onApp_next (s : State) (f : App → App) : ∃ a, s.onApp f = .next { s with app := a } := ⟨_, rfl⟩

/-! ### Registers: `set` and the operations over it change the register file alone -/

@[simp] theorem set_raised (a : App) (x : Fld) (v : Nat) : (a.set x v).raised = a.raised := rfl
@[simp] theorem set_xbar (a : App) (x : Fld) (v : Nat) : (a.set x v).xbar = a.xbar := rfl
@[simp] theorem set_tick (a : App) (x : Fld) (v : Nat) : (a.set x v).tick = a.tick := rfl
@[simp] theorem set_opTicks (a : App) (x : Fld) (v : Nat) : (a.set x v).opTicks = a.opTicks := rfl
@[simp] theorem set_freeCtr (a : App) (x : Fld) (v : Nat) : (a.set x v).freeCtr = a.freeCtr := rfl
@[simp] theorem set_tim (a : App) (x : Fld) (v : Nat) : (a.set x v).tim = a.tim := rfl
@[simp] theorem set_bkp (a : App) (x : Fld) (v : Nat) : (a.set x v).bkp = a.bkp := rfl
@[simp] theorem set_ctxs (a : App) (x : Fld) (v : Nat) : (a.set x v).ctxs = a.ctxs := rfl
@[simp] theorem set_hostWrites (a : App) (x : Fld) (v : Nat) : (a.set x v).hostWrites = a.hostWrites := rfl
@[simp] theorem set_cmd (a : App) (x : Fld) (v : Nat) : (a.set x v).cmd = a.cmd := rfl
@[simp] theorem set_life (a : App) (x : Fld) (v : Nat) : (a.set x v).life = a.life := rfl
@[simp] theorem set_clk (a : App) (x : Fld) (v : Nat) : (a.set x v).clk = a.clk := rfl
@[simp] theorem set_ana (a : App) (x : Fld) (v : Nat) : (a.set x v).ana = a.ana := rfl
@[simp] theorem set_sig (a : App) (x : Fld) (v : Nat) : (a.set x v).sig = a.sig := rfl
@[simp] theorem set_slu (a : App) (x : Fld) (v : Nat) : (a.set x v).slu = a.slu := rfl
@[simp] theorem set_trp (a : App) (x : Fld) (v : Nat) : (a.set x v).trp = a.trp := rfl
@[simp] theorem set_par (a : App) (x : Fld) (v : Nat) : (a.set x v).par = a.par := rfl
@[simp] theorem set_node (a : App) (x : Fld) (v : Nat) : (a.set x v).node = a.node := rfl
@[simp] theorem set_sent (a : App) (x : Fld) (v : Nat) : (a.set x v).sent = a.sent := rfl
@[simp] theorem set_cap (a : App) (x : Fld) (v : Nat) : (a.set x v).cap = a.cap := rfl
@[simp] theorem set_tw (a : App) (x : Fld) (v : Nat) : (a.set x v).tw = a.tw := rfl
@[simp] theorem set_ctl (a : App) (x : Fld) (v : Nat) : (a.set x v).ctl = a.ctl := rfl
@[simp] theorem set_fio (a : App) (x : Fld) (v : Nat) : (a.set x v).fio = a.fio := rfl
@[simp] theorem set_mbox (a : App) (x : Fld) (v : Nat) : (a.set x v).mbox = a.mbox := rfl
@[simp] theorem set_eth (a : App) (x : Fld) (v : Nat) : (a.set x v).eth = a.eth := rfl
@[simp] theorem set_can (a : App) (x : Fld) (v : Nat) : (a.set x v).can = a.can := rfl
@[simp] theorem set_dma (a : App) (x : Fld) (v : Nat) : (a.set x v).dma = a.dma := rfl
@[simp] theorem setB_raised (a : App) (x : Fld) (v : Bool) : (a.setB x v).raised = a.raised := rfl
@[simp] theorem setB_xbar (a : App) (x : Fld) (v : Bool) : (a.setB x v).xbar = a.xbar := rfl
@[simp] theorem setB_tick (a : App) (x : Fld) (v : Bool) : (a.setB x v).tick = a.tick := rfl
@[simp] theorem setB_opTicks (a : App) (x : Fld) (v : Bool) : (a.setB x v).opTicks = a.opTicks := rfl
@[simp] theorem setB_freeCtr (a : App) (x : Fld) (v : Bool) : (a.setB x v).freeCtr = a.freeCtr := rfl
@[simp] theorem setB_tim (a : App) (x : Fld) (v : Bool) : (a.setB x v).tim = a.tim := rfl
@[simp] theorem setB_bkp (a : App) (x : Fld) (v : Bool) : (a.setB x v).bkp = a.bkp := rfl
@[simp] theorem setB_ctxs (a : App) (x : Fld) (v : Bool) : (a.setB x v).ctxs = a.ctxs := rfl
@[simp] theorem setB_hostWrites (a : App) (x : Fld) (v : Bool) : (a.setB x v).hostWrites = a.hostWrites := rfl
@[simp] theorem setB_cmd (a : App) (x : Fld) (v : Bool) : (a.setB x v).cmd = a.cmd := rfl
@[simp] theorem setB_life (a : App) (x : Fld) (v : Bool) : (a.setB x v).life = a.life := rfl
@[simp] theorem setB_clk (a : App) (x : Fld) (v : Bool) : (a.setB x v).clk = a.clk := rfl
@[simp] theorem setB_ana (a : App) (x : Fld) (v : Bool) : (a.setB x v).ana = a.ana := rfl
@[simp] theorem setB_sig (a : App) (x : Fld) (v : Bool) : (a.setB x v).sig = a.sig := rfl
@[simp] theorem setB_slu (a : App) (x : Fld) (v : Bool) : (a.setB x v).slu = a.slu := rfl
@[simp] theorem setB_trp (a : App) (x : Fld) (v : Bool) : (a.setB x v).trp = a.trp := rfl
@[simp] theorem setB_par (a : App) (x : Fld) (v : Bool) : (a.setB x v).par = a.par := rfl
@[simp] theorem setB_node (a : App) (x : Fld) (v : Bool) : (a.setB x v).node = a.node := rfl
@[simp] theorem setB_sent (a : App) (x : Fld) (v : Bool) : (a.setB x v).sent = a.sent := rfl
@[simp] theorem setB_cap (a : App) (x : Fld) (v : Bool) : (a.setB x v).cap = a.cap := rfl
@[simp] theorem setB_tw (a : App) (x : Fld) (v : Bool) : (a.setB x v).tw = a.tw := rfl
@[simp] theorem setB_ctl (a : App) (x : Fld) (v : Bool) : (a.setB x v).ctl = a.ctl := rfl
@[simp] theorem setB_fio (a : App) (x : Fld) (v : Bool) : (a.setB x v).fio = a.fio := rfl
@[simp] theorem setB_mbox (a : App) (x : Fld) (v : Bool) : (a.setB x v).mbox = a.mbox := rfl
@[simp] theorem setB_eth (a : App) (x : Fld) (v : Bool) : (a.setB x v).eth = a.eth := rfl
@[simp] theorem setB_can (a : App) (x : Fld) (v : Bool) : (a.setB x v).can = a.can := rfl
@[simp] theorem setB_dma (a : App) (x : Fld) (v : Bool) : (a.setB x v).dma = a.dma := rfl
@[simp] theorem satAdd_raised (a : App) (x : Fld) (v : Nat) : (a.satAdd x v).raised = a.raised := rfl
@[simp] theorem satAdd_xbar (a : App) (x : Fld) (v : Nat) : (a.satAdd x v).xbar = a.xbar := rfl
@[simp] theorem satAdd_tick (a : App) (x : Fld) (v : Nat) : (a.satAdd x v).tick = a.tick := rfl
@[simp] theorem satAdd_opTicks (a : App) (x : Fld) (v : Nat) : (a.satAdd x v).opTicks = a.opTicks := rfl
@[simp] theorem satAdd_freeCtr (a : App) (x : Fld) (v : Nat) : (a.satAdd x v).freeCtr = a.freeCtr := rfl
@[simp] theorem satAdd_tim (a : App) (x : Fld) (v : Nat) : (a.satAdd x v).tim = a.tim := rfl
@[simp] theorem satAdd_bkp (a : App) (x : Fld) (v : Nat) : (a.satAdd x v).bkp = a.bkp := rfl
@[simp] theorem satAdd_ctxs (a : App) (x : Fld) (v : Nat) : (a.satAdd x v).ctxs = a.ctxs := rfl
@[simp] theorem satAdd_hostWrites (a : App) (x : Fld) (v : Nat) : (a.satAdd x v).hostWrites = a.hostWrites := rfl
@[simp] theorem satAdd_cmd (a : App) (x : Fld) (v : Nat) : (a.satAdd x v).cmd = a.cmd := rfl
@[simp] theorem satAdd_life (a : App) (x : Fld) (v : Nat) : (a.satAdd x v).life = a.life := rfl
@[simp] theorem satAdd_clk (a : App) (x : Fld) (v : Nat) : (a.satAdd x v).clk = a.clk := rfl
@[simp] theorem satAdd_ana (a : App) (x : Fld) (v : Nat) : (a.satAdd x v).ana = a.ana := rfl
@[simp] theorem satAdd_sig (a : App) (x : Fld) (v : Nat) : (a.satAdd x v).sig = a.sig := rfl
@[simp] theorem satAdd_slu (a : App) (x : Fld) (v : Nat) : (a.satAdd x v).slu = a.slu := rfl
@[simp] theorem satAdd_trp (a : App) (x : Fld) (v : Nat) : (a.satAdd x v).trp = a.trp := rfl
@[simp] theorem satAdd_par (a : App) (x : Fld) (v : Nat) : (a.satAdd x v).par = a.par := rfl
@[simp] theorem satAdd_node (a : App) (x : Fld) (v : Nat) : (a.satAdd x v).node = a.node := rfl
@[simp] theorem satAdd_sent (a : App) (x : Fld) (v : Nat) : (a.satAdd x v).sent = a.sent := rfl
@[simp] theorem satAdd_cap (a : App) (x : Fld) (v : Nat) : (a.satAdd x v).cap = a.cap := rfl
@[simp] theorem satAdd_tw (a : App) (x : Fld) (v : Nat) : (a.satAdd x v).tw = a.tw := rfl
@[simp] theorem satAdd_ctl (a : App) (x : Fld) (v : Nat) : (a.satAdd x v).ctl = a.ctl := rfl
@[simp] theorem satAdd_fio (a : App) (x : Fld) (v : Nat) : (a.satAdd x v).fio = a.fio := rfl
@[simp] theorem satAdd_mbox (a : App) (x : Fld) (v : Nat) : (a.satAdd x v).mbox = a.mbox := rfl
@[simp] theorem satAdd_eth (a : App) (x : Fld) (v : Nat) : (a.satAdd x v).eth = a.eth := rfl
@[simp] theorem satAdd_can (a : App) (x : Fld) (v : Nat) : (a.satAdd x v).can = a.can := rfl
@[simp] theorem satAdd_dma (a : App) (x : Fld) (v : Nat) : (a.satAdd x v).dma = a.dma := rfl
@[simp] theorem wrapAdd_raised (a : App) (x : Fld) (v : Nat) : (a.wrapAdd x v).raised = a.raised := rfl
@[simp] theorem wrapAdd_xbar (a : App) (x : Fld) (v : Nat) : (a.wrapAdd x v).xbar = a.xbar := rfl
@[simp] theorem wrapAdd_tick (a : App) (x : Fld) (v : Nat) : (a.wrapAdd x v).tick = a.tick := rfl
@[simp] theorem wrapAdd_opTicks (a : App) (x : Fld) (v : Nat) : (a.wrapAdd x v).opTicks = a.opTicks := rfl
@[simp] theorem wrapAdd_freeCtr (a : App) (x : Fld) (v : Nat) : (a.wrapAdd x v).freeCtr = a.freeCtr := rfl
@[simp] theorem wrapAdd_tim (a : App) (x : Fld) (v : Nat) : (a.wrapAdd x v).tim = a.tim := rfl
@[simp] theorem wrapAdd_bkp (a : App) (x : Fld) (v : Nat) : (a.wrapAdd x v).bkp = a.bkp := rfl
@[simp] theorem wrapAdd_ctxs (a : App) (x : Fld) (v : Nat) : (a.wrapAdd x v).ctxs = a.ctxs := rfl
@[simp] theorem wrapAdd_hostWrites (a : App) (x : Fld) (v : Nat) : (a.wrapAdd x v).hostWrites = a.hostWrites := rfl
@[simp] theorem wrapAdd_cmd (a : App) (x : Fld) (v : Nat) : (a.wrapAdd x v).cmd = a.cmd := rfl
@[simp] theorem wrapAdd_life (a : App) (x : Fld) (v : Nat) : (a.wrapAdd x v).life = a.life := rfl
@[simp] theorem wrapAdd_clk (a : App) (x : Fld) (v : Nat) : (a.wrapAdd x v).clk = a.clk := rfl
@[simp] theorem wrapAdd_ana (a : App) (x : Fld) (v : Nat) : (a.wrapAdd x v).ana = a.ana := rfl
@[simp] theorem wrapAdd_sig (a : App) (x : Fld) (v : Nat) : (a.wrapAdd x v).sig = a.sig := rfl
@[simp] theorem wrapAdd_slu (a : App) (x : Fld) (v : Nat) : (a.wrapAdd x v).slu = a.slu := rfl
@[simp] theorem wrapAdd_trp (a : App) (x : Fld) (v : Nat) : (a.wrapAdd x v).trp = a.trp := rfl
@[simp] theorem wrapAdd_par (a : App) (x : Fld) (v : Nat) : (a.wrapAdd x v).par = a.par := rfl
@[simp] theorem wrapAdd_node (a : App) (x : Fld) (v : Nat) : (a.wrapAdd x v).node = a.node := rfl
@[simp] theorem wrapAdd_sent (a : App) (x : Fld) (v : Nat) : (a.wrapAdd x v).sent = a.sent := rfl
@[simp] theorem wrapAdd_cap (a : App) (x : Fld) (v : Nat) : (a.wrapAdd x v).cap = a.cap := rfl
@[simp] theorem wrapAdd_tw (a : App) (x : Fld) (v : Nat) : (a.wrapAdd x v).tw = a.tw := rfl
@[simp] theorem wrapAdd_ctl (a : App) (x : Fld) (v : Nat) : (a.wrapAdd x v).ctl = a.ctl := rfl
@[simp] theorem wrapAdd_fio (a : App) (x : Fld) (v : Nat) : (a.wrapAdd x v).fio = a.fio := rfl
@[simp] theorem wrapAdd_mbox (a : App) (x : Fld) (v : Nat) : (a.wrapAdd x v).mbox = a.mbox := rfl
@[simp] theorem wrapAdd_eth (a : App) (x : Fld) (v : Nat) : (a.wrapAdd x v).eth = a.eth := rfl
@[simp] theorem wrapAdd_can (a : App) (x : Fld) (v : Nat) : (a.wrapAdd x v).can = a.can := rfl
@[simp] theorem wrapAdd_dma (a : App) (x : Fld) (v : Nat) : (a.wrapAdd x v).dma = a.dma := rfl

/-! ### Named updates of the parts -/

@[simp] theorem onCtx_regs (a : App) (k : Nat) (f : HostCtx → HostCtx) : (a.onCtx k f).regs = a.regs := rfl
@[simp] theorem onCtx_raised (a : App) (k : Nat) (f : HostCtx → HostCtx) : (a.onCtx k f).raised = a.raised := rfl
@[simp] theorem onCtx_xbar (a : App) (k : Nat) (f : HostCtx → HostCtx) : (a.onCtx k f).xbar = a.xbar := rfl
@[simp] theorem onCtx_tick (a : App) (k : Nat) (f : HostCtx → HostCtx) : (a.onCtx k f).tick = a.tick := rfl
@[simp] theorem onCtx_opTicks (a : App) (k : Nat) (f : HostCtx → HostCtx) : (a.onCtx k f).opTicks = a.opTicks := rfl
@[simp] theorem onCtx_freeCtr (a : App) (k : Nat) (f : HostCtx → HostCtx) : (a.onCtx k f).freeCtr = a.freeCtr := rfl
@[simp] theorem onCtx_tim (a : App) (k : Nat) (f : HostCtx → HostCtx) : (a.onCtx k f).tim = a.tim := rfl
@[simp] theorem onCtx_bkp (a : App) (k : Nat) (f : HostCtx → HostCtx) : (a.onCtx k f).bkp = a.bkp := rfl
@[simp] theorem onCtx_hostWrites (a : App) (k : Nat) (f : HostCtx → HostCtx) : (a.onCtx k f).hostWrites = a.hostWrites := rfl
@[simp] theorem onCtx_cmd (a : App) (k : Nat) (f : HostCtx → HostCtx) : (a.onCtx k f).cmd = a.cmd := rfl
@[simp] theorem onCtx_life (a : App) (k : Nat) (f : HostCtx → HostCtx) : (a.onCtx k f).life = a.life := rfl
@[simp] theorem onCtx_clk (a : App) (k : Nat) (f : HostCtx → HostCtx) : (a.onCtx k f).clk = a.clk := rfl
@[simp] theorem onCtx_ana (a : App) (k : Nat) (f : HostCtx → HostCtx) : (a.onCtx k f).ana = a.ana := rfl
@[simp] theorem onCtx_sig (a : App) (k : Nat) (f : HostCtx → HostCtx) : (a.onCtx k f).sig = a.sig := rfl
@[simp] theorem onCtx_slu (a : App) (k : Nat) (f : HostCtx → HostCtx) : (a.onCtx k f).slu = a.slu := rfl
@[simp] theorem onCtx_trp (a : App) (k : Nat) (f : HostCtx → HostCtx) : (a.onCtx k f).trp = a.trp := rfl
@[simp] theorem onCtx_par (a : App) (k : Nat) (f : HostCtx → HostCtx) : (a.onCtx k f).par = a.par := rfl
@[simp] theorem onCtx_node (a : App) (k : Nat) (f : HostCtx → HostCtx) : (a.onCtx k f).node = a.node := rfl
@[simp] theorem onCtx_sent (a : App) (k : Nat) (f : HostCtx → HostCtx) : (a.onCtx k f).sent = a.sent := rfl
@[simp] theorem onCtx_cap (a : App) (k : Nat) (f : HostCtx → HostCtx) : (a.onCtx k f).cap = a.cap := rfl
@[simp] theorem onCtx_tw (a : App) (k : Nat) (f : HostCtx → HostCtx) : (a.onCtx k f).tw = a.tw := rfl
@[simp] theorem onCtx_ctl (a : App) (k : Nat) (f : HostCtx → HostCtx) : (a.onCtx k f).ctl = a.ctl := rfl
@[simp] theorem onCtx_fio (a : App) (k : Nat) (f : HostCtx → HostCtx) : (a.onCtx k f).fio = a.fio := rfl
@[simp] theorem onCtx_mbox (a : App) (k : Nat) (f : HostCtx → HostCtx) : (a.onCtx k f).mbox = a.mbox := rfl
@[simp] theorem onCtx_eth (a : App) (k : Nat) (f : HostCtx → HostCtx) : (a.onCtx k f).eth = a.eth := rfl
@[simp] theorem onCtx_can (a : App) (k : Nat) (f : HostCtx → HostCtx) : (a.onCtx k f).can = a.can := rfl
@[simp] theorem onCtx_dma (a : App) (k : Nat) (f : HostCtx → HostCtx) : (a.onCtx k f).dma = a.dma := rfl
@[simp] theorem onCtx_ctxs (a : App) (k : Nat) (f : HostCtx → HostCtx) : (a.onCtx k f).ctxs = vup a.ctxs k f := rfl

@[simp] theorem onTags_regs (a : App) (k : Nat) (f : List TagRec → List TagRec) : (a.onTags k f).regs = a.regs := rfl
@[simp] theorem onTags_raised (a : App) (k : Nat) (f : List TagRec → List TagRec) : (a.onTags k f).raised = a.raised := rfl
@[simp] theorem onTags_xbar (a : App) (k : Nat) (f : List TagRec → List TagRec) : (a.onTags k f).xbar = a.xbar := rfl
@[simp] theorem onTags_tick (a : App) (k : Nat) (f : List TagRec → List TagRec) : (a.onTags k f).tick = a.tick := rfl
@[simp] theorem onTags_opTicks (a : App) (k : Nat) (f : List TagRec → List TagRec) : (a.onTags k f).opTicks = a.opTicks := rfl
@[simp] theorem onTags_freeCtr (a : App) (k : Nat) (f : List TagRec → List TagRec) : (a.onTags k f).freeCtr = a.freeCtr := rfl
@[simp] theorem onTags_tim (a : App) (k : Nat) (f : List TagRec → List TagRec) : (a.onTags k f).tim = a.tim := rfl
@[simp] theorem onTags_bkp (a : App) (k : Nat) (f : List TagRec → List TagRec) : (a.onTags k f).bkp = a.bkp := rfl
@[simp] theorem onTags_ctxs (a : App) (k : Nat) (f : List TagRec → List TagRec) : (a.onTags k f).ctxs = a.ctxs := rfl
@[simp] theorem onTags_hostWrites (a : App) (k : Nat) (f : List TagRec → List TagRec) : (a.onTags k f).hostWrites = a.hostWrites := rfl
@[simp] theorem onTags_life (a : App) (k : Nat) (f : List TagRec → List TagRec) : (a.onTags k f).life = a.life := rfl
@[simp] theorem onTags_clk (a : App) (k : Nat) (f : List TagRec → List TagRec) : (a.onTags k f).clk = a.clk := rfl
@[simp] theorem onTags_ana (a : App) (k : Nat) (f : List TagRec → List TagRec) : (a.onTags k f).ana = a.ana := rfl
@[simp] theorem onTags_sig (a : App) (k : Nat) (f : List TagRec → List TagRec) : (a.onTags k f).sig = a.sig := rfl
@[simp] theorem onTags_slu (a : App) (k : Nat) (f : List TagRec → List TagRec) : (a.onTags k f).slu = a.slu := rfl
@[simp] theorem onTags_trp (a : App) (k : Nat) (f : List TagRec → List TagRec) : (a.onTags k f).trp = a.trp := rfl
@[simp] theorem onTags_par (a : App) (k : Nat) (f : List TagRec → List TagRec) : (a.onTags k f).par = a.par := rfl
@[simp] theorem onTags_node (a : App) (k : Nat) (f : List TagRec → List TagRec) : (a.onTags k f).node = a.node := rfl
@[simp] theorem onTags_sent (a : App) (k : Nat) (f : List TagRec → List TagRec) : (a.onTags k f).sent = a.sent := rfl
@[simp] theorem onTags_cap (a : App) (k : Nat) (f : List TagRec → List TagRec) : (a.onTags k f).cap = a.cap := rfl
@[simp] theorem onTags_tw (a : App) (k : Nat) (f : List TagRec → List TagRec) : (a.onTags k f).tw = a.tw := rfl
@[simp] theorem onTags_ctl (a : App) (k : Nat) (f : List TagRec → List TagRec) : (a.onTags k f).ctl = a.ctl := rfl
@[simp] theorem onTags_fio (a : App) (k : Nat) (f : List TagRec → List TagRec) : (a.onTags k f).fio = a.fio := rfl
@[simp] theorem onTags_mbox (a : App) (k : Nat) (f : List TagRec → List TagRec) : (a.onTags k f).mbox = a.mbox := rfl
@[simp] theorem onTags_eth (a : App) (k : Nat) (f : List TagRec → List TagRec) : (a.onTags k f).eth = a.eth := rfl
@[simp] theorem onTags_can (a : App) (k : Nat) (f : List TagRec → List TagRec) : (a.onTags k f).can = a.can := rfl
@[simp] theorem onTags_dma (a : App) (k : Nat) (f : List TagRec → List TagRec) : (a.onTags k f).dma = a.dma := rfl
@[simp] theorem onTags_cmd (a : App) (k : Nat) (f : List TagRec → List TagRec) : (a.onTags k f).cmd = { a.cmd with tags := vup a.cmd.tags k f } := rfl

@[simp] theorem onTim_regs (a : App) (f : TimeSt → TimeSt) : (a.onTim f).regs = a.regs := rfl
@[simp] theorem onTim_raised (a : App) (f : TimeSt → TimeSt) : (a.onTim f).raised = a.raised := rfl
@[simp] theorem onTim_xbar (a : App) (f : TimeSt → TimeSt) : (a.onTim f).xbar = a.xbar := rfl
@[simp] theorem onTim_tick (a : App) (f : TimeSt → TimeSt) : (a.onTim f).tick = a.tick := rfl
@[simp] theorem onTim_opTicks (a : App) (f : TimeSt → TimeSt) : (a.onTim f).opTicks = a.opTicks := rfl
@[simp] theorem onTim_freeCtr (a : App) (f : TimeSt → TimeSt) : (a.onTim f).freeCtr = a.freeCtr := rfl
@[simp] theorem onTim_bkp (a : App) (f : TimeSt → TimeSt) : (a.onTim f).bkp = a.bkp := rfl
@[simp] theorem onTim_ctxs (a : App) (f : TimeSt → TimeSt) : (a.onTim f).ctxs = a.ctxs := rfl
@[simp] theorem onTim_hostWrites (a : App) (f : TimeSt → TimeSt) : (a.onTim f).hostWrites = a.hostWrites := rfl
@[simp] theorem onTim_cmd (a : App) (f : TimeSt → TimeSt) : (a.onTim f).cmd = a.cmd := rfl
@[simp] theorem onTim_life (a : App) (f : TimeSt → TimeSt) : (a.onTim f).life = a.life := rfl
@[simp] theorem onTim_clk (a : App) (f : TimeSt → TimeSt) : (a.onTim f).clk = a.clk := rfl
@[simp] theorem onTim_ana (a : App) (f : TimeSt → TimeSt) : (a.onTim f).ana = a.ana := rfl
@[simp] theorem onTim_sig (a : App) (f : TimeSt → TimeSt) : (a.onTim f).sig = a.sig := rfl
@[simp] theorem onTim_slu (a : App) (f : TimeSt → TimeSt) : (a.onTim f).slu = a.slu := rfl
@[simp] theorem onTim_trp (a : App) (f : TimeSt → TimeSt) : (a.onTim f).trp = a.trp := rfl
@[simp] theorem onTim_par (a : App) (f : TimeSt → TimeSt) : (a.onTim f).par = a.par := rfl
@[simp] theorem onTim_node (a : App) (f : TimeSt → TimeSt) : (a.onTim f).node = a.node := rfl
@[simp] theorem onTim_sent (a : App) (f : TimeSt → TimeSt) : (a.onTim f).sent = a.sent := rfl
@[simp] theorem onTim_cap (a : App) (f : TimeSt → TimeSt) : (a.onTim f).cap = a.cap := rfl
@[simp] theorem onTim_tw (a : App) (f : TimeSt → TimeSt) : (a.onTim f).tw = a.tw := rfl
@[simp] theorem onTim_ctl (a : App) (f : TimeSt → TimeSt) : (a.onTim f).ctl = a.ctl := rfl
@[simp] theorem onTim_fio (a : App) (f : TimeSt → TimeSt) : (a.onTim f).fio = a.fio := rfl
@[simp] theorem onTim_mbox (a : App) (f : TimeSt → TimeSt) : (a.onTim f).mbox = a.mbox := rfl
@[simp] theorem onTim_eth (a : App) (f : TimeSt → TimeSt) : (a.onTim f).eth = a.eth := rfl
@[simp] theorem onTim_can (a : App) (f : TimeSt → TimeSt) : (a.onTim f).can = a.can := rfl
@[simp] theorem onTim_dma (a : App) (f : TimeSt → TimeSt) : (a.onTim f).dma = a.dma := rfl
@[simp] theorem onTim_tim (a : App) (f : TimeSt → TimeSt) : (a.onTim f).tim = f a.tim := rfl

@[simp] theorem onClk_regs (a : App) (n : Nat) (f : Clock → Clock) : (a.onClk n f).regs = a.regs := rfl
@[simp] theorem onClk_raised (a : App) (n : Nat) (f : Clock → Clock) : (a.onClk n f).raised = a.raised := rfl
@[simp] theorem onClk_xbar (a : App) (n : Nat) (f : Clock → Clock) : (a.onClk n f).xbar = a.xbar := rfl
@[simp] theorem onClk_tick (a : App) (n : Nat) (f : Clock → Clock) : (a.onClk n f).tick = a.tick := rfl
@[simp] theorem onClk_opTicks (a : App) (n : Nat) (f : Clock → Clock) : (a.onClk n f).opTicks = a.opTicks := rfl
@[simp] theorem onClk_freeCtr (a : App) (n : Nat) (f : Clock → Clock) : (a.onClk n f).freeCtr = a.freeCtr := rfl
@[simp] theorem onClk_tim (a : App) (n : Nat) (f : Clock → Clock) : (a.onClk n f).tim = a.tim := rfl
@[simp] theorem onClk_bkp (a : App) (n : Nat) (f : Clock → Clock) : (a.onClk n f).bkp = a.bkp := rfl
@[simp] theorem onClk_ctxs (a : App) (n : Nat) (f : Clock → Clock) : (a.onClk n f).ctxs = a.ctxs := rfl
@[simp] theorem onClk_hostWrites (a : App) (n : Nat) (f : Clock → Clock) : (a.onClk n f).hostWrites = a.hostWrites := rfl
@[simp] theorem onClk_cmd (a : App) (n : Nat) (f : Clock → Clock) : (a.onClk n f).cmd = a.cmd := rfl
@[simp] theorem onClk_life (a : App) (n : Nat) (f : Clock → Clock) : (a.onClk n f).life = a.life := rfl
@[simp] theorem onClk_ana (a : App) (n : Nat) (f : Clock → Clock) : (a.onClk n f).ana = a.ana := rfl
@[simp] theorem onClk_sig (a : App) (n : Nat) (f : Clock → Clock) : (a.onClk n f).sig = a.sig := rfl
@[simp] theorem onClk_slu (a : App) (n : Nat) (f : Clock → Clock) : (a.onClk n f).slu = a.slu := rfl
@[simp] theorem onClk_trp (a : App) (n : Nat) (f : Clock → Clock) : (a.onClk n f).trp = a.trp := rfl
@[simp] theorem onClk_par (a : App) (n : Nat) (f : Clock → Clock) : (a.onClk n f).par = a.par := rfl
@[simp] theorem onClk_node (a : App) (n : Nat) (f : Clock → Clock) : (a.onClk n f).node = a.node := rfl
@[simp] theorem onClk_sent (a : App) (n : Nat) (f : Clock → Clock) : (a.onClk n f).sent = a.sent := rfl
@[simp] theorem onClk_cap (a : App) (n : Nat) (f : Clock → Clock) : (a.onClk n f).cap = a.cap := rfl
@[simp] theorem onClk_tw (a : App) (n : Nat) (f : Clock → Clock) : (a.onClk n f).tw = a.tw := rfl
@[simp] theorem onClk_ctl (a : App) (n : Nat) (f : Clock → Clock) : (a.onClk n f).ctl = a.ctl := rfl
@[simp] theorem onClk_fio (a : App) (n : Nat) (f : Clock → Clock) : (a.onClk n f).fio = a.fio := rfl
@[simp] theorem onClk_mbox (a : App) (n : Nat) (f : Clock → Clock) : (a.onClk n f).mbox = a.mbox := rfl
@[simp] theorem onClk_eth (a : App) (n : Nat) (f : Clock → Clock) : (a.onClk n f).eth = a.eth := rfl
@[simp] theorem onClk_can (a : App) (n : Nat) (f : Clock → Clock) : (a.onClk n f).can = a.can := rfl
@[simp] theorem onClk_dma (a : App) (n : Nat) (f : Clock → Clock) : (a.onClk n f).dma = a.dma := rfl
@[simp] theorem onClk_clk (a : App) (n : Nat) (f : Clock → Clock) : (a.onClk n f).clk = vup a.clk n f := rfl

@[simp] theorem onBay_regs (a : App) (n : Nat) (f : AnaBay → AnaBay) : (a.onBay n f).regs = a.regs := rfl
@[simp] theorem onBay_raised (a : App) (n : Nat) (f : AnaBay → AnaBay) : (a.onBay n f).raised = a.raised := rfl
@[simp] theorem onBay_xbar (a : App) (n : Nat) (f : AnaBay → AnaBay) : (a.onBay n f).xbar = a.xbar := rfl
@[simp] theorem onBay_tick (a : App) (n : Nat) (f : AnaBay → AnaBay) : (a.onBay n f).tick = a.tick := rfl
@[simp] theorem onBay_opTicks (a : App) (n : Nat) (f : AnaBay → AnaBay) : (a.onBay n f).opTicks = a.opTicks := rfl
@[simp] theorem onBay_freeCtr (a : App) (n : Nat) (f : AnaBay → AnaBay) : (a.onBay n f).freeCtr = a.freeCtr := rfl
@[simp] theorem onBay_tim (a : App) (n : Nat) (f : AnaBay → AnaBay) : (a.onBay n f).tim = a.tim := rfl
@[simp] theorem onBay_bkp (a : App) (n : Nat) (f : AnaBay → AnaBay) : (a.onBay n f).bkp = a.bkp := rfl
@[simp] theorem onBay_ctxs (a : App) (n : Nat) (f : AnaBay → AnaBay) : (a.onBay n f).ctxs = a.ctxs := rfl
@[simp] theorem onBay_hostWrites (a : App) (n : Nat) (f : AnaBay → AnaBay) : (a.onBay n f).hostWrites = a.hostWrites := rfl
@[simp] theorem onBay_cmd (a : App) (n : Nat) (f : AnaBay → AnaBay) : (a.onBay n f).cmd = a.cmd := rfl
@[simp] theorem onBay_life (a : App) (n : Nat) (f : AnaBay → AnaBay) : (a.onBay n f).life = a.life := rfl
@[simp] theorem onBay_clk (a : App) (n : Nat) (f : AnaBay → AnaBay) : (a.onBay n f).clk = a.clk := rfl
@[simp] theorem onBay_sig (a : App) (n : Nat) (f : AnaBay → AnaBay) : (a.onBay n f).sig = a.sig := rfl
@[simp] theorem onBay_slu (a : App) (n : Nat) (f : AnaBay → AnaBay) : (a.onBay n f).slu = a.slu := rfl
@[simp] theorem onBay_trp (a : App) (n : Nat) (f : AnaBay → AnaBay) : (a.onBay n f).trp = a.trp := rfl
@[simp] theorem onBay_par (a : App) (n : Nat) (f : AnaBay → AnaBay) : (a.onBay n f).par = a.par := rfl
@[simp] theorem onBay_node (a : App) (n : Nat) (f : AnaBay → AnaBay) : (a.onBay n f).node = a.node := rfl
@[simp] theorem onBay_sent (a : App) (n : Nat) (f : AnaBay → AnaBay) : (a.onBay n f).sent = a.sent := rfl
@[simp] theorem onBay_cap (a : App) (n : Nat) (f : AnaBay → AnaBay) : (a.onBay n f).cap = a.cap := rfl
@[simp] theorem onBay_tw (a : App) (n : Nat) (f : AnaBay → AnaBay) : (a.onBay n f).tw = a.tw := rfl
@[simp] theorem onBay_ctl (a : App) (n : Nat) (f : AnaBay → AnaBay) : (a.onBay n f).ctl = a.ctl := rfl
@[simp] theorem onBay_fio (a : App) (n : Nat) (f : AnaBay → AnaBay) : (a.onBay n f).fio = a.fio := rfl
@[simp] theorem onBay_mbox (a : App) (n : Nat) (f : AnaBay → AnaBay) : (a.onBay n f).mbox = a.mbox := rfl
@[simp] theorem onBay_eth (a : App) (n : Nat) (f : AnaBay → AnaBay) : (a.onBay n f).eth = a.eth := rfl
@[simp] theorem onBay_can (a : App) (n : Nat) (f : AnaBay → AnaBay) : (a.onBay n f).can = a.can := rfl
@[simp] theorem onBay_dma (a : App) (n : Nat) (f : AnaBay → AnaBay) : (a.onBay n f).dma = a.dma := rfl
@[simp] theorem onBay_ana (a : App) (n : Nat) (f : AnaBay → AnaBay) : (a.onBay n f).ana = { a.ana with bays := vup a.ana.bays n f } := rfl

@[simp] theorem onAux_regs (a : App) (f : AuxSt → AuxSt) : (a.onAux f).regs = a.regs := rfl
@[simp] theorem onAux_raised (a : App) (f : AuxSt → AuxSt) : (a.onAux f).raised = a.raised := rfl
@[simp] theorem onAux_xbar (a : App) (f : AuxSt → AuxSt) : (a.onAux f).xbar = a.xbar := rfl
@[simp] theorem onAux_tick (a : App) (f : AuxSt → AuxSt) : (a.onAux f).tick = a.tick := rfl
@[simp] theorem onAux_opTicks (a : App) (f : AuxSt → AuxSt) : (a.onAux f).opTicks = a.opTicks := rfl
@[simp] theorem onAux_freeCtr (a : App) (f : AuxSt → AuxSt) : (a.onAux f).freeCtr = a.freeCtr := rfl
@[simp] theorem onAux_tim (a : App) (f : AuxSt → AuxSt) : (a.onAux f).tim = a.tim := rfl
@[simp] theorem onAux_bkp (a : App) (f : AuxSt → AuxSt) : (a.onAux f).bkp = a.bkp := rfl
@[simp] theorem onAux_ctxs (a : App) (f : AuxSt → AuxSt) : (a.onAux f).ctxs = a.ctxs := rfl
@[simp] theorem onAux_hostWrites (a : App) (f : AuxSt → AuxSt) : (a.onAux f).hostWrites = a.hostWrites := rfl
@[simp] theorem onAux_cmd (a : App) (f : AuxSt → AuxSt) : (a.onAux f).cmd = a.cmd := rfl
@[simp] theorem onAux_life (a : App) (f : AuxSt → AuxSt) : (a.onAux f).life = a.life := rfl
@[simp] theorem onAux_clk (a : App) (f : AuxSt → AuxSt) : (a.onAux f).clk = a.clk := rfl
@[simp] theorem onAux_sig (a : App) (f : AuxSt → AuxSt) : (a.onAux f).sig = a.sig := rfl
@[simp] theorem onAux_slu (a : App) (f : AuxSt → AuxSt) : (a.onAux f).slu = a.slu := rfl
@[simp] theorem onAux_trp (a : App) (f : AuxSt → AuxSt) : (a.onAux f).trp = a.trp := rfl
@[simp] theorem onAux_par (a : App) (f : AuxSt → AuxSt) : (a.onAux f).par = a.par := rfl
@[simp] theorem onAux_node (a : App) (f : AuxSt → AuxSt) : (a.onAux f).node = a.node := rfl
@[simp] theorem onAux_sent (a : App) (f : AuxSt → AuxSt) : (a.onAux f).sent = a.sent := rfl
@[simp] theorem onAux_cap (a : App) (f : AuxSt → AuxSt) : (a.onAux f).cap = a.cap := rfl
@[simp] theorem onAux_tw (a : App) (f : AuxSt → AuxSt) : (a.onAux f).tw = a.tw := rfl
@[simp] theorem onAux_ctl (a : App) (f : AuxSt → AuxSt) : (a.onAux f).ctl = a.ctl := rfl
@[simp] theorem onAux_fio (a : App) (f : AuxSt → AuxSt) : (a.onAux f).fio = a.fio := rfl
@[simp] theorem onAux_mbox (a : App) (f : AuxSt → AuxSt) : (a.onAux f).mbox = a.mbox := rfl
@[simp] theorem onAux_eth (a : App) (f : AuxSt → AuxSt) : (a.onAux f).eth = a.eth := rfl
@[simp] theorem onAux_can (a : App) (f : AuxSt → AuxSt) : (a.onAux f).can = a.can := rfl
@[simp] theorem onAux_dma (a : App) (f : AuxSt → AuxSt) : (a.onAux f).dma = a.dma := rfl
@[simp] theorem onAux_ana (a : App) (f : AuxSt → AuxSt) : (a.onAux f).ana = { a.ana with aux := f a.ana.aux } := rfl

@[simp] theorem onSig_regs (a : App) (f : SigSt → SigSt) : (a.onSig f).regs = a.regs := rfl
@[simp] theorem onSig_raised (a : App) (f : SigSt → SigSt) : (a.onSig f).raised = a.raised := rfl
@[simp] theorem onSig_xbar (a : App) (f : SigSt → SigSt) : (a.onSig f).xbar = a.xbar := rfl
@[simp] theorem onSig_tick (a : App) (f : SigSt → SigSt) : (a.onSig f).tick = a.tick := rfl
@[simp] theorem onSig_opTicks (a : App) (f : SigSt → SigSt) : (a.onSig f).opTicks = a.opTicks := rfl
@[simp] theorem onSig_freeCtr (a : App) (f : SigSt → SigSt) : (a.onSig f).freeCtr = a.freeCtr := rfl
@[simp] theorem onSig_tim (a : App) (f : SigSt → SigSt) : (a.onSig f).tim = a.tim := rfl
@[simp] theorem onSig_bkp (a : App) (f : SigSt → SigSt) : (a.onSig f).bkp = a.bkp := rfl
@[simp] theorem onSig_ctxs (a : App) (f : SigSt → SigSt) : (a.onSig f).ctxs = a.ctxs := rfl
@[simp] theorem onSig_hostWrites (a : App) (f : SigSt → SigSt) : (a.onSig f).hostWrites = a.hostWrites := rfl
@[simp] theorem onSig_cmd (a : App) (f : SigSt → SigSt) : (a.onSig f).cmd = a.cmd := rfl
@[simp] theorem onSig_life (a : App) (f : SigSt → SigSt) : (a.onSig f).life = a.life := rfl
@[simp] theorem onSig_clk (a : App) (f : SigSt → SigSt) : (a.onSig f).clk = a.clk := rfl
@[simp] theorem onSig_ana (a : App) (f : SigSt → SigSt) : (a.onSig f).ana = a.ana := rfl
@[simp] theorem onSig_slu (a : App) (f : SigSt → SigSt) : (a.onSig f).slu = a.slu := rfl
@[simp] theorem onSig_trp (a : App) (f : SigSt → SigSt) : (a.onSig f).trp = a.trp := rfl
@[simp] theorem onSig_par (a : App) (f : SigSt → SigSt) : (a.onSig f).par = a.par := rfl
@[simp] theorem onSig_node (a : App) (f : SigSt → SigSt) : (a.onSig f).node = a.node := rfl
@[simp] theorem onSig_sent (a : App) (f : SigSt → SigSt) : (a.onSig f).sent = a.sent := rfl
@[simp] theorem onSig_cap (a : App) (f : SigSt → SigSt) : (a.onSig f).cap = a.cap := rfl
@[simp] theorem onSig_tw (a : App) (f : SigSt → SigSt) : (a.onSig f).tw = a.tw := rfl
@[simp] theorem onSig_ctl (a : App) (f : SigSt → SigSt) : (a.onSig f).ctl = a.ctl := rfl
@[simp] theorem onSig_fio (a : App) (f : SigSt → SigSt) : (a.onSig f).fio = a.fio := rfl
@[simp] theorem onSig_mbox (a : App) (f : SigSt → SigSt) : (a.onSig f).mbox = a.mbox := rfl
@[simp] theorem onSig_eth (a : App) (f : SigSt → SigSt) : (a.onSig f).eth = a.eth := rfl
@[simp] theorem onSig_can (a : App) (f : SigSt → SigSt) : (a.onSig f).can = a.can := rfl
@[simp] theorem onSig_dma (a : App) (f : SigSt → SigSt) : (a.onSig f).dma = a.dma := rfl
@[simp] theorem onSig_sig (a : App) (f : SigSt → SigSt) : (a.onSig f).sig = f a.sig := rfl

@[simp] theorem onSlu_regs (a : App) (f : SluSt → SluSt) : (a.onSlu f).regs = a.regs := rfl
@[simp] theorem onSlu_raised (a : App) (f : SluSt → SluSt) : (a.onSlu f).raised = a.raised := rfl
@[simp] theorem onSlu_xbar (a : App) (f : SluSt → SluSt) : (a.onSlu f).xbar = a.xbar := rfl
@[simp] theorem onSlu_tick (a : App) (f : SluSt → SluSt) : (a.onSlu f).tick = a.tick := rfl
@[simp] theorem onSlu_opTicks (a : App) (f : SluSt → SluSt) : (a.onSlu f).opTicks = a.opTicks := rfl
@[simp] theorem onSlu_freeCtr (a : App) (f : SluSt → SluSt) : (a.onSlu f).freeCtr = a.freeCtr := rfl
@[simp] theorem onSlu_tim (a : App) (f : SluSt → SluSt) : (a.onSlu f).tim = a.tim := rfl
@[simp] theorem onSlu_bkp (a : App) (f : SluSt → SluSt) : (a.onSlu f).bkp = a.bkp := rfl
@[simp] theorem onSlu_ctxs (a : App) (f : SluSt → SluSt) : (a.onSlu f).ctxs = a.ctxs := rfl
@[simp] theorem onSlu_hostWrites (a : App) (f : SluSt → SluSt) : (a.onSlu f).hostWrites = a.hostWrites := rfl
@[simp] theorem onSlu_cmd (a : App) (f : SluSt → SluSt) : (a.onSlu f).cmd = a.cmd := rfl
@[simp] theorem onSlu_life (a : App) (f : SluSt → SluSt) : (a.onSlu f).life = a.life := rfl
@[simp] theorem onSlu_clk (a : App) (f : SluSt → SluSt) : (a.onSlu f).clk = a.clk := rfl
@[simp] theorem onSlu_ana (a : App) (f : SluSt → SluSt) : (a.onSlu f).ana = a.ana := rfl
@[simp] theorem onSlu_sig (a : App) (f : SluSt → SluSt) : (a.onSlu f).sig = a.sig := rfl
@[simp] theorem onSlu_trp (a : App) (f : SluSt → SluSt) : (a.onSlu f).trp = a.trp := rfl
@[simp] theorem onSlu_par (a : App) (f : SluSt → SluSt) : (a.onSlu f).par = a.par := rfl
@[simp] theorem onSlu_node (a : App) (f : SluSt → SluSt) : (a.onSlu f).node = a.node := rfl
@[simp] theorem onSlu_sent (a : App) (f : SluSt → SluSt) : (a.onSlu f).sent = a.sent := rfl
@[simp] theorem onSlu_cap (a : App) (f : SluSt → SluSt) : (a.onSlu f).cap = a.cap := rfl
@[simp] theorem onSlu_tw (a : App) (f : SluSt → SluSt) : (a.onSlu f).tw = a.tw := rfl
@[simp] theorem onSlu_ctl (a : App) (f : SluSt → SluSt) : (a.onSlu f).ctl = a.ctl := rfl
@[simp] theorem onSlu_fio (a : App) (f : SluSt → SluSt) : (a.onSlu f).fio = a.fio := rfl
@[simp] theorem onSlu_mbox (a : App) (f : SluSt → SluSt) : (a.onSlu f).mbox = a.mbox := rfl
@[simp] theorem onSlu_eth (a : App) (f : SluSt → SluSt) : (a.onSlu f).eth = a.eth := rfl
@[simp] theorem onSlu_can (a : App) (f : SluSt → SluSt) : (a.onSlu f).can = a.can := rfl
@[simp] theorem onSlu_dma (a : App) (f : SluSt → SluSt) : (a.onSlu f).dma = a.dma := rfl
@[simp] theorem onSlu_slu (a : App) (f : SluSt → SluSt) : (a.onSlu f).slu = f a.slu := rfl

@[simp] theorem onTrp_regs (a : App) (f : TripSt → TripSt) : (a.onTrp f).regs = a.regs := rfl
@[simp] theorem onTrp_raised (a : App) (f : TripSt → TripSt) : (a.onTrp f).raised = a.raised := rfl
@[simp] theorem onTrp_xbar (a : App) (f : TripSt → TripSt) : (a.onTrp f).xbar = a.xbar := rfl
@[simp] theorem onTrp_tick (a : App) (f : TripSt → TripSt) : (a.onTrp f).tick = a.tick := rfl
@[simp] theorem onTrp_opTicks (a : App) (f : TripSt → TripSt) : (a.onTrp f).opTicks = a.opTicks := rfl
@[simp] theorem onTrp_freeCtr (a : App) (f : TripSt → TripSt) : (a.onTrp f).freeCtr = a.freeCtr := rfl
@[simp] theorem onTrp_tim (a : App) (f : TripSt → TripSt) : (a.onTrp f).tim = a.tim := rfl
@[simp] theorem onTrp_bkp (a : App) (f : TripSt → TripSt) : (a.onTrp f).bkp = a.bkp := rfl
@[simp] theorem onTrp_ctxs (a : App) (f : TripSt → TripSt) : (a.onTrp f).ctxs = a.ctxs := rfl
@[simp] theorem onTrp_hostWrites (a : App) (f : TripSt → TripSt) : (a.onTrp f).hostWrites = a.hostWrites := rfl
@[simp] theorem onTrp_cmd (a : App) (f : TripSt → TripSt) : (a.onTrp f).cmd = a.cmd := rfl
@[simp] theorem onTrp_life (a : App) (f : TripSt → TripSt) : (a.onTrp f).life = a.life := rfl
@[simp] theorem onTrp_clk (a : App) (f : TripSt → TripSt) : (a.onTrp f).clk = a.clk := rfl
@[simp] theorem onTrp_ana (a : App) (f : TripSt → TripSt) : (a.onTrp f).ana = a.ana := rfl
@[simp] theorem onTrp_sig (a : App) (f : TripSt → TripSt) : (a.onTrp f).sig = a.sig := rfl
@[simp] theorem onTrp_slu (a : App) (f : TripSt → TripSt) : (a.onTrp f).slu = a.slu := rfl
@[simp] theorem onTrp_par (a : App) (f : TripSt → TripSt) : (a.onTrp f).par = a.par := rfl
@[simp] theorem onTrp_node (a : App) (f : TripSt → TripSt) : (a.onTrp f).node = a.node := rfl
@[simp] theorem onTrp_sent (a : App) (f : TripSt → TripSt) : (a.onTrp f).sent = a.sent := rfl
@[simp] theorem onTrp_cap (a : App) (f : TripSt → TripSt) : (a.onTrp f).cap = a.cap := rfl
@[simp] theorem onTrp_tw (a : App) (f : TripSt → TripSt) : (a.onTrp f).tw = a.tw := rfl
@[simp] theorem onTrp_ctl (a : App) (f : TripSt → TripSt) : (a.onTrp f).ctl = a.ctl := rfl
@[simp] theorem onTrp_fio (a : App) (f : TripSt → TripSt) : (a.onTrp f).fio = a.fio := rfl
@[simp] theorem onTrp_mbox (a : App) (f : TripSt → TripSt) : (a.onTrp f).mbox = a.mbox := rfl
@[simp] theorem onTrp_eth (a : App) (f : TripSt → TripSt) : (a.onTrp f).eth = a.eth := rfl
@[simp] theorem onTrp_can (a : App) (f : TripSt → TripSt) : (a.onTrp f).can = a.can := rfl
@[simp] theorem onTrp_dma (a : App) (f : TripSt → TripSt) : (a.onTrp f).dma = a.dma := rfl
@[simp] theorem onTrp_trp (a : App) (f : TripSt → TripSt) : (a.onTrp f).trp = f a.trp := rfl

@[simp] theorem onCh_regs (a : App) (n : Nat) (f : TripCh → TripCh) : (a.onCh n f).regs = a.regs := rfl
@[simp] theorem onCh_raised (a : App) (n : Nat) (f : TripCh → TripCh) : (a.onCh n f).raised = a.raised := rfl
@[simp] theorem onCh_xbar (a : App) (n : Nat) (f : TripCh → TripCh) : (a.onCh n f).xbar = a.xbar := rfl
@[simp] theorem onCh_tick (a : App) (n : Nat) (f : TripCh → TripCh) : (a.onCh n f).tick = a.tick := rfl
@[simp] theorem onCh_opTicks (a : App) (n : Nat) (f : TripCh → TripCh) : (a.onCh n f).opTicks = a.opTicks := rfl
@[simp] theorem onCh_freeCtr (a : App) (n : Nat) (f : TripCh → TripCh) : (a.onCh n f).freeCtr = a.freeCtr := rfl
@[simp] theorem onCh_tim (a : App) (n : Nat) (f : TripCh → TripCh) : (a.onCh n f).tim = a.tim := rfl
@[simp] theorem onCh_bkp (a : App) (n : Nat) (f : TripCh → TripCh) : (a.onCh n f).bkp = a.bkp := rfl
@[simp] theorem onCh_ctxs (a : App) (n : Nat) (f : TripCh → TripCh) : (a.onCh n f).ctxs = a.ctxs := rfl
@[simp] theorem onCh_hostWrites (a : App) (n : Nat) (f : TripCh → TripCh) : (a.onCh n f).hostWrites = a.hostWrites := rfl
@[simp] theorem onCh_cmd (a : App) (n : Nat) (f : TripCh → TripCh) : (a.onCh n f).cmd = a.cmd := rfl
@[simp] theorem onCh_life (a : App) (n : Nat) (f : TripCh → TripCh) : (a.onCh n f).life = a.life := rfl
@[simp] theorem onCh_clk (a : App) (n : Nat) (f : TripCh → TripCh) : (a.onCh n f).clk = a.clk := rfl
@[simp] theorem onCh_ana (a : App) (n : Nat) (f : TripCh → TripCh) : (a.onCh n f).ana = a.ana := rfl
@[simp] theorem onCh_sig (a : App) (n : Nat) (f : TripCh → TripCh) : (a.onCh n f).sig = a.sig := rfl
@[simp] theorem onCh_slu (a : App) (n : Nat) (f : TripCh → TripCh) : (a.onCh n f).slu = a.slu := rfl
@[simp] theorem onCh_par (a : App) (n : Nat) (f : TripCh → TripCh) : (a.onCh n f).par = a.par := rfl
@[simp] theorem onCh_node (a : App) (n : Nat) (f : TripCh → TripCh) : (a.onCh n f).node = a.node := rfl
@[simp] theorem onCh_sent (a : App) (n : Nat) (f : TripCh → TripCh) : (a.onCh n f).sent = a.sent := rfl
@[simp] theorem onCh_cap (a : App) (n : Nat) (f : TripCh → TripCh) : (a.onCh n f).cap = a.cap := rfl
@[simp] theorem onCh_tw (a : App) (n : Nat) (f : TripCh → TripCh) : (a.onCh n f).tw = a.tw := rfl
@[simp] theorem onCh_ctl (a : App) (n : Nat) (f : TripCh → TripCh) : (a.onCh n f).ctl = a.ctl := rfl
@[simp] theorem onCh_fio (a : App) (n : Nat) (f : TripCh → TripCh) : (a.onCh n f).fio = a.fio := rfl
@[simp] theorem onCh_mbox (a : App) (n : Nat) (f : TripCh → TripCh) : (a.onCh n f).mbox = a.mbox := rfl
@[simp] theorem onCh_eth (a : App) (n : Nat) (f : TripCh → TripCh) : (a.onCh n f).eth = a.eth := rfl
@[simp] theorem onCh_can (a : App) (n : Nat) (f : TripCh → TripCh) : (a.onCh n f).can = a.can := rfl
@[simp] theorem onCh_dma (a : App) (n : Nat) (f : TripCh → TripCh) : (a.onCh n f).dma = a.dma := rfl
@[simp] theorem onCh_trp (a : App) (n : Nat) (f : TripCh → TripCh) : (a.onCh n f).trp = { a.trp with ch := vup a.trp.ch n f } := rfl

@[simp] theorem onPar_regs (a : App) (f : ParSt → ParSt) : (a.onPar f).regs = a.regs := rfl
@[simp] theorem onPar_raised (a : App) (f : ParSt → ParSt) : (a.onPar f).raised = a.raised := rfl
@[simp] theorem onPar_xbar (a : App) (f : ParSt → ParSt) : (a.onPar f).xbar = a.xbar := rfl
@[simp] theorem onPar_tick (a : App) (f : ParSt → ParSt) : (a.onPar f).tick = a.tick := rfl
@[simp] theorem onPar_opTicks (a : App) (f : ParSt → ParSt) : (a.onPar f).opTicks = a.opTicks := rfl
@[simp] theorem onPar_freeCtr (a : App) (f : ParSt → ParSt) : (a.onPar f).freeCtr = a.freeCtr := rfl
@[simp] theorem onPar_tim (a : App) (f : ParSt → ParSt) : (a.onPar f).tim = a.tim := rfl
@[simp] theorem onPar_bkp (a : App) (f : ParSt → ParSt) : (a.onPar f).bkp = a.bkp := rfl
@[simp] theorem onPar_ctxs (a : App) (f : ParSt → ParSt) : (a.onPar f).ctxs = a.ctxs := rfl
@[simp] theorem onPar_hostWrites (a : App) (f : ParSt → ParSt) : (a.onPar f).hostWrites = a.hostWrites := rfl
@[simp] theorem onPar_cmd (a : App) (f : ParSt → ParSt) : (a.onPar f).cmd = a.cmd := rfl
@[simp] theorem onPar_life (a : App) (f : ParSt → ParSt) : (a.onPar f).life = a.life := rfl
@[simp] theorem onPar_clk (a : App) (f : ParSt → ParSt) : (a.onPar f).clk = a.clk := rfl
@[simp] theorem onPar_ana (a : App) (f : ParSt → ParSt) : (a.onPar f).ana = a.ana := rfl
@[simp] theorem onPar_sig (a : App) (f : ParSt → ParSt) : (a.onPar f).sig = a.sig := rfl
@[simp] theorem onPar_slu (a : App) (f : ParSt → ParSt) : (a.onPar f).slu = a.slu := rfl
@[simp] theorem onPar_trp (a : App) (f : ParSt → ParSt) : (a.onPar f).trp = a.trp := rfl
@[simp] theorem onPar_node (a : App) (f : ParSt → ParSt) : (a.onPar f).node = a.node := rfl
@[simp] theorem onPar_sent (a : App) (f : ParSt → ParSt) : (a.onPar f).sent = a.sent := rfl
@[simp] theorem onPar_cap (a : App) (f : ParSt → ParSt) : (a.onPar f).cap = a.cap := rfl
@[simp] theorem onPar_tw (a : App) (f : ParSt → ParSt) : (a.onPar f).tw = a.tw := rfl
@[simp] theorem onPar_ctl (a : App) (f : ParSt → ParSt) : (a.onPar f).ctl = a.ctl := rfl
@[simp] theorem onPar_fio (a : App) (f : ParSt → ParSt) : (a.onPar f).fio = a.fio := rfl
@[simp] theorem onPar_mbox (a : App) (f : ParSt → ParSt) : (a.onPar f).mbox = a.mbox := rfl
@[simp] theorem onPar_eth (a : App) (f : ParSt → ParSt) : (a.onPar f).eth = a.eth := rfl
@[simp] theorem onPar_can (a : App) (f : ParSt → ParSt) : (a.onPar f).can = a.can := rfl
@[simp] theorem onPar_dma (a : App) (f : ParSt → ParSt) : (a.onPar f).dma = a.dma := rfl
@[simp] theorem onPar_par (a : App) (f : ParSt → ParSt) : (a.onPar f).par = f a.par := rfl

@[simp] theorem onCap_regs (a : App) (f : CapSt → CapSt) : (a.onCap f).regs = a.regs := rfl
@[simp] theorem onCap_raised (a : App) (f : CapSt → CapSt) : (a.onCap f).raised = a.raised := rfl
@[simp] theorem onCap_xbar (a : App) (f : CapSt → CapSt) : (a.onCap f).xbar = a.xbar := rfl
@[simp] theorem onCap_tick (a : App) (f : CapSt → CapSt) : (a.onCap f).tick = a.tick := rfl
@[simp] theorem onCap_opTicks (a : App) (f : CapSt → CapSt) : (a.onCap f).opTicks = a.opTicks := rfl
@[simp] theorem onCap_freeCtr (a : App) (f : CapSt → CapSt) : (a.onCap f).freeCtr = a.freeCtr := rfl
@[simp] theorem onCap_tim (a : App) (f : CapSt → CapSt) : (a.onCap f).tim = a.tim := rfl
@[simp] theorem onCap_bkp (a : App) (f : CapSt → CapSt) : (a.onCap f).bkp = a.bkp := rfl
@[simp] theorem onCap_ctxs (a : App) (f : CapSt → CapSt) : (a.onCap f).ctxs = a.ctxs := rfl
@[simp] theorem onCap_hostWrites (a : App) (f : CapSt → CapSt) : (a.onCap f).hostWrites = a.hostWrites := rfl
@[simp] theorem onCap_cmd (a : App) (f : CapSt → CapSt) : (a.onCap f).cmd = a.cmd := rfl
@[simp] theorem onCap_life (a : App) (f : CapSt → CapSt) : (a.onCap f).life = a.life := rfl
@[simp] theorem onCap_clk (a : App) (f : CapSt → CapSt) : (a.onCap f).clk = a.clk := rfl
@[simp] theorem onCap_ana (a : App) (f : CapSt → CapSt) : (a.onCap f).ana = a.ana := rfl
@[simp] theorem onCap_sig (a : App) (f : CapSt → CapSt) : (a.onCap f).sig = a.sig := rfl
@[simp] theorem onCap_slu (a : App) (f : CapSt → CapSt) : (a.onCap f).slu = a.slu := rfl
@[simp] theorem onCap_trp (a : App) (f : CapSt → CapSt) : (a.onCap f).trp = a.trp := rfl
@[simp] theorem onCap_par (a : App) (f : CapSt → CapSt) : (a.onCap f).par = a.par := rfl
@[simp] theorem onCap_node (a : App) (f : CapSt → CapSt) : (a.onCap f).node = a.node := rfl
@[simp] theorem onCap_sent (a : App) (f : CapSt → CapSt) : (a.onCap f).sent = a.sent := rfl
@[simp] theorem onCap_tw (a : App) (f : CapSt → CapSt) : (a.onCap f).tw = a.tw := rfl
@[simp] theorem onCap_ctl (a : App) (f : CapSt → CapSt) : (a.onCap f).ctl = a.ctl := rfl
@[simp] theorem onCap_fio (a : App) (f : CapSt → CapSt) : (a.onCap f).fio = a.fio := rfl
@[simp] theorem onCap_mbox (a : App) (f : CapSt → CapSt) : (a.onCap f).mbox = a.mbox := rfl
@[simp] theorem onCap_eth (a : App) (f : CapSt → CapSt) : (a.onCap f).eth = a.eth := rfl
@[simp] theorem onCap_can (a : App) (f : CapSt → CapSt) : (a.onCap f).can = a.can := rfl
@[simp] theorem onCap_dma (a : App) (f : CapSt → CapSt) : (a.onCap f).dma = a.dma := rfl
@[simp] theorem onCap_cap (a : App) (f : CapSt → CapSt) : (a.onCap f).cap = f a.cap := rfl

@[simp] theorem onTw_regs (a : App) (f : TwSt → TwSt) : (a.onTw f).regs = a.regs := rfl
@[simp] theorem onTw_raised (a : App) (f : TwSt → TwSt) : (a.onTw f).raised = a.raised := rfl
@[simp] theorem onTw_xbar (a : App) (f : TwSt → TwSt) : (a.onTw f).xbar = a.xbar := rfl
@[simp] theorem onTw_tick (a : App) (f : TwSt → TwSt) : (a.onTw f).tick = a.tick := rfl
@[simp] theorem onTw_opTicks (a : App) (f : TwSt → TwSt) : (a.onTw f).opTicks = a.opTicks := rfl
@[simp] theorem onTw_freeCtr (a : App) (f : TwSt → TwSt) : (a.onTw f).freeCtr = a.freeCtr := rfl
@[simp] theorem onTw_tim (a : App) (f : TwSt → TwSt) : (a.onTw f).tim = a.tim := rfl
@[simp] theorem onTw_bkp (a : App) (f : TwSt → TwSt) : (a.onTw f).bkp = a.bkp := rfl
@[simp] theorem onTw_ctxs (a : App) (f : TwSt → TwSt) : (a.onTw f).ctxs = a.ctxs := rfl
@[simp] theorem onTw_hostWrites (a : App) (f : TwSt → TwSt) : (a.onTw f).hostWrites = a.hostWrites := rfl
@[simp] theorem onTw_cmd (a : App) (f : TwSt → TwSt) : (a.onTw f).cmd = a.cmd := rfl
@[simp] theorem onTw_life (a : App) (f : TwSt → TwSt) : (a.onTw f).life = a.life := rfl
@[simp] theorem onTw_clk (a : App) (f : TwSt → TwSt) : (a.onTw f).clk = a.clk := rfl
@[simp] theorem onTw_ana (a : App) (f : TwSt → TwSt) : (a.onTw f).ana = a.ana := rfl
@[simp] theorem onTw_sig (a : App) (f : TwSt → TwSt) : (a.onTw f).sig = a.sig := rfl
@[simp] theorem onTw_slu (a : App) (f : TwSt → TwSt) : (a.onTw f).slu = a.slu := rfl
@[simp] theorem onTw_trp (a : App) (f : TwSt → TwSt) : (a.onTw f).trp = a.trp := rfl
@[simp] theorem onTw_par (a : App) (f : TwSt → TwSt) : (a.onTw f).par = a.par := rfl
@[simp] theorem onTw_node (a : App) (f : TwSt → TwSt) : (a.onTw f).node = a.node := rfl
@[simp] theorem onTw_sent (a : App) (f : TwSt → TwSt) : (a.onTw f).sent = a.sent := rfl
@[simp] theorem onTw_cap (a : App) (f : TwSt → TwSt) : (a.onTw f).cap = a.cap := rfl
@[simp] theorem onTw_ctl (a : App) (f : TwSt → TwSt) : (a.onTw f).ctl = a.ctl := rfl
@[simp] theorem onTw_fio (a : App) (f : TwSt → TwSt) : (a.onTw f).fio = a.fio := rfl
@[simp] theorem onTw_mbox (a : App) (f : TwSt → TwSt) : (a.onTw f).mbox = a.mbox := rfl
@[simp] theorem onTw_eth (a : App) (f : TwSt → TwSt) : (a.onTw f).eth = a.eth := rfl
@[simp] theorem onTw_can (a : App) (f : TwSt → TwSt) : (a.onTw f).can = a.can := rfl
@[simp] theorem onTw_dma (a : App) (f : TwSt → TwSt) : (a.onTw f).dma = a.dma := rfl
@[simp] theorem onTw_tw (a : App) (f : TwSt → TwSt) : (a.onTw f).tw = f a.tw := rfl

@[simp] theorem onCtl_regs (a : App) (f : CtlSt → CtlSt) : (a.onCtl f).regs = a.regs := rfl
@[simp] theorem onCtl_raised (a : App) (f : CtlSt → CtlSt) : (a.onCtl f).raised = a.raised := rfl
@[simp] theorem onCtl_xbar (a : App) (f : CtlSt → CtlSt) : (a.onCtl f).xbar = a.xbar := rfl
@[simp] theorem onCtl_tick (a : App) (f : CtlSt → CtlSt) : (a.onCtl f).tick = a.tick := rfl
@[simp] theorem onCtl_opTicks (a : App) (f : CtlSt → CtlSt) : (a.onCtl f).opTicks = a.opTicks := rfl
@[simp] theorem onCtl_freeCtr (a : App) (f : CtlSt → CtlSt) : (a.onCtl f).freeCtr = a.freeCtr := rfl
@[simp] theorem onCtl_tim (a : App) (f : CtlSt → CtlSt) : (a.onCtl f).tim = a.tim := rfl
@[simp] theorem onCtl_bkp (a : App) (f : CtlSt → CtlSt) : (a.onCtl f).bkp = a.bkp := rfl
@[simp] theorem onCtl_ctxs (a : App) (f : CtlSt → CtlSt) : (a.onCtl f).ctxs = a.ctxs := rfl
@[simp] theorem onCtl_hostWrites (a : App) (f : CtlSt → CtlSt) : (a.onCtl f).hostWrites = a.hostWrites := rfl
@[simp] theorem onCtl_cmd (a : App) (f : CtlSt → CtlSt) : (a.onCtl f).cmd = a.cmd := rfl
@[simp] theorem onCtl_life (a : App) (f : CtlSt → CtlSt) : (a.onCtl f).life = a.life := rfl
@[simp] theorem onCtl_clk (a : App) (f : CtlSt → CtlSt) : (a.onCtl f).clk = a.clk := rfl
@[simp] theorem onCtl_ana (a : App) (f : CtlSt → CtlSt) : (a.onCtl f).ana = a.ana := rfl
@[simp] theorem onCtl_sig (a : App) (f : CtlSt → CtlSt) : (a.onCtl f).sig = a.sig := rfl
@[simp] theorem onCtl_slu (a : App) (f : CtlSt → CtlSt) : (a.onCtl f).slu = a.slu := rfl
@[simp] theorem onCtl_trp (a : App) (f : CtlSt → CtlSt) : (a.onCtl f).trp = a.trp := rfl
@[simp] theorem onCtl_par (a : App) (f : CtlSt → CtlSt) : (a.onCtl f).par = a.par := rfl
@[simp] theorem onCtl_node (a : App) (f : CtlSt → CtlSt) : (a.onCtl f).node = a.node := rfl
@[simp] theorem onCtl_sent (a : App) (f : CtlSt → CtlSt) : (a.onCtl f).sent = a.sent := rfl
@[simp] theorem onCtl_cap (a : App) (f : CtlSt → CtlSt) : (a.onCtl f).cap = a.cap := rfl
@[simp] theorem onCtl_tw (a : App) (f : CtlSt → CtlSt) : (a.onCtl f).tw = a.tw := rfl
@[simp] theorem onCtl_fio (a : App) (f : CtlSt → CtlSt) : (a.onCtl f).fio = a.fio := rfl
@[simp] theorem onCtl_mbox (a : App) (f : CtlSt → CtlSt) : (a.onCtl f).mbox = a.mbox := rfl
@[simp] theorem onCtl_eth (a : App) (f : CtlSt → CtlSt) : (a.onCtl f).eth = a.eth := rfl
@[simp] theorem onCtl_can (a : App) (f : CtlSt → CtlSt) : (a.onCtl f).can = a.can := rfl
@[simp] theorem onCtl_dma (a : App) (f : CtlSt → CtlSt) : (a.onCtl f).dma = a.dma := rfl
@[simp] theorem onCtl_ctl (a : App) (f : CtlSt → CtlSt) : (a.onCtl f).ctl = f a.ctl := rfl

@[simp] theorem onTask_regs (a : App) (n : Nat) (f : TaskSt → TaskSt) : (a.onTask n f).regs = a.regs := rfl
@[simp] theorem onTask_raised (a : App) (n : Nat) (f : TaskSt → TaskSt) : (a.onTask n f).raised = a.raised := rfl
@[simp] theorem onTask_xbar (a : App) (n : Nat) (f : TaskSt → TaskSt) : (a.onTask n f).xbar = a.xbar := rfl
@[simp] theorem onTask_tick (a : App) (n : Nat) (f : TaskSt → TaskSt) : (a.onTask n f).tick = a.tick := rfl
@[simp] theorem onTask_opTicks (a : App) (n : Nat) (f : TaskSt → TaskSt) : (a.onTask n f).opTicks = a.opTicks := rfl
@[simp] theorem onTask_freeCtr (a : App) (n : Nat) (f : TaskSt → TaskSt) : (a.onTask n f).freeCtr = a.freeCtr := rfl
@[simp] theorem onTask_tim (a : App) (n : Nat) (f : TaskSt → TaskSt) : (a.onTask n f).tim = a.tim := rfl
@[simp] theorem onTask_bkp (a : App) (n : Nat) (f : TaskSt → TaskSt) : (a.onTask n f).bkp = a.bkp := rfl
@[simp] theorem onTask_ctxs (a : App) (n : Nat) (f : TaskSt → TaskSt) : (a.onTask n f).ctxs = a.ctxs := rfl
@[simp] theorem onTask_hostWrites (a : App) (n : Nat) (f : TaskSt → TaskSt) : (a.onTask n f).hostWrites = a.hostWrites := rfl
@[simp] theorem onTask_cmd (a : App) (n : Nat) (f : TaskSt → TaskSt) : (a.onTask n f).cmd = a.cmd := rfl
@[simp] theorem onTask_life (a : App) (n : Nat) (f : TaskSt → TaskSt) : (a.onTask n f).life = a.life := rfl
@[simp] theorem onTask_clk (a : App) (n : Nat) (f : TaskSt → TaskSt) : (a.onTask n f).clk = a.clk := rfl
@[simp] theorem onTask_ana (a : App) (n : Nat) (f : TaskSt → TaskSt) : (a.onTask n f).ana = a.ana := rfl
@[simp] theorem onTask_sig (a : App) (n : Nat) (f : TaskSt → TaskSt) : (a.onTask n f).sig = a.sig := rfl
@[simp] theorem onTask_slu (a : App) (n : Nat) (f : TaskSt → TaskSt) : (a.onTask n f).slu = a.slu := rfl
@[simp] theorem onTask_trp (a : App) (n : Nat) (f : TaskSt → TaskSt) : (a.onTask n f).trp = a.trp := rfl
@[simp] theorem onTask_par (a : App) (n : Nat) (f : TaskSt → TaskSt) : (a.onTask n f).par = a.par := rfl
@[simp] theorem onTask_node (a : App) (n : Nat) (f : TaskSt → TaskSt) : (a.onTask n f).node = a.node := rfl
@[simp] theorem onTask_sent (a : App) (n : Nat) (f : TaskSt → TaskSt) : (a.onTask n f).sent = a.sent := rfl
@[simp] theorem onTask_cap (a : App) (n : Nat) (f : TaskSt → TaskSt) : (a.onTask n f).cap = a.cap := rfl
@[simp] theorem onTask_tw (a : App) (n : Nat) (f : TaskSt → TaskSt) : (a.onTask n f).tw = a.tw := rfl
@[simp] theorem onTask_fio (a : App) (n : Nat) (f : TaskSt → TaskSt) : (a.onTask n f).fio = a.fio := rfl
@[simp] theorem onTask_mbox (a : App) (n : Nat) (f : TaskSt → TaskSt) : (a.onTask n f).mbox = a.mbox := rfl
@[simp] theorem onTask_eth (a : App) (n : Nat) (f : TaskSt → TaskSt) : (a.onTask n f).eth = a.eth := rfl
@[simp] theorem onTask_can (a : App) (n : Nat) (f : TaskSt → TaskSt) : (a.onTask n f).can = a.can := rfl
@[simp] theorem onTask_dma (a : App) (n : Nat) (f : TaskSt → TaskSt) : (a.onTask n f).dma = a.dma := rfl
@[simp] theorem onTask_ctl (a : App) (n : Nat) (f : TaskSt → TaskSt) : (a.onTask n f).ctl = { a.ctl with tasks := vup a.ctl.tasks n f } := rfl

@[simp] theorem onCore_regs (a : App) (n : Nat) (f : CtlCore → CtlCore) : (a.onCore n f).regs = a.regs := rfl
@[simp] theorem onCore_raised (a : App) (n : Nat) (f : CtlCore → CtlCore) : (a.onCore n f).raised = a.raised := rfl
@[simp] theorem onCore_xbar (a : App) (n : Nat) (f : CtlCore → CtlCore) : (a.onCore n f).xbar = a.xbar := rfl
@[simp] theorem onCore_tick (a : App) (n : Nat) (f : CtlCore → CtlCore) : (a.onCore n f).tick = a.tick := rfl
@[simp] theorem onCore_opTicks (a : App) (n : Nat) (f : CtlCore → CtlCore) : (a.onCore n f).opTicks = a.opTicks := rfl
@[simp] theorem onCore_freeCtr (a : App) (n : Nat) (f : CtlCore → CtlCore) : (a.onCore n f).freeCtr = a.freeCtr := rfl
@[simp] theorem onCore_tim (a : App) (n : Nat) (f : CtlCore → CtlCore) : (a.onCore n f).tim = a.tim := rfl
@[simp] theorem onCore_bkp (a : App) (n : Nat) (f : CtlCore → CtlCore) : (a.onCore n f).bkp = a.bkp := rfl
@[simp] theorem onCore_ctxs (a : App) (n : Nat) (f : CtlCore → CtlCore) : (a.onCore n f).ctxs = a.ctxs := rfl
@[simp] theorem onCore_hostWrites (a : App) (n : Nat) (f : CtlCore → CtlCore) : (a.onCore n f).hostWrites = a.hostWrites := rfl
@[simp] theorem onCore_cmd (a : App) (n : Nat) (f : CtlCore → CtlCore) : (a.onCore n f).cmd = a.cmd := rfl
@[simp] theorem onCore_life (a : App) (n : Nat) (f : CtlCore → CtlCore) : (a.onCore n f).life = a.life := rfl
@[simp] theorem onCore_clk (a : App) (n : Nat) (f : CtlCore → CtlCore) : (a.onCore n f).clk = a.clk := rfl
@[simp] theorem onCore_ana (a : App) (n : Nat) (f : CtlCore → CtlCore) : (a.onCore n f).ana = a.ana := rfl
@[simp] theorem onCore_sig (a : App) (n : Nat) (f : CtlCore → CtlCore) : (a.onCore n f).sig = a.sig := rfl
@[simp] theorem onCore_slu (a : App) (n : Nat) (f : CtlCore → CtlCore) : (a.onCore n f).slu = a.slu := rfl
@[simp] theorem onCore_trp (a : App) (n : Nat) (f : CtlCore → CtlCore) : (a.onCore n f).trp = a.trp := rfl
@[simp] theorem onCore_par (a : App) (n : Nat) (f : CtlCore → CtlCore) : (a.onCore n f).par = a.par := rfl
@[simp] theorem onCore_node (a : App) (n : Nat) (f : CtlCore → CtlCore) : (a.onCore n f).node = a.node := rfl
@[simp] theorem onCore_sent (a : App) (n : Nat) (f : CtlCore → CtlCore) : (a.onCore n f).sent = a.sent := rfl
@[simp] theorem onCore_cap (a : App) (n : Nat) (f : CtlCore → CtlCore) : (a.onCore n f).cap = a.cap := rfl
@[simp] theorem onCore_tw (a : App) (n : Nat) (f : CtlCore → CtlCore) : (a.onCore n f).tw = a.tw := rfl
@[simp] theorem onCore_fio (a : App) (n : Nat) (f : CtlCore → CtlCore) : (a.onCore n f).fio = a.fio := rfl
@[simp] theorem onCore_mbox (a : App) (n : Nat) (f : CtlCore → CtlCore) : (a.onCore n f).mbox = a.mbox := rfl
@[simp] theorem onCore_eth (a : App) (n : Nat) (f : CtlCore → CtlCore) : (a.onCore n f).eth = a.eth := rfl
@[simp] theorem onCore_can (a : App) (n : Nat) (f : CtlCore → CtlCore) : (a.onCore n f).can = a.can := rfl
@[simp] theorem onCore_dma (a : App) (n : Nat) (f : CtlCore → CtlCore) : (a.onCore n f).dma = a.dma := rfl
@[simp] theorem onCore_ctl (a : App) (n : Nat) (f : CtlCore → CtlCore) : (a.onCore n f).ctl = { a.ctl with cores := vup a.ctl.cores n f } := rfl

@[simp] theorem onFio_regs (a : App) (n : Nat) (f : FioCh → FioCh) : (a.onFio n f).regs = a.regs := rfl
@[simp] theorem onFio_raised (a : App) (n : Nat) (f : FioCh → FioCh) : (a.onFio n f).raised = a.raised := rfl
@[simp] theorem onFio_xbar (a : App) (n : Nat) (f : FioCh → FioCh) : (a.onFio n f).xbar = a.xbar := rfl
@[simp] theorem onFio_tick (a : App) (n : Nat) (f : FioCh → FioCh) : (a.onFio n f).tick = a.tick := rfl
@[simp] theorem onFio_opTicks (a : App) (n : Nat) (f : FioCh → FioCh) : (a.onFio n f).opTicks = a.opTicks := rfl
@[simp] theorem onFio_freeCtr (a : App) (n : Nat) (f : FioCh → FioCh) : (a.onFio n f).freeCtr = a.freeCtr := rfl
@[simp] theorem onFio_tim (a : App) (n : Nat) (f : FioCh → FioCh) : (a.onFio n f).tim = a.tim := rfl
@[simp] theorem onFio_bkp (a : App) (n : Nat) (f : FioCh → FioCh) : (a.onFio n f).bkp = a.bkp := rfl
@[simp] theorem onFio_ctxs (a : App) (n : Nat) (f : FioCh → FioCh) : (a.onFio n f).ctxs = a.ctxs := rfl
@[simp] theorem onFio_hostWrites (a : App) (n : Nat) (f : FioCh → FioCh) : (a.onFio n f).hostWrites = a.hostWrites := rfl
@[simp] theorem onFio_cmd (a : App) (n : Nat) (f : FioCh → FioCh) : (a.onFio n f).cmd = a.cmd := rfl
@[simp] theorem onFio_life (a : App) (n : Nat) (f : FioCh → FioCh) : (a.onFio n f).life = a.life := rfl
@[simp] theorem onFio_clk (a : App) (n : Nat) (f : FioCh → FioCh) : (a.onFio n f).clk = a.clk := rfl
@[simp] theorem onFio_ana (a : App) (n : Nat) (f : FioCh → FioCh) : (a.onFio n f).ana = a.ana := rfl
@[simp] theorem onFio_sig (a : App) (n : Nat) (f : FioCh → FioCh) : (a.onFio n f).sig = a.sig := rfl
@[simp] theorem onFio_slu (a : App) (n : Nat) (f : FioCh → FioCh) : (a.onFio n f).slu = a.slu := rfl
@[simp] theorem onFio_trp (a : App) (n : Nat) (f : FioCh → FioCh) : (a.onFio n f).trp = a.trp := rfl
@[simp] theorem onFio_par (a : App) (n : Nat) (f : FioCh → FioCh) : (a.onFio n f).par = a.par := rfl
@[simp] theorem onFio_node (a : App) (n : Nat) (f : FioCh → FioCh) : (a.onFio n f).node = a.node := rfl
@[simp] theorem onFio_sent (a : App) (n : Nat) (f : FioCh → FioCh) : (a.onFio n f).sent = a.sent := rfl
@[simp] theorem onFio_cap (a : App) (n : Nat) (f : FioCh → FioCh) : (a.onFio n f).cap = a.cap := rfl
@[simp] theorem onFio_tw (a : App) (n : Nat) (f : FioCh → FioCh) : (a.onFio n f).tw = a.tw := rfl
@[simp] theorem onFio_ctl (a : App) (n : Nat) (f : FioCh → FioCh) : (a.onFio n f).ctl = a.ctl := rfl
@[simp] theorem onFio_mbox (a : App) (n : Nat) (f : FioCh → FioCh) : (a.onFio n f).mbox = a.mbox := rfl
@[simp] theorem onFio_eth (a : App) (n : Nat) (f : FioCh → FioCh) : (a.onFio n f).eth = a.eth := rfl
@[simp] theorem onFio_can (a : App) (n : Nat) (f : FioCh → FioCh) : (a.onFio n f).can = a.can := rfl
@[simp] theorem onFio_dma (a : App) (n : Nat) (f : FioCh → FioCh) : (a.onFio n f).dma = a.dma := rfl
@[simp] theorem onFio_fio (a : App) (n : Nat) (f : FioCh → FioCh) : (a.onFio n f).fio = { a.fio with ch := vup a.fio.ch n f } := rfl

@[simp] theorem onSup_regs (a : App) (n : Nat) (f : FioSupply → FioSupply) : (a.onSup n f).regs = a.regs := rfl
@[simp] theorem onSup_raised (a : App) (n : Nat) (f : FioSupply → FioSupply) : (a.onSup n f).raised = a.raised := rfl
@[simp] theorem onSup_xbar (a : App) (n : Nat) (f : FioSupply → FioSupply) : (a.onSup n f).xbar = a.xbar := rfl
@[simp] theorem onSup_tick (a : App) (n : Nat) (f : FioSupply → FioSupply) : (a.onSup n f).tick = a.tick := rfl
@[simp] theorem onSup_opTicks (a : App) (n : Nat) (f : FioSupply → FioSupply) : (a.onSup n f).opTicks = a.opTicks := rfl
@[simp] theorem onSup_freeCtr (a : App) (n : Nat) (f : FioSupply → FioSupply) : (a.onSup n f).freeCtr = a.freeCtr := rfl
@[simp] theorem onSup_tim (a : App) (n : Nat) (f : FioSupply → FioSupply) : (a.onSup n f).tim = a.tim := rfl
@[simp] theorem onSup_bkp (a : App) (n : Nat) (f : FioSupply → FioSupply) : (a.onSup n f).bkp = a.bkp := rfl
@[simp] theorem onSup_ctxs (a : App) (n : Nat) (f : FioSupply → FioSupply) : (a.onSup n f).ctxs = a.ctxs := rfl
@[simp] theorem onSup_hostWrites (a : App) (n : Nat) (f : FioSupply → FioSupply) : (a.onSup n f).hostWrites = a.hostWrites := rfl
@[simp] theorem onSup_cmd (a : App) (n : Nat) (f : FioSupply → FioSupply) : (a.onSup n f).cmd = a.cmd := rfl
@[simp] theorem onSup_life (a : App) (n : Nat) (f : FioSupply → FioSupply) : (a.onSup n f).life = a.life := rfl
@[simp] theorem onSup_clk (a : App) (n : Nat) (f : FioSupply → FioSupply) : (a.onSup n f).clk = a.clk := rfl
@[simp] theorem onSup_ana (a : App) (n : Nat) (f : FioSupply → FioSupply) : (a.onSup n f).ana = a.ana := rfl
@[simp] theorem onSup_sig (a : App) (n : Nat) (f : FioSupply → FioSupply) : (a.onSup n f).sig = a.sig := rfl
@[simp] theorem onSup_slu (a : App) (n : Nat) (f : FioSupply → FioSupply) : (a.onSup n f).slu = a.slu := rfl
@[simp] theorem onSup_trp (a : App) (n : Nat) (f : FioSupply → FioSupply) : (a.onSup n f).trp = a.trp := rfl
@[simp] theorem onSup_par (a : App) (n : Nat) (f : FioSupply → FioSupply) : (a.onSup n f).par = a.par := rfl
@[simp] theorem onSup_node (a : App) (n : Nat) (f : FioSupply → FioSupply) : (a.onSup n f).node = a.node := rfl
@[simp] theorem onSup_sent (a : App) (n : Nat) (f : FioSupply → FioSupply) : (a.onSup n f).sent = a.sent := rfl
@[simp] theorem onSup_cap (a : App) (n : Nat) (f : FioSupply → FioSupply) : (a.onSup n f).cap = a.cap := rfl
@[simp] theorem onSup_tw (a : App) (n : Nat) (f : FioSupply → FioSupply) : (a.onSup n f).tw = a.tw := rfl
@[simp] theorem onSup_ctl (a : App) (n : Nat) (f : FioSupply → FioSupply) : (a.onSup n f).ctl = a.ctl := rfl
@[simp] theorem onSup_mbox (a : App) (n : Nat) (f : FioSupply → FioSupply) : (a.onSup n f).mbox = a.mbox := rfl
@[simp] theorem onSup_eth (a : App) (n : Nat) (f : FioSupply → FioSupply) : (a.onSup n f).eth = a.eth := rfl
@[simp] theorem onSup_can (a : App) (n : Nat) (f : FioSupply → FioSupply) : (a.onSup n f).can = a.can := rfl
@[simp] theorem onSup_dma (a : App) (n : Nat) (f : FioSupply → FioSupply) : (a.onSup n f).dma = a.dma := rfl
@[simp] theorem onSup_fio (a : App) (n : Nat) (f : FioSupply → FioSupply) : (a.onSup n f).fio = { a.fio with sup := vup a.fio.sup n f } := rfl

@[simp] theorem onMbox_regs (a : App) (f : MboxSt → MboxSt) : (a.onMbox f).regs = a.regs := rfl
@[simp] theorem onMbox_raised (a : App) (f : MboxSt → MboxSt) : (a.onMbox f).raised = a.raised := rfl
@[simp] theorem onMbox_xbar (a : App) (f : MboxSt → MboxSt) : (a.onMbox f).xbar = a.xbar := rfl
@[simp] theorem onMbox_tick (a : App) (f : MboxSt → MboxSt) : (a.onMbox f).tick = a.tick := rfl
@[simp] theorem onMbox_opTicks (a : App) (f : MboxSt → MboxSt) : (a.onMbox f).opTicks = a.opTicks := rfl
@[simp] theorem onMbox_freeCtr (a : App) (f : MboxSt → MboxSt) : (a.onMbox f).freeCtr = a.freeCtr := rfl
@[simp] theorem onMbox_tim (a : App) (f : MboxSt → MboxSt) : (a.onMbox f).tim = a.tim := rfl
@[simp] theorem onMbox_bkp (a : App) (f : MboxSt → MboxSt) : (a.onMbox f).bkp = a.bkp := rfl
@[simp] theorem onMbox_ctxs (a : App) (f : MboxSt → MboxSt) : (a.onMbox f).ctxs = a.ctxs := rfl
@[simp] theorem onMbox_hostWrites (a : App) (f : MboxSt → MboxSt) : (a.onMbox f).hostWrites = a.hostWrites := rfl
@[simp] theorem onMbox_cmd (a : App) (f : MboxSt → MboxSt) : (a.onMbox f).cmd = a.cmd := rfl
@[simp] theorem onMbox_life (a : App) (f : MboxSt → MboxSt) : (a.onMbox f).life = a.life := rfl
@[simp] theorem onMbox_clk (a : App) (f : MboxSt → MboxSt) : (a.onMbox f).clk = a.clk := rfl
@[simp] theorem onMbox_ana (a : App) (f : MboxSt → MboxSt) : (a.onMbox f).ana = a.ana := rfl
@[simp] theorem onMbox_sig (a : App) (f : MboxSt → MboxSt) : (a.onMbox f).sig = a.sig := rfl
@[simp] theorem onMbox_slu (a : App) (f : MboxSt → MboxSt) : (a.onMbox f).slu = a.slu := rfl
@[simp] theorem onMbox_trp (a : App) (f : MboxSt → MboxSt) : (a.onMbox f).trp = a.trp := rfl
@[simp] theorem onMbox_par (a : App) (f : MboxSt → MboxSt) : (a.onMbox f).par = a.par := rfl
@[simp] theorem onMbox_node (a : App) (f : MboxSt → MboxSt) : (a.onMbox f).node = a.node := rfl
@[simp] theorem onMbox_sent (a : App) (f : MboxSt → MboxSt) : (a.onMbox f).sent = a.sent := rfl
@[simp] theorem onMbox_cap (a : App) (f : MboxSt → MboxSt) : (a.onMbox f).cap = a.cap := rfl
@[simp] theorem onMbox_tw (a : App) (f : MboxSt → MboxSt) : (a.onMbox f).tw = a.tw := rfl
@[simp] theorem onMbox_ctl (a : App) (f : MboxSt → MboxSt) : (a.onMbox f).ctl = a.ctl := rfl
@[simp] theorem onMbox_fio (a : App) (f : MboxSt → MboxSt) : (a.onMbox f).fio = a.fio := rfl
@[simp] theorem onMbox_eth (a : App) (f : MboxSt → MboxSt) : (a.onMbox f).eth = a.eth := rfl
@[simp] theorem onMbox_can (a : App) (f : MboxSt → MboxSt) : (a.onMbox f).can = a.can := rfl
@[simp] theorem onMbox_dma (a : App) (f : MboxSt → MboxSt) : (a.onMbox f).dma = a.dma := rfl
@[simp] theorem onMbox_mbox (a : App) (f : MboxSt → MboxSt) : (a.onMbox f).mbox = f a.mbox := rfl

@[simp] theorem onEth_regs (a : App) (f : EthSt → EthSt) : (a.onEth f).regs = a.regs := rfl
@[simp] theorem onEth_raised (a : App) (f : EthSt → EthSt) : (a.onEth f).raised = a.raised := rfl
@[simp] theorem onEth_xbar (a : App) (f : EthSt → EthSt) : (a.onEth f).xbar = a.xbar := rfl
@[simp] theorem onEth_tick (a : App) (f : EthSt → EthSt) : (a.onEth f).tick = a.tick := rfl
@[simp] theorem onEth_opTicks (a : App) (f : EthSt → EthSt) : (a.onEth f).opTicks = a.opTicks := rfl
@[simp] theorem onEth_freeCtr (a : App) (f : EthSt → EthSt) : (a.onEth f).freeCtr = a.freeCtr := rfl
@[simp] theorem onEth_tim (a : App) (f : EthSt → EthSt) : (a.onEth f).tim = a.tim := rfl
@[simp] theorem onEth_bkp (a : App) (f : EthSt → EthSt) : (a.onEth f).bkp = a.bkp := rfl
@[simp] theorem onEth_ctxs (a : App) (f : EthSt → EthSt) : (a.onEth f).ctxs = a.ctxs := rfl
@[simp] theorem onEth_hostWrites (a : App) (f : EthSt → EthSt) : (a.onEth f).hostWrites = a.hostWrites := rfl
@[simp] theorem onEth_cmd (a : App) (f : EthSt → EthSt) : (a.onEth f).cmd = a.cmd := rfl
@[simp] theorem onEth_life (a : App) (f : EthSt → EthSt) : (a.onEth f).life = a.life := rfl
@[simp] theorem onEth_clk (a : App) (f : EthSt → EthSt) : (a.onEth f).clk = a.clk := rfl
@[simp] theorem onEth_ana (a : App) (f : EthSt → EthSt) : (a.onEth f).ana = a.ana := rfl
@[simp] theorem onEth_sig (a : App) (f : EthSt → EthSt) : (a.onEth f).sig = a.sig := rfl
@[simp] theorem onEth_slu (a : App) (f : EthSt → EthSt) : (a.onEth f).slu = a.slu := rfl
@[simp] theorem onEth_trp (a : App) (f : EthSt → EthSt) : (a.onEth f).trp = a.trp := rfl
@[simp] theorem onEth_par (a : App) (f : EthSt → EthSt) : (a.onEth f).par = a.par := rfl
@[simp] theorem onEth_node (a : App) (f : EthSt → EthSt) : (a.onEth f).node = a.node := rfl
@[simp] theorem onEth_sent (a : App) (f : EthSt → EthSt) : (a.onEth f).sent = a.sent := rfl
@[simp] theorem onEth_cap (a : App) (f : EthSt → EthSt) : (a.onEth f).cap = a.cap := rfl
@[simp] theorem onEth_tw (a : App) (f : EthSt → EthSt) : (a.onEth f).tw = a.tw := rfl
@[simp] theorem onEth_ctl (a : App) (f : EthSt → EthSt) : (a.onEth f).ctl = a.ctl := rfl
@[simp] theorem onEth_fio (a : App) (f : EthSt → EthSt) : (a.onEth f).fio = a.fio := rfl
@[simp] theorem onEth_mbox (a : App) (f : EthSt → EthSt) : (a.onEth f).mbox = a.mbox := rfl
@[simp] theorem onEth_can (a : App) (f : EthSt → EthSt) : (a.onEth f).can = a.can := rfl
@[simp] theorem onEth_dma (a : App) (f : EthSt → EthSt) : (a.onEth f).dma = a.dma := rfl
@[simp] theorem onEth_eth (a : App) (f : EthSt → EthSt) : (a.onEth f).eth = f a.eth := rfl

@[simp] theorem onCan_regs (a : App) (f : CanSt → CanSt) : (a.onCan f).regs = a.regs := rfl
@[simp] theorem onCan_raised (a : App) (f : CanSt → CanSt) : (a.onCan f).raised = a.raised := rfl
@[simp] theorem onCan_xbar (a : App) (f : CanSt → CanSt) : (a.onCan f).xbar = a.xbar := rfl
@[simp] theorem onCan_tick (a : App) (f : CanSt → CanSt) : (a.onCan f).tick = a.tick := rfl
@[simp] theorem onCan_opTicks (a : App) (f : CanSt → CanSt) : (a.onCan f).opTicks = a.opTicks := rfl
@[simp] theorem onCan_freeCtr (a : App) (f : CanSt → CanSt) : (a.onCan f).freeCtr = a.freeCtr := rfl
@[simp] theorem onCan_tim (a : App) (f : CanSt → CanSt) : (a.onCan f).tim = a.tim := rfl
@[simp] theorem onCan_bkp (a : App) (f : CanSt → CanSt) : (a.onCan f).bkp = a.bkp := rfl
@[simp] theorem onCan_ctxs (a : App) (f : CanSt → CanSt) : (a.onCan f).ctxs = a.ctxs := rfl
@[simp] theorem onCan_hostWrites (a : App) (f : CanSt → CanSt) : (a.onCan f).hostWrites = a.hostWrites := rfl
@[simp] theorem onCan_cmd (a : App) (f : CanSt → CanSt) : (a.onCan f).cmd = a.cmd := rfl
@[simp] theorem onCan_life (a : App) (f : CanSt → CanSt) : (a.onCan f).life = a.life := rfl
@[simp] theorem onCan_clk (a : App) (f : CanSt → CanSt) : (a.onCan f).clk = a.clk := rfl
@[simp] theorem onCan_ana (a : App) (f : CanSt → CanSt) : (a.onCan f).ana = a.ana := rfl
@[simp] theorem onCan_sig (a : App) (f : CanSt → CanSt) : (a.onCan f).sig = a.sig := rfl
@[simp] theorem onCan_slu (a : App) (f : CanSt → CanSt) : (a.onCan f).slu = a.slu := rfl
@[simp] theorem onCan_trp (a : App) (f : CanSt → CanSt) : (a.onCan f).trp = a.trp := rfl
@[simp] theorem onCan_par (a : App) (f : CanSt → CanSt) : (a.onCan f).par = a.par := rfl
@[simp] theorem onCan_node (a : App) (f : CanSt → CanSt) : (a.onCan f).node = a.node := rfl
@[simp] theorem onCan_sent (a : App) (f : CanSt → CanSt) : (a.onCan f).sent = a.sent := rfl
@[simp] theorem onCan_cap (a : App) (f : CanSt → CanSt) : (a.onCan f).cap = a.cap := rfl
@[simp] theorem onCan_tw (a : App) (f : CanSt → CanSt) : (a.onCan f).tw = a.tw := rfl
@[simp] theorem onCan_ctl (a : App) (f : CanSt → CanSt) : (a.onCan f).ctl = a.ctl := rfl
@[simp] theorem onCan_fio (a : App) (f : CanSt → CanSt) : (a.onCan f).fio = a.fio := rfl
@[simp] theorem onCan_mbox (a : App) (f : CanSt → CanSt) : (a.onCan f).mbox = a.mbox := rfl
@[simp] theorem onCan_eth (a : App) (f : CanSt → CanSt) : (a.onCan f).eth = a.eth := rfl
@[simp] theorem onCan_dma (a : App) (f : CanSt → CanSt) : (a.onCan f).dma = a.dma := rfl
@[simp] theorem onCan_can (a : App) (f : CanSt → CanSt) : (a.onCan f).can = f a.can := rfl

@[simp] theorem onBus_regs (a : App) (n : Nat) (f : CanBus → CanBus) : (a.onBus n f).regs = a.regs := rfl
@[simp] theorem onBus_raised (a : App) (n : Nat) (f : CanBus → CanBus) : (a.onBus n f).raised = a.raised := rfl
@[simp] theorem onBus_xbar (a : App) (n : Nat) (f : CanBus → CanBus) : (a.onBus n f).xbar = a.xbar := rfl
@[simp] theorem onBus_tick (a : App) (n : Nat) (f : CanBus → CanBus) : (a.onBus n f).tick = a.tick := rfl
@[simp] theorem onBus_opTicks (a : App) (n : Nat) (f : CanBus → CanBus) : (a.onBus n f).opTicks = a.opTicks := rfl
@[simp] theorem onBus_freeCtr (a : App) (n : Nat) (f : CanBus → CanBus) : (a.onBus n f).freeCtr = a.freeCtr := rfl
@[simp] theorem onBus_tim (a : App) (n : Nat) (f : CanBus → CanBus) : (a.onBus n f).tim = a.tim := rfl
@[simp] theorem onBus_bkp (a : App) (n : Nat) (f : CanBus → CanBus) : (a.onBus n f).bkp = a.bkp := rfl
@[simp] theorem onBus_ctxs (a : App) (n : Nat) (f : CanBus → CanBus) : (a.onBus n f).ctxs = a.ctxs := rfl
@[simp] theorem onBus_hostWrites (a : App) (n : Nat) (f : CanBus → CanBus) : (a.onBus n f).hostWrites = a.hostWrites := rfl
@[simp] theorem onBus_cmd (a : App) (n : Nat) (f : CanBus → CanBus) : (a.onBus n f).cmd = a.cmd := rfl
@[simp] theorem onBus_life (a : App) (n : Nat) (f : CanBus → CanBus) : (a.onBus n f).life = a.life := rfl
@[simp] theorem onBus_clk (a : App) (n : Nat) (f : CanBus → CanBus) : (a.onBus n f).clk = a.clk := rfl
@[simp] theorem onBus_ana (a : App) (n : Nat) (f : CanBus → CanBus) : (a.onBus n f).ana = a.ana := rfl
@[simp] theorem onBus_sig (a : App) (n : Nat) (f : CanBus → CanBus) : (a.onBus n f).sig = a.sig := rfl
@[simp] theorem onBus_slu (a : App) (n : Nat) (f : CanBus → CanBus) : (a.onBus n f).slu = a.slu := rfl
@[simp] theorem onBus_trp (a : App) (n : Nat) (f : CanBus → CanBus) : (a.onBus n f).trp = a.trp := rfl
@[simp] theorem onBus_par (a : App) (n : Nat) (f : CanBus → CanBus) : (a.onBus n f).par = a.par := rfl
@[simp] theorem onBus_node (a : App) (n : Nat) (f : CanBus → CanBus) : (a.onBus n f).node = a.node := rfl
@[simp] theorem onBus_sent (a : App) (n : Nat) (f : CanBus → CanBus) : (a.onBus n f).sent = a.sent := rfl
@[simp] theorem onBus_cap (a : App) (n : Nat) (f : CanBus → CanBus) : (a.onBus n f).cap = a.cap := rfl
@[simp] theorem onBus_tw (a : App) (n : Nat) (f : CanBus → CanBus) : (a.onBus n f).tw = a.tw := rfl
@[simp] theorem onBus_ctl (a : App) (n : Nat) (f : CanBus → CanBus) : (a.onBus n f).ctl = a.ctl := rfl
@[simp] theorem onBus_fio (a : App) (n : Nat) (f : CanBus → CanBus) : (a.onBus n f).fio = a.fio := rfl
@[simp] theorem onBus_mbox (a : App) (n : Nat) (f : CanBus → CanBus) : (a.onBus n f).mbox = a.mbox := rfl
@[simp] theorem onBus_eth (a : App) (n : Nat) (f : CanBus → CanBus) : (a.onBus n f).eth = a.eth := rfl
@[simp] theorem onBus_dma (a : App) (n : Nat) (f : CanBus → CanBus) : (a.onBus n f).dma = a.dma := rfl
@[simp] theorem onBus_can (a : App) (n : Nat) (f : CanBus → CanBus) : (a.onBus n f).can = { a.can with bus := vup a.can.bus n f } := rfl

@[simp] theorem onDma_regs (a : App) (n : Nat) (f : DmaCh → DmaCh) : (a.onDma n f).regs = a.regs := rfl
@[simp] theorem onDma_raised (a : App) (n : Nat) (f : DmaCh → DmaCh) : (a.onDma n f).raised = a.raised := rfl
@[simp] theorem onDma_xbar (a : App) (n : Nat) (f : DmaCh → DmaCh) : (a.onDma n f).xbar = a.xbar := rfl
@[simp] theorem onDma_tick (a : App) (n : Nat) (f : DmaCh → DmaCh) : (a.onDma n f).tick = a.tick := rfl
@[simp] theorem onDma_opTicks (a : App) (n : Nat) (f : DmaCh → DmaCh) : (a.onDma n f).opTicks = a.opTicks := rfl
@[simp] theorem onDma_freeCtr (a : App) (n : Nat) (f : DmaCh → DmaCh) : (a.onDma n f).freeCtr = a.freeCtr := rfl
@[simp] theorem onDma_tim (a : App) (n : Nat) (f : DmaCh → DmaCh) : (a.onDma n f).tim = a.tim := rfl
@[simp] theorem onDma_bkp (a : App) (n : Nat) (f : DmaCh → DmaCh) : (a.onDma n f).bkp = a.bkp := rfl
@[simp] theorem onDma_ctxs (a : App) (n : Nat) (f : DmaCh → DmaCh) : (a.onDma n f).ctxs = a.ctxs := rfl
@[simp] theorem onDma_hostWrites (a : App) (n : Nat) (f : DmaCh → DmaCh) : (a.onDma n f).hostWrites = a.hostWrites := rfl
@[simp] theorem onDma_cmd (a : App) (n : Nat) (f : DmaCh → DmaCh) : (a.onDma n f).cmd = a.cmd := rfl
@[simp] theorem onDma_life (a : App) (n : Nat) (f : DmaCh → DmaCh) : (a.onDma n f).life = a.life := rfl
@[simp] theorem onDma_clk (a : App) (n : Nat) (f : DmaCh → DmaCh) : (a.onDma n f).clk = a.clk := rfl
@[simp] theorem onDma_ana (a : App) (n : Nat) (f : DmaCh → DmaCh) : (a.onDma n f).ana = a.ana := rfl
@[simp] theorem onDma_sig (a : App) (n : Nat) (f : DmaCh → DmaCh) : (a.onDma n f).sig = a.sig := rfl
@[simp] theorem onDma_slu (a : App) (n : Nat) (f : DmaCh → DmaCh) : (a.onDma n f).slu = a.slu := rfl
@[simp] theorem onDma_trp (a : App) (n : Nat) (f : DmaCh → DmaCh) : (a.onDma n f).trp = a.trp := rfl
@[simp] theorem onDma_par (a : App) (n : Nat) (f : DmaCh → DmaCh) : (a.onDma n f).par = a.par := rfl
@[simp] theorem onDma_node (a : App) (n : Nat) (f : DmaCh → DmaCh) : (a.onDma n f).node = a.node := rfl
@[simp] theorem onDma_sent (a : App) (n : Nat) (f : DmaCh → DmaCh) : (a.onDma n f).sent = a.sent := rfl
@[simp] theorem onDma_cap (a : App) (n : Nat) (f : DmaCh → DmaCh) : (a.onDma n f).cap = a.cap := rfl
@[simp] theorem onDma_tw (a : App) (n : Nat) (f : DmaCh → DmaCh) : (a.onDma n f).tw = a.tw := rfl
@[simp] theorem onDma_ctl (a : App) (n : Nat) (f : DmaCh → DmaCh) : (a.onDma n f).ctl = a.ctl := rfl
@[simp] theorem onDma_fio (a : App) (n : Nat) (f : DmaCh → DmaCh) : (a.onDma n f).fio = a.fio := rfl
@[simp] theorem onDma_mbox (a : App) (n : Nat) (f : DmaCh → DmaCh) : (a.onDma n f).mbox = a.mbox := rfl
@[simp] theorem onDma_eth (a : App) (n : Nat) (f : DmaCh → DmaCh) : (a.onDma n f).eth = a.eth := rfl
@[simp] theorem onDma_can (a : App) (n : Nat) (f : DmaCh → DmaCh) : (a.onDma n f).can = a.can := rfl
@[simp] theorem onDma_dma (a : App) (n : Nat) (f : DmaCh → DmaCh) : (a.onDma n f).dma = { a.dma with ch := vup a.dma.ch n f } := rfl

@[simp] theorem onLife_regs (a : App) (f : LifeSt → LifeSt) : (a.onLife f).regs = a.regs := rfl
@[simp] theorem onLife_raised (a : App) (f : LifeSt → LifeSt) : (a.onLife f).raised = a.raised := rfl
@[simp] theorem onLife_xbar (a : App) (f : LifeSt → LifeSt) : (a.onLife f).xbar = a.xbar := rfl
@[simp] theorem onLife_tick (a : App) (f : LifeSt → LifeSt) : (a.onLife f).tick = a.tick := rfl
@[simp] theorem onLife_opTicks (a : App) (f : LifeSt → LifeSt) : (a.onLife f).opTicks = a.opTicks := rfl
@[simp] theorem onLife_freeCtr (a : App) (f : LifeSt → LifeSt) : (a.onLife f).freeCtr = a.freeCtr := rfl
@[simp] theorem onLife_tim (a : App) (f : LifeSt → LifeSt) : (a.onLife f).tim = a.tim := rfl
@[simp] theorem onLife_bkp (a : App) (f : LifeSt → LifeSt) : (a.onLife f).bkp = a.bkp := rfl
@[simp] theorem onLife_ctxs (a : App) (f : LifeSt → LifeSt) : (a.onLife f).ctxs = a.ctxs := rfl
@[simp] theorem onLife_hostWrites (a : App) (f : LifeSt → LifeSt) : (a.onLife f).hostWrites = a.hostWrites := rfl
@[simp] theorem onLife_cmd (a : App) (f : LifeSt → LifeSt) : (a.onLife f).cmd = a.cmd := rfl
@[simp] theorem onLife_clk (a : App) (f : LifeSt → LifeSt) : (a.onLife f).clk = a.clk := rfl
@[simp] theorem onLife_ana (a : App) (f : LifeSt → LifeSt) : (a.onLife f).ana = a.ana := rfl
@[simp] theorem onLife_sig (a : App) (f : LifeSt → LifeSt) : (a.onLife f).sig = a.sig := rfl
@[simp] theorem onLife_slu (a : App) (f : LifeSt → LifeSt) : (a.onLife f).slu = a.slu := rfl
@[simp] theorem onLife_trp (a : App) (f : LifeSt → LifeSt) : (a.onLife f).trp = a.trp := rfl
@[simp] theorem onLife_par (a : App) (f : LifeSt → LifeSt) : (a.onLife f).par = a.par := rfl
@[simp] theorem onLife_node (a : App) (f : LifeSt → LifeSt) : (a.onLife f).node = a.node := rfl
@[simp] theorem onLife_sent (a : App) (f : LifeSt → LifeSt) : (a.onLife f).sent = a.sent := rfl
@[simp] theorem onLife_cap (a : App) (f : LifeSt → LifeSt) : (a.onLife f).cap = a.cap := rfl
@[simp] theorem onLife_tw (a : App) (f : LifeSt → LifeSt) : (a.onLife f).tw = a.tw := rfl
@[simp] theorem onLife_ctl (a : App) (f : LifeSt → LifeSt) : (a.onLife f).ctl = a.ctl := rfl
@[simp] theorem onLife_fio (a : App) (f : LifeSt → LifeSt) : (a.onLife f).fio = a.fio := rfl
@[simp] theorem onLife_mbox (a : App) (f : LifeSt → LifeSt) : (a.onLife f).mbox = a.mbox := rfl
@[simp] theorem onLife_eth (a : App) (f : LifeSt → LifeSt) : (a.onLife f).eth = a.eth := rfl
@[simp] theorem onLife_can (a : App) (f : LifeSt → LifeSt) : (a.onLife f).can = a.can := rfl
@[simp] theorem onLife_dma (a : App) (f : LifeSt → LifeSt) : (a.onLife f).dma = a.dma := rfl
@[simp] theorem onLife_life (a : App) (f : LifeSt → LifeSt) : (a.onLife f).life = f a.life := rfl

@[simp] theorem writeHost_regs (a : App) (k : Nat) (p : W64) (d : List Byte) : (a.writeHost k p d).regs = a.regs := rfl
@[simp] theorem writeHost_raised (a : App) (k : Nat) (p : W64) (d : List Byte) : (a.writeHost k p d).raised = a.raised := rfl
@[simp] theorem writeHost_xbar (a : App) (k : Nat) (p : W64) (d : List Byte) : (a.writeHost k p d).xbar = a.xbar := rfl
@[simp] theorem writeHost_tick (a : App) (k : Nat) (p : W64) (d : List Byte) : (a.writeHost k p d).tick = a.tick := rfl
@[simp] theorem writeHost_opTicks (a : App) (k : Nat) (p : W64) (d : List Byte) : (a.writeHost k p d).opTicks = a.opTicks := rfl
@[simp] theorem writeHost_freeCtr (a : App) (k : Nat) (p : W64) (d : List Byte) : (a.writeHost k p d).freeCtr = a.freeCtr := rfl
@[simp] theorem writeHost_tim (a : App) (k : Nat) (p : W64) (d : List Byte) : (a.writeHost k p d).tim = a.tim := rfl
@[simp] theorem writeHost_bkp (a : App) (k : Nat) (p : W64) (d : List Byte) : (a.writeHost k p d).bkp = a.bkp := rfl
@[simp] theorem writeHost_ctxs (a : App) (k : Nat) (p : W64) (d : List Byte) : (a.writeHost k p d).ctxs = a.ctxs := rfl
@[simp] theorem writeHost_cmd (a : App) (k : Nat) (p : W64) (d : List Byte) : (a.writeHost k p d).cmd = a.cmd := rfl
@[simp] theorem writeHost_life (a : App) (k : Nat) (p : W64) (d : List Byte) : (a.writeHost k p d).life = a.life := rfl
@[simp] theorem writeHost_clk (a : App) (k : Nat) (p : W64) (d : List Byte) : (a.writeHost k p d).clk = a.clk := rfl
@[simp] theorem writeHost_ana (a : App) (k : Nat) (p : W64) (d : List Byte) : (a.writeHost k p d).ana = a.ana := rfl
@[simp] theorem writeHost_sig (a : App) (k : Nat) (p : W64) (d : List Byte) : (a.writeHost k p d).sig = a.sig := rfl
@[simp] theorem writeHost_slu (a : App) (k : Nat) (p : W64) (d : List Byte) : (a.writeHost k p d).slu = a.slu := rfl
@[simp] theorem writeHost_trp (a : App) (k : Nat) (p : W64) (d : List Byte) : (a.writeHost k p d).trp = a.trp := rfl
@[simp] theorem writeHost_par (a : App) (k : Nat) (p : W64) (d : List Byte) : (a.writeHost k p d).par = a.par := rfl
@[simp] theorem writeHost_node (a : App) (k : Nat) (p : W64) (d : List Byte) : (a.writeHost k p d).node = a.node := rfl
@[simp] theorem writeHost_sent (a : App) (k : Nat) (p : W64) (d : List Byte) : (a.writeHost k p d).sent = a.sent := rfl
@[simp] theorem writeHost_cap (a : App) (k : Nat) (p : W64) (d : List Byte) : (a.writeHost k p d).cap = a.cap := rfl
@[simp] theorem writeHost_tw (a : App) (k : Nat) (p : W64) (d : List Byte) : (a.writeHost k p d).tw = a.tw := rfl
@[simp] theorem writeHost_ctl (a : App) (k : Nat) (p : W64) (d : List Byte) : (a.writeHost k p d).ctl = a.ctl := rfl
@[simp] theorem writeHost_fio (a : App) (k : Nat) (p : W64) (d : List Byte) : (a.writeHost k p d).fio = a.fio := rfl
@[simp] theorem writeHost_mbox (a : App) (k : Nat) (p : W64) (d : List Byte) : (a.writeHost k p d).mbox = a.mbox := rfl
@[simp] theorem writeHost_eth (a : App) (k : Nat) (p : W64) (d : List Byte) : (a.writeHost k p d).eth = a.eth := rfl
@[simp] theorem writeHost_can (a : App) (k : Nat) (p : W64) (d : List Byte) : (a.writeHost k p d).can = a.can := rfl
@[simp] theorem writeHost_dma (a : App) (k : Nat) (p : W64) (d : List Byte) : (a.writeHost k p d).dma = a.dma := rfl
@[simp] theorem writeHost_hostWrites (a : App) (k : Nat) (p : W64) (d : List Byte) : (a.writeHost k p d).hostWrites = a.hostWrites ++ [⟨k, p, d⟩] := rfl

@[simp] theorem send_regs (a : App) (f : OutFrame) : (a.send f).regs = a.regs := rfl
@[simp] theorem send_raised (a : App) (f : OutFrame) : (a.send f).raised = a.raised := rfl
@[simp] theorem send_xbar (a : App) (f : OutFrame) : (a.send f).xbar = a.xbar := rfl
@[simp] theorem send_tick (a : App) (f : OutFrame) : (a.send f).tick = a.tick := rfl
@[simp] theorem send_opTicks (a : App) (f : OutFrame) : (a.send f).opTicks = a.opTicks := rfl
@[simp] theorem send_freeCtr (a : App) (f : OutFrame) : (a.send f).freeCtr = a.freeCtr := rfl
@[simp] theorem send_tim (a : App) (f : OutFrame) : (a.send f).tim = a.tim := rfl
@[simp] theorem send_bkp (a : App) (f : OutFrame) : (a.send f).bkp = a.bkp := rfl
@[simp] theorem send_ctxs (a : App) (f : OutFrame) : (a.send f).ctxs = a.ctxs := rfl
@[simp] theorem send_hostWrites (a : App) (f : OutFrame) : (a.send f).hostWrites = a.hostWrites := rfl
@[simp] theorem send_cmd (a : App) (f : OutFrame) : (a.send f).cmd = a.cmd := rfl
@[simp] theorem send_life (a : App) (f : OutFrame) : (a.send f).life = a.life := rfl
@[simp] theorem send_clk (a : App) (f : OutFrame) : (a.send f).clk = a.clk := rfl
@[simp] theorem send_ana (a : App) (f : OutFrame) : (a.send f).ana = a.ana := rfl
@[simp] theorem send_sig (a : App) (f : OutFrame) : (a.send f).sig = a.sig := rfl
@[simp] theorem send_slu (a : App) (f : OutFrame) : (a.send f).slu = a.slu := rfl
@[simp] theorem send_trp (a : App) (f : OutFrame) : (a.send f).trp = a.trp := rfl
@[simp] theorem send_par (a : App) (f : OutFrame) : (a.send f).par = a.par := rfl
@[simp] theorem send_node (a : App) (f : OutFrame) : (a.send f).node = a.node := rfl
@[simp] theorem send_cap (a : App) (f : OutFrame) : (a.send f).cap = a.cap := rfl
@[simp] theorem send_tw (a : App) (f : OutFrame) : (a.send f).tw = a.tw := rfl
@[simp] theorem send_ctl (a : App) (f : OutFrame) : (a.send f).ctl = a.ctl := rfl
@[simp] theorem send_fio (a : App) (f : OutFrame) : (a.send f).fio = a.fio := rfl
@[simp] theorem send_mbox (a : App) (f : OutFrame) : (a.send f).mbox = a.mbox := rfl
@[simp] theorem send_eth (a : App) (f : OutFrame) : (a.send f).eth = a.eth := rfl
@[simp] theorem send_can (a : App) (f : OutFrame) : (a.send f).can = a.can := rfl
@[simp] theorem send_dma (a : App) (f : OutFrame) : (a.send f).dma = a.dma := rfl
@[simp] theorem send_sent (a : App) (f : OutFrame) : (a.send f).sent = a.sent ++ [f] := rfl

@[simp] theorem touchOwner_regs (a : App) (i : Nat) : (a.touchOwner i).regs = a.regs := rfl
@[simp] theorem touchOwner_raised (a : App) (i : Nat) : (a.touchOwner i).raised = a.raised := rfl
@[simp] theorem touchOwner_xbar (a : App) (i : Nat) : (a.touchOwner i).xbar = a.xbar := rfl
@[simp] theorem touchOwner_tick (a : App) (i : Nat) : (a.touchOwner i).tick = a.tick := rfl
@[simp] theorem touchOwner_opTicks (a : App) (i : Nat) : (a.touchOwner i).opTicks = a.opTicks := rfl
@[simp] theorem touchOwner_freeCtr (a : App) (i : Nat) : (a.touchOwner i).freeCtr = a.freeCtr := rfl
@[simp] theorem touchOwner_tim (a : App) (i : Nat) : (a.touchOwner i).tim = a.tim := rfl
@[simp] theorem touchOwner_bkp (a : App) (i : Nat) : (a.touchOwner i).bkp = a.bkp := rfl
@[simp] theorem touchOwner_ctxs (a : App) (i : Nat) : (a.touchOwner i).ctxs = a.ctxs := rfl
@[simp] theorem touchOwner_hostWrites (a : App) (i : Nat) : (a.touchOwner i).hostWrites = a.hostWrites := rfl
@[simp] theorem touchOwner_life (a : App) (i : Nat) : (a.touchOwner i).life = a.life := rfl
@[simp] theorem touchOwner_clk (a : App) (i : Nat) : (a.touchOwner i).clk = a.clk := rfl
@[simp] theorem touchOwner_ana (a : App) (i : Nat) : (a.touchOwner i).ana = a.ana := rfl
@[simp] theorem touchOwner_sig (a : App) (i : Nat) : (a.touchOwner i).sig = a.sig := rfl
@[simp] theorem touchOwner_slu (a : App) (i : Nat) : (a.touchOwner i).slu = a.slu := rfl
@[simp] theorem touchOwner_trp (a : App) (i : Nat) : (a.touchOwner i).trp = a.trp := rfl
@[simp] theorem touchOwner_par (a : App) (i : Nat) : (a.touchOwner i).par = a.par := rfl
@[simp] theorem touchOwner_node (a : App) (i : Nat) : (a.touchOwner i).node = a.node := rfl
@[simp] theorem touchOwner_sent (a : App) (i : Nat) : (a.touchOwner i).sent = a.sent := rfl
@[simp] theorem touchOwner_cap (a : App) (i : Nat) : (a.touchOwner i).cap = a.cap := rfl
@[simp] theorem touchOwner_tw (a : App) (i : Nat) : (a.touchOwner i).tw = a.tw := rfl
@[simp] theorem touchOwner_ctl (a : App) (i : Nat) : (a.touchOwner i).ctl = a.ctl := rfl
@[simp] theorem touchOwner_fio (a : App) (i : Nat) : (a.touchOwner i).fio = a.fio := rfl
@[simp] theorem touchOwner_mbox (a : App) (i : Nat) : (a.touchOwner i).mbox = a.mbox := rfl
@[simp] theorem touchOwner_eth (a : App) (i : Nat) : (a.touchOwner i).eth = a.eth := rfl
@[simp] theorem touchOwner_can (a : App) (i : Nat) : (a.touchOwner i).can = a.can := rfl
@[simp] theorem touchOwner_dma (a : App) (i : Nat) : (a.touchOwner i).dma = a.dma := rfl

@[simp] theorem access_regs (a : App) (m : Master) (p : Memory) (n : Nat) : (a.access m p n).regs = a.regs := rfl
@[simp] theorem access_raised (a : App) (m : Master) (p : Memory) (n : Nat) : (a.access m p n).raised = a.raised := rfl
@[simp] theorem access_tick (a : App) (m : Master) (p : Memory) (n : Nat) : (a.access m p n).tick = a.tick := rfl
@[simp] theorem access_opTicks (a : App) (m : Master) (p : Memory) (n : Nat) : (a.access m p n).opTicks = a.opTicks := rfl
@[simp] theorem access_freeCtr (a : App) (m : Master) (p : Memory) (n : Nat) : (a.access m p n).freeCtr = a.freeCtr := rfl
@[simp] theorem access_tim (a : App) (m : Master) (p : Memory) (n : Nat) : (a.access m p n).tim = a.tim := rfl
@[simp] theorem access_bkp (a : App) (m : Master) (p : Memory) (n : Nat) : (a.access m p n).bkp = a.bkp := rfl
@[simp] theorem access_ctxs (a : App) (m : Master) (p : Memory) (n : Nat) : (a.access m p n).ctxs = a.ctxs := rfl
@[simp] theorem access_hostWrites (a : App) (m : Master) (p : Memory) (n : Nat) : (a.access m p n).hostWrites = a.hostWrites := rfl
@[simp] theorem access_cmd (a : App) (m : Master) (p : Memory) (n : Nat) : (a.access m p n).cmd = a.cmd := rfl
@[simp] theorem access_life (a : App) (m : Master) (p : Memory) (n : Nat) : (a.access m p n).life = a.life := rfl
@[simp] theorem access_clk (a : App) (m : Master) (p : Memory) (n : Nat) : (a.access m p n).clk = a.clk := rfl
@[simp] theorem access_ana (a : App) (m : Master) (p : Memory) (n : Nat) : (a.access m p n).ana = a.ana := rfl
@[simp] theorem access_sig (a : App) (m : Master) (p : Memory) (n : Nat) : (a.access m p n).sig = a.sig := rfl
@[simp] theorem access_slu (a : App) (m : Master) (p : Memory) (n : Nat) : (a.access m p n).slu = a.slu := rfl
@[simp] theorem access_trp (a : App) (m : Master) (p : Memory) (n : Nat) : (a.access m p n).trp = a.trp := rfl
@[simp] theorem access_par (a : App) (m : Master) (p : Memory) (n : Nat) : (a.access m p n).par = a.par := rfl
@[simp] theorem access_node (a : App) (m : Master) (p : Memory) (n : Nat) : (a.access m p n).node = a.node := rfl
@[simp] theorem access_sent (a : App) (m : Master) (p : Memory) (n : Nat) : (a.access m p n).sent = a.sent := rfl
@[simp] theorem access_cap (a : App) (m : Master) (p : Memory) (n : Nat) : (a.access m p n).cap = a.cap := rfl
@[simp] theorem access_tw (a : App) (m : Master) (p : Memory) (n : Nat) : (a.access m p n).tw = a.tw := rfl
@[simp] theorem access_ctl (a : App) (m : Master) (p : Memory) (n : Nat) : (a.access m p n).ctl = a.ctl := rfl
@[simp] theorem access_fio (a : App) (m : Master) (p : Memory) (n : Nat) : (a.access m p n).fio = a.fio := rfl
@[simp] theorem access_mbox (a : App) (m : Master) (p : Memory) (n : Nat) : (a.access m p n).mbox = a.mbox := rfl
@[simp] theorem access_eth (a : App) (m : Master) (p : Memory) (n : Nat) : (a.access m p n).eth = a.eth := rfl
@[simp] theorem access_can (a : App) (m : Master) (p : Memory) (n : Nat) : (a.access m p n).can = a.can := rfl
@[simp] theorem access_dma (a : App) (m : Master) (p : Memory) (n : Nat) : (a.access m p n).dma = a.dma := rfl

@[simp] theorem journalize_regs (a : App) (e : JEntry) : (a.journalize e).regs = a.regs := rfl
@[simp] theorem journalize_raised (a : App) (e : JEntry) : (a.journalize e).raised = a.raised := rfl
@[simp] theorem journalize_tick (a : App) (e : JEntry) : (a.journalize e).tick = a.tick := rfl
@[simp] theorem journalize_opTicks (a : App) (e : JEntry) : (a.journalize e).opTicks = a.opTicks := rfl
@[simp] theorem journalize_freeCtr (a : App) (e : JEntry) : (a.journalize e).freeCtr = a.freeCtr := rfl
@[simp] theorem journalize_tim (a : App) (e : JEntry) : (a.journalize e).tim = a.tim := rfl
@[simp] theorem journalize_bkp (a : App) (e : JEntry) : (a.journalize e).bkp = a.bkp := rfl
@[simp] theorem journalize_ctxs (a : App) (e : JEntry) : (a.journalize e).ctxs = a.ctxs := rfl
@[simp] theorem journalize_hostWrites (a : App) (e : JEntry) : (a.journalize e).hostWrites = a.hostWrites := rfl
@[simp] theorem journalize_life (a : App) (e : JEntry) : (a.journalize e).life = a.life := rfl
@[simp] theorem journalize_clk (a : App) (e : JEntry) : (a.journalize e).clk = a.clk := rfl
@[simp] theorem journalize_ana (a : App) (e : JEntry) : (a.journalize e).ana = a.ana := rfl
@[simp] theorem journalize_sig (a : App) (e : JEntry) : (a.journalize e).sig = a.sig := rfl
@[simp] theorem journalize_slu (a : App) (e : JEntry) : (a.journalize e).slu = a.slu := rfl
@[simp] theorem journalize_trp (a : App) (e : JEntry) : (a.journalize e).trp = a.trp := rfl
@[simp] theorem journalize_par (a : App) (e : JEntry) : (a.journalize e).par = a.par := rfl
@[simp] theorem journalize_node (a : App) (e : JEntry) : (a.journalize e).node = a.node := rfl
@[simp] theorem journalize_sent (a : App) (e : JEntry) : (a.journalize e).sent = a.sent := rfl
@[simp] theorem journalize_cap (a : App) (e : JEntry) : (a.journalize e).cap = a.cap := rfl
@[simp] theorem journalize_tw (a : App) (e : JEntry) : (a.journalize e).tw = a.tw := rfl
@[simp] theorem journalize_ctl (a : App) (e : JEntry) : (a.journalize e).ctl = a.ctl := rfl
@[simp] theorem journalize_fio (a : App) (e : JEntry) : (a.journalize e).fio = a.fio := rfl
@[simp] theorem journalize_mbox (a : App) (e : JEntry) : (a.journalize e).mbox = a.mbox := rfl
@[simp] theorem journalize_eth (a : App) (e : JEntry) : (a.journalize e).eth = a.eth := rfl
@[simp] theorem journalize_can (a : App) (e : JEntry) : (a.journalize e).can = a.can := rfl
@[simp] theorem journalize_dma (a : App) (e : JEntry) : (a.journalize e).dma = a.dma := rfl
@[simp] theorem journalize_cmd (a : App) (e : JEntry) : (a.journalize e).cmd = { a.cmd with journal := a.cmd.journal ++ [e] } := rfl

end Sys2Proof.Machine
end

