-- ==== Sys2Proof/Laws/Events.lean ====
section
/-! SUPPORT. What posting an event, raising an interrupt, writing a record and completing a command can change: contexts for
the first three, the register file and the recorder for a record. -/

namespace Sys2Proof.Machine

open Host

theorem raiseMsix_eq (a : App) (k v : Nat) : a.raiseMsix k v = { a with ctxs := (a.raiseMsix k v).ctxs } := rfl

@[simp] theorem raiseMsix_regs (a : App) (k v : Nat) : (a.raiseMsix k v).regs = a.regs := by rw [raiseMsix_eq]
@[simp] theorem raiseMsix_raised (a : App) (k v : Nat) : (a.raiseMsix k v).raised = a.raised := by rw [raiseMsix_eq]
@[simp] theorem raiseMsix_xbar (a : App) (k v : Nat) : (a.raiseMsix k v).xbar = a.xbar := by rw [raiseMsix_eq]
@[simp] theorem raiseMsix_tick (a : App) (k v : Nat) : (a.raiseMsix k v).tick = a.tick := by rw [raiseMsix_eq]
@[simp] theorem raiseMsix_opTicks (a : App) (k v : Nat) : (a.raiseMsix k v).opTicks = a.opTicks := by rw [raiseMsix_eq]
@[simp] theorem raiseMsix_freeCtr (a : App) (k v : Nat) : (a.raiseMsix k v).freeCtr = a.freeCtr := by rw [raiseMsix_eq]
@[simp] theorem raiseMsix_tim (a : App) (k v : Nat) : (a.raiseMsix k v).tim = a.tim := by rw [raiseMsix_eq]
@[simp] theorem raiseMsix_bkp (a : App) (k v : Nat) : (a.raiseMsix k v).bkp = a.bkp := by rw [raiseMsix_eq]
@[simp] theorem raiseMsix_hostWrites (a : App) (k v : Nat) : (a.raiseMsix k v).hostWrites = a.hostWrites := by rw [raiseMsix_eq]
@[simp] theorem raiseMsix_cmd (a : App) (k v : Nat) : (a.raiseMsix k v).cmd = a.cmd := by rw [raiseMsix_eq]
@[simp] theorem raiseMsix_life (a : App) (k v : Nat) : (a.raiseMsix k v).life = a.life := by rw [raiseMsix_eq]
@[simp] theorem raiseMsix_clk (a : App) (k v : Nat) : (a.raiseMsix k v).clk = a.clk := by rw [raiseMsix_eq]
@[simp] theorem raiseMsix_ana (a : App) (k v : Nat) : (a.raiseMsix k v).ana = a.ana := by rw [raiseMsix_eq]
@[simp] theorem raiseMsix_sig (a : App) (k v : Nat) : (a.raiseMsix k v).sig = a.sig := by rw [raiseMsix_eq]
@[simp] theorem raiseMsix_slu (a : App) (k v : Nat) : (a.raiseMsix k v).slu = a.slu := by rw [raiseMsix_eq]
@[simp] theorem raiseMsix_trp (a : App) (k v : Nat) : (a.raiseMsix k v).trp = a.trp := by rw [raiseMsix_eq]
@[simp] theorem raiseMsix_par (a : App) (k v : Nat) : (a.raiseMsix k v).par = a.par := by rw [raiseMsix_eq]
@[simp] theorem raiseMsix_node (a : App) (k v : Nat) : (a.raiseMsix k v).node = a.node := by rw [raiseMsix_eq]
@[simp] theorem raiseMsix_sent (a : App) (k v : Nat) : (a.raiseMsix k v).sent = a.sent := by rw [raiseMsix_eq]
@[simp] theorem raiseMsix_cap (a : App) (k v : Nat) : (a.raiseMsix k v).cap = a.cap := by rw [raiseMsix_eq]
@[simp] theorem raiseMsix_tw (a : App) (k v : Nat) : (a.raiseMsix k v).tw = a.tw := by rw [raiseMsix_eq]
@[simp] theorem raiseMsix_ctl (a : App) (k v : Nat) : (a.raiseMsix k v).ctl = a.ctl := by rw [raiseMsix_eq]
@[simp] theorem raiseMsix_fio (a : App) (k v : Nat) : (a.raiseMsix k v).fio = a.fio := by rw [raiseMsix_eq]
@[simp] theorem raiseMsix_mbox (a : App) (k v : Nat) : (a.raiseMsix k v).mbox = a.mbox := by rw [raiseMsix_eq]
@[simp] theorem raiseMsix_eth (a : App) (k v : Nat) : (a.raiseMsix k v).eth = a.eth := by rw [raiseMsix_eq]
@[simp] theorem raiseMsix_can (a : App) (k v : Nat) : (a.raiseMsix k v).can = a.can := by rw [raiseMsix_eq]
@[simp] theorem raiseMsix_dma (a : App) (k v : Nat) : (a.raiseMsix k v).dma = a.dma := by rw [raiseMsix_eq]

theorem postTo_eq (a : App) (k c : Nat) (p : List Byte) : a.postTo k c p = { a with ctxs := (a.postTo k c p).ctxs } := by
  unfold App.postTo
  dsimp only
  repeat' split
  all_goals rfl

@[simp] theorem postTo_regs (a : App) (k c : Nat) (p : List Byte) : (a.postTo k c p).regs = a.regs := by rw [postTo_eq]
@[simp] theorem postTo_raised (a : App) (k c : Nat) (p : List Byte) : (a.postTo k c p).raised = a.raised := by rw [postTo_eq]
@[simp] theorem postTo_xbar (a : App) (k c : Nat) (p : List Byte) : (a.postTo k c p).xbar = a.xbar := by rw [postTo_eq]
@[simp] theorem postTo_tick (a : App) (k c : Nat) (p : List Byte) : (a.postTo k c p).tick = a.tick := by rw [postTo_eq]
@[simp] theorem postTo_opTicks (a : App) (k c : Nat) (p : List Byte) : (a.postTo k c p).opTicks = a.opTicks := by rw [postTo_eq]
@[simp] theorem postTo_freeCtr (a : App) (k c : Nat) (p : List Byte) : (a.postTo k c p).freeCtr = a.freeCtr := by rw [postTo_eq]
@[simp] theorem postTo_tim (a : App) (k c : Nat) (p : List Byte) : (a.postTo k c p).tim = a.tim := by rw [postTo_eq]
@[simp] theorem postTo_bkp (a : App) (k c : Nat) (p : List Byte) : (a.postTo k c p).bkp = a.bkp := by rw [postTo_eq]
@[simp] theorem postTo_hostWrites (a : App) (k c : Nat) (p : List Byte) : (a.postTo k c p).hostWrites = a.hostWrites := by rw [postTo_eq]
@[simp] theorem postTo_cmd (a : App) (k c : Nat) (p : List Byte) : (a.postTo k c p).cmd = a.cmd := by rw [postTo_eq]
@[simp] theorem postTo_life (a : App) (k c : Nat) (p : List Byte) : (a.postTo k c p).life = a.life := by rw [postTo_eq]
@[simp] theorem postTo_clk (a : App) (k c : Nat) (p : List Byte) : (a.postTo k c p).clk = a.clk := by rw [postTo_eq]
@[simp] theorem postTo_ana (a : App) (k c : Nat) (p : List Byte) : (a.postTo k c p).ana = a.ana := by rw [postTo_eq]
@[simp] theorem postTo_sig (a : App) (k c : Nat) (p : List Byte) : (a.postTo k c p).sig = a.sig := by rw [postTo_eq]
@[simp] theorem postTo_slu (a : App) (k c : Nat) (p : List Byte) : (a.postTo k c p).slu = a.slu := by rw [postTo_eq]
@[simp] theorem postTo_trp (a : App) (k c : Nat) (p : List Byte) : (a.postTo k c p).trp = a.trp := by rw [postTo_eq]
@[simp] theorem postTo_par (a : App) (k c : Nat) (p : List Byte) : (a.postTo k c p).par = a.par := by rw [postTo_eq]
@[simp] theorem postTo_node (a : App) (k c : Nat) (p : List Byte) : (a.postTo k c p).node = a.node := by rw [postTo_eq]
@[simp] theorem postTo_sent (a : App) (k c : Nat) (p : List Byte) : (a.postTo k c p).sent = a.sent := by rw [postTo_eq]
@[simp] theorem postTo_cap (a : App) (k c : Nat) (p : List Byte) : (a.postTo k c p).cap = a.cap := by rw [postTo_eq]
@[simp] theorem postTo_tw (a : App) (k c : Nat) (p : List Byte) : (a.postTo k c p).tw = a.tw := by rw [postTo_eq]
@[simp] theorem postTo_ctl (a : App) (k c : Nat) (p : List Byte) : (a.postTo k c p).ctl = a.ctl := by rw [postTo_eq]
@[simp] theorem postTo_fio (a : App) (k c : Nat) (p : List Byte) : (a.postTo k c p).fio = a.fio := by rw [postTo_eq]
@[simp] theorem postTo_mbox (a : App) (k c : Nat) (p : List Byte) : (a.postTo k c p).mbox = a.mbox := by rw [postTo_eq]
@[simp] theorem postTo_eth (a : App) (k c : Nat) (p : List Byte) : (a.postTo k c p).eth = a.eth := by rw [postTo_eq]
@[simp] theorem postTo_can (a : App) (k c : Nat) (p : List Byte) : (a.postTo k c p).can = a.can := by rw [postTo_eq]
@[simp] theorem postTo_dma (a : App) (k c : Nat) (p : List Byte) : (a.postTo k c p).dma = a.dma := by rw [postTo_eq]

theorem post_fold_eq (c : Nat) (p : List Byte) (l : List Nat) (a : App) :
    l.foldl (fun a k => if a.takesClass k c then a.postTo k c p else a) a =
      { a with ctxs := (l.foldl (fun a k => if a.takesClass k c then a.postTo k c p else a) a).ctxs } := by
  induction l generalizing a with
  | nil => rfl
  | cons k l ih =>
    simp only [List.foldl_cons]
    rw [ih]
    split
    · rw [postTo_eq]
    · rfl

theorem post_eq (a : App) (c : Nat) (p : List Byte) : a.post c p = { a with ctxs := (a.post c p).ctxs } :=
  post_fold_eq c p _ a

@[simp] theorem post_regs (a : App) (c : Nat) (p : List Byte) : (a.post c p).regs = a.regs := by rw [post_eq]
@[simp] theorem post_raised (a : App) (c : Nat) (p : List Byte) : (a.post c p).raised = a.raised := by rw [post_eq]
@[simp] theorem post_xbar (a : App) (c : Nat) (p : List Byte) : (a.post c p).xbar = a.xbar := by rw [post_eq]
@[simp] theorem post_tick (a : App) (c : Nat) (p : List Byte) : (a.post c p).tick = a.tick := by rw [post_eq]
@[simp] theorem post_opTicks (a : App) (c : Nat) (p : List Byte) : (a.post c p).opTicks = a.opTicks := by rw [post_eq]
@[simp] theorem post_freeCtr (a : App) (c : Nat) (p : List Byte) : (a.post c p).freeCtr = a.freeCtr := by rw [post_eq]
@[simp] theorem post_tim (a : App) (c : Nat) (p : List Byte) : (a.post c p).tim = a.tim := by rw [post_eq]
@[simp] theorem post_bkp (a : App) (c : Nat) (p : List Byte) : (a.post c p).bkp = a.bkp := by rw [post_eq]
@[simp] theorem post_hostWrites (a : App) (c : Nat) (p : List Byte) : (a.post c p).hostWrites = a.hostWrites := by rw [post_eq]
@[simp] theorem post_cmd (a : App) (c : Nat) (p : List Byte) : (a.post c p).cmd = a.cmd := by rw [post_eq]
@[simp] theorem post_life (a : App) (c : Nat) (p : List Byte) : (a.post c p).life = a.life := by rw [post_eq]
@[simp] theorem post_clk (a : App) (c : Nat) (p : List Byte) : (a.post c p).clk = a.clk := by rw [post_eq]
@[simp] theorem post_ana (a : App) (c : Nat) (p : List Byte) : (a.post c p).ana = a.ana := by rw [post_eq]
@[simp] theorem post_sig (a : App) (c : Nat) (p : List Byte) : (a.post c p).sig = a.sig := by rw [post_eq]
@[simp] theorem post_slu (a : App) (c : Nat) (p : List Byte) : (a.post c p).slu = a.slu := by rw [post_eq]
@[simp] theorem post_trp (a : App) (c : Nat) (p : List Byte) : (a.post c p).trp = a.trp := by rw [post_eq]
@[simp] theorem post_par (a : App) (c : Nat) (p : List Byte) : (a.post c p).par = a.par := by rw [post_eq]
@[simp] theorem post_node (a : App) (c : Nat) (p : List Byte) : (a.post c p).node = a.node := by rw [post_eq]
@[simp] theorem post_sent (a : App) (c : Nat) (p : List Byte) : (a.post c p).sent = a.sent := by rw [post_eq]
@[simp] theorem post_cap (a : App) (c : Nat) (p : List Byte) : (a.post c p).cap = a.cap := by rw [post_eq]
@[simp] theorem post_tw (a : App) (c : Nat) (p : List Byte) : (a.post c p).tw = a.tw := by rw [post_eq]
@[simp] theorem post_ctl (a : App) (c : Nat) (p : List Byte) : (a.post c p).ctl = a.ctl := by rw [post_eq]
@[simp] theorem post_fio (a : App) (c : Nat) (p : List Byte) : (a.post c p).fio = a.fio := by rw [post_eq]
@[simp] theorem post_mbox (a : App) (c : Nat) (p : List Byte) : (a.post c p).mbox = a.mbox := by rw [post_eq]
@[simp] theorem post_eth (a : App) (c : Nat) (p : List Byte) : (a.post c p).eth = a.eth := by rw [post_eq]
@[simp] theorem post_can (a : App) (c : Nat) (p : List Byte) : (a.post c p).can = a.can := by rw [post_eq]
@[simp] theorem post_dma (a : App) (c : Nat) (p : List Byte) : (a.post c p).dma = a.dma := by rw [post_eq]

theorem postState_eq (a : App) (c i o n p : Nat) : a.postState c i o n p = { a with ctxs := (a.postState c i o n p).ctxs } :=
  post_eq a c _

@[simp] theorem postState_regs (a : App) (c i o n p : Nat) : (a.postState c i o n p).regs = a.regs := by rw [postState_eq]
@[simp] theorem postState_raised (a : App) (c i o n p : Nat) : (a.postState c i o n p).raised = a.raised := by rw [postState_eq]
@[simp] theorem postState_xbar (a : App) (c i o n p : Nat) : (a.postState c i o n p).xbar = a.xbar := by rw [postState_eq]
@[simp] theorem postState_tick (a : App) (c i o n p : Nat) : (a.postState c i o n p).tick = a.tick := by rw [postState_eq]
@[simp] theorem postState_opTicks (a : App) (c i o n p : Nat) : (a.postState c i o n p).opTicks = a.opTicks := by rw [postState_eq]
@[simp] theorem postState_freeCtr (a : App) (c i o n p : Nat) : (a.postState c i o n p).freeCtr = a.freeCtr := by rw [postState_eq]
@[simp] theorem postState_tim (a : App) (c i o n p : Nat) : (a.postState c i o n p).tim = a.tim := by rw [postState_eq]
@[simp] theorem postState_bkp (a : App) (c i o n p : Nat) : (a.postState c i o n p).bkp = a.bkp := by rw [postState_eq]
@[simp] theorem postState_hostWrites (a : App) (c i o n p : Nat) : (a.postState c i o n p).hostWrites = a.hostWrites := by rw [postState_eq]
@[simp] theorem postState_cmd (a : App) (c i o n p : Nat) : (a.postState c i o n p).cmd = a.cmd := by rw [postState_eq]
@[simp] theorem postState_life (a : App) (c i o n p : Nat) : (a.postState c i o n p).life = a.life := by rw [postState_eq]
@[simp] theorem postState_clk (a : App) (c i o n p : Nat) : (a.postState c i o n p).clk = a.clk := by rw [postState_eq]
@[simp] theorem postState_ana (a : App) (c i o n p : Nat) : (a.postState c i o n p).ana = a.ana := by rw [postState_eq]
@[simp] theorem postState_sig (a : App) (c i o n p : Nat) : (a.postState c i o n p).sig = a.sig := by rw [postState_eq]
@[simp] theorem postState_slu (a : App) (c i o n p : Nat) : (a.postState c i o n p).slu = a.slu := by rw [postState_eq]
@[simp] theorem postState_trp (a : App) (c i o n p : Nat) : (a.postState c i o n p).trp = a.trp := by rw [postState_eq]
@[simp] theorem postState_par (a : App) (c i o n p : Nat) : (a.postState c i o n p).par = a.par := by rw [postState_eq]
@[simp] theorem postState_node (a : App) (c i o n p : Nat) : (a.postState c i o n p).node = a.node := by rw [postState_eq]
@[simp] theorem postState_sent (a : App) (c i o n p : Nat) : (a.postState c i o n p).sent = a.sent := by rw [postState_eq]
@[simp] theorem postState_cap (a : App) (c i o n p : Nat) : (a.postState c i o n p).cap = a.cap := by rw [postState_eq]
@[simp] theorem postState_tw (a : App) (c i o n p : Nat) : (a.postState c i o n p).tw = a.tw := by rw [postState_eq]
@[simp] theorem postState_ctl (a : App) (c i o n p : Nat) : (a.postState c i o n p).ctl = a.ctl := by rw [postState_eq]
@[simp] theorem postState_fio (a : App) (c i o n p : Nat) : (a.postState c i o n p).fio = a.fio := by rw [postState_eq]
@[simp] theorem postState_mbox (a : App) (c i o n p : Nat) : (a.postState c i o n p).mbox = a.mbox := by rw [postState_eq]
@[simp] theorem postState_eth (a : App) (c i o n p : Nat) : (a.postState c i o n p).eth = a.eth := by rw [postState_eq]
@[simp] theorem postState_can (a : App) (c i o n p : Nat) : (a.postState c i o n p).can = a.can := by rw [postState_eq]
@[simp] theorem postState_dma (a : App) (c i o n p : Nat) : (a.postState c i o n p).dma = a.dma := by rw [postState_eq]

theorem postMode_eq (a : App) (d i o n : Nat) : a.postMode d i o n = { a with ctxs := (a.postMode d i o n).ctxs } :=
  postState_eq a 17 i o n d

@[simp] theorem postMode_regs (a : App) (d i o n : Nat) : (a.postMode d i o n).regs = a.regs := by rw [postMode_eq]
@[simp] theorem postMode_raised (a : App) (d i o n : Nat) : (a.postMode d i o n).raised = a.raised := by rw [postMode_eq]
@[simp] theorem postMode_xbar (a : App) (d i o n : Nat) : (a.postMode d i o n).xbar = a.xbar := by rw [postMode_eq]
@[simp] theorem postMode_tick (a : App) (d i o n : Nat) : (a.postMode d i o n).tick = a.tick := by rw [postMode_eq]
@[simp] theorem postMode_opTicks (a : App) (d i o n : Nat) : (a.postMode d i o n).opTicks = a.opTicks := by rw [postMode_eq]
@[simp] theorem postMode_freeCtr (a : App) (d i o n : Nat) : (a.postMode d i o n).freeCtr = a.freeCtr := by rw [postMode_eq]
@[simp] theorem postMode_tim (a : App) (d i o n : Nat) : (a.postMode d i o n).tim = a.tim := by rw [postMode_eq]
@[simp] theorem postMode_bkp (a : App) (d i o n : Nat) : (a.postMode d i o n).bkp = a.bkp := by rw [postMode_eq]
@[simp] theorem postMode_hostWrites (a : App) (d i o n : Nat) : (a.postMode d i o n).hostWrites = a.hostWrites := by rw [postMode_eq]
@[simp] theorem postMode_cmd (a : App) (d i o n : Nat) : (a.postMode d i o n).cmd = a.cmd := by rw [postMode_eq]
@[simp] theorem postMode_life (a : App) (d i o n : Nat) : (a.postMode d i o n).life = a.life := by rw [postMode_eq]
@[simp] theorem postMode_clk (a : App) (d i o n : Nat) : (a.postMode d i o n).clk = a.clk := by rw [postMode_eq]
@[simp] theorem postMode_ana (a : App) (d i o n : Nat) : (a.postMode d i o n).ana = a.ana := by rw [postMode_eq]
@[simp] theorem postMode_sig (a : App) (d i o n : Nat) : (a.postMode d i o n).sig = a.sig := by rw [postMode_eq]
@[simp] theorem postMode_slu (a : App) (d i o n : Nat) : (a.postMode d i o n).slu = a.slu := by rw [postMode_eq]
@[simp] theorem postMode_trp (a : App) (d i o n : Nat) : (a.postMode d i o n).trp = a.trp := by rw [postMode_eq]
@[simp] theorem postMode_par (a : App) (d i o n : Nat) : (a.postMode d i o n).par = a.par := by rw [postMode_eq]
@[simp] theorem postMode_node (a : App) (d i o n : Nat) : (a.postMode d i o n).node = a.node := by rw [postMode_eq]
@[simp] theorem postMode_sent (a : App) (d i o n : Nat) : (a.postMode d i o n).sent = a.sent := by rw [postMode_eq]
@[simp] theorem postMode_cap (a : App) (d i o n : Nat) : (a.postMode d i o n).cap = a.cap := by rw [postMode_eq]
@[simp] theorem postMode_tw (a : App) (d i o n : Nat) : (a.postMode d i o n).tw = a.tw := by rw [postMode_eq]
@[simp] theorem postMode_ctl (a : App) (d i o n : Nat) : (a.postMode d i o n).ctl = a.ctl := by rw [postMode_eq]
@[simp] theorem postMode_fio (a : App) (d i o n : Nat) : (a.postMode d i o n).fio = a.fio := by rw [postMode_eq]
@[simp] theorem postMode_mbox (a : App) (d i o n : Nat) : (a.postMode d i o n).mbox = a.mbox := by rw [postMode_eq]
@[simp] theorem postMode_eth (a : App) (d i o n : Nat) : (a.postMode d i o n).eth = a.eth := by rw [postMode_eq]
@[simp] theorem postMode_can (a : App) (d i o n : Nat) : (a.postMode d i o n).can = a.can := by rw [postMode_eq]
@[simp] theorem postMode_dma (a : App) (d i o n : Nat) : (a.postMode d i o n).dma = a.dma := by rw [postMode_eq]

theorem ringFault_eq (a : App) (k r q i p : Nat) : a.ringFault k r q i p = { a with ctxs := (a.ringFault k r q i p).ctxs } := by
  unfold App.ringFault
  split
  · rw [postTo_eq]
  · rfl

@[simp] theorem ringFault_regs (a : App) (k r q i p : Nat) : (a.ringFault k r q i p).regs = a.regs := by rw [ringFault_eq]
@[simp] theorem ringFault_raised (a : App) (k r q i p : Nat) : (a.ringFault k r q i p).raised = a.raised := by rw [ringFault_eq]
@[simp] theorem ringFault_xbar (a : App) (k r q i p : Nat) : (a.ringFault k r q i p).xbar = a.xbar := by rw [ringFault_eq]
@[simp] theorem ringFault_tick (a : App) (k r q i p : Nat) : (a.ringFault k r q i p).tick = a.tick := by rw [ringFault_eq]
@[simp] theorem ringFault_opTicks (a : App) (k r q i p : Nat) : (a.ringFault k r q i p).opTicks = a.opTicks := by rw [ringFault_eq]
@[simp] theorem ringFault_freeCtr (a : App) (k r q i p : Nat) : (a.ringFault k r q i p).freeCtr = a.freeCtr := by rw [ringFault_eq]
@[simp] theorem ringFault_tim (a : App) (k r q i p : Nat) : (a.ringFault k r q i p).tim = a.tim := by rw [ringFault_eq]
@[simp] theorem ringFault_bkp (a : App) (k r q i p : Nat) : (a.ringFault k r q i p).bkp = a.bkp := by rw [ringFault_eq]
@[simp] theorem ringFault_hostWrites (a : App) (k r q i p : Nat) : (a.ringFault k r q i p).hostWrites = a.hostWrites := by rw [ringFault_eq]
@[simp] theorem ringFault_cmd (a : App) (k r q i p : Nat) : (a.ringFault k r q i p).cmd = a.cmd := by rw [ringFault_eq]
@[simp] theorem ringFault_life (a : App) (k r q i p : Nat) : (a.ringFault k r q i p).life = a.life := by rw [ringFault_eq]
@[simp] theorem ringFault_clk (a : App) (k r q i p : Nat) : (a.ringFault k r q i p).clk = a.clk := by rw [ringFault_eq]
@[simp] theorem ringFault_ana (a : App) (k r q i p : Nat) : (a.ringFault k r q i p).ana = a.ana := by rw [ringFault_eq]
@[simp] theorem ringFault_sig (a : App) (k r q i p : Nat) : (a.ringFault k r q i p).sig = a.sig := by rw [ringFault_eq]
@[simp] theorem ringFault_slu (a : App) (k r q i p : Nat) : (a.ringFault k r q i p).slu = a.slu := by rw [ringFault_eq]
@[simp] theorem ringFault_trp (a : App) (k r q i p : Nat) : (a.ringFault k r q i p).trp = a.trp := by rw [ringFault_eq]
@[simp] theorem ringFault_par (a : App) (k r q i p : Nat) : (a.ringFault k r q i p).par = a.par := by rw [ringFault_eq]
@[simp] theorem ringFault_node (a : App) (k r q i p : Nat) : (a.ringFault k r q i p).node = a.node := by rw [ringFault_eq]
@[simp] theorem ringFault_sent (a : App) (k r q i p : Nat) : (a.ringFault k r q i p).sent = a.sent := by rw [ringFault_eq]
@[simp] theorem ringFault_cap (a : App) (k r q i p : Nat) : (a.ringFault k r q i p).cap = a.cap := by rw [ringFault_eq]
@[simp] theorem ringFault_tw (a : App) (k r q i p : Nat) : (a.ringFault k r q i p).tw = a.tw := by rw [ringFault_eq]
@[simp] theorem ringFault_ctl (a : App) (k r q i p : Nat) : (a.ringFault k r q i p).ctl = a.ctl := by rw [ringFault_eq]
@[simp] theorem ringFault_fio (a : App) (k r q i p : Nat) : (a.ringFault k r q i p).fio = a.fio := by rw [ringFault_eq]
@[simp] theorem ringFault_mbox (a : App) (k r q i p : Nat) : (a.ringFault k r q i p).mbox = a.mbox := by rw [ringFault_eq]
@[simp] theorem ringFault_eth (a : App) (k r q i p : Nat) : (a.ringFault k r q i p).eth = a.eth := by rw [ringFault_eq]
@[simp] theorem ringFault_can (a : App) (k r q i p : Nat) : (a.ringFault k r q i p).can = a.can := by rw [ringFault_eq]
@[simp] theorem ringFault_dma (a : App) (k r q i p : Nat) : (a.ringFault k r q i p).dma = a.dma := by rw [ringFault_eq]

theorem complete_eq (a : App) (k : Nat) (c : Completion) : a.complete k c = { a with ctxs := (a.complete k c).ctxs } := by
  unfold App.complete
  split
  · rw [raiseMsix_eq]; rfl
  · rfl

@[simp] theorem complete_regs (a : App) (k : Nat) (c : Completion) : (a.complete k c).regs = a.regs := by rw [complete_eq]
@[simp] theorem complete_raised (a : App) (k : Nat) (c : Completion) : (a.complete k c).raised = a.raised := by rw [complete_eq]
@[simp] theorem complete_xbar (a : App) (k : Nat) (c : Completion) : (a.complete k c).xbar = a.xbar := by rw [complete_eq]
@[simp] theorem complete_tick (a : App) (k : Nat) (c : Completion) : (a.complete k c).tick = a.tick := by rw [complete_eq]
@[simp] theorem complete_opTicks (a : App) (k : Nat) (c : Completion) : (a.complete k c).opTicks = a.opTicks := by rw [complete_eq]
@[simp] theorem complete_freeCtr (a : App) (k : Nat) (c : Completion) : (a.complete k c).freeCtr = a.freeCtr := by rw [complete_eq]
@[simp] theorem complete_tim (a : App) (k : Nat) (c : Completion) : (a.complete k c).tim = a.tim := by rw [complete_eq]
@[simp] theorem complete_bkp (a : App) (k : Nat) (c : Completion) : (a.complete k c).bkp = a.bkp := by rw [complete_eq]
@[simp] theorem complete_hostWrites (a : App) (k : Nat) (c : Completion) : (a.complete k c).hostWrites = a.hostWrites := by rw [complete_eq]
@[simp] theorem complete_cmd (a : App) (k : Nat) (c : Completion) : (a.complete k c).cmd = a.cmd := by rw [complete_eq]
@[simp] theorem complete_life (a : App) (k : Nat) (c : Completion) : (a.complete k c).life = a.life := by rw [complete_eq]
@[simp] theorem complete_clk (a : App) (k : Nat) (c : Completion) : (a.complete k c).clk = a.clk := by rw [complete_eq]
@[simp] theorem complete_ana (a : App) (k : Nat) (c : Completion) : (a.complete k c).ana = a.ana := by rw [complete_eq]
@[simp] theorem complete_sig (a : App) (k : Nat) (c : Completion) : (a.complete k c).sig = a.sig := by rw [complete_eq]
@[simp] theorem complete_slu (a : App) (k : Nat) (c : Completion) : (a.complete k c).slu = a.slu := by rw [complete_eq]
@[simp] theorem complete_trp (a : App) (k : Nat) (c : Completion) : (a.complete k c).trp = a.trp := by rw [complete_eq]
@[simp] theorem complete_par (a : App) (k : Nat) (c : Completion) : (a.complete k c).par = a.par := by rw [complete_eq]
@[simp] theorem complete_node (a : App) (k : Nat) (c : Completion) : (a.complete k c).node = a.node := by rw [complete_eq]
@[simp] theorem complete_sent (a : App) (k : Nat) (c : Completion) : (a.complete k c).sent = a.sent := by rw [complete_eq]
@[simp] theorem complete_cap (a : App) (k : Nat) (c : Completion) : (a.complete k c).cap = a.cap := by rw [complete_eq]
@[simp] theorem complete_tw (a : App) (k : Nat) (c : Completion) : (a.complete k c).tw = a.tw := by rw [complete_eq]
@[simp] theorem complete_ctl (a : App) (k : Nat) (c : Completion) : (a.complete k c).ctl = a.ctl := by rw [complete_eq]
@[simp] theorem complete_fio (a : App) (k : Nat) (c : Completion) : (a.complete k c).fio = a.fio := by rw [complete_eq]
@[simp] theorem complete_mbox (a : App) (k : Nat) (c : Completion) : (a.complete k c).mbox = a.mbox := by rw [complete_eq]
@[simp] theorem complete_eth (a : App) (k : Nat) (c : Completion) : (a.complete k c).eth = a.eth := by rw [complete_eq]
@[simp] theorem complete_can (a : App) (k : Nat) (c : Completion) : (a.complete k c).can = a.can := by rw [complete_eq]
@[simp] theorem complete_dma (a : App) (k : Nat) (c : Completion) : (a.complete k c).dma = a.dma := by rw [complete_eq]

theorem completeFinal_eq (a : App) (k : Nat) (c : Completion) :
    a.completeFinal k c = { a with ctxs := (a.completeFinal k c).ctxs } := by
  unfold App.completeFinal
  rw [complete_eq]; rfl

@[simp] theorem completeFinal_regs (a : App) (k : Nat) (c : Completion) : (a.completeFinal k c).regs = a.regs := by rw [completeFinal_eq]
@[simp] theorem completeFinal_raised (a : App) (k : Nat) (c : Completion) : (a.completeFinal k c).raised = a.raised := by rw [completeFinal_eq]
@[simp] theorem completeFinal_xbar (a : App) (k : Nat) (c : Completion) : (a.completeFinal k c).xbar = a.xbar := by rw [completeFinal_eq]
@[simp] theorem completeFinal_tick (a : App) (k : Nat) (c : Completion) : (a.completeFinal k c).tick = a.tick := by rw [completeFinal_eq]
@[simp] theorem completeFinal_opTicks (a : App) (k : Nat) (c : Completion) : (a.completeFinal k c).opTicks = a.opTicks := by rw [completeFinal_eq]
@[simp] theorem completeFinal_freeCtr (a : App) (k : Nat) (c : Completion) : (a.completeFinal k c).freeCtr = a.freeCtr := by rw [completeFinal_eq]
@[simp] theorem completeFinal_tim (a : App) (k : Nat) (c : Completion) : (a.completeFinal k c).tim = a.tim := by rw [completeFinal_eq]
@[simp] theorem completeFinal_bkp (a : App) (k : Nat) (c : Completion) : (a.completeFinal k c).bkp = a.bkp := by rw [completeFinal_eq]
@[simp] theorem completeFinal_hostWrites (a : App) (k : Nat) (c : Completion) : (a.completeFinal k c).hostWrites = a.hostWrites := by rw [completeFinal_eq]
@[simp] theorem completeFinal_cmd (a : App) (k : Nat) (c : Completion) : (a.completeFinal k c).cmd = a.cmd := by rw [completeFinal_eq]
@[simp] theorem completeFinal_life (a : App) (k : Nat) (c : Completion) : (a.completeFinal k c).life = a.life := by rw [completeFinal_eq]
@[simp] theorem completeFinal_clk (a : App) (k : Nat) (c : Completion) : (a.completeFinal k c).clk = a.clk := by rw [completeFinal_eq]
@[simp] theorem completeFinal_ana (a : App) (k : Nat) (c : Completion) : (a.completeFinal k c).ana = a.ana := by rw [completeFinal_eq]
@[simp] theorem completeFinal_sig (a : App) (k : Nat) (c : Completion) : (a.completeFinal k c).sig = a.sig := by rw [completeFinal_eq]
@[simp] theorem completeFinal_slu (a : App) (k : Nat) (c : Completion) : (a.completeFinal k c).slu = a.slu := by rw [completeFinal_eq]
@[simp] theorem completeFinal_trp (a : App) (k : Nat) (c : Completion) : (a.completeFinal k c).trp = a.trp := by rw [completeFinal_eq]
@[simp] theorem completeFinal_par (a : App) (k : Nat) (c : Completion) : (a.completeFinal k c).par = a.par := by rw [completeFinal_eq]
@[simp] theorem completeFinal_node (a : App) (k : Nat) (c : Completion) : (a.completeFinal k c).node = a.node := by rw [completeFinal_eq]
@[simp] theorem completeFinal_sent (a : App) (k : Nat) (c : Completion) : (a.completeFinal k c).sent = a.sent := by rw [completeFinal_eq]
@[simp] theorem completeFinal_cap (a : App) (k : Nat) (c : Completion) : (a.completeFinal k c).cap = a.cap := by rw [completeFinal_eq]
@[simp] theorem completeFinal_tw (a : App) (k : Nat) (c : Completion) : (a.completeFinal k c).tw = a.tw := by rw [completeFinal_eq]
@[simp] theorem completeFinal_ctl (a : App) (k : Nat) (c : Completion) : (a.completeFinal k c).ctl = a.ctl := by rw [completeFinal_eq]
@[simp] theorem completeFinal_fio (a : App) (k : Nat) (c : Completion) : (a.completeFinal k c).fio = a.fio := by rw [completeFinal_eq]
@[simp] theorem completeFinal_mbox (a : App) (k : Nat) (c : Completion) : (a.completeFinal k c).mbox = a.mbox := by rw [completeFinal_eq]
@[simp] theorem completeFinal_eth (a : App) (k : Nat) (c : Completion) : (a.completeFinal k c).eth = a.eth := by rw [completeFinal_eq]
@[simp] theorem completeFinal_can (a : App) (k : Nat) (c : Completion) : (a.completeFinal k c).can = a.can := by rw [completeFinal_eq]
@[simp] theorem completeFinal_dma (a : App) (k : Nat) (c : Completion) : (a.completeFinal k c).dma = a.dma := by rw [completeFinal_eq]

theorem reply_eq (a : App) (h : CmdHdr) (o st n : Nat) (r : List Byte) (d q : Bool) :
    a.reply h o st n r d q = { a with ctxs := (a.reply h o st n r d q).ctxs } := by
  unfold App.reply
  split
  · rfl
  · rw [completeFinal_eq]

@[simp] theorem reply_regs (a : App) (h : CmdHdr) (o st n : Nat) (r : List Byte) (d q : Bool) : (a.reply h o st n r d q).regs = a.regs := by rw [reply_eq]
@[simp] theorem reply_raised (a : App) (h : CmdHdr) (o st n : Nat) (r : List Byte) (d q : Bool) : (a.reply h o st n r d q).raised = a.raised := by rw [reply_eq]
@[simp] theorem reply_xbar (a : App) (h : CmdHdr) (o st n : Nat) (r : List Byte) (d q : Bool) : (a.reply h o st n r d q).xbar = a.xbar := by rw [reply_eq]
@[simp] theorem reply_tick (a : App) (h : CmdHdr) (o st n : Nat) (r : List Byte) (d q : Bool) : (a.reply h o st n r d q).tick = a.tick := by rw [reply_eq]
@[simp] theorem reply_opTicks (a : App) (h : CmdHdr) (o st n : Nat) (r : List Byte) (d q : Bool) : (a.reply h o st n r d q).opTicks = a.opTicks := by rw [reply_eq]
@[simp] theorem reply_freeCtr (a : App) (h : CmdHdr) (o st n : Nat) (r : List Byte) (d q : Bool) : (a.reply h o st n r d q).freeCtr = a.freeCtr := by rw [reply_eq]
@[simp] theorem reply_tim (a : App) (h : CmdHdr) (o st n : Nat) (r : List Byte) (d q : Bool) : (a.reply h o st n r d q).tim = a.tim := by rw [reply_eq]
@[simp] theorem reply_bkp (a : App) (h : CmdHdr) (o st n : Nat) (r : List Byte) (d q : Bool) : (a.reply h o st n r d q).bkp = a.bkp := by rw [reply_eq]
@[simp] theorem reply_hostWrites (a : App) (h : CmdHdr) (o st n : Nat) (r : List Byte) (d q : Bool) : (a.reply h o st n r d q).hostWrites = a.hostWrites := by rw [reply_eq]
@[simp] theorem reply_cmd (a : App) (h : CmdHdr) (o st n : Nat) (r : List Byte) (d q : Bool) : (a.reply h o st n r d q).cmd = a.cmd := by rw [reply_eq]
@[simp] theorem reply_life (a : App) (h : CmdHdr) (o st n : Nat) (r : List Byte) (d q : Bool) : (a.reply h o st n r d q).life = a.life := by rw [reply_eq]
@[simp] theorem reply_clk (a : App) (h : CmdHdr) (o st n : Nat) (r : List Byte) (d q : Bool) : (a.reply h o st n r d q).clk = a.clk := by rw [reply_eq]
@[simp] theorem reply_ana (a : App) (h : CmdHdr) (o st n : Nat) (r : List Byte) (d q : Bool) : (a.reply h o st n r d q).ana = a.ana := by rw [reply_eq]
@[simp] theorem reply_sig (a : App) (h : CmdHdr) (o st n : Nat) (r : List Byte) (d q : Bool) : (a.reply h o st n r d q).sig = a.sig := by rw [reply_eq]
@[simp] theorem reply_slu (a : App) (h : CmdHdr) (o st n : Nat) (r : List Byte) (d q : Bool) : (a.reply h o st n r d q).slu = a.slu := by rw [reply_eq]
@[simp] theorem reply_trp (a : App) (h : CmdHdr) (o st n : Nat) (r : List Byte) (d q : Bool) : (a.reply h o st n r d q).trp = a.trp := by rw [reply_eq]
@[simp] theorem reply_par (a : App) (h : CmdHdr) (o st n : Nat) (r : List Byte) (d q : Bool) : (a.reply h o st n r d q).par = a.par := by rw [reply_eq]
@[simp] theorem reply_node (a : App) (h : CmdHdr) (o st n : Nat) (r : List Byte) (d q : Bool) : (a.reply h o st n r d q).node = a.node := by rw [reply_eq]
@[simp] theorem reply_sent (a : App) (h : CmdHdr) (o st n : Nat) (r : List Byte) (d q : Bool) : (a.reply h o st n r d q).sent = a.sent := by rw [reply_eq]
@[simp] theorem reply_cap (a : App) (h : CmdHdr) (o st n : Nat) (r : List Byte) (d q : Bool) : (a.reply h o st n r d q).cap = a.cap := by rw [reply_eq]
@[simp] theorem reply_tw (a : App) (h : CmdHdr) (o st n : Nat) (r : List Byte) (d q : Bool) : (a.reply h o st n r d q).tw = a.tw := by rw [reply_eq]
@[simp] theorem reply_ctl (a : App) (h : CmdHdr) (o st n : Nat) (r : List Byte) (d q : Bool) : (a.reply h o st n r d q).ctl = a.ctl := by rw [reply_eq]
@[simp] theorem reply_fio (a : App) (h : CmdHdr) (o st n : Nat) (r : List Byte) (d q : Bool) : (a.reply h o st n r d q).fio = a.fio := by rw [reply_eq]
@[simp] theorem reply_mbox (a : App) (h : CmdHdr) (o st n : Nat) (r : List Byte) (d q : Bool) : (a.reply h o st n r d q).mbox = a.mbox := by rw [reply_eq]
@[simp] theorem reply_eth (a : App) (h : CmdHdr) (o st n : Nat) (r : List Byte) (d q : Bool) : (a.reply h o st n r d q).eth = a.eth := by rw [reply_eq]
@[simp] theorem reply_can (a : App) (h : CmdHdr) (o st n : Nat) (r : List Byte) (d q : Bool) : (a.reply h o st n r d q).can = a.can := by rw [reply_eq]
@[simp] theorem reply_dma (a : App) (h : CmdHdr) (o st n : Nat) (r : List Byte) (d q : Bool) : (a.reply h o st n r d q).dma = a.dma := by rw [reply_eq]

theorem record_eq (a : App) (c p q r t : Nat) :
    a.record c p q r t = { a with regs := (a.record c p q r t).regs, life := (a.record c p q r t).life } := by
  unfold App.record
  simp only [App.set]

@[simp] theorem record_raised (a : App) (c p q r t : Nat) : (a.record c p q r t).raised = a.raised := by rw [record_eq]
@[simp] theorem record_xbar (a : App) (c p q r t : Nat) : (a.record c p q r t).xbar = a.xbar := by rw [record_eq]
@[simp] theorem record_tick (a : App) (c p q r t : Nat) : (a.record c p q r t).tick = a.tick := by rw [record_eq]
@[simp] theorem record_opTicks (a : App) (c p q r t : Nat) : (a.record c p q r t).opTicks = a.opTicks := by rw [record_eq]
@[simp] theorem record_freeCtr (a : App) (c p q r t : Nat) : (a.record c p q r t).freeCtr = a.freeCtr := by rw [record_eq]
@[simp] theorem record_tim (a : App) (c p q r t : Nat) : (a.record c p q r t).tim = a.tim := by rw [record_eq]
@[simp] theorem record_bkp (a : App) (c p q r t : Nat) : (a.record c p q r t).bkp = a.bkp := by rw [record_eq]
@[simp] theorem record_ctxs (a : App) (c p q r t : Nat) : (a.record c p q r t).ctxs = a.ctxs := by rw [record_eq]
@[simp] theorem record_hostWrites (a : App) (c p q r t : Nat) : (a.record c p q r t).hostWrites = a.hostWrites := by rw [record_eq]
@[simp] theorem record_cmd (a : App) (c p q r t : Nat) : (a.record c p q r t).cmd = a.cmd := by rw [record_eq]
@[simp] theorem record_clk (a : App) (c p q r t : Nat) : (a.record c p q r t).clk = a.clk := by rw [record_eq]
@[simp] theorem record_ana (a : App) (c p q r t : Nat) : (a.record c p q r t).ana = a.ana := by rw [record_eq]
@[simp] theorem record_sig (a : App) (c p q r t : Nat) : (a.record c p q r t).sig = a.sig := by rw [record_eq]
@[simp] theorem record_slu (a : App) (c p q r t : Nat) : (a.record c p q r t).slu = a.slu := by rw [record_eq]
@[simp] theorem record_trp (a : App) (c p q r t : Nat) : (a.record c p q r t).trp = a.trp := by rw [record_eq]
@[simp] theorem record_par (a : App) (c p q r t : Nat) : (a.record c p q r t).par = a.par := by rw [record_eq]
@[simp] theorem record_node (a : App) (c p q r t : Nat) : (a.record c p q r t).node = a.node := by rw [record_eq]
@[simp] theorem record_sent (a : App) (c p q r t : Nat) : (a.record c p q r t).sent = a.sent := by rw [record_eq]
@[simp] theorem record_cap (a : App) (c p q r t : Nat) : (a.record c p q r t).cap = a.cap := by rw [record_eq]
@[simp] theorem record_tw (a : App) (c p q r t : Nat) : (a.record c p q r t).tw = a.tw := by rw [record_eq]
@[simp] theorem record_ctl (a : App) (c p q r t : Nat) : (a.record c p q r t).ctl = a.ctl := by rw [record_eq]
@[simp] theorem record_fio (a : App) (c p q r t : Nat) : (a.record c p q r t).fio = a.fio := by rw [record_eq]
@[simp] theorem record_mbox (a : App) (c p q r t : Nat) : (a.record c p q r t).mbox = a.mbox := by rw [record_eq]
@[simp] theorem record_eth (a : App) (c p q r t : Nat) : (a.record c p q r t).eth = a.eth := by rw [record_eq]
@[simp] theorem record_can (a : App) (c p q r t : Nat) : (a.record c p q r t).can = a.can := by rw [record_eq]
@[simp] theorem record_dma (a : App) (c p q r t : Nat) : (a.record c p q r t).dma = a.dma := by rw [record_eq]

theorem anchor_eq (a : App) (r : Nat) :
    a.anchor r = { a with regs := (a.anchor r).regs, life := (a.anchor r).life, bkp := (a.anchor r).bkp } := by
  unfold App.anchor
  split
  · rfl
  · dsimp only
    rw [record_eq]

@[simp] theorem anchor_raised (a : App) (r : Nat) : (a.anchor r).raised = a.raised := by rw [anchor_eq]
@[simp] theorem anchor_xbar (a : App) (r : Nat) : (a.anchor r).xbar = a.xbar := by rw [anchor_eq]
@[simp] theorem anchor_tick (a : App) (r : Nat) : (a.anchor r).tick = a.tick := by rw [anchor_eq]
@[simp] theorem anchor_opTicks (a : App) (r : Nat) : (a.anchor r).opTicks = a.opTicks := by rw [anchor_eq]
@[simp] theorem anchor_freeCtr (a : App) (r : Nat) : (a.anchor r).freeCtr = a.freeCtr := by rw [anchor_eq]
@[simp] theorem anchor_tim (a : App) (r : Nat) : (a.anchor r).tim = a.tim := by rw [anchor_eq]
@[simp] theorem anchor_ctxs (a : App) (r : Nat) : (a.anchor r).ctxs = a.ctxs := by rw [anchor_eq]
@[simp] theorem anchor_hostWrites (a : App) (r : Nat) : (a.anchor r).hostWrites = a.hostWrites := by rw [anchor_eq]
@[simp] theorem anchor_cmd (a : App) (r : Nat) : (a.anchor r).cmd = a.cmd := by rw [anchor_eq]
@[simp] theorem anchor_clk (a : App) (r : Nat) : (a.anchor r).clk = a.clk := by rw [anchor_eq]
@[simp] theorem anchor_ana (a : App) (r : Nat) : (a.anchor r).ana = a.ana := by rw [anchor_eq]
@[simp] theorem anchor_sig (a : App) (r : Nat) : (a.anchor r).sig = a.sig := by rw [anchor_eq]
@[simp] theorem anchor_slu (a : App) (r : Nat) : (a.anchor r).slu = a.slu := by rw [anchor_eq]
@[simp] theorem anchor_trp (a : App) (r : Nat) : (a.anchor r).trp = a.trp := by rw [anchor_eq]
@[simp] theorem anchor_par (a : App) (r : Nat) : (a.anchor r).par = a.par := by rw [anchor_eq]
@[simp] theorem anchor_node (a : App) (r : Nat) : (a.anchor r).node = a.node := by rw [anchor_eq]
@[simp] theorem anchor_sent (a : App) (r : Nat) : (a.anchor r).sent = a.sent := by rw [anchor_eq]
@[simp] theorem anchor_cap (a : App) (r : Nat) : (a.anchor r).cap = a.cap := by rw [anchor_eq]
@[simp] theorem anchor_tw (a : App) (r : Nat) : (a.anchor r).tw = a.tw := by rw [anchor_eq]
@[simp] theorem anchor_ctl (a : App) (r : Nat) : (a.anchor r).ctl = a.ctl := by rw [anchor_eq]
@[simp] theorem anchor_fio (a : App) (r : Nat) : (a.anchor r).fio = a.fio := by rw [anchor_eq]
@[simp] theorem anchor_mbox (a : App) (r : Nat) : (a.anchor r).mbox = a.mbox := by rw [anchor_eq]
@[simp] theorem anchor_eth (a : App) (r : Nat) : (a.anchor r).eth = a.eth := by rw [anchor_eq]
@[simp] theorem anchor_can (a : App) (r : Nat) : (a.anchor r).can = a.can := by rw [anchor_eq]
@[simp] theorem anchor_dma (a : App) (r : Nat) : (a.anchor r).dma = a.dma := by rw [anchor_eq]

end Sys2Proof.Machine
end

