-- ==== Sys2Proof/Laws/Commands.lean ====
section
/-! SUPPORT. What the command processor changes beside the effect of a command: contexts, tag records, the journal, and what goes
to the partner. -/

namespace Sys2Proof.Machine

open Host

theorem linkSend_eq (a : App) (k : Nat) (d : List Byte) :
    a.linkSend k d = { a with xbar := (a.linkSend k d).xbar, par := (a.linkSend k d).par, sent := (a.linkSend k d).sent } := rfl

@[simp] theorem linkSend_regs (a : App) (k : Nat) (d : List Byte) : (a.linkSend k d).regs = a.regs := by rw [linkSend_eq]
@[simp] theorem linkSend_raised (a : App) (k : Nat) (d : List Byte) : (a.linkSend k d).raised = a.raised := by rw [linkSend_eq]
@[simp] theorem linkSend_tick (a : App) (k : Nat) (d : List Byte) : (a.linkSend k d).tick = a.tick := by rw [linkSend_eq]
@[simp] theorem linkSend_opTicks (a : App) (k : Nat) (d : List Byte) : (a.linkSend k d).opTicks = a.opTicks := by rw [linkSend_eq]
@[simp] theorem linkSend_freeCtr (a : App) (k : Nat) (d : List Byte) : (a.linkSend k d).freeCtr = a.freeCtr := by rw [linkSend_eq]
@[simp] theorem linkSend_tim (a : App) (k : Nat) (d : List Byte) : (a.linkSend k d).tim = a.tim := by rw [linkSend_eq]
@[simp] theorem linkSend_bkp (a : App) (k : Nat) (d : List Byte) : (a.linkSend k d).bkp = a.bkp := by rw [linkSend_eq]
@[simp] theorem linkSend_ctxs (a : App) (k : Nat) (d : List Byte) : (a.linkSend k d).ctxs = a.ctxs := by rw [linkSend_eq]
@[simp] theorem linkSend_hostWrites (a : App) (k : Nat) (d : List Byte) : (a.linkSend k d).hostWrites = a.hostWrites := by rw [linkSend_eq]
@[simp] theorem linkSend_cmd (a : App) (k : Nat) (d : List Byte) : (a.linkSend k d).cmd = a.cmd := by rw [linkSend_eq]
@[simp] theorem linkSend_life (a : App) (k : Nat) (d : List Byte) : (a.linkSend k d).life = a.life := by rw [linkSend_eq]
@[simp] theorem linkSend_clk (a : App) (k : Nat) (d : List Byte) : (a.linkSend k d).clk = a.clk := by rw [linkSend_eq]
@[simp] theorem linkSend_ana (a : App) (k : Nat) (d : List Byte) : (a.linkSend k d).ana = a.ana := by rw [linkSend_eq]
@[simp] theorem linkSend_sig (a : App) (k : Nat) (d : List Byte) : (a.linkSend k d).sig = a.sig := by rw [linkSend_eq]
@[simp] theorem linkSend_slu (a : App) (k : Nat) (d : List Byte) : (a.linkSend k d).slu = a.slu := by rw [linkSend_eq]
@[simp] theorem linkSend_trp (a : App) (k : Nat) (d : List Byte) : (a.linkSend k d).trp = a.trp := by rw [linkSend_eq]
@[simp] theorem linkSend_node (a : App) (k : Nat) (d : List Byte) : (a.linkSend k d).node = a.node := by rw [linkSend_eq]
@[simp] theorem linkSend_cap (a : App) (k : Nat) (d : List Byte) : (a.linkSend k d).cap = a.cap := by rw [linkSend_eq]
@[simp] theorem linkSend_tw (a : App) (k : Nat) (d : List Byte) : (a.linkSend k d).tw = a.tw := by rw [linkSend_eq]
@[simp] theorem linkSend_ctl (a : App) (k : Nat) (d : List Byte) : (a.linkSend k d).ctl = a.ctl := by rw [linkSend_eq]
@[simp] theorem linkSend_fio (a : App) (k : Nat) (d : List Byte) : (a.linkSend k d).fio = a.fio := by rw [linkSend_eq]
@[simp] theorem linkSend_mbox (a : App) (k : Nat) (d : List Byte) : (a.linkSend k d).mbox = a.mbox := by rw [linkSend_eq]
@[simp] theorem linkSend_eth (a : App) (k : Nat) (d : List Byte) : (a.linkSend k d).eth = a.eth := by rw [linkSend_eq]
@[simp] theorem linkSend_can (a : App) (k : Nat) (d : List Byte) : (a.linkSend k d).can = a.can := by rw [linkSend_eq]
@[simp] theorem linkSend_dma (a : App) (k : Nat) (d : List Byte) : (a.linkSend k d).dma = a.dma := by rw [linkSend_eq]

theorem stream_eq (a : App) (k : Nat) (d : List Byte) :
    a.stream k d = { a with xbar := (a.stream k d).xbar, par := (a.stream k d).par, sent := (a.stream k d).sent } := by
  unfold App.stream
  split <;> rfl

@[simp] theorem stream_regs (a : App) (k : Nat) (d : List Byte) : (a.stream k d).regs = a.regs := by rw [stream_eq]
@[simp] theorem stream_raised (a : App) (k : Nat) (d : List Byte) : (a.stream k d).raised = a.raised := by rw [stream_eq]
@[simp] theorem stream_tick (a : App) (k : Nat) (d : List Byte) : (a.stream k d).tick = a.tick := by rw [stream_eq]
@[simp] theorem stream_opTicks (a : App) (k : Nat) (d : List Byte) : (a.stream k d).opTicks = a.opTicks := by rw [stream_eq]
@[simp] theorem stream_freeCtr (a : App) (k : Nat) (d : List Byte) : (a.stream k d).freeCtr = a.freeCtr := by rw [stream_eq]
@[simp] theorem stream_tim (a : App) (k : Nat) (d : List Byte) : (a.stream k d).tim = a.tim := by rw [stream_eq]
@[simp] theorem stream_bkp (a : App) (k : Nat) (d : List Byte) : (a.stream k d).bkp = a.bkp := by rw [stream_eq]
@[simp] theorem stream_ctxs (a : App) (k : Nat) (d : List Byte) : (a.stream k d).ctxs = a.ctxs := by rw [stream_eq]
@[simp] theorem stream_hostWrites (a : App) (k : Nat) (d : List Byte) : (a.stream k d).hostWrites = a.hostWrites := by rw [stream_eq]
@[simp] theorem stream_cmd (a : App) (k : Nat) (d : List Byte) : (a.stream k d).cmd = a.cmd := by rw [stream_eq]
@[simp] theorem stream_life (a : App) (k : Nat) (d : List Byte) : (a.stream k d).life = a.life := by rw [stream_eq]
@[simp] theorem stream_clk (a : App) (k : Nat) (d : List Byte) : (a.stream k d).clk = a.clk := by rw [stream_eq]
@[simp] theorem stream_ana (a : App) (k : Nat) (d : List Byte) : (a.stream k d).ana = a.ana := by rw [stream_eq]
@[simp] theorem stream_sig (a : App) (k : Nat) (d : List Byte) : (a.stream k d).sig = a.sig := by rw [stream_eq]
@[simp] theorem stream_slu (a : App) (k : Nat) (d : List Byte) : (a.stream k d).slu = a.slu := by rw [stream_eq]
@[simp] theorem stream_trp (a : App) (k : Nat) (d : List Byte) : (a.stream k d).trp = a.trp := by rw [stream_eq]
@[simp] theorem stream_node (a : App) (k : Nat) (d : List Byte) : (a.stream k d).node = a.node := by rw [stream_eq]
@[simp] theorem stream_cap (a : App) (k : Nat) (d : List Byte) : (a.stream k d).cap = a.cap := by rw [stream_eq]
@[simp] theorem stream_tw (a : App) (k : Nat) (d : List Byte) : (a.stream k d).tw = a.tw := by rw [stream_eq]
@[simp] theorem stream_ctl (a : App) (k : Nat) (d : List Byte) : (a.stream k d).ctl = a.ctl := by rw [stream_eq]
@[simp] theorem stream_fio (a : App) (k : Nat) (d : List Byte) : (a.stream k d).fio = a.fio := by rw [stream_eq]
@[simp] theorem stream_mbox (a : App) (k : Nat) (d : List Byte) : (a.stream k d).mbox = a.mbox := by rw [stream_eq]
@[simp] theorem stream_eth (a : App) (k : Nat) (d : List Byte) : (a.stream k d).eth = a.eth := by rw [stream_eq]
@[simp] theorem stream_can (a : App) (k : Nat) (d : List Byte) : (a.stream k d).can = a.can := by rw [stream_eq]
@[simp] theorem stream_dma (a : App) (k : Nat) (d : List Byte) : (a.stream k d).dma = a.dma := by rw [stream_eq]

theorem keepTag_eq (a : App) (k : Nat) (r : TagRec) : a.keepTag k r = { a with cmd := (a.keepTag k r).cmd } := rfl

@[simp] theorem keepTag_regs (a : App) (k : Nat) (r : TagRec) : (a.keepTag k r).regs = a.regs := by rw [keepTag_eq]
@[simp] theorem keepTag_raised (a : App) (k : Nat) (r : TagRec) : (a.keepTag k r).raised = a.raised := by rw [keepTag_eq]
@[simp] theorem keepTag_xbar (a : App) (k : Nat) (r : TagRec) : (a.keepTag k r).xbar = a.xbar := by rw [keepTag_eq]
@[simp] theorem keepTag_tick (a : App) (k : Nat) (r : TagRec) : (a.keepTag k r).tick = a.tick := by rw [keepTag_eq]
@[simp] theorem keepTag_opTicks (a : App) (k : Nat) (r : TagRec) : (a.keepTag k r).opTicks = a.opTicks := by rw [keepTag_eq]
@[simp] theorem keepTag_freeCtr (a : App) (k : Nat) (r : TagRec) : (a.keepTag k r).freeCtr = a.freeCtr := by rw [keepTag_eq]
@[simp] theorem keepTag_tim (a : App) (k : Nat) (r : TagRec) : (a.keepTag k r).tim = a.tim := by rw [keepTag_eq]
@[simp] theorem keepTag_bkp (a : App) (k : Nat) (r : TagRec) : (a.keepTag k r).bkp = a.bkp := by rw [keepTag_eq]
@[simp] theorem keepTag_ctxs (a : App) (k : Nat) (r : TagRec) : (a.keepTag k r).ctxs = a.ctxs := by rw [keepTag_eq]
@[simp] theorem keepTag_hostWrites (a : App) (k : Nat) (r : TagRec) : (a.keepTag k r).hostWrites = a.hostWrites := by rw [keepTag_eq]
@[simp] theorem keepTag_life (a : App) (k : Nat) (r : TagRec) : (a.keepTag k r).life = a.life := by rw [keepTag_eq]
@[simp] theorem keepTag_clk (a : App) (k : Nat) (r : TagRec) : (a.keepTag k r).clk = a.clk := by rw [keepTag_eq]
@[simp] theorem keepTag_ana (a : App) (k : Nat) (r : TagRec) : (a.keepTag k r).ana = a.ana := by rw [keepTag_eq]
@[simp] theorem keepTag_sig (a : App) (k : Nat) (r : TagRec) : (a.keepTag k r).sig = a.sig := by rw [keepTag_eq]
@[simp] theorem keepTag_slu (a : App) (k : Nat) (r : TagRec) : (a.keepTag k r).slu = a.slu := by rw [keepTag_eq]
@[simp] theorem keepTag_trp (a : App) (k : Nat) (r : TagRec) : (a.keepTag k r).trp = a.trp := by rw [keepTag_eq]
@[simp] theorem keepTag_par (a : App) (k : Nat) (r : TagRec) : (a.keepTag k r).par = a.par := by rw [keepTag_eq]
@[simp] theorem keepTag_node (a : App) (k : Nat) (r : TagRec) : (a.keepTag k r).node = a.node := by rw [keepTag_eq]
@[simp] theorem keepTag_sent (a : App) (k : Nat) (r : TagRec) : (a.keepTag k r).sent = a.sent := by rw [keepTag_eq]
@[simp] theorem keepTag_cap (a : App) (k : Nat) (r : TagRec) : (a.keepTag k r).cap = a.cap := by rw [keepTag_eq]
@[simp] theorem keepTag_tw (a : App) (k : Nat) (r : TagRec) : (a.keepTag k r).tw = a.tw := by rw [keepTag_eq]
@[simp] theorem keepTag_ctl (a : App) (k : Nat) (r : TagRec) : (a.keepTag k r).ctl = a.ctl := by rw [keepTag_eq]
@[simp] theorem keepTag_fio (a : App) (k : Nat) (r : TagRec) : (a.keepTag k r).fio = a.fio := by rw [keepTag_eq]
@[simp] theorem keepTag_mbox (a : App) (k : Nat) (r : TagRec) : (a.keepTag k r).mbox = a.mbox := by rw [keepTag_eq]
@[simp] theorem keepTag_eth (a : App) (k : Nat) (r : TagRec) : (a.keepTag k r).eth = a.eth := by rw [keepTag_eq]
@[simp] theorem keepTag_can (a : App) (k : Nat) (r : TagRec) : (a.keepTag k r).can = a.can := by rw [keepTag_eq]
@[simp] theorem keepTag_dma (a : App) (k : Nat) (r : TagRec) : (a.keepTag k r).dma = a.dma := by rw [keepTag_eq]

@[simp] theorem keepTag_owners (a : App) (k : Nat) (r : TagRec) : (a.keepTag k r).cmd.owners = a.cmd.owners := rfl
@[simp] theorem keepTag_long (a : App) (k : Nat) (r : TagRec) : (a.keepTag k r).cmd.long = a.cmd.long := rfl
@[simp] theorem keepTag_journal (a : App) (k : Nat) (r : TagRec) : (a.keepTag k r).cmd.journal = a.cmd.journal := rfl

theorem effected_eq (a : App) (h : CmdHdr) :
    a.effected h = { a with cmd := (a.effected h).cmd, xbar := (a.effected h).xbar, par := (a.effected h).par, sent := (a.effected h).sent } := by
  unfold App.effected
  rw [stream_eq]

@[simp] theorem effected_regs (a : App) (h : CmdHdr) : (a.effected h).regs = a.regs := by rw [effected_eq]
@[simp] theorem effected_raised (a : App) (h : CmdHdr) : (a.effected h).raised = a.raised := by rw [effected_eq]
@[simp] theorem effected_tick (a : App) (h : CmdHdr) : (a.effected h).tick = a.tick := by rw [effected_eq]
@[simp] theorem effected_opTicks (a : App) (h : CmdHdr) : (a.effected h).opTicks = a.opTicks := by rw [effected_eq]
@[simp] theorem effected_freeCtr (a : App) (h : CmdHdr) : (a.effected h).freeCtr = a.freeCtr := by rw [effected_eq]
@[simp] theorem effected_tim (a : App) (h : CmdHdr) : (a.effected h).tim = a.tim := by rw [effected_eq]
@[simp] theorem effected_bkp (a : App) (h : CmdHdr) : (a.effected h).bkp = a.bkp := by rw [effected_eq]
@[simp] theorem effected_ctxs (a : App) (h : CmdHdr) : (a.effected h).ctxs = a.ctxs := by rw [effected_eq]
@[simp] theorem effected_hostWrites (a : App) (h : CmdHdr) : (a.effected h).hostWrites = a.hostWrites := by rw [effected_eq]
@[simp] theorem effected_life (a : App) (h : CmdHdr) : (a.effected h).life = a.life := by rw [effected_eq]
@[simp] theorem effected_clk (a : App) (h : CmdHdr) : (a.effected h).clk = a.clk := by rw [effected_eq]
@[simp] theorem effected_ana (a : App) (h : CmdHdr) : (a.effected h).ana = a.ana := by rw [effected_eq]
@[simp] theorem effected_sig (a : App) (h : CmdHdr) : (a.effected h).sig = a.sig := by rw [effected_eq]
@[simp] theorem effected_slu (a : App) (h : CmdHdr) : (a.effected h).slu = a.slu := by rw [effected_eq]
@[simp] theorem effected_trp (a : App) (h : CmdHdr) : (a.effected h).trp = a.trp := by rw [effected_eq]
@[simp] theorem effected_node (a : App) (h : CmdHdr) : (a.effected h).node = a.node := by rw [effected_eq]
@[simp] theorem effected_cap (a : App) (h : CmdHdr) : (a.effected h).cap = a.cap := by rw [effected_eq]
@[simp] theorem effected_tw (a : App) (h : CmdHdr) : (a.effected h).tw = a.tw := by rw [effected_eq]
@[simp] theorem effected_ctl (a : App) (h : CmdHdr) : (a.effected h).ctl = a.ctl := by rw [effected_eq]
@[simp] theorem effected_fio (a : App) (h : CmdHdr) : (a.effected h).fio = a.fio := by rw [effected_eq]
@[simp] theorem effected_mbox (a : App) (h : CmdHdr) : (a.effected h).mbox = a.mbox := by rw [effected_eq]
@[simp] theorem effected_eth (a : App) (h : CmdHdr) : (a.effected h).eth = a.eth := by rw [effected_eq]
@[simp] theorem effected_can (a : App) (h : CmdHdr) : (a.effected h).can = a.can := by rw [effected_eq]
@[simp] theorem effected_dma (a : App) (h : CmdHdr) : (a.effected h).dma = a.dma := by rw [effected_eq]

@[simp] theorem effected_owners (a : App) (h : CmdHdr) : (a.effected h).cmd.owners = a.cmd.owners := by
  unfold App.effected; rw [stream_eq]
@[simp] theorem effected_long (a : App) (h : CmdHdr) : (a.effected h).cmd.long = a.cmd.long := by
  unfold App.effected; rw [stream_eq]

theorem reply_fold_eq (h : CmdHdr) (o st n : Nat) (r : List Byte) (d q : Bool) (l : List W32) (a : App) :
    l.foldl (fun a i => a.reply { h with index := i } o st n r d q) a =
      { a with ctxs := (l.foldl (fun a i => a.reply { h with index := i } o st n r d q) a).ctxs } := by
  induction l generalizing a with
  | nil => rfl
  | cons i l ih =>
    simp only [List.foldl_cons]
    rw [ih, reply_eq]

/-- What ending a command can change, and that ownerships and long operations are not among it. -/
theorem finish_eq (a : App) (h : CmdHdr) (o st n : Nat) (r : List Byte) (q : Bool) :
    a.finish h o st n r q = { a with ctxs := (a.finish h o st n r q).ctxs, cmd := (a.finish h o st n r q).cmd,
                                     xbar := (a.finish h o st n r q).xbar, par := (a.finish h o st n r q).par, sent := (a.finish h o st n r q).sent } := by
  unfold App.finish
  dsimp only
  generalize (match a.tagRec h.ctx h.tag with
    | some r => r.links
    | none => []) = links
  by_cases hs : ((a.onTags h.ctx (fun l => l.map (fun x => if x.tag == h.tag then
      { x with final := some ⟨BitVec.ofNat 16 st, BitVec.ofNat 32 n, padTo 32 r, q⟩, links := [] } else x))).tagRec h.ctx h.tag).isSome
        && o != 0x0103 && o != 0x0104
  all_goals simp only [hs, if_true, if_false, Bool.false_eq_true]
  all_goals split
  all_goals first
    | rfl
    | (rw [stream_eq]; rfl)
    | (rw [reply_fold_eq, reply_eq]; first | rfl | (rw [stream_eq]; rfl))

@[simp] theorem finish_regs (a : App) (h : CmdHdr) (o st n : Nat) (r : List Byte) (q : Bool) : (a.finish h o st n r q).regs = a.regs := by rw [finish_eq]
@[simp] theorem finish_raised (a : App) (h : CmdHdr) (o st n : Nat) (r : List Byte) (q : Bool) : (a.finish h o st n r q).raised = a.raised := by rw [finish_eq]
@[simp] theorem finish_tick (a : App) (h : CmdHdr) (o st n : Nat) (r : List Byte) (q : Bool) : (a.finish h o st n r q).tick = a.tick := by rw [finish_eq]
@[simp] theorem finish_opTicks (a : App) (h : CmdHdr) (o st n : Nat) (r : List Byte) (q : Bool) : (a.finish h o st n r q).opTicks = a.opTicks := by rw [finish_eq]
@[simp] theorem finish_freeCtr (a : App) (h : CmdHdr) (o st n : Nat) (r : List Byte) (q : Bool) : (a.finish h o st n r q).freeCtr = a.freeCtr := by rw [finish_eq]
@[simp] theorem finish_tim (a : App) (h : CmdHdr) (o st n : Nat) (r : List Byte) (q : Bool) : (a.finish h o st n r q).tim = a.tim := by rw [finish_eq]
@[simp] theorem finish_bkp (a : App) (h : CmdHdr) (o st n : Nat) (r : List Byte) (q : Bool) : (a.finish h o st n r q).bkp = a.bkp := by rw [finish_eq]
@[simp] theorem finish_hostWrites (a : App) (h : CmdHdr) (o st n : Nat) (r : List Byte) (q : Bool) : (a.finish h o st n r q).hostWrites = a.hostWrites := by rw [finish_eq]
@[simp] theorem finish_life (a : App) (h : CmdHdr) (o st n : Nat) (r : List Byte) (q : Bool) : (a.finish h o st n r q).life = a.life := by rw [finish_eq]
@[simp] theorem finish_clk (a : App) (h : CmdHdr) (o st n : Nat) (r : List Byte) (q : Bool) : (a.finish h o st n r q).clk = a.clk := by rw [finish_eq]
@[simp] theorem finish_ana (a : App) (h : CmdHdr) (o st n : Nat) (r : List Byte) (q : Bool) : (a.finish h o st n r q).ana = a.ana := by rw [finish_eq]
@[simp] theorem finish_sig (a : App) (h : CmdHdr) (o st n : Nat) (r : List Byte) (q : Bool) : (a.finish h o st n r q).sig = a.sig := by rw [finish_eq]
@[simp] theorem finish_slu (a : App) (h : CmdHdr) (o st n : Nat) (r : List Byte) (q : Bool) : (a.finish h o st n r q).slu = a.slu := by rw [finish_eq]
@[simp] theorem finish_trp (a : App) (h : CmdHdr) (o st n : Nat) (r : List Byte) (q : Bool) : (a.finish h o st n r q).trp = a.trp := by rw [finish_eq]
@[simp] theorem finish_node (a : App) (h : CmdHdr) (o st n : Nat) (r : List Byte) (q : Bool) : (a.finish h o st n r q).node = a.node := by rw [finish_eq]
@[simp] theorem finish_cap (a : App) (h : CmdHdr) (o st n : Nat) (r : List Byte) (q : Bool) : (a.finish h o st n r q).cap = a.cap := by rw [finish_eq]
@[simp] theorem finish_tw (a : App) (h : CmdHdr) (o st n : Nat) (r : List Byte) (q : Bool) : (a.finish h o st n r q).tw = a.tw := by rw [finish_eq]
@[simp] theorem finish_ctl (a : App) (h : CmdHdr) (o st n : Nat) (r : List Byte) (q : Bool) : (a.finish h o st n r q).ctl = a.ctl := by rw [finish_eq]
@[simp] theorem finish_fio (a : App) (h : CmdHdr) (o st n : Nat) (r : List Byte) (q : Bool) : (a.finish h o st n r q).fio = a.fio := by rw [finish_eq]
@[simp] theorem finish_mbox (a : App) (h : CmdHdr) (o st n : Nat) (r : List Byte) (q : Bool) : (a.finish h o st n r q).mbox = a.mbox := by rw [finish_eq]
@[simp] theorem finish_eth (a : App) (h : CmdHdr) (o st n : Nat) (r : List Byte) (q : Bool) : (a.finish h o st n r q).eth = a.eth := by rw [finish_eq]
@[simp] theorem finish_can (a : App) (h : CmdHdr) (o st n : Nat) (r : List Byte) (q : Bool) : (a.finish h o st n r q).can = a.can := by rw [finish_eq]
@[simp] theorem finish_dma (a : App) (h : CmdHdr) (o st n : Nat) (r : List Byte) (q : Bool) : (a.finish h o st n r q).dma = a.dma := by rw [finish_eq]

end Sys2Proof.Machine
end

