-- ==== Sys2Proof/Laws/Process.lean ====
section
/-! SUPPORT. An admitted command: its effect on the admitted state, concluded (R489 to R492). -/

namespace Sys2Proof.Machine

open Host

theorem cmdCheck_keepTag (a : App) (k : Nat) (r : TagRec) (h : CmdHdr) (op : HostOp) (n : Option Nat) (l : List Nat) :
    (a.keepTag k r).cmdCheck h op n l = a.cmdCheck h op n l := rfl

theorem streams_keepTag (a : App) (k : Nat) (r : TagRec) : (a.keepTag k r).streams = a.streams := rfl

theorem streams_touch (l : List Nat) (a : App) : (l.foldl App.touchOwner a).streams = a.streams := by
  induction l generalizing a with
  | nil => rfl
  | cons i l ih => rw [List.foldl_cons, ih]; rfl

/-- An admitted command runs its effect and concludes what it answers. -/
theorem process_admitted (a : App) (h : CmdHdr) (op : HostOp) (objs : List Nat) (eff : App → App × Reply)
    (hyp : Admitted a h op objs) :
    a.process h op none objs eff = (eff (a.takeIn h op objs)).1.conclude h op (eff (a.takeIn h op objs)).2 := by
  obtain ⟨_, ht, hn, hp, hs, hf⟩ := hyp
  have hq : ¬(a.failing && op.cls != .q) = true := by
    rcases hf with h1 | h1
    · simp [h1]
    · simp [h1]
  unfold App.process App.takeIn
  rw [if_neg hq, if_neg ht, hn]
  dsimp only
  by_cases hk : op.cls = .q
  · simp [hk, hp]
  · have hb : (op.cls != .q) = true := by simp [hk]
    have hw : (a.streams && !op.servoOnly) = false := by
      rcases hs with h1 | h1 | h1
      · exact absurd h1 hk
      · simp [h1]
      · simp [h1]
    simp [hb, hp, cmdCheck_keepTag, streams_touch, streams_keepTag, hw]

/-- The same for an effect that answers a final status at once. -/
theorem process_ended (a : App) (h : CmdHdr) (op : HostOp) (objs : List Nat) (eff : App → App × Reply) (st : Nat) (res : List Byte)
    (f : App → App) (hyp : Admitted a h op objs) (he : eff (a.takeIn h op objs) = (f (a.takeIn h op objs), .final st res)) :
    a.process h op none objs eff = a.ended h op objs st res f := by
  rw [process_admitted a h op objs eff hyp, he]
  rfl

/-! ### What admitting a command leaves as it was: all but the tag records, the journal and the ownership windows -/

theorem touch_regs (l : List Nat) (a : App) : (l.foldl App.touchOwner a).regs = a.regs := by
  induction l generalizing a with
  | nil => rfl
  | cons i l ih => rw [List.foldl_cons, ih]; rfl

@[simp] theorem takeIn_regs (a : App) (h : CmdHdr) (op : HostOp) (l : List Nat) : (a.takeIn h op l).regs = a.regs := by
  unfold App.takeIn
  dsimp only
  split <;> simp only [touch_regs, App.journalize] <;> rfl

theorem touch_tick (l : List Nat) (a : App) : (l.foldl App.touchOwner a).tick = a.tick := by
  induction l generalizing a with
  | nil => rfl
  | cons i l ih => rw [List.foldl_cons, ih]; rfl

@[simp] theorem takeIn_tick (a : App) (h : CmdHdr) (op : HostOp) (l : List Nat) : (a.takeIn h op l).tick = a.tick := by
  unfold App.takeIn
  dsimp only
  split <;> simp only [touch_tick, App.journalize] <;> rfl

theorem touch_opTicks (l : List Nat) (a : App) : (l.foldl App.touchOwner a).opTicks = a.opTicks := by
  induction l generalizing a with
  | nil => rfl
  | cons i l ih => rw [List.foldl_cons, ih]; rfl

@[simp] theorem takeIn_opTicks (a : App) (h : CmdHdr) (op : HostOp) (l : List Nat) : (a.takeIn h op l).opTicks = a.opTicks := by
  unfold App.takeIn
  dsimp only
  split <;> simp only [touch_opTicks, App.journalize] <;> rfl

theorem touch_freeCtr (l : List Nat) (a : App) : (l.foldl App.touchOwner a).freeCtr = a.freeCtr := by
  induction l generalizing a with
  | nil => rfl
  | cons i l ih => rw [List.foldl_cons, ih]; rfl

@[simp] theorem takeIn_freeCtr (a : App) (h : CmdHdr) (op : HostOp) (l : List Nat) : (a.takeIn h op l).freeCtr = a.freeCtr := by
  unfold App.takeIn
  dsimp only
  split <;> simp only [touch_freeCtr, App.journalize] <;> rfl

theorem touch_tim (l : List Nat) (a : App) : (l.foldl App.touchOwner a).tim = a.tim := by
  induction l generalizing a with
  | nil => rfl
  | cons i l ih => rw [List.foldl_cons, ih]; rfl

@[simp] theorem takeIn_tim (a : App) (h : CmdHdr) (op : HostOp) (l : List Nat) : (a.takeIn h op l).tim = a.tim := by
  unfold App.takeIn
  dsimp only
  split <;> simp only [touch_tim, App.journalize] <;> rfl

theorem touch_bkp (l : List Nat) (a : App) : (l.foldl App.touchOwner a).bkp = a.bkp := by
  induction l generalizing a with
  | nil => rfl
  | cons i l ih => rw [List.foldl_cons, ih]; rfl

@[simp] theorem takeIn_bkp (a : App) (h : CmdHdr) (op : HostOp) (l : List Nat) : (a.takeIn h op l).bkp = a.bkp := by
  unfold App.takeIn
  dsimp only
  split <;> simp only [touch_bkp, App.journalize] <;> rfl

theorem touch_ctxs (l : List Nat) (a : App) : (l.foldl App.touchOwner a).ctxs = a.ctxs := by
  induction l generalizing a with
  | nil => rfl
  | cons i l ih => rw [List.foldl_cons, ih]; rfl

@[simp] theorem takeIn_ctxs (a : App) (h : CmdHdr) (op : HostOp) (l : List Nat) : (a.takeIn h op l).ctxs = a.ctxs := by
  unfold App.takeIn
  dsimp only
  split <;> simp only [touch_ctxs, App.journalize] <;> rfl

theorem touch_hostWrites (l : List Nat) (a : App) : (l.foldl App.touchOwner a).hostWrites = a.hostWrites := by
  induction l generalizing a with
  | nil => rfl
  | cons i l ih => rw [List.foldl_cons, ih]; rfl

@[simp] theorem takeIn_hostWrites (a : App) (h : CmdHdr) (op : HostOp) (l : List Nat) : (a.takeIn h op l).hostWrites = a.hostWrites := by
  unfold App.takeIn
  dsimp only
  split <;> simp only [touch_hostWrites, App.journalize] <;> rfl

theorem touch_life (l : List Nat) (a : App) : (l.foldl App.touchOwner a).life = a.life := by
  induction l generalizing a with
  | nil => rfl
  | cons i l ih => rw [List.foldl_cons, ih]; rfl

@[simp] theorem takeIn_life (a : App) (h : CmdHdr) (op : HostOp) (l : List Nat) : (a.takeIn h op l).life = a.life := by
  unfold App.takeIn
  dsimp only
  split <;> simp only [touch_life, App.journalize] <;> rfl

theorem touch_clk (l : List Nat) (a : App) : (l.foldl App.touchOwner a).clk = a.clk := by
  induction l generalizing a with
  | nil => rfl
  | cons i l ih => rw [List.foldl_cons, ih]; rfl

@[simp] theorem takeIn_clk (a : App) (h : CmdHdr) (op : HostOp) (l : List Nat) : (a.takeIn h op l).clk = a.clk := by
  unfold App.takeIn
  dsimp only
  split <;> simp only [touch_clk, App.journalize] <;> rfl

theorem touch_ana (l : List Nat) (a : App) : (l.foldl App.touchOwner a).ana = a.ana := by
  induction l generalizing a with
  | nil => rfl
  | cons i l ih => rw [List.foldl_cons, ih]; rfl

@[simp] theorem takeIn_ana (a : App) (h : CmdHdr) (op : HostOp) (l : List Nat) : (a.takeIn h op l).ana = a.ana := by
  unfold App.takeIn
  dsimp only
  split <;> simp only [touch_ana, App.journalize] <;> rfl

theorem touch_slu (l : List Nat) (a : App) : (l.foldl App.touchOwner a).slu = a.slu := by
  induction l generalizing a with
  | nil => rfl
  | cons i l ih => rw [List.foldl_cons, ih]; rfl

@[simp] theorem takeIn_slu (a : App) (h : CmdHdr) (op : HostOp) (l : List Nat) : (a.takeIn h op l).slu = a.slu := by
  unfold App.takeIn
  dsimp only
  split <;> simp only [touch_slu, App.journalize] <;> rfl

theorem touch_trp (l : List Nat) (a : App) : (l.foldl App.touchOwner a).trp = a.trp := by
  induction l generalizing a with
  | nil => rfl
  | cons i l ih => rw [List.foldl_cons, ih]; rfl

@[simp] theorem takeIn_trp (a : App) (h : CmdHdr) (op : HostOp) (l : List Nat) : (a.takeIn h op l).trp = a.trp := by
  unfold App.takeIn
  dsimp only
  split <;> simp only [touch_trp, App.journalize] <;> rfl

theorem touch_par (l : List Nat) (a : App) : (l.foldl App.touchOwner a).par = a.par := by
  induction l generalizing a with
  | nil => rfl
  | cons i l ih => rw [List.foldl_cons, ih]; rfl

@[simp] theorem takeIn_par (a : App) (h : CmdHdr) (op : HostOp) (l : List Nat) : (a.takeIn h op l).par = a.par := by
  unfold App.takeIn
  dsimp only
  split <;> simp only [touch_par, App.journalize] <;> rfl

theorem touch_node (l : List Nat) (a : App) : (l.foldl App.touchOwner a).node = a.node := by
  induction l generalizing a with
  | nil => rfl
  | cons i l ih => rw [List.foldl_cons, ih]; rfl

@[simp] theorem takeIn_node (a : App) (h : CmdHdr) (op : HostOp) (l : List Nat) : (a.takeIn h op l).node = a.node := by
  unfold App.takeIn
  dsimp only
  split <;> simp only [touch_node, App.journalize] <;> rfl

theorem touch_sent (l : List Nat) (a : App) : (l.foldl App.touchOwner a).sent = a.sent := by
  induction l generalizing a with
  | nil => rfl
  | cons i l ih => rw [List.foldl_cons, ih]; rfl

@[simp] theorem takeIn_sent (a : App) (h : CmdHdr) (op : HostOp) (l : List Nat) : (a.takeIn h op l).sent = a.sent := by
  unfold App.takeIn
  dsimp only
  split <;> simp only [touch_sent, App.journalize] <;> rfl

theorem touch_cap (l : List Nat) (a : App) : (l.foldl App.touchOwner a).cap = a.cap := by
  induction l generalizing a with
  | nil => rfl
  | cons i l ih => rw [List.foldl_cons, ih]; rfl

@[simp] theorem takeIn_cap (a : App) (h : CmdHdr) (op : HostOp) (l : List Nat) : (a.takeIn h op l).cap = a.cap := by
  unfold App.takeIn
  dsimp only
  split <;> simp only [touch_cap, App.journalize] <;> rfl

theorem touch_tw (l : List Nat) (a : App) : (l.foldl App.touchOwner a).tw = a.tw := by
  induction l generalizing a with
  | nil => rfl
  | cons i l ih => rw [List.foldl_cons, ih]; rfl

@[simp] theorem takeIn_tw (a : App) (h : CmdHdr) (op : HostOp) (l : List Nat) : (a.takeIn h op l).tw = a.tw := by
  unfold App.takeIn
  dsimp only
  split <;> simp only [touch_tw, App.journalize] <;> rfl

theorem touch_ctl (l : List Nat) (a : App) : (l.foldl App.touchOwner a).ctl = a.ctl := by
  induction l generalizing a with
  | nil => rfl
  | cons i l ih => rw [List.foldl_cons, ih]; rfl

@[simp] theorem takeIn_ctl (a : App) (h : CmdHdr) (op : HostOp) (l : List Nat) : (a.takeIn h op l).ctl = a.ctl := by
  unfold App.takeIn
  dsimp only
  split <;> simp only [touch_ctl, App.journalize] <;> rfl

theorem touch_fio (l : List Nat) (a : App) : (l.foldl App.touchOwner a).fio = a.fio := by
  induction l generalizing a with
  | nil => rfl
  | cons i l ih => rw [List.foldl_cons, ih]; rfl

@[simp] theorem takeIn_fio (a : App) (h : CmdHdr) (op : HostOp) (l : List Nat) : (a.takeIn h op l).fio = a.fio := by
  unfold App.takeIn
  dsimp only
  split <;> simp only [touch_fio, App.journalize] <;> rfl

theorem touch_mbox (l : List Nat) (a : App) : (l.foldl App.touchOwner a).mbox = a.mbox := by
  induction l generalizing a with
  | nil => rfl
  | cons i l ih => rw [List.foldl_cons, ih]; rfl

@[simp] theorem takeIn_mbox (a : App) (h : CmdHdr) (op : HostOp) (l : List Nat) : (a.takeIn h op l).mbox = a.mbox := by
  unfold App.takeIn
  dsimp only
  split <;> simp only [touch_mbox, App.journalize] <;> rfl

theorem touch_eth (l : List Nat) (a : App) : (l.foldl App.touchOwner a).eth = a.eth := by
  induction l generalizing a with
  | nil => rfl
  | cons i l ih => rw [List.foldl_cons, ih]; rfl

@[simp] theorem takeIn_eth (a : App) (h : CmdHdr) (op : HostOp) (l : List Nat) : (a.takeIn h op l).eth = a.eth := by
  unfold App.takeIn
  dsimp only
  split <;> simp only [touch_eth, App.journalize] <;> rfl

theorem touch_can (l : List Nat) (a : App) : (l.foldl App.touchOwner a).can = a.can := by
  induction l generalizing a with
  | nil => rfl
  | cons i l ih => rw [List.foldl_cons, ih]; rfl

@[simp] theorem takeIn_can (a : App) (h : CmdHdr) (op : HostOp) (l : List Nat) : (a.takeIn h op l).can = a.can := by
  unfold App.takeIn
  dsimp only
  split <;> simp only [touch_can, App.journalize] <;> rfl

theorem touch_dma (l : List Nat) (a : App) : (l.foldl App.touchOwner a).dma = a.dma := by
  induction l generalizing a with
  | nil => rfl
  | cons i l ih => rw [List.foldl_cons, ih]; rfl

@[simp] theorem takeIn_dma (a : App) (h : CmdHdr) (op : HostOp) (l : List Nat) : (a.takeIn h op l).dma = a.dma := by
  unfold App.takeIn
  dsimp only
  split <;> simp only [touch_dma, App.journalize] <;> rfl

theorem touch_cmd_long (l : List Nat) (a : App) : (l.foldl App.touchOwner a).cmd.long = a.cmd.long := by
  induction l generalizing a with
  | nil => rfl
  | cons i l ih => rw [List.foldl_cons, ih]; rfl

@[simp] theorem takeIn_cmd_long (a : App) (h : CmdHdr) (op : HostOp) (l : List Nat) : (a.takeIn h op l).cmd.long = a.cmd.long := by
  unfold App.takeIn
  dsimp only
  split <;> simp only [touch_cmd_long, App.journalize] <;> rfl

@[simp] theorem takeIn_get (a : App) (h : CmdHdr) (op : HostOp) (l : List Nat) (f : Fld) : (a.takeIn h op l).get f = a.get f := by
  simp [App.get]

@[simp] theorem takeIn_on (a : App) (h : CmdHdr) (op : HostOp) (l : List Nat) (f : Fld) : (a.takeIn h op l).on f = a.on f := by
  simp [App.on]

@[simp] theorem takeIn_now (a : App) (h : CmdHdr) (op : HostOp) (l : List Nat) : (a.takeIn h op l).now = a.now := by
  simp [App.now]

@[simp] theorem takeIn_owners_nil (a : App) (h : CmdHdr) (op : HostOp) : (a.takeIn h op []).cmd.owners = a.cmd.owners := by
  unfold App.takeIn
  dsimp only
  split <;> rfl

@[simp] theorem takeIn_longOnProgram (a : App) (h : CmdHdr) (op : HostOp) (l : List Nat) (k : Nat) :
    (a.takeIn h op l).longOnProgram k = a.longOnProgram k := by
  simp [App.longOnProgram]

@[simp] theorem takeIn_ownerOf_nil (a : App) (h : CmdHdr) (op : HostOp) (i : Nat) : (a.takeIn h op []).ownerOf i = a.ownerOf i := by
  simp [App.ownerOf]

end Sys2Proof.Machine
end

