-- ==== Sys2Proof/Laws/Core.lean ====
section
/-! SUPPORT. Words of block code and the execution of one (R375 to R377). -/

namespace Sys2Proof.Machine

open Host

theorem opOf_wordR {o d a b : Nat} (ho : o < 256) (hd : d < 64) (ha : a < 64) (hb : b < 64) : opOf (wordR o d a b) = o := by
  simp only [opOf, wordR, bitsOf]; omega
theorem fd_wordR {o d a b : Nat} (hd : d < 64) (ha : a < 64) (hb : b < 64) : fd (wordR o d a b) = d := by
  simp only [fd, wordR, bitsOf]; omega
theorem fa_wordR {o d a b : Nat} (ha : a < 64) (hb : b < 64) : fa (wordR o d a b) = a := by
  simp only [fa, wordR, bitsOf]; omega
theorem fb_wordR {o d a b : Nat} (hb : b < 64) : fb (wordR o d a b) = b := by
  simp only [fb, wordR, bitsOf]; omega
theorem low_wordR (o d a b : Nat) : bitsOf (wordR o d a b) 0 6 = 0 := by
  simp only [wordR, bitsOf]; omega
theorem opOf_wordI {o d a i : Nat} (ho : o < 256) (hd : d < 64) (ha : a < 64) (hi : i < 4096) : opOf (wordI o d a i) = o := by
  simp only [opOf, wordI, bitsOf]; omega
theorem fd_wordI {o d a i : Nat} (hd : d < 64) (ha : a < 64) (hi : i < 4096) : fd (wordI o d a i) = d := by
  simp only [fd, wordI, bitsOf]; omega
theorem fa_wordI {o d a i : Nat} (ha : a < 64) (hi : i < 4096) : fa (wordI o d a i) = a := by
  simp only [fa, wordI, bitsOf]; omega
theorem fimm_wordI {o d a i : Nat} (hi : i < 4096) : fimm (wordI o d a i) = i := by
  simp only [fimm, wordI, bitsOf]; omega
theorem opOf_wordX {o d i : Nat} (ho : o < 256) (hd : d < 64) (hi : i < 2 ^ 18) : opOf (wordX o d i) = o := by
  simp only [opOf, wordX, bitsOf]; omega
theorem fd_wordX {o d i : Nat} (hd : d < 64) (hi : i < 2 ^ 18) : fd (wordX o d i) = d := by
  simp only [fd, wordX, bitsOf]; omega
theorem fidx_wordX {o d i : Nat} (hi : i < 2 ^ 18) : fidx (wordX o d i) = i := by
  simp only [fidx, wordX, bitsOf]; omega
theorem opOf_wordS {v d a : Nat} (hv : v < 4096) (hd : d < 64) (ha : a < 64) : opOf (wordS v d a) = 0x90 := by
  simp only [opOf, wordS, bitsOf]; omega
theorem fsvc_wordS {v d a : Nat} (hv : v < 4096) (hd : d < 64) (ha : a < 64) : fsvc (wordS v d a) = v := by
  simp only [fsvc, wordS, bitsOf]; omega
theorem sd_wordS {v d a : Nat} (hd : d < 64) (ha : a < 64) : sd (wordS v d a) = d := by
  simp only [sd, wordS, bitsOf]; omega
theorem sa_wordS {v d a : Nat} (ha : a < 64) : sa (wordS v d a) = a := by
  simp only [sa, wordS, bitsOf]; omega

/-- An instruction that its word names and that does not fault gives its core a new state, and changes nothing else. -/
theorem runInstr_ok {a : App} {k w : Nat} {mine : Nat → Bool} {f : Nat → CtlCore → CoreStep} {c : CtlCore}
    (h : Executing a k w) (hk : opKnown (opOf w) = true) (hs : opOf w = 0x90 → svcKnown (fsvc w) = true) (hm : mine w = true)
    (hf : f w (a.core k).past = .ok c) : a.runInstr k mine f = a.onCore k fun _ => c := by
  obtain ⟨_, hb, hg, hi, hw⟩ := h
  have hn : (a.core k).item.isNone = false := by
    cases h : (a.core k).item with
    | none => rw [h] at hi; cases hi
    | some x => rfl
  have hsv : (opOf w == 0x90 && !svcKnown (fsvc w)) = false := by
    by_cases hop : opOf w = 0x90
    · simp [hop, hs hop]
    · simp [hop]
  unfold App.runInstr
  dsimp only
  rw [if_neg (by simp [hb, hg, hn]), hw]
  have hf' : f w { a.core k with pc := (a.core k).pc + 4 } = .ok c := hf
  simp [hk, hsv, hm, hf']

/-- An instruction that its word names and that faults gives its scan a fault. -/
theorem runInstr_fault {a : App} {k w sub : Nat} {mine : Nat → Bool} {f : Nat → CtlCore → CoreStep}
    (h : Executing a k w) (hk : opKnown (opOf w) = true) (hs : opOf w = 0x90 → svcKnown (fsvc w) = true) (hm : mine w = true)
    (hf : f w (a.core k).past = .error sub) : a.runInstr k mine f = a.scanFault k sub := by
  obtain ⟨_, hb, hg, hi, hw⟩ := h
  have hn : (a.core k).item.isNone = false := by
    cases h : (a.core k).item with
    | none => rw [h] at hi; cases hi
    | some x => rfl
  have hsv : (opOf w == 0x90 && !svcKnown (fsvc w)) = false := by
    by_cases hop : opOf w = 0x90
    · simp [hop, hs hop]
    · simp [hop]
  unfold App.runInstr
  dsimp only
  rw [if_neg (by simp [hb, hg, hn]), hw]
  have hf' : f w { a.core k with pc := (a.core k).pc + 4 } = .error sub := hf
  simp [hk, hsv, hm, hf']

@[simp] theorem reg_past (c : CtlCore) (i : Nat) : c.past.reg i = c.reg i := rfl

/-- A register whose tag is accepted is read. -/
theorem need_ok {c : CtlCore} {i : Nat} {tags : List Nat} (h : (c.reg i).tag ∈ tags) : c.need i tags = .ok (c.reg i) := by
  simp [CtlCore.need, h]

/-- Two registers of one accepted tag are read. -/
theorem need2_ok {c : CtlCore} {i j : Nat} {tags : List Nat} (h : (c.reg i).tag ∈ tags) (he : (c.reg j).tag = (c.reg i).tag) :
    c.need2 i j tags = .ok (c.reg i, c.reg j) := by
  simp [CtlCore.need2, need_ok h, need_ok (he ▸ h), he]

/-- A row of the control cores that executes its word with the outcome `c` gives that core's new state and nothing else. -/
theorem core_runs {i : Fin 8 → Instr} {mine : Nat → Bool} {f : App → Fin 8 → Nat → CtlCore → CoreStep}
    (he : ∀ k s, exec (i k) s = s.onApp fun a => a.runInstr k mine (f a k)) {s : State} {k : Fin 8} {w : Nat}
    (h : Executing s.app k w) (o : Nat) (ho : opOf w = o) (hk : opKnown o = true)
    (hs : o = 0x90 → svcKnown (fsvc w) = true) (hm : mine w = true) {c : CtlCore}
    (hf : f s.app k w (s.app.core k).past = .ok c) : exec (i k) s = .next (s.withCore k c) := by
  rw [he, State.onApp_live _ _ h.up]
  rw [runInstr_ok h (by rw [ho]; exact hk) (by rw [ho]; exact hs) hm hf]
  rfl

/-- A load whose address is in bounds (R378, R379). -/
theorem instrLdk_ok {mem : Mem} {w o p : Nat} {c : CtlCore} (ho : opOf w % 16 = o) (hp : instAddr (kindOf o).1 w c = .ok p) :
    instrLdk mem w c = .ok (c.put (fd w)
      (if (kindOf o).2.1 = 1 then
        (if ofLe ((upto (kindOf o).1).map (fun i => logByte c.log mem (p + i))) = 0 then 0 else 1)
       else if (kindOf o).2.2 then
        BitVec.ofInt 64 (asSigned (8 * (kindOf o).1) (ofLe ((upto (kindOf o).1).map (fun i => logByte c.log mem (p + i)))))
       else BitVec.ofNat 64 (ofLe ((upto (kindOf o).1).map (fun i => logByte c.log mem (p + i))))) (kindOf o).2.1) := by
  unfold instrLdk
  rw [ho]
  rcases hk : kindOf o with ⟨n, tag, sx⟩
  rw [hk] at hp
  simp only at hp
  dsimp only
  rw [hp]
  rfl

/-- A store whose register has the tag of its kind, whose address is in bounds and whose log has room (R378, R379, R381). -/
theorem instrStk_ok {limit w o p : Nat} {c : CtlCore} {st : List (Nat × Nat × W64)} (ho : opOf w % 16 = o)
    (hp : instAddr (kindOf o).1 w c = .ok p) (ht : (c.reg (fd w)).tag = (kindOf o).2.1)
    (hs : (upto (kindOf o).1).foldl (fun l i => logPut l (p + i) (BitVec.ofNat 8 ((c.reg (fd w)).v.toNat / 256 ^ i))) c.log.stores = st)
    (hl : ({ c.log with stores := st } : WriteLog).size ≤ limit) :
    instrStk limit w c = .ok { c with log := { c.log with stores := st } } := by
  unfold instrStk
  rw [ho]
  rcases hk : kindOf o with ⟨n, tag, sx⟩
  rw [hk] at hp ht hs
  simp only at hp ht hs
  have hm : (c.reg (fd w)).tag ∈ [tag] := by simp [ht]
  dsimp only
  rw [need_ok hm, hp]
  subst hs
  exact if_pos hl

end Sys2Proof.Machine
end

