-- ==== Sys2Proof/Laws/Memory.lean ====
section
/-! SUPPORT. Instance data and table spaces: what a read gives after a write, and the canonical form, which every write keeps. -/

namespace Sys2Proof.Machine

open Host

theorem Mem.get_drop_same (m : Mem) (o : Nat) : (m.drop o).get o = 0 := by
  induction m with
  | nil => rfl
  | cons x t ih =>
    obtain ⟨p, b⟩ := x
    by_cases h : p = o
    · subst h; simpa [Mem.drop] using ih
    · have : (p != o) = true := by simp [h]
      simp only [Mem.drop, List.filter_cons, this, if_true, Mem.get, if_neg h]
      exact ih

theorem Mem.get_drop_other (m : Mem) {o p : Nat} (h : o ≠ p) : (m.drop o).get p = m.get p := by
  induction m with
  | nil => rfl
  | cons x t ih =>
    obtain ⟨q, b⟩ := x
    by_cases hb : q = o
    · subst hb
      have : (q != q) = false := by simp
      simp only [Mem.drop, List.filter_cons, this, Mem.get, if_neg h]
      exact ih
    · have : (q != o) = true := by simp [hb]
      simp only [Mem.drop, List.filter_cons, this, if_true, Mem.get]
      rw [← ih]; rfl

theorem Mem.get_insert_same (m : Mem) (o : Nat) (b : Byte) : (m.insert o b).get o = b := by
  induction m with
  | nil => simp [Mem.insert, Mem.get]
  | cons x t ih =>
    obtain ⟨q, c⟩ := x
    simp only [Mem.insert]
    split
    · simp [Mem.get]
    · split
      · simp [Mem.get]
      · rename_i h
        simp [Mem.get, Ne.symm h, ih]

theorem Mem.get_insert_other (m : Mem) {o p : Nat} (b : Byte) (h : o ≠ p) : (m.insert o b).get p = m.get p := by
  induction m with
  | nil => simp [Mem.insert, Mem.get, h]
  | cons x t ih =>
    obtain ⟨q, c⟩ := x
    simp only [Mem.insert]
    split
    · simp [Mem.get, h]
    · split
      · rename_i hd; subst hd; simp [Mem.get, h]
      · simp [Mem.get, ih]

/-- A byte read after it is written. -/
theorem Mem.get_put_same (m : Mem) (o : Nat) (b : Byte) : (m.put o b).get o = b := by
  unfold Mem.put
  split
  · rename_i h; rw [m.get_drop_same, h]; rfl
  · exact m.get_insert_same o b

/-- A write leaves every other byte as it was. -/
theorem Mem.get_put_other (m : Mem) {o p : Nat} (b : Byte) (h : o ≠ p) : (m.put o b).get p = m.get p := by
  unfold Mem.put
  split
  · exact m.get_drop_other h
  · exact m.get_insert_other b h

theorem Mem.get_write_outside (m : Mem) (o : Nat) (bs : List Byte) (p : Nat) (h : p < o ∨ o + bs.length ≤ p) :
    (m.write o bs).get p = m.get p := by
  induction bs generalizing m o with
  | nil => rfl
  | cons b t ih =>
    simp only [List.length_cons] at h
    rw [Mem.write, ih _ _ (by omega), Mem.get_put_other _ _ (by omega)]

theorem Mem.get_write_inside (m : Mem) (o : Nat) (bs : List Byte) (i : Nat) (h : i < bs.length) :
    (m.write o bs).get (o + i) = bs.getD i 0 := by
  induction bs generalizing m o i with
  | nil => simp at h
  | cons b t ih =>
    rw [Mem.write]
    cases i with
    | zero => rw [Mem.get_write_outside _ _ _ _ (by omega), Nat.add_zero, Mem.get_put_same]; rfl
    | succ i =>
      rw [show o + (i + 1) = o + 1 + i by omega, ih _ _ _ (by simpa using h)]; rfl

/-! ### The canonical form -/

/-- Every listed offset is above a bound. -/
def Mem.above (o : Nat) (m : Mem) : Prop := ∀ x ∈ m, o < x.1

theorem Mem.rising_cons (x : Nat × Byte) (t : Mem) : Mem.rising (x :: t) = true ↔ Mem.above x.1 t ∧ Mem.rising t = true := by
  induction t generalizing x with
  | nil => simp [Mem.rising, Mem.above]
  | cons y t ih =>
    simp only [Mem.rising, Bool.and_eq_true, decide_eq_true_eq]
    constructor
    · rintro ⟨h1, h2⟩
      refine ⟨?_, h2⟩
      intro z hz
      rcases List.mem_cons.mp hz with rfl | hz
      · exact h1
      · exact lt_trans h1 (((ih y).mp h2).1 z hz)
    · rintro ⟨h1, h2⟩
      exact ⟨h1 y (List.mem_cons_self ..), h2⟩

theorem Mem.wf_cons (x : Nat × Byte) (t : Mem) : Mem.wf (x :: t) = true ↔ Mem.above x.1 t ∧ x.2 ≠ 0#8 ∧ Mem.wf t = true := by
  unfold Mem.wf
  rw [Bool.and_eq_true, Mem.rising_cons, Bool.and_eq_true, List.all_cons, Bool.and_eq_true]
  simp only [bne_iff_ne]
  tauto

theorem Mem.drop_wf (m : Mem) (o : Nat) (h : m.wf = true) : (m.drop o).wf = true := by
  induction m with
  | nil => rfl
  | cons x t ih =>
    obtain ⟨h1, h2, h3⟩ := (Mem.wf_cons x t).mp h
    by_cases hx : x.1 = o
    · have : (x.1 != o) = false := by simp [hx]
      simp only [Mem.drop, List.filter_cons, this]
      exact ih h3
    · have : (x.1 != o) = true := by simp [hx]
      simp only [Mem.drop, List.filter_cons, this, if_true]
      refine (Mem.wf_cons _ _).mpr ⟨?_, h2, ih h3⟩
      intro z hz
      exact h1 z (List.mem_filter.mp hz).1

theorem Mem.insert_mem (m : Mem) (o : Nat) (b : Byte) (z : Nat × Byte) (h : z ∈ m.insert o b) : z = (o, b) ∨ z ∈ m := by
  induction m with
  | nil => simpa [Mem.insert] using h
  | cons x t ih =>
    obtain ⟨c, w⟩ := x
    simp only [Mem.insert] at h
    split at h
    · simpa using h
    · split at h
      · rcases List.mem_cons.mp h with h | h
        · exact .inl h
        · exact .inr (List.mem_cons_of_mem _ h)
      · rcases List.mem_cons.mp h with h | h
        · exact .inr (h ▸ List.mem_cons_self ..)
        · rcases ih h with h | h
          · exact .inl h
          · exact .inr (List.mem_cons_of_mem _ h)

theorem Mem.insert_wf (m : Mem) (o : Nat) (b : Byte) (hb : b ≠ 0#8) (h : m.wf = true) : (m.insert o b).wf = true := by
  induction m with
  | nil => simp [Mem.insert, Mem.wf, Mem.rising, hb]
  | cons x t ih =>
    obtain ⟨h1, h2, h3⟩ := (Mem.wf_cons x t).mp h
    obtain ⟨c, w⟩ := x
    simp only [Mem.insert]
    split
    · rename_i ho
      refine (Mem.wf_cons _ _).mpr ⟨?_, hb, h⟩
      intro z hz
      rcases List.mem_cons.mp hz with rfl | hz
      · exact ho
      · exact lt_trans ho (h1 z hz)
    · split
      · rename_i ho; subst ho
        exact (Mem.wf_cons _ _).mpr ⟨h1, hb, h3⟩
      · rename_i ho hc
        refine (Mem.wf_cons _ _).mpr ⟨?_, h2, ih h3⟩
        intro z hz
        rcases Mem.insert_mem _ _ _ _ hz with rfl | hz
        · show c < o
          omega
        · exact h1 z hz

/-- Every write keeps the canonical form. -/
theorem Mem.put_wf (m : Mem) (o : Nat) (b : Byte) (h : m.wf = true) : (m.put o b).wf = true := by
  unfold Mem.put
  split
  · exact m.drop_wf o h
  · exact m.insert_wf o b ‹_› h

theorem Mem.write_wf (m : Mem) (o : Nat) (bs : List Byte) (h : m.wf = true) : (m.write o bs).wf = true := by
  induction bs generalizing m o with
  | nil => exact h
  | cons b t ih => exact ih _ _ (m.put_wf o b h)

/-! ### Table spaces (R528, R563) -/

theorem Tbl.get_drop_same (m : Tbl) (o : Nat) : (m.drop o).get o = 0 := by
  induction m with
  | nil => rfl
  | cons x t ih =>
    obtain ⟨p, b⟩ := x
    by_cases h : p = o
    · subst h; simpa [Tbl.drop] using ih
    · have : (p != o) = true := by simp [h]
      simp only [Tbl.drop, List.filter_cons, this, if_true, Tbl.get, if_neg h]
      exact ih

theorem Tbl.get_drop_other (m : Tbl) {o p : Nat} (h : o ≠ p) : (m.drop o).get p = m.get p := by
  induction m with
  | nil => rfl
  | cons x t ih =>
    obtain ⟨q, b⟩ := x
    by_cases hb : q = o
    · subst hb
      have : (q != q) = false := by simp
      simp only [Tbl.drop, List.filter_cons, this, Tbl.get, if_neg h]
      exact ih
    · have : (q != o) = true := by simp [hb]
      simp only [Tbl.drop, List.filter_cons, this, if_true, Tbl.get]
      rw [← ih]; rfl

theorem Tbl.get_insert_same (m : Tbl) (o : Nat) (b : Nat) : (m.insert o b).get o = b := by
  induction m with
  | nil => simp [Tbl.insert, Tbl.get]
  | cons x t ih =>
    obtain ⟨q, c⟩ := x
    simp only [Tbl.insert]
    split
    · simp [Tbl.get]
    · split
      · simp [Tbl.get]
      · rename_i h
        simp [Tbl.get, Ne.symm h, ih]

theorem Tbl.get_insert_other (m : Tbl) {o p : Nat} (b : Nat) (h : o ≠ p) : (m.insert o b).get p = m.get p := by
  induction m with
  | nil => simp [Tbl.insert, Tbl.get, h]
  | cons x t ih =>
    obtain ⟨q, c⟩ := x
    simp only [Tbl.insert]
    split
    · simp [Tbl.get, h]
    · split
      · rename_i hd; subst hd; simp [Tbl.get, h]
      · simp [Tbl.get, ih]

/-- A word of a table space read after it is written. -/
theorem Tbl.get_put_same (m : Tbl) (o : Nat) (b : Nat) : (m.put o b).get o = b := by
  unfold Tbl.put
  split
  · rename_i h; rw [m.get_drop_same, h]
  · exact m.get_insert_same o b

/-- A write leaves every other word as it was. -/
theorem Tbl.get_put_other (m : Tbl) {o p : Nat} (b : Nat) (h : o ≠ p) : (m.put o b).get p = m.get p := by
  unfold Tbl.put
  split
  · exact m.get_drop_other h
  · exact m.get_insert_other b h

/-- Every listed address is above a bound. -/
def Tbl.above (o : Nat) (m : Tbl) : Prop := ∀ x ∈ m, o < x.1

theorem Tbl.rising_cons (x : Nat × Nat) (t : Tbl) : Tbl.rising (x :: t) = true ↔ Tbl.above x.1 t ∧ Tbl.rising t = true := by
  induction t generalizing x with
  | nil => simp [Tbl.rising, Tbl.above]
  | cons y t ih =>
    simp only [Tbl.rising, Bool.and_eq_true, decide_eq_true_eq]
    constructor
    · rintro ⟨h1, h2⟩
      refine ⟨?_, h2⟩
      intro z hz
      rcases List.mem_cons.mp hz with rfl | hz
      · exact h1
      · exact lt_trans h1 (((ih y).mp h2).1 z hz)
    · rintro ⟨h1, h2⟩
      exact ⟨h1 y (List.mem_cons_self ..), h2⟩

theorem Tbl.wf_cons (x : Nat × Nat) (t : Tbl) : Tbl.wf (x :: t) = true ↔ Tbl.above x.1 t ∧ x.2 ≠ 0 ∧ Tbl.wf t = true := by
  unfold Tbl.wf
  rw [Bool.and_eq_true, Tbl.rising_cons, Bool.and_eq_true, List.all_cons, Bool.and_eq_true]
  simp only [bne_iff_ne]
  tauto

theorem Tbl.drop_wf (m : Tbl) (o : Nat) (h : m.wf = true) : (m.drop o).wf = true := by
  induction m with
  | nil => rfl
  | cons x t ih =>
    obtain ⟨h1, h2, h3⟩ := (Tbl.wf_cons x t).mp h
    by_cases hx : x.1 = o
    · have : (x.1 != o) = false := by simp [hx]
      simp only [Tbl.drop, List.filter_cons, this]
      exact ih h3
    · have : (x.1 != o) = true := by simp [hx]
      simp only [Tbl.drop, List.filter_cons, this, if_true]
      refine (Tbl.wf_cons _ _).mpr ⟨?_, h2, ih h3⟩
      intro z hz
      exact h1 z (List.mem_filter.mp hz).1

theorem Tbl.insert_mem (m : Tbl) (o : Nat) (b : Nat) (z : Nat × Nat) (h : z ∈ m.insert o b) : z = (o, b) ∨ z ∈ m := by
  induction m with
  | nil => simpa [Tbl.insert] using h
  | cons x t ih =>
    obtain ⟨c, w⟩ := x
    simp only [Tbl.insert] at h
    split at h
    · simpa using h
    · split at h
      · rcases List.mem_cons.mp h with h | h
        · exact .inl h
        · exact .inr (List.mem_cons_of_mem _ h)
      · rcases List.mem_cons.mp h with h | h
        · exact .inr (h ▸ List.mem_cons_self ..)
        · rcases ih h with h | h
          · exact .inl h
          · exact .inr (List.mem_cons_of_mem _ h)

theorem Tbl.insert_wf (m : Tbl) (o : Nat) (b : Nat) (hb : b ≠ 0) (h : m.wf = true) : (m.insert o b).wf = true := by
  induction m with
  | nil => simp [Tbl.insert, Tbl.wf, Tbl.rising, hb]
  | cons x t ih =>
    obtain ⟨h1, h2, h3⟩ := (Tbl.wf_cons x t).mp h
    obtain ⟨c, w⟩ := x
    simp only [Tbl.insert]
    split
    · rename_i ho
      refine (Tbl.wf_cons _ _).mpr ⟨?_, hb, h⟩
      intro z hz
      rcases List.mem_cons.mp hz with rfl | hz
      · exact ho
      · exact lt_trans ho (h1 z hz)
    · split
      · rename_i ho; subst ho
        exact (Tbl.wf_cons _ _).mpr ⟨h1, hb, h3⟩
      · rename_i ho hc
        refine (Tbl.wf_cons _ _).mpr ⟨?_, h2, ih h3⟩
        intro z hz
        rcases Tbl.insert_mem _ _ _ _ hz with rfl | hz
        · show c < o
          omega
        · exact h1 z hz

/-- Every write keeps the canonical form. -/
theorem Tbl.put_wf (m : Tbl) (o : Nat) (b : Nat) (h : m.wf = true) : (m.put o b).wf = true := by
  unfold Tbl.put
  split
  · exact m.drop_wf o h
  · exact m.insert_wf o b ‹_› h

end Sys2Proof.Machine
end

