-- ==== Sys2Proof/Laws/Regs.lean ====
section
/-! SUPPORT. Reading after writing: indexed parts and the register file, and the canonical form of the register file. -/

namespace Sys2Proof.Machine

open Host

/-! ### Indexed parts -/

theorem vat_eq {α : Type} {n : Nat} [Inhabited α] (v : Vector α n) {i : Nat} (h : i < n) : vat v i = v[i] := by simp [vat, h]

@[simp] theorem vat_vup_same {α : Type} {n : Nat} [Inhabited α] (v : Vector α n) {i : Nat} (f : α → α) (h : i < n) :
    vat (vup v i f) i = f (vat v i) := by simp [vat, vup, h]

@[simp] theorem vat_vup_other {α : Type} {n : Nat} [Inhabited α] (v : Vector α n) {i j : Nat} (f : α → α) (h : i ≠ j) :
    vat (vup v i f) j = vat v j := by
  by_cases hi : i < n
  · by_cases hj : j < n
    · simp [vat, vup, hi, hj, Vector.getElem_set_ne hi hj h]
    · simp [vat, hj]
  · simp [vup, hi]

@[simp] theorem vat_vput_same {α : Type} {n : Nat} [Inhabited α] (v : Vector α n) {i : Nat} (x : α) (h : i < n) : vat (vput v i x) i = x := by
  simp [vput, h]

@[simp] theorem vat_vput_other {α : Type} {n : Nat} [Inhabited α] (v : Vector α n) {i j : Nat} (x : α) (h : i ≠ j) :
    vat (vput v i x) j = vat v j := by simp [vput, h]

/-! ### The register file -/

theorem RegFile.get_drop_same (r : RegFile) (b : Nat) : (r.drop b).get b = fieldReset b := by
  induction r with
  | nil => rfl
  | cons x t ih =>
    obtain ⟨c, v⟩ := x
    by_cases h : b = c
    · subst h; simpa [RegFile.drop] using ih
    · have : (c != b) = true := by simp [Ne.symm h]
      simp only [RegFile.drop, List.filter_cons, this, if_true, RegFile.get, if_neg h]
      exact ih

theorem RegFile.get_drop_other (r : RegFile) {b c : Nat} (h : b ≠ c) : (r.drop b).get c = r.get c := by
  induction r with
  | nil => rfl
  | cons x t ih =>
    obtain ⟨d, v⟩ := x
    by_cases hb : d = b
    · subst hb
      have : (d != d) = false := by simp
      simp only [RegFile.drop, List.filter_cons, this, RegFile.get, if_neg (Ne.symm h)]
      exact ih
    · have : (d != b) = true := by simp [hb]
      simp only [RegFile.drop, List.filter_cons, this, if_true, RegFile.get]
      rw [← ih]; rfl

theorem RegFile.get_insert_same (r : RegFile) (b v : Nat) : (r.insert b v).get b = v := by
  induction r with
  | nil => simp [RegFile.insert, RegFile.get]
  | cons x t ih =>
    obtain ⟨d, w⟩ := x
    simp only [RegFile.insert]
    split
    · simp [RegFile.get]
    · split
      · simp [RegFile.get]
      · rename_i h
        simp [RegFile.get, h, ih]

theorem RegFile.get_insert_other (r : RegFile) {b c : Nat} (v : Nat) (h : b ≠ c) : (r.insert b v).get c = r.get c := by
  induction r with
  | nil => simp [RegFile.insert, RegFile.get, Ne.symm h]
  | cons x t ih =>
    obtain ⟨d, w⟩ := x
    simp only [RegFile.insert]
    split
    · simp [RegFile.get, Ne.symm h]
    · split
      · rename_i hd; subst hd; simp [RegFile.get, Ne.symm h]
      · simp [RegFile.get, ih]

/-- A field read after it is written gives the value written (R16). -/
theorem RegFile.get_set_same (r : RegFile) (b v : Nat) : (r.set b v).get b = v := by
  unfold RegFile.set
  split
  · rename_i h; rw [r.get_drop_same, h]
  · exact r.get_insert_same b v

/-- A write of one field leaves every other as it was. -/
theorem RegFile.get_set_other (r : RegFile) {b c : Nat} (v : Nat) (h : b ≠ c) : (r.set b v).get c = r.get c := by
  unfold RegFile.set
  split
  · exact r.get_drop_other h
  · exact r.get_insert_other v h

@[simp] theorem get_set_same (a : App) (f : Fld) (v : Nat) : (a.set f v).get f = v % 2 ^ f.w := RegFile.get_set_same _ _ _

theorem get_set_other (a : App) {f g : Fld} (v : Nat) (h : f.bit ≠ g.bit) : (a.set f v).get g = a.get g := RegFile.get_set_other _ _ h

theorem get_of_regs {a b : App} (h : a.regs = b.regs) (f : Fld) : a.get f = b.get f := by unfold App.get; rw [h]

/-- A record of the event recorder changes only its two counters. -/
theorem record_get (a : App) (c p q r t : Nat) {f : Fld} (h1 : f.bit ≠ Reg.EVR_TOTAL_n.bit) (h2 : f.bit ≠ Reg.EVR_OVW_overwritten.bit) :
    (a.record c p q r t).get f = a.get f := by
  unfold App.record
  dsimp only
  rw [get_set_other _ _ (Ne.symm h2), get_set_other _ _ (Ne.symm h1)]
  rfl

theorem anchor_get (a : App) (r : Nat) {f : Fld} (h1 : f.bit ≠ Reg.EVR_TOTAL_n.bit) (h2 : f.bit ≠ Reg.EVR_OVW_overwritten.bit) :
    (a.anchor r).get f = a.get f := by
  unfold App.anchor
  split
  · rfl
  · dsimp only
    rw [record_get _ _ _ _ _ _ h1 h2]
    rfl

/-! ### The canonical form -/

/-- Every listed bit address is above a bound. -/
def RegFile.above (b : Nat) (r : RegFile) : Prop := ∀ x ∈ r, b < x.1

theorem RegFile.rising_cons (x : Nat × Nat) (t : RegFile) : RegFile.rising (x :: t) = true ↔ RegFile.above x.1 t ∧ RegFile.rising t = true := by
  induction t generalizing x with
  | nil => simp [RegFile.rising, RegFile.above]
  | cons y t ih =>
    simp only [RegFile.rising, Bool.and_eq_true, decide_eq_true_eq]
    constructor
    · rintro ⟨h1, h2⟩
      refine ⟨?_, h2⟩
      intro z hz
      rcases List.mem_cons.mp hz with rfl | hz
      · exact h1
      · exact lt_trans h1 (((ih y).mp h2).1 z hz)
    · rintro ⟨h1, h2⟩
      exact ⟨h1 y (List.mem_cons_self ..), h2⟩

theorem RegFile.wf_cons (x : Nat × Nat) (t : RegFile) :
    RegFile.wf (x :: t) = true ↔ RegFile.above x.1 t ∧ x.2 ≠ fieldReset x.1 ∧ RegFile.wf t = true := by
  unfold RegFile.wf
  rw [Bool.and_eq_true, RegFile.rising_cons, Bool.and_eq_true, List.all_cons, Bool.and_eq_true]
  simp only [bne_iff_ne]
  tauto

theorem RegFile.drop_wf (r : RegFile) (b : Nat) (h : r.wf = true) : (r.drop b).wf = true := by
  induction r with
  | nil => rfl
  | cons x t ih =>
    obtain ⟨h1, h2, h3⟩ := (RegFile.wf_cons x t).mp h
    by_cases hx : x.1 = b
    · have : (x.1 != b) = false := by simp [hx]
      simp only [RegFile.drop, List.filter_cons, this]
      exact ih h3
    · have : (x.1 != b) = true := by simp [hx]
      simp only [RegFile.drop, List.filter_cons, this, if_true]
      refine (RegFile.wf_cons _ _).mpr ⟨?_, h2, ih h3⟩
      intro z hz
      exact h1 z (List.mem_filter.mp hz).1

theorem RegFile.insert_mem (r : RegFile) (b v : Nat) (z : Nat × Nat) (h : z ∈ r.insert b v) : z = (b, v) ∨ z ∈ r := by
  induction r with
  | nil => simpa [RegFile.insert] using h
  | cons x t ih =>
    obtain ⟨c, w⟩ := x
    simp only [RegFile.insert] at h
    split at h
    · simpa using h
    · split at h
      · rcases List.mem_cons.mp h with h | h
        · exact .inl h
        · exact .inr (List.mem_cons_of_mem _ h)
      · rcases List.mem_cons.mp h with h | h
        · exact .inr (h ▸ List.mem_cons_self ..)
        · rcases ih h with h | h
          · exact .inl h
          · exact .inr (List.mem_cons_of_mem _ h)

theorem RegFile.insert_wf (r : RegFile) (b v : Nat) (hv : v ≠ fieldReset b) (h : r.wf = true) : (r.insert b v).wf = true := by
  induction r with
  | nil => simp [RegFile.insert, RegFile.wf, RegFile.rising, hv]
  | cons x t ih =>
    obtain ⟨h1, h2, h3⟩ := (RegFile.wf_cons x t).mp h
    obtain ⟨c, w⟩ := x
    simp only [RegFile.insert]
    split
    · rename_i hb
      refine (RegFile.wf_cons _ _).mpr ⟨?_, hv, h⟩
      intro z hz
      rcases List.mem_cons.mp hz with rfl | hz
      · exact hb
      · exact lt_trans hb (h1 z hz)
    · split
      · rename_i hb; subst hb
        exact (RegFile.wf_cons _ _).mpr ⟨h1, hv, h3⟩
      · rename_i hb hc
        refine (RegFile.wf_cons _ _).mpr ⟨?_, h2, ih h3⟩
        intro z hz
        rcases RegFile.insert_mem _ _ _ _ hz with rfl | hz
        · show c < b
          omega
        · exact h1 z hz

/-- A write keeps the canonical form. -/
theorem RegFile.set_wf (r : RegFile) (b v : Nat) (h : r.wf = true) : (r.set b v).wf = true := by
  unfold RegFile.set
  split
  · exact r.drop_wf b h
  · exact r.insert_wf b v ‹_› h

theorem set_wf (a : App) (f : Fld) (v : Nat) (h : a.regs.wf = true) : (a.set f v).regs.wf = true := RegFile.set_wf _ _ _ h

end Sys2Proof.Machine
end

