-- ==== Sys2Proof/Laws/Signal.lean ====
section
/-! SUPPORT. What the signal paths, the resampler and the trackers of the angle clocks change as they take a modulator edge
(R75 to R106, R150 to R178, R294). -/

namespace Sys2Proof.Machine

open Host

/-- `b` differs from `a` at most in the parts that an edge reaches, and in the register fields that it may set. -/
structure App.Measured (a b : App) : Prop where
  rest : b.still = a.still
  regs : ∀ f : Fld, f.bit ∉ edgeFields → b.get f = a.get f

theorem Measured_refl (a : App) : a.Measured a := ⟨rfl, fun _ _ => rfl⟩

theorem Measured_trans {a b c : App} (h : a.Measured b) (k : b.Measured c) : a.Measured c :=
  ⟨k.rest.trans h.rest, fun f hf => (k.regs f hf).trans (h.regs f hf)⟩

theorem Measured_ite {a b c : App} (p : Prop) [Decidable p] (h : a.Measured b) (k : a.Measured c) : a.Measured (if p then b else c) := by
  split
  · exact h
  · exact k

theorem Measured_back (a : App) (f : SigSt → SigSt) : (a.onSig f).Measured a := ⟨rfl, fun _ _ => rfl⟩

theorem Measured_onSig (a : App) (f : SigSt → SigSt) : a.Measured (a.onSig f) := ⟨rfl, fun _ _ => rfl⟩

theorem App.Measured.on {a b : App} (h : a.Measured b) {f : Fld} (hf : f.bit ∉ edgeFields) : b.on f = a.on f := by
  unfold App.on; rw [h.regs f hf]

theorem sub_not_edge {b : Nat} (h : b < 4) : (Reg.SLU_BAY_sub_active b).bit ∉ edgeFields := by
  obtain rfl | rfl | rfl | rfl : b = 0 ∨ b = 1 ∨ b = 2 ∨ b = 3 := by omega
  all_goals decide

/-! ### What the later stages of an edge leave of the earlier ones (R150, R160, R208, R294) -/

/-- `b` has the filters and the Jet ring of `a`, and its Pool words but for those of substituted bays. -/
structure App.SameWords (a b : App) : Prop where
  meas : a.Measured b
  slices : b.sig.slices = a.sig.slices
  jetCount : b.sig.jetCount = a.sig.jetCount
  ring : b.sig.ring = a.sig.ring
  rows : ∀ g : Nat → Bool, (∀ n, n < 4 → a.isSub n = true → g n = true) → b.sig.rows.map (PoolRow.without g) = a.sig.rows.map (PoolRow.without g)

theorem App.SameWords.isSub {a b : App} (h : a.SameWords b) {n : Nat} (hn : n < 4) : b.isSub n = a.isSub n := by
  unfold App.isSub; exact h.meas.on (sub_not_edge hn)

theorem SameWords_refl (a : App) : a.SameWords a := ⟨Measured_refl a, rfl, rfl, rfl, fun _ _ => rfl⟩

theorem SameWords_trans {a b c : App} (h : a.SameWords b) (k : b.SameWords c) : a.SameWords c :=
  ⟨Measured_trans h.meas k.meas, k.slices.trans h.slices, k.jetCount.trans h.jetCount, k.ring.trans h.ring,
   fun g hg => (k.rows g (fun n hn hs => hg n hn (by rw [← h.isSub hn]; exact hs))).trans (h.rows g hg)⟩

theorem SameWords_ite {a b c : App} (p : Prop) [Decidable p] (h : a.SameWords b) (k : a.SameWords c) : a.SameWords (if p then b else c) := by
  split
  · exact h
  · exact k

/-- A fold over steps each of which keeps the words, from states that meet `P`, which these steps keep. -/
theorem SameWords_foldP {α : Type} (P : App → Prop) (f : App → α → App) (l : List α) (h : ∀ (a : App) (x : α), x ∈ l → P a → a.SameWords (f a x))
    (keep : ∀ a b : App, a.SameWords b → P a → P b) (a : App) (ha : P a) : a.SameWords (l.foldl f a) := by
  induction l generalizing a with
  | nil => exact SameWords_refl a
  | cons x l ih =>
    have h1 := h a x List.mem_cons_self ha
    exact SameWords_trans h1 (ih (fun a y hy => h a y (List.mem_cons_of_mem _ hy)) _ (keep _ _ h1 ha))

theorem SameWords_fold {α : Type} (f : App → α → App) (l : List α) (h : ∀ (a : App) (x : α), x ∈ l → a.SameWords (f a x)) (a : App) :
    a.SameWords (l.foldl f a) :=
  SameWords_foldP (fun _ => True) f l (fun a x hx _ => h a x hx) (fun _ _ _ _ => trivial) a trivial

/-- An update of a part that an edge reaches beside the signal paths and the registers. -/
theorem SameWords_other {a b : App} (hr : b.still = a.still) (hg : b.regs = a.regs) (hs : b.sig = a.sig) : a.SameWords b :=
  ⟨⟨hr, fun f _ => by unfold App.get; rw [hg]⟩, by rw [hs], by rw [hs], by rw [hs], fun _ _ => by rw [hs]⟩

theorem SameWords_onSig (a : App) (f : SigSt → SigSt) (h1 : (f a.sig).slices = a.sig.slices) (h2 : (f a.sig).jetCount = a.sig.jetCount)
    (h3 : (f a.sig).ring = a.sig.ring) (h4 : (f a.sig).rows = a.sig.rows) : a.SameWords (a.onSig f) :=
  ⟨Measured_onSig a f, h1, h2, h3, fun _ _ => congrArg _ h4⟩

theorem SameWords_set (a : App) (x : Fld) (v : Nat) (hx : x.bit ∈ edgeFields) : a.SameWords (a.set x v) :=
  ⟨⟨rfl, fun f hf => get_set_other a v (fun e => hf (by rw [← e]; exact hx))⟩, rfl, rfl, rfl, fun _ _ => rfl⟩

theorem SameWords_onClk (a : App) (n : Nat) (f : Clock → Clock) : a.SameWords (a.onClk n f) := SameWords_other rfl rfl rfl
theorem SameWords_onBay (a : App) (n : Nat) (f : AnaBay → AnaBay) : a.SameWords (a.onBay n f) := SameWords_other rfl rfl rfl
theorem SameWords_onSlu (a : App) (f : SluSt → SluSt) : a.SameWords (a.onSlu f) := SameWords_other rfl rfl rfl
theorem SameWords_access (a : App) (m : Master) (p : Memory) (n : Nat) : a.SameWords (a.access m p n) := SameWords_other rfl rfl rfl
theorem SameWords_onEng (a : App) (e b : Nat) (f : EngBay → EngBay) : a.SameWords (a.onEng e b f) := SameWords_other rfl rfl rfl
theorem SameWords_noteUnlock (a : App) (n : Nat) : a.SameWords (a.noteUnlock n) := SameWords_other rfl rfl rfl
theorem SameWords_ctxs (a : App) (x : Vector HostCtx 8) : a.SameWords { a with ctxs := x } := SameWords_other rfl rfl rfl
theorem SameWords_postState (a : App) (c i o n p : Nat) : a.SameWords (a.postState c i o n p) :=
  (postState_eq a c i o n p).symm ▸ SameWords_ctxs a (a.postState c i o n p).ctxs

theorem SameWords_raise (a : App) (x : Fld) (hx : x.bit ∈ edgeFields) : a.SameWords (a.raise x) := by
  unfold App.raise App.setB
  exact SameWords_trans (SameWords_set a x _ hx) (SameWords_other rfl rfl rfl)

theorem SameWords_satAdd (a : App) (x : Fld) (v : Nat) (hx : x.bit ∈ edgeFields) : a.SameWords (a.satAdd x v) := by
  unfold App.satAdd
  exact SameWords_set a x _ hx

theorem SameWords_record (a : App) (c p q r t : Nat) : a.SameWords (a.record c p q r t) := by
  unfold App.record
  dsimp only
  refine SameWords_trans ?_ (SameWords_set _ Reg.EVR_OVW_overwritten _ (by decide))
  refine SameWords_trans ?_ (SameWords_set _ Reg.EVR_TOTAL_n _ (by decide))
  exact SameWords_other rfl rfl rfl

/-! ### The tracker of an angle clock (R84 to R97) -/

theorem setClk_words (a : App) (n : Nat) (st : ClkState) : a.SameWords (a.setClk n st) := by
  unfold App.setClk
  dsimp only
  refine SameWords_ite _ (SameWords_refl a) ?_
  exact SameWords_trans (SameWords_trans (SameWords_onClk a n _) (SameWords_ite _ (SameWords_noteUnlock _ n) (SameWords_refl _)))
    (SameWords_postState _ _ _ _ _ _)

theorem freeze_words (a : App) (n : Nat) : a.SameWords (a.freeze n) := by
  unfold App.freeze
  exact SameWords_ite _ (SameWords_trans (SameWords_onClk a n _) (setClk_words _ n _)) (SameWords_refl a)

theorem acquire_words (a : App) (n : Nat) : a.SameWords (a.acquire n) := by
  unfold App.acquire
  exact SameWords_trans (setClk_words a n _) (SameWords_onClk _ n _)

theorem switchRef_words (a : App) (n : Nat) (st : ClkState) (r : Nat) : a.SameWords (a.switchRef n st r) := by
  unfold App.switchRef
  exact SameWords_trans (setClk_words a n _) (SameWords_onClk _ n _)

theorem ang_edge {n : Nat} (h : n < 4) : (Reg.ANG_CMP_CTL_late n 0).bit ∈ edgeFields ∧ (Reg.ANG_CMP_CTL_skipped n 0).bit ∈ edgeFields ∧
    (Reg.ANG_CMP_TGT_tgt n 0).bit ∈ edgeFields := by
  obtain rfl | rfl | rfl | rfl : n = 0 ∨ n = 1 ∨ n = 2 ∨ n = 3 := by omega
  all_goals decide

theorem markAngle_words (a : App) {n : Nat} (hn : n < 4) (old d : Nat) : a.SameWords (a.markAngle n old d) := by
  obtain ⟨h1, h2, h3⟩ := ang_edge hn
  unfold App.markAngle
  dsimp only
  have hf : a.SameWords ((upto 8).foldl (fun a u =>
      let ahead := (a.angTarget n u + 2 ^ 48 - old) % 2 ^ 48
      if u ≠ 0 ∧ a.on (Reg.ANG_CMP_CTL_en n u) ∧ vat (vat a.clk n).served u = false ∧ 0 < ahead ∧ ahead ≤ d then
        a.onClk n fun c => { c with lateReq := vput c.lateReq u (some a.sig.periods) }
      else a) a) :=
    SameWords_fold _ _ (fun a u _ => SameWords_ite _ (SameWords_onClk a n _) (SameWords_refl a)) a
  refine SameWords_ite _ hf (SameWords_trans hf ?_)
  refine SameWords_trans ?_ (SameWords_onClk _ n _)
  exact SameWords_trans (SameWords_trans (SameWords_raise _ _ h1) (SameWords_satAdd _ _ _ h2)) (SameWords_set _ _ _ h3)

theorem coarseAlign_words (a : App) {n : Nat} (hn : n < 4) : a.SameWords (a.coarseAlign n) := by
  unfold App.coarseAlign
  exact SameWords_trans (SameWords_trans (SameWords_onClk a n _) (SameWords_record _ _ _ _ _ _)) (markAngle_words _ hn _ _)

theorem clkRows_words (a : App) {n : Nat} (hn : n < 4) : a.SameWords (a.clkRows n) := by
  have r := SameWords_refl a
  have f := freeze_words a n
  have q := acquire_words a n
  have s := fun st => setClk_words a n st
  have w := fun st k => switchRef_words a n st k
  unfold App.clkRows
  dsimp only
  split
  · exact r
  · exact r
  · exact SameWords_ite _ f (SameWords_ite _ r (SameWords_ite _ (w _ _) (s _)))
  · exact SameWords_ite _ f (SameWords_ite _ r (SameWords_ite _ (SameWords_ite _ (w _ _) (w _ _)) (s _)))
  · exact SameWords_ite _ f (SameWords_ite _ r (SameWords_ite _ (SameWords_ite _ (w _ _) (w _ _)) (s _)))
  · exact SameWords_ite _ (SameWords_ite _ q (SameWords_trans (coarseAlign_words a hn) (acquire_words _ n))) r
  · exact SameWords_ite _ q r

theorem tracker_words (a : App) {n : Nat} (hn : n < 4) : a.SameWords (a.tracker n) := by
  unfold App.tracker
  dsimp only
  refine SameWords_trans ?_ (SameWords_onClk _ n _)
  have h1 : a.SameWords (a.clkMeasure n) := by unfold App.clkMeasure; exact SameWords_onClk a n _
  refine SameWords_trans (SameWords_trans h1 (clkRows_words _ hn)) ?_
  generalize (a.clkMeasure n).clkRows n = b
  exact SameWords_trans (b := b.clkSteer n _) (by unfold App.clkSteer; exact SameWords_onClk b n _) (by unfold App.clkCount; exact SameWords_onClk _ n _)

/-! ### The resampler (R166 to R170, R177) -/

theorem sluiceTick_words (a : App) {b : Nat} (hb : b < 4) (no : Nat) (win : List ResSample) (last : AngInst) :
    a.SameWords (a.sluiceTick b no win last) := by
  unfold App.sluiceTick
  dsimp only
  refine SameWords_trans ?_ (tracker_words _ hb)
  refine SameWords_trans ?_ (SameWords_access _ _ _ _)
  refine SameWords_trans ?_ (SameWords_onClk _ b _)
  refine SameWords_trans ?_ (SameWords_onSlu _ _)
  exact SameWords_fold _ _ (fun a e _ => SameWords_ite _ (SameWords_onEng a e b _) (SameWords_refl a)) a

theorem pumpOne_words (a : App) {b : Nat} (hb : b < 4) : a.SameWords (a.pumpOne b) := by
  unfold App.pumpOne
  dsimp only
  refine SameWords_ite _ (SameWords_refl a) ?_
  split
  · exact sluiceTick_words a hb _ _ _
  · exact SameWords_ite _ (SameWords_onClk a b _) (SameWords_refl a)

theorem resample_words (a : App) {b : Nat} (hb : b < 4) : a.SameWords (a.resample b) := by
  unfold App.resample
  dsimp only
  refine SameWords_ite _ (SameWords_refl a) ?_
  refine SameWords_trans (b := List.foldl (fun a i => a.takeInst b i)
    (a.onClk b fun c => { c with insts := c.insts.filter (fun i => !a.instReady b i) }) ((vat a.clk b).insts.filter (a.instReady b))) ?_ ?_
  · refine SameWords_trans (SameWords_onClk a b _) (SameWords_fold _ _ (fun a i _ => ?_) _)
    unfold App.takeInst
    exact SameWords_trans (SameWords_onBay a b _) (SameWords_onClk _ b _)
  · unfold App.tickPump
    exact SameWords_fold _ _ (fun a _ _ => pumpOne_words a hb) _

/-! ### The channels of a bay (R153 to R161, R208) -/

theorem intRestart_words (a : App) (b c : Nat) : a.SameWords (a.intRestart b c) := by
  have h : Reg.DEC_SETTLE_int_settle.bit ∈ edgeFields := by decide
  unfold App.intRestart
  dsimp only
  refine SameWords_ite _ ?_ (SameWords_set a _ _ h)
  exact SameWords_trans (SameWords_trans (SameWords_set a _ _ h) (SameWords_onBay _ b _)) (SameWords_onSig _ _ rfl rfl rfl rfl)

theorem chanTake_words (a : App) (i k : Nat) (x : Int) (m o : Bool) (q : Nat) : a.SameWords (a.chanTake i k x m o q) := by
  unfold App.chanTake
  dsimp only
  exact SameWords_trans (SameWords_ite _ (intRestart_words a _ _) (SameWords_refl a)) (SameWords_onSig _ _ rfl rfl rfl rfl)

theorem ownBeside_words (a : App) (raw : Nat → Int) (k i : Nat) : a.SameWords (a.ownBeside raw k i) := by
  unfold App.ownBeside
  dsimp only
  exact SameWords_trans (SameWords_ite _ (SameWords_onSig _ _ rfl rfl rfl rfl) (SameWords_refl a)) (SameWords_onSig _ _ rfl rfl rfl rfl)

theorem histTake_words (a : App) {b : Nat} (hb : b < 4) (p : Nat) : a.SameWords (a.histTake b p) := by
  unfold App.histTake
  exact SameWords_trans (SameWords_onSig _ _ rfl rfl rfl rfl) (resample_words _ hb)

theorem trigPut_words (a : App) (u t q c : Nat) (r : TrigTrack × Option Nat) : a.SameWords (a.trigPut u t q c r) := by
  unfold App.trigPut
  exact SameWords_onSig _ _ rfl rfl rfl rfl

theorem trigPattern_words (a : App) (r : PoolRow) (u : Nat) : a.SameWords (a.trigPattern r u) := by
  unfold App.trigPattern
  exact SameWords_ite _ (trigPut_words a u _ _ _ _) (SameWords_onSig _ _ rfl rfl rfl rfl)

theorem trigAnalog_words (a : App) (r : PoolRow) (u : Nat) : a.SameWords (a.trigAnalog r u) := by
  unfold App.trigAnalog App.trigSee
  exact SameWords_ite _ (SameWords_onSig _ _ rfl rfl rfl rfl) (trigPut_words a u _ _ _ _)

theorem trigWords_words (a : App) (r : PoolRow) (has : Nat → Bool) (w : Bool) : a.SameWords (a.trigWords r has w) := by
  unfold App.trigWords
  refine SameWords_fold _ _ (fun a u _ => ?_) a
  split
  · exact SameWords_refl a
  split
  · split
    · exact trigPattern_words a r u
    · exact SameWords_refl a
  split
  · exact SameWords_refl a
  · exact trigAnalog_words a r u

theorem fastTake_words (a : App) (r : PoolRow) (b : Nat) : a.SameWords (a.fastTake r b) := by
  unfold App.fastTake
  exact SameWords_onSig _ _ rfl rfl rfl rfl

/-- A row with the words of a substituted bay replaced. -/
theorem without_words (g : Nat → Bool) {b : Nat} (hg : g b = true) (x : PoolRow) (f : Nat → W32) :
    ({ x with words := Vector.ofFn fun i : Fin 32 => if i.val / 8 = b then f i.val else vat x.words i.val } : PoolRow).without g = x.without g := by
  have h : ∀ i : Fin 32, (if g (i.val / 8) then (0 : W32) else vat (Vector.ofFn fun i : Fin 32 => if i.val / 8 = b then f i.val else vat x.words i.val) i.val)
      = if g (i.val / 8) then 0 else vat x.words i.val := by
    intro i
    by_cases hi : g (i.val / 8) = true
    · rw [if_pos hi, if_pos hi]
    · have hb : i.val / 8 ≠ b := fun e => hi (by rw [e]; exact hg)
      rw [if_neg hi, if_neg hi]
      unfold vat
      simp [hb]
  unfold PoolRow.without
  simp only [h]

theorem subWords_words (a : App) {b : Nat} (hb : b < 4) (hs : a.isSub b = true) (p : Nat) : a.SameWords (a.subWords b p) := by
  unfold App.subWords
  split
  · exact SameWords_refl a
  · dsimp only
    refine SameWords_trans ?_ (trigWords_words _ _ _ _)
    refine SameWords_trans ?_ (fastTake_words _ _ _)
    refine ⟨Measured_onSig a _, rfl, rfl, rfl, fun g hg => ?_⟩
    rw [onSig_sig, List.map_map]
    refine List.map_congr_left fun x _ => ?_
    show PoolRow.without g (if x.per = p then _ else x) = _
    split
    · exact without_words g (hg b hb hs) x _
    · rfl

theorem subTake1_words (a : App) (k p i : Nat) : a.SameWords (a.subTake1 k p i) := by
  unfold App.subTake1
  exact chanTake_words a i k _ _ _ _

theorem subBay_words (a : App) {b : Nat} (hb : b < 4) (hs : a.isSub b = true) (k p : Nat) : a.SameWords (a.subBay b k p) := by
  have h : a.SameWords (((List.foldl (fun a c => a.subTake1 k p (8 * b + c)) a (upto 8)).onSlu fun x =>
      { x with sub := vup x.sub b (fun z => { z with next := p + 1 }) }).histTake b p) :=
    SameWords_trans (SameWords_trans (SameWords_fold _ _ (fun a c _ => subTake1_words a k p _) a) (SameWords_onSlu _ _)) (histTake_words _ hb p)
  unfold App.subBay
  dsimp only
  refine SameWords_ite _ (SameWords_trans h (subWords_words _ hb ?_ p)) h
  rw [h.isSub hb]; exact hs

theorem subCatch_words (a : App) {b : Nat} (hb : b < 4) (hs : a.isSub b = true) (k last : Nat) : a.SameWords (a.subCatch b k last) := by
  unfold App.subCatch
  exact SameWords_foldP (fun a => a.isSub b = true) _ _ (fun a i _ ha => subBay_words a hb ha _ _)
    (fun a c h ha => by rw [h.isSub hb]; exact ha) a hs

theorem ownTake_words (a : App) (raw : Nat → Int) (k i : Nat) : a.SameWords (a.ownTake raw k i) := by
  unfold App.ownTake
  exact chanTake_words a i k _ _ _ _

theorem pubTake_words (a : App) (b : Nat) : a.SameWords (a.pubTake b) := by
  unfold App.pubTake
  exact SameWords_onSig _ _ rfl rfl rfl rfl

theorem bayTake_words (a : App) (raw : Nat → Int) (k : Nat) {b : Nat} (hb : b < 4) : a.SameWords (a.bayTake raw k b) := by
  unfold App.bayTake
  split
  · rename_i hs
    have h : a.SameWords ((List.foldl (fun a c => a.ownBeside raw k (8 * b + c)) a (upto 8)).pubTake b) :=
      SameWords_trans (SameWords_fold _ _ (fun a c _ => ownBeside_words a raw k _) a) (pubTake_words _ b)
    exact SameWords_trans h (subCatch_words _ hb (by rw [h.isSub hb]; exact hs) _ _)
  · refine SameWords_trans ?_ (histTake_words _ hb _)
    refine SameWords_trans ?_ (pubTake_words _ b)
    refine SameWords_trans (b := List.foldl (fun a c => a.ownTake raw k (8 * b + c)) a (upto 8))
      (SameWords_fold _ _ (fun a c _ => ownTake_words a raw k _) a) ?_
    unfold App.keepOwn
    exact SameWords_onSig _ _ rfl rfl rfl rfl

theorem handTake_words (a : App) (raw : Nat → Int) (b : Nat) : a.SameWords (a.handTake raw b) := by
  unfold App.handTake
  dsimp only
  split
  · exact SameWords_ite _ (SameWords_onSig _ _ rfl rfl rfl rfl) (SameWords_refl a)
  · exact SameWords_ite _ (SameWords_onSig _ _ rfl rfl rfl rfl) (SameWords_refl a)
  · exact SameWords_refl a

/-- The wavefront detectors keep to their own trackers. -/
theorem twTrack_words (a : App) : a.SameWords a.twTrack := by
  unfold App.twTrack
  refine SameWords_fold _ _ (fun a b _ => ?_) a
  unfold App.twSee
  split
  · exact SameWords_ite _ (SameWords_onSig _ _ rfl rfl rfl rfl) (SameWords_refl a)
  · exact SameWords_refl a

/-- A flag that an edge sets. -/
theorem SameWords_setB (a : App) (x : Fld) (v : Bool) (hx : x.bit ∈ edgeFields) : a.SameWords (a.setB x v) := by
  unfold App.setB
  exact SameWords_set a x _ hx

/-- The words of a window head the Pool words, and the filters and the Jet ring stay (R160). -/
theorem rowPut_rows (a : App) (r : PoolRow) : a.SameWords ((a.rowPut r).onSig fun s => { s with rows := a.sig.rows }) ∧
    (a.rowPut r).sig.rows = (r :: a.sig.rows).take 1290555 := by
  have hx : ((upto 4).foldl (fun (a : App) b => if a.isSub b then a else a.onBay b fun x => { x with fltPool := Vector.replicate 8 false }) a).sig = a.sig := by
    generalize upto 4 = l
    induction l generalizing a with
    | nil => rfl
    | cons b l ih => rw [List.foldl_cons, ih]; split <;> rfl
  have h : a.SameWords ((upto 4).foldl (fun (a : App) b => if a.isSub b then a else a.onBay b fun x => { x with fltPool := Vector.replicate 8 false }) a) :=
    SameWords_fold _ _ (fun a b _ => SameWords_ite _ (SameWords_refl a) (SameWords_onBay a b _)) a
  unfold App.rowPut
  dsimp only
  generalize (upto 4).foldl (fun (a : App) b => if a.isSub b then a else a.onBay b fun x => { x with fltPool := Vector.replicate 8 false }) a = c at h hx
  refine ⟨⟨⟨h.meas.rest, fun f hf => ?_⟩, h.slices, h.jetCount, h.ring, fun _ _ => rfl⟩, by rw [← hx]; rfl⟩
  rw [← h.meas.regs f hf]
  exact (SameWords_setB (c.onSig fun s => { s with rows := (r :: s.rows).take 1290555 }) Reg.CAP_STAT_running r.cap (by decide)).meas.regs f hf

theorem rowTake_words (a : App) (r : PoolRow) : a.SameWords (a.rowTake r) := by
  unfold App.rowTake
  exact SameWords_trans (SameWords_fold _ _ (fun a b _ => fastTake_words a r b) a) (trigWords_words _ _ _ _)

/-! ### The stages of an edge (R72, R150, R152) -/

theorem clockSlices_measured (a : App) : a.Measured a.clockSlices := by
  unfold App.clockSlices
  exact Measured_onSig a _

theorem jetSample_measured (a : App) (e : Nat) : a.Measured (a.jetSample e) := by
  unfold App.jetSample
  exact Measured_onSig a _

theorem cicDump_measured (a : App) : a.Measured a.cicDump := by
  unfold App.cicDump
  exact Measured_onSig a _

theorem cicBays_words (a : App) (raw : Nat → Int) (k : Nat) : a.SameWords (a.cicBays raw k) := by
  unfold App.cicBays
  exact SameWords_trans (SameWords_fold _ _ (fun a b _ => handTake_words a raw b) a)
    (SameWords_fold _ _ (fun a b hb => bayTake_words a raw k (List.mem_range.mp hb)) _)

theorem poolWords_measured (a : App) (e w : Nat) : a.Measured (a.poolWords e w) := by
  unfold App.poolWords
  exact Measured_trans (Measured_trans (rowPut_rows a _).1.meas (Measured_back _ _)) (rowTake_words _ _).meas

theorem cicSample_measured (a : App) (e k : Nat) : a.Measured (a.cicSample e k) := by
  unfold App.cicSample
  have h : a.Measured (a.cicDump.cicBays (fun s => (vat a.cicOuts s).1) k) :=
    Measured_trans (cicDump_measured a) (cicBays_words _ _ _).meas
  exact Measured_ite _ (Measured_trans h (poolWords_measured _ _ _)) h

/-- A modulator edge reaches the inputs, the signal paths and the engines only. -/
theorem sigEdge_measured (a : App) (e : Nat) : a.Measured (a.sigEdge e) := by
  have h : a.Measured (if e % 8 = 7 then ((a.clockSlices.jetSample e).access .jet .dram 64).twTrack else a.clockSlices) :=
    Measured_ite _ (Measured_trans (Measured_trans (Measured_trans (clockSlices_measured a) (jetSample_measured _ e)) (SameWords_access _ _ _ _).meas)
      (twTrack_words _).meas) (clockSlices_measured a)
  unfold App.sigEdge
  exact Measured_ite _ (Measured_trans h (cicSample_measured _ e _)) h

/-- And so does a tick of them. -/
theorem sigTick_measured (a : App) (n : Int) : a.Measured (a.sigTick n) := by
  unfold App.sigTick
  exact Measured_ite _ (Measured_refl a) (sigEdge_measured a _)

theorem setHand_sig (a : App) (b : Nat) (x : Handover) : (a.setHand b x).sig = a.sig := by
  unfold App.setHand
  rw [set_sig, onBay_sig]

theorem showOverdue_sig (a : App) (b : Nat) : (a.showOverdue b).sig = a.sig := by
  unfold App.showOverdue
  rw [setB_sig]

theorem assignSlice_sig (a : App) (b c i : Nat) : (a.assignSlice b c i).sig = a.sig := by
  unfold App.assignSlice
  rw [set_sig]

/-- The clocks of a tick count the CIC periods, and leave the signal paths as they were otherwise. -/
theorem takeOver_sig (a : App) (b kt : Nat) : (a.takeOver b kt).sig = a.sig := by
  unfold App.takeOver
  dsimp only
  rw [setHand_sig, showOverdue_sig, set_sig, wrapAdd_sig, setB_sig, onBay_sig, assignSlice_sig]

theorem takeOvers_sig (a : App) : a.takeOvers.sig = a.sig := by
  unfold App.takeOvers
  generalize upto 4 = l
  induction l generalizing a with
  | nil => rfl
  | cons b l ih =>
    rw [List.foldl_cons, ih]
    split
    · split
      · exact takeOver_sig a b _
      · rfl
    · rfl

theorem noteAngle_sig (a : App) (old : Clock) (p n : Nat) : (a.noteAngle old p n).sig = a.sig := by
  unfold App.noteAngle
  dsimp only
  split <;> rfl

theorem clocksTick_sig (a : App) : ∃ n, a.clocksTick.sig = { a.sig with periods := n } := by
  have h : ∀ (c : App) (f : Nat → Clock) (p : Nat → Nat), ((upto 4).foldl (fun b n => b.noteAngle (f n) (p n) n) c).sig = c.sig := by
    intro c f p
    generalize upto 4 = l
    induction l generalizing c with
    | nil => rfl
    | cons b l ih => rw [List.foldl_cons, ih, noteAngle_sig]
  unfold App.clocksTick
  dsimp only
  rw [h]
  split
  · exact ⟨a.sig.periods, rfl⟩
  · exact ⟨a.sig.periods + 1, by rw [takeOvers_sig]; rfl⟩

theorem setHand_tim (a : App) (b : Nat) (x : Handover) : (a.setHand b x).tim = a.tim := by
  unfold App.setHand
  rw [set_tim, onBay_tim]

theorem showOverdue_tim (a : App) (b : Nat) : (a.showOverdue b).tim = a.tim := by
  unfold App.showOverdue
  rw [setB_tim]

theorem assignSlice_tim (a : App) (b c i : Nat) : (a.assignSlice b c i).tim = a.tim := by
  unfold App.assignSlice
  rw [set_tim]

theorem setHand_tick (a : App) (b : Nat) (x : Handover) : (a.setHand b x).tick = a.tick := by
  unfold App.setHand
  rw [set_tick, onBay_tick]

theorem showOverdue_tick (a : App) (b : Nat) : (a.showOverdue b).tick = a.tick := by
  unfold App.showOverdue
  rw [setB_tick]

theorem assignSlice_tick (a : App) (b c i : Nat) : (a.assignSlice b c i).tick = a.tick := by
  unfold App.assignSlice
  rw [set_tick]

theorem setHand_opTicks (a : App) (b : Nat) (x : Handover) : (a.setHand b x).opTicks = a.opTicks := by
  unfold App.setHand
  rw [set_opTicks, onBay_opTicks]

theorem showOverdue_opTicks (a : App) (b : Nat) : (a.showOverdue b).opTicks = a.opTicks := by
  unfold App.showOverdue
  rw [setB_opTicks]

theorem assignSlice_opTicks (a : App) (b c i : Nat) : (a.assignSlice b c i).opTicks = a.opTicks := by
  unfold App.assignSlice
  rw [set_opTicks]

/-- A take-over leaves the timebase and the counts of ticks. -/
theorem takeOver_time (a : App) (b kt : Nat) :
    (a.takeOver b kt).tim = a.tim ∧ (a.takeOver b kt).tick = a.tick ∧ (a.takeOver b kt).opTicks = a.opTicks := by
  unfold App.takeOver
  dsimp only
  generalize a.cicBack b = back
  refine ⟨?_, ?_, ?_⟩
  · rw [setHand_tim, showOverdue_tim, set_tim, wrapAdd_tim, setB_tim, onBay_tim, assignSlice_tim]
  · rw [setHand_tick, showOverdue_tick, set_tick, wrapAdd_tick, setB_tick, onBay_tick, assignSlice_tick]
  · rw [setHand_opTicks, showOverdue_opTicks, set_opTicks, wrapAdd_opTicks, setB_opTicks, onBay_opTicks, assignSlice_opTicks]

theorem takeOvers_time (a : App) : a.takeOvers.tim = a.tim ∧ a.takeOvers.tick = a.tick ∧ a.takeOvers.opTicks = a.opTicks := by
  unfold App.takeOvers
  generalize upto 4 = l
  induction l generalizing a with
  | nil => exact ⟨rfl, rfl, rfl⟩
  | cons b l ih =>
    rw [List.foldl_cons, (ih _).1, (ih _).2.1, (ih _).2.2]
    split
    · split
      · exact takeOver_time a b _
      · exact ⟨rfl, rfl, rfl⟩
    · exact ⟨rfl, rfl, rfl⟩

theorem noteAngle_time (a : App) (old : Clock) (p n : Nat) :
    (a.noteAngle old p n).tim = a.tim ∧ (a.noteAngle old p n).tick = a.tick ∧ (a.noteAngle old p n).opTicks = a.opTicks := by
  unfold App.noteAngle
  dsimp only
  split <;> exact ⟨rfl, rfl, rfl⟩

/-- The clocks of a tick advance wall time (R40) and the phase of the modulator clock (R46), and leave the counts of ticks. -/
theorem clocksTick_time (a : App) :
    a.clocksTick.tim = { a.tim with wall := a.tim.wall.tick a.tim.incr, modErr := modSlew a.tim.incr.toNat a.tim.modErr } ∧
    a.clocksTick.tick = a.tick ∧ a.clocksTick.opTicks = a.opTicks := by
  have h : ∀ (c : App) (f : Nat → Clock) (p : Nat → Nat),
      ((upto 4).foldl (fun b n => b.noteAngle (f n) (p n) n) c).tim = c.tim ∧
      ((upto 4).foldl (fun b n => b.noteAngle (f n) (p n) n) c).tick = c.tick ∧
      ((upto 4).foldl (fun b n => b.noteAngle (f n) (p n) n) c).opTicks = c.opTicks := by
    intro c f p
    generalize upto 4 = l
    induction l generalizing c with
    | nil => exact ⟨rfl, rfl, rfl⟩
    | cons b l ih =>
      rw [List.foldl_cons, (ih _).1, (ih _).2.1, (ih _).2.2]
      exact noteAngle_time c _ _ b
  unfold App.clocksTick
  dsimp only
  rw [(h _ _ _).1, (h _ _ _).2.1, (h _ _ _).2.2]
  split
  · exact ⟨rfl, rfl, rfl⟩
  · rw [(takeOvers_time _).1, (takeOvers_time _).2.1, (takeOvers_time _).2.2]; exact ⟨rfl, rfl, rfl⟩

/-- A Jet sample gives the Jet ring its frame (R294). -/
theorem jetSample_ring (a : App) (e : Nat) : (a.jetSample e).sig.ring = (a.jetFrame e :: a.sig.ring).take 33554432 := by
  unfold App.jetSample
  rw [onSig_sig]

theorem jetSample_count (a : App) (e : Nat) : (a.jetSample e).sig.jetCount = a.sig.jetCount + 1 := by
  unfold App.jetSample
  rw [onSig_sig]

/-! ### What a tick does at the ports (R34, R35, R525) -/

/-- A port of the crossbar changes the crossbar, and counts the free values that it takes. -/
theorem portRun_spec (p : Memory) (fuel : Nat) : ∀ (a : App) (ns : Nat), ∃ x i, a.portRun p ns fuel = { a with xbar := x, freeCtr := i } := by
  induction fuel with
  | zero => exact fun a _ => ⟨a.xbar, a.freeCtr, rfl⟩
  | succ n ih =>
    intro a ns
    unfold App.portRun
    dsimp only
    split
    · exact ⟨_, a.freeCtr, rfl⟩
    · split
      · exact ⟨_, a.freeCtr, rfl⟩
      · rename_i r _
        split
        · exact ⟨_, a.freeCtr, rfl⟩
        · obtain ⟨j, hj⟩ : ∃ j, (a.transferNs p).2 = { a with freeCtr := j } := by
            unfold App.transferNs
            split <;> exact ⟨_, rfl⟩
          rw [hj]
          obtain ⟨x, i, h⟩ := ih { a with freeCtr := j, xbar := vput a.xbar p.code ((vat a.xbar p.code).start r a.tick (a.transferNs p).1) }
            (ns - (vat a.xbar p.code).busy)
          exact ⟨x, i, h⟩

theorem xbarTick_spec (a : App) : ∃ x i, a.xbarTick = { a with xbar := x, freeCtr := i } := by
  unfold App.xbarTick
  generalize [Memory.coreSram, .sharedSram, .dram, .mram, .nand] = l
  induction l generalizing a with
  | nil => exact ⟨a.xbar, a.freeCtr, rfl⟩
  | cons p l ih =>
    obtain ⟨x, i, h⟩ := portRun_spec p 5 a 4
    rw [List.foldl_cons, h]
    obtain ⟨y, j, k⟩ := ih { a with xbar := x, freeCtr := i }
    exact ⟨y, j, k⟩

/-- A port that sends changes the Ethernet part, what has been sent, and the egress stamps of its peer-delay requests. -/
theorem portServe_spec (a : App) (p : Nat) : ∃ e l t, a.portServe p = { a with eth := e, sent := l, tim := { a.tim with pdSent := t } } := by
  unfold App.portServe
  dsimp only
  split
  · exact ⟨a.eth, a.sent, a.tim.pdSent, rfl⟩
  · split
    · split
      · unfold App.ptpLeft
        dsimp only
        split <;> exact ⟨_, _, _, rfl⟩
      · exact ⟨_, _, a.tim.pdSent, rfl⟩
    · exact ⟨a.eth, a.sent, a.tim.pdSent, rfl⟩

theorem portsTick_spec (a : App) : ∃ e l t, a.portsTick = { a with eth := e, sent := l, tim := { a.tim with pdSent := t } } := by
  unfold App.portsTick
  generalize upto 8 = ps
  induction ps generalizing a with
  | nil => exact ⟨a.eth, a.sent, a.tim.pdSent, rfl⟩
  | cons p ps ih =>
    obtain ⟨e, l, t, h⟩ := portServe_spec a p
    rw [List.foldl_cons, h]
    obtain ⟨e', l', t', k⟩ := ih { a with eth := e, sent := l, tim := { a.tim with pdSent := t } }
    exact ⟨e', l', t', k⟩

end Sys2Proof.Machine
end

