-- ==== Sys2Proof/Tests/Slice0.lean ====
section
/-! SUPPORT. Tests: ill-formed operands that Instr.wf refuses; concrete states that meet the premises of every statement that has
any; and small checks of values that the spec works out. -/

namespace Sys2Proof.Tests

open Sys2Proof Sys2Proof.Machine Host

set_option Elab.async false

/-! ### States -/

/-- A module in Maintenance that runs, with context 0 Running in the Maintenance role. -/
def live : App :=
  (((State.reset.app.set Reg.LCY_STAT_state 3).set (Reg.HCX_STAT_state 0) 1).set (Reg.HCX_ROLE_active_role 0) 4).onLife fun l => { l with boot := .done }

/-- The whole block around an application partition. -/
def st (a : App) : State := { app := a }

/-- A header of context 0, and a buffer that holds any data of these tests. -/
def hdr : CmdHdr := ⟨0, 0, 1⟩
def buf : Out := { addr := 64, len := 0xFFFFFF }

/-- The state with an object owned by context 0. -/
def owns (a : App) (i : Nat) : App := { a with cmd := { a.cmd with owners := vput a.cmd.owners i (some ⟨0, 600000000000, 600⟩) } }

/-- The state with a long operation of context 0. -/
def busy (a : App) (op : HostOp) : App := { a with cmd := { a.cmd with long := vput a.cmd.long 0 (some { hdr := hdr, op := op, total := 1 }) } }

theorem adm {a : App} {h : CmdHdr} {op : HostOp} {l : List Nat}
    (e : a.life.boot ≠ .held ∧ h.tag ≠ 0#64 ∧ a.tagRec h.ctx h.tag = none ∧ a.cmdCheck h op none l = none ∧ a.streams = false ∧ a.failing = false) :
    Admitted a h op l := ⟨e.1, e.2.1, e.2.2.1, e.2.2.2.1, .inr (.inr e.2.2.2.2.1), .inr e.2.2.2.2.2⟩

theorem wit {a : App} {h : CmdHdr} {op : HostOp} {l : List Nat} {P : Prop}
    (e : (a.life.boot ≠ .held ∧ h.tag ≠ 0#64 ∧ a.tagRec h.ctx h.tag = none ∧ a.cmdCheck h op none l = none ∧ a.streams = false ∧ a.failing = false) ∧ P) :
    Admitted a h op l ∧ P := ⟨adm e.1, e.2⟩

theorem takes {o : Out} {d : List Byte} (e : o.addr.toNat % 64 = 0 ∧ o.fate = .done ∧ d.length ≤ o.len.toNat) : outTakes o d := e

/-! ### Ill-formed operands, each refused by its check -/

theorem test_wf_writeSettings :
    (Instr.writeSettings ⟨0, 0, 1⟩ 0 0 1 (padTo 63 [])).wf = false ∧ (Instr.writeSettings ⟨0, 0, 1⟩ 0 0 1 (padTo 64 [])).wf = true := by decide
theorem test_wf_setCurve : (Instr.setCurve ⟨0, 0, 1⟩ (padTo 265 [])).wf = false ∧ (Instr.setCurve ⟨0, 0, 1⟩ (padTo 7 [])).wf = false := by decide +kernel
theorem test_wf_ptpMessageRx :
    (Instr.ptpMessageRx 0 (.sync 0 0 0 false 0 1000000000 0) []).wf = false ∧
    (Instr.ptpMessageRx 0 (.followUp 0 0 0 0 1000000000 0) []).wf = false := by decide
theorem test_wf_calibrationPoints :
    (Instr.sliceCalibrationEnd 0 ⟨8388608, 0, 0⟩).wf = false ∧ (Instr.selfCalComplete (Vector.replicate 36 ⟨0, -8388609, 0⟩)).wf = false ∧
    (Instr.cisternPowerUp (Vector.replicate 9 ⟨0, 0, 8388608⟩) 0 true).wf = false := by decide
theorem test_wf_doorbellFetch :
    (Instr.doorbellFetch 0 (some []) []).wf = false ∧ (Instr.doorbellFetch 0 none [.slot [] []]).wf = false ∧
    (Instr.doorbellFetch 0 none [.slot (padTo 64 []) [some []]]).wf = false := by decide
theorem test_wf_accessWidth : (Instr.setupWrite 0 0 3 0).wf = false ∧ (Instr.latchedRead 0 0 16).wf = false := by decide
theorem test_wf_dmaTailAdvance : (Instr.dmaTailAdvance 0 [padTo 31 []] none).wf = false := by decide
theorem test_wf_canFrameReceived :
    (Instr.canFrameReceived 0 ⟨0, 0, false, false, false, false, false, 9, padTo 12 []⟩).wf = false ∧
    (Instr.canFrameReceived 0 ⟨0, 0, false, false, true, false, false, 9, padTo 12 []⟩).wf = true := by decide
theorem test_wf_stateCopyPage : (Instr.stateCopyPage (.page 0 [])).wf = false := by decide

/-! ### Values that the spec works out -/

/-- The check value of CRC-32C over "123456789" (R8). -/
theorem test_crc32c : crc32c [0x31, 0x32, 0x33, 0x34, 0x35, 0x36, 0x37, 0x38, 0x39] = 0xE3069283 := by decide +kernel

/-- The next state that an outcome gives. -/
def next? : Outcome State Fault Refusal → Option State
  | .next t => some t
  | _ => none

/-- A tick of the nominal increment is 4 ns, and 999,999,996 ns is followed by the next second (R40). -/
theorem test_tick :
    (next? (step (st live))).map (·.app.tim.wall.ns) = some 4 ∧
    (next? (step (st (live.onTim fun t => { t with wall := { t.wall with ns := 999999996 } })))).map (fun s => (s.app.tim.wall.sec, s.app.tim.wall.ns)) =
      some (1, 0) := by decide +kernel

/-- A command runs from the front of the queue: a NOP of context 0 completes OK with its tag (R476, R500). -/
theorem test_nop :
    (next? (step { st live with pending := [.nop hdr] })).map (fun s => (vat s.app.ctxs 0).completions.map (fun c => (c.status, c.tag))) =
      some [(0, 1)] := by decide +kernel

/-- A trip row closes its channel and counts (R254); DEMAND_RESET counts (R320); the service switch unseals and seals (R326). -/
theorem test_trip_row : (live.chRow 7 true).get (Reg.TRP_CHCNT_ops 7) = 1 ∧ (live.chRow 7 true).on (Reg.TRP_CHSTAT_on 7) = true := by
  decide +kernel
theorem test_demand_reset :
    (next? (exec .demandReset { State.reset with cis := { State.reset.cis with session := some 0 } })).map (·.cis.work.resets) = some 1 := by
  decide +kernel
theorem test_service_switch : (next? (exec .serviceSwitchHold State.reset)).map (·.cis.sealed) = some true := by decide +kernel

/-! ### Premises of the host commands -/

theorem test_premises_ReadsDeliver :
    (Admitted live hdr (.readTime buf 1) [] ∧ (1 : Byte).toNat ≤ 1 ∧ outTakes buf live.timeBlock) ∧
    (Admitted live hdr (.readAngle buf 3 1) [] ∧ (3 : Byte).toNat ≤ 3 ∧ (1 : Byte).toNat ≤ 1 ∧ outTakes buf (live.angleBlock 3)) ∧
    (Admitted live hdr (.readSettings buf 7 1023 1) [] ∧ (7 : Byte).toNat ≤ 7 ∧ (1023 : W16).toNat ≤ 1023 ∧
      (1023 : W16).toNat + (1 : W16).toNat ≤ 1024 ∧ outTakes buf ((upto 1).flatMap fun i => descAt live.slu.descs (descKey 7 (1023 + i)))) ∧
    (Admitted live hdr (.readAux buf 15) [] ∧ (15 : Byte).toNat ≤ 15 ∧
      outTakes buf ((upto 16).flatMap fun j => (live.ana.aux.recOf (16 * 15 + j)).bytes)) ∧
    (let a := live.onTw fun t => { t with recs := [⟨5, false, [1]⟩] }
     Admitted a hdr (.readTwRecord buf 5) [] ∧ a.tw.recs.find? (fun r => r.seq == (5 : W32).toNat) = some ⟨5, false, [1]⟩ ∧ outTakes buf [1]) ∧
    (Admitted live hdr (.readSnapshot buf) [] ∧ outTakes buf live.mbox.latest) ∧
    (let a := live.onCtl fun c => { c with points := [{}] }
     Admitted a hdr (.readPoints buf 0 1) [] ∧ (0 : W32).toNat + (1 : W32).toNat ≤ a.ctl.points.length ∧
       outTakes buf ((upto 1).flatMap fun i => (a.point i).bytes)) ∧
    (Admitted live hdr (.readForces buf) [] ∧ outTakes buf (live.ctl.forces.flatMap Force.bytes)) :=
  ⟨⟨adm (by decide +kernel), by decide, takes (by decide +kernel)⟩, ⟨adm (by decide +kernel), by decide, by decide, takes (by decide +kernel)⟩,
   ⟨adm (by decide +kernel), by decide, by decide, by decide, takes (by decide +kernel)⟩,
   ⟨adm (by decide +kernel), by decide, takes (by decide +kernel)⟩, ⟨adm (by decide +kernel), by decide, takes (by decide +kernel)⟩,
   ⟨adm (by decide +kernel), takes (by decide +kernel)⟩, ⟨adm (by decide +kernel), by decide, takes (by decide +kernel)⟩,
   adm (by decide +kernel), takes (by decide +kernel)⟩

theorem test_premises_SessionCommandsAct :
    Admitted live hdr .nop [] ∧
    (Admitted live hdr (.select 0x20 600) [] ∧ objIndex (0x20 : W16).toNat = some 8 ∧ 1 ≤ (600 : W16).toNat ∧ (600 : W16).toNat ≤ 600 ∧
      (∀ o, live.ownerOf 8 = some o → o.ctx = hdr.ctx.val)) ∧
    (Admitted (owns live 8) hdr (.deselect 0x20) [] ∧ objIndex (0x20 : W16).toNat = some 8 ∧ (owns live 8).ownerOf 8 = some ⟨0, 600000000000, 600⟩ ∧
      (⟨0, 600000000000, 600⟩ : Owner).ctx = hdr.ctx.val) ∧
    (Admitted (busy live (.verifyImage 0)) hdr (.cancel 1) [] ∧ vat (busy live (.verifyImage 0)).cmd.long hdr.ctx.val =
      some { hdr := hdr, op := .verifyImage 0, total := 1 } ∧ hdr.tag = 1) ∧
    Admitted live hdr .moduleStatus [] :=
  ⟨adm (by decide +kernel), ⟨adm (by decide +kernel), by decide +kernel⟩, ⟨adm (by decide +kernel), by decide +kernel⟩,
   ⟨adm (by decide +kernel), by decide +kernel⟩, adm (by decide +kernel)⟩

theorem test_premises_TimeCommandsAct :
    let a := live.setB Reg.TIM_CTL_servo_sel true
    Admitted live hdr (.forceTime 0 0 5) [] ∧
    (Admitted live hdr (.forceTime 1 999999999 0xFFFFFFFFFFFF) [] ∧ (999999999 : W32).toNat ≤ 999999999 ∧ (0xFFFFFFFFFFFF : W64).toNat < 2 ^ 48) ∧
    (Admitted a hdr (.adjustRate 0x3FF7CED91 0) [] ∧ 0x3FF7CED91 ≤ (0x3FF7CED91 : W64).toNat ∧ (0x3FF7CED91 : W64).toNat ≤ 0x40083126F) ∧
    (Admitted a hdr (.adjustRate 0x40083126F 1) [] ∧ 0x3FF7CED91 ≤ (0x40083126F : W64).toNat ∧ (0x40083126F : W64).toNat ≤ 0x40083126F ∧
      a.tim.refusedPending = false) ∧
    (Admitted a hdr (.stepTime 1000) [] ∧ a.stepAllowed (1000 : W64).toInt = true) :=
  ⟨adm (by decide +kernel), ⟨adm (by decide +kernel), by decide⟩, ⟨adm (by decide +kernel), by decide⟩,
   ⟨adm (by decide +kernel), by decide⟩, adm (by decide +kernel), by decide +kernel⟩

/-- A curve table of two points, m 1.00 and 2.00 × 256 with times of 2 and 1 s. -/
def curve2 : List Byte :=
  let pts := le 2 256 ++ le 2 0 ++ le 4 20000 ++ le 2 512 ++ le 2 0 ++ le 4 10000
  padTo 264 (le 1 7 ++ le 1 2 ++ le 2 0 ++ le 4 (crc32c pts) ++ pts)

/-- A 51 descriptor of group 7, bay 3: the largest phase RMS current, curve 1, time multiplier 1. -/
def desc51 : List Byte :=
  let d := [1, 1, 3, 7] ++ le 2 0x7000 ++ [1, 0] ++ le 4 rRms ++ le 2 0x7AE1 ++ [1, 0] ++ le 4 0x10000 ++ padTo 24 [] ++ le 2 0xFFFF ++ le 2 0xFFFF ++ padTo 12 []
  d ++ le 4 (crc32c d)

theorem test_premises_SettingsCommandsAct :
    (let live := owns live 7
     let new := carried 7 1023 1 desc51
     let l := applyDescs live.slu.descs new
     Admitted live hdr (.writeSettings 7 1023 1 desc51) (live.settingsObjs new) ∧ (∀ b, b < 4 → live.groupOf b = 7 → live.protOf b ≠ 0) ∧
      (∀ e ∈ new, descOk live.slu.curves 7 e.2 = true) ∧ (∀ n, n < 1024 → pairOk l 7 n = true) ∧
      streamsBad l 7 = [] ∧ (∀ f ∈ live.groupsAhead, claimedTwice l f = []) ∧ overload l live.clkOn live.groupsAhead live.defaultGroup = none) ∧
    (let a := owns live 7
     let ahead := (a.onSlu fun x => { x with groupReq := vup x.groupReq 3 (· ++ [7]) }).groupsAhead
     (3 : Byte).toNat ≤ 3 ∧ (7 : Byte).toNat ≤ 7 ∧ Admitted a hdr (.selectGroup 3 7) [4 + 3] ∧
       (∀ f ∈ ahead, claimedTwice a.slu.descs f = []) ∧ overload a.slu.descs a.clkOn ahead a.defaultGroup = none) ∧
    (Admitted live hdr (.setCurve curve2) (live.curveObjs (numAt curve2 0 1)) ∧ curve2.length = 264 ∧ curveBad curve2 = none ∧
      (∀ n, n < 4 → live.protOf n = 0 → ∀ e ∈ live.slu.descs, dType e.2 ≠ 0 → dEn e.2 = true → dCurve e.2 = 0x17 → e.1 / 1024 ≠ live.groupOf n)) ∧
    (let a := live.set Reg.GLB_MODE_prot 0x55
     let a := { a with ana := { a.ana with calRun := none } }
     Admitted a hdr .selfCal [] ∧ (∀ b, b < 4 → a.protOf b ≠ 0) ∧ a.ana.calRun = none) ∧
    (Admitted live hdr (.auxStart 255 0x10) [] ∧ auxSlotOk (0x10 : W32).toNat = true ∧ live.ana.aux.singles.length < 16) ∧
    (Admitted live hdr (.auxStart 15 0) [] ∧ (15 : Byte).toNat ≤ 15 ∧ live.ana.aux.busySeq 15 = false) :=
  ⟨⟨adm (by decide +kernel), by decide +kernel⟩, ⟨by decide, by decide, adm (by decide +kernel), by decide +kernel⟩,
   ⟨adm (by decide +kernel), by decide +kernel⟩, ⟨adm (by decide +kernel), by decide +kernel⟩, ⟨adm (by decide +kernel), by decide +kernel⟩,
   adm (by decide +kernel), by decide +kernel⟩

/-- The state with the rows of a breaker controller set up directly from its own inputs, and its bay owned and locked. -/
def brk (b : Nat) : App :=
  let a := (owns live b).setB (Reg.TRP_BKCFG_en b) true
  let a := (a.set (Reg.TRP_BKCFG_open_row b) 6).set (Reg.TRP_BKCFG_close_row b) 7
  let a := (a.setB (Reg.TRP_ROW_use 6 0) true).set (Reg.TRP_ROW_index 6 0) (0x881 + 4 * b)
  let a := (a.setB (Reg.TRP_ROW_use 7 0) true).set (Reg.TRP_ROW_index 7 0) (0x880 + 4 * b)
  { a with clk := vup a.clk b (fun c => { c with st := .lockedV }) }

theorem test_premises_BreakerCommandsAct :
    let a := brk 3
    let ready := fun (open_ : Bool) => a.on (Reg.TRP_BKCFG_en 3) = true ∧ vat a.trp.ops 3 = none ∧ (open_ = false → a.tripRow 3 = none) ∧
      a.isDirect (a.get (if open_ then Reg.TRP_BKCFG_open_row 3 else Reg.TRP_BKCFG_close_row 3)) (0x880 + 4 * 3 + open_.toNat) = true
    (Admitted a hdr (.breakerClose 3 0 0) [(3 : Byte).toNat] ∧ (3 : Byte).toNat ≤ 3 ∧ ready false) ∧
    (Admitted a hdr (.breakerOpen 3 0 0) [(3 : Byte).toNat] ∧ (3 : Byte).toNat ≤ 3 ∧ ready true) ∧
    (Admitted a hdr (.breakerClose 3 1 65535) [(3 : Byte).toNat] ∧ (3 : Byte).toNat ≤ 3 ∧ ready false ∧ lockedAq (a.aq 3) = true ∧ a.freeUnit 3 = some 1) ∧
    (Admitted a hdr (.breakerOpen 3 1 65535) [(3 : Byte).toNat] ∧ (3 : Byte).toNat ≤ 3 ∧ ready true ∧ lockedAq (a.aq 3) = true ∧ a.freeUnit 3 = some 1) :=
  ⟨wit (by decide +kernel), wit (by decide +kernel), wit (by decide +kernel), wit (by decide +kernel)⟩

/-- A record store that is full of unread records. -/
def full : List TwRec := List.replicate 3072 ⟨0, false, []⟩
theorem full_length : full.length = 3072 := List.length_replicate
theorem full_unread : (full.filter (·.read)).length = 0 := by rw [full, List.filter_replicate]; rfl

theorem test_premises_CaptureCommandsAct :
    (Admitted live hdr (.clearTripFault 7) [] ∧ (7 : Byte).toNat ≤ 7) ∧
    (Admitted live hdr (.armCapture 3 1) [] ∧ (3 : Byte).toNat ≤ 3 ∧ (1 : Byte).toNat ≤ 1) ∧
    (Admitted live hdr (.fireCapture 3) [] ∧ (3 : Byte).toNat ≤ 3) ∧ (Admitted live hdr (.fireCapture 255) [] ∧ True) ∧
    (Admitted live hdr (.cutTwRecord 3 1000000000) [] ∧ (3 : Byte).toNat ≤ 3 ∧ live.w64 ≤ (1000000000 : W64).toNat + 18000000000 ∧
      (1000000000 : W64).toNat ≤ live.w64 + 1000000000 ∧ live.twRoom = true ∧ live.tw.seq ≠ 0xFFFFFFFF#32) ∧
    (let a := live.onTw fun t => { t with recs := full }
     Admitted a hdr (.cutTwRecord 3 0) [] ∧ (3 : Byte).toNat ≤ 3 ∧ a.w64 ≤ (0 : W64).toNat + 18000000000 ∧
      (0 : W64).toNat ≤ a.w64 + 1000000000 ∧ a.twRoom = false) ∧
    (Admitted live hdr (.cisternRequest buf 1 254 0) [] ∧ buf.addr.toNat % 64 = 0 ∧ 1 ≤ (1 : Byte).toNat ∧ (1 : Byte).toNat ≤ 4 ∧
      1 ≤ (254 : W16).toNat ∧ (254 : W16).toNat ≤ (if (1 : Byte) = 1#8 then 254 else if (1 : Byte) = 4#8 then 1 else 127)) ∧
    (Admitted live hdr (.cisternRequest buf 3 127 0) [] ∧ buf.addr.toNat % 64 = 0 ∧ 1 ≤ (3 : Byte).toNat ∧ (3 : Byte).toNat ≤ 4 ∧
      1 ≤ (127 : W16).toNat ∧ (127 : W16).toNat ≤ (if (3 : Byte) = 1#8 then 254 else if (3 : Byte) = 4#8 then 1 else 127)) ∧
    (Admitted live hdr (.cisternRequest buf 4 1 0) [] ∧ buf.addr.toNat % 64 = 0 ∧ 1 ≤ (4 : Byte).toNat ∧ (4 : Byte).toNat ≤ 4 ∧
      1 ≤ (1 : W16).toNat ∧ (1 : W16).toNat ≤ (if (4 : Byte) = 1#8 then 254 else if (4 : Byte) = 4#8 then 1 else 127)) :=
  ⟨wit (by decide +kernel), wit (by decide +kernel), wit (by decide +kernel), wit (by decide +kernel), wit (by decide +kernel),
   ⟨adm (by decide +kernel), by decide, by decide +kernel, by decide +kernel, by simp [App.twRoom, App.onTw, full_length, full_unread]⟩,
   wit (by decide +kernel), wit (by decide +kernel), wit (by decide +kernel)⟩

/-- The state with an image in slot 0 that runs, and one verified in slot 1. -/
def running : App :=
  let a := ((owns live 8).set (Reg.slotState 0) Slot.running).set (Reg.slotState 1) Slot.verified
  (a.set Reg.CSC_PSTAT_cstate 1).onCtl fun c => { c with running := some 0, points := [{ kind := 5 }] }

/-- The force of a point. -/
def force0 (orphan : Bool) : Force := ⟨0, orphan, 0, 0, 0, 0, 0, 0, 0, 0, none⟩

theorem test_premises_ProgramCommandsAct :
    (∀ n ∈ [0#8, 1#8], Admitted running hdr (.startProgram n 1) [8] ∧ n.toNat ≤ 1 ∧ (1 : Byte).toNat ≤ 1 ∧ running.cstate ≠ 3 ∧
      running.ctl.window = none ∧ running.ctl.skim = none ∧ running.ctl.init = none ∧
      (running.get (Reg.slotState n.toNat) = Slot.verified ∨ running.get (Reg.slotState n.toNat) = Slot.running)) ∧
    (Admitted running hdr .stopProgram [8] ∧ running.ctl.init = none ∧ running.ctl.running.isSome = true) ∧
    (Admitted running hdr (.holdProgram 1) [8] ∧ (1 : Byte).toNat ≤ 1 ∧ (running.cstate = 1 ∨ running.cstate = 2)) ∧
    (Admitted running hdr (.writePoint 0x1FFF 0 5) [] ∧ (0x1FFF : W16).toNat < 2 ^ 13 ∧ (0 : W32).toNat < running.ctl.points.length ∧
      (running.point (0 : W32).toNat).kind = 5) ∧
    (Admitted running hdr (.flagSet 63 31) [] ∧ (63 : Byte).toNat ≤ 63 ∧ (31 : Byte).toNat ≤ 31) ∧
    (Admitted running hdr (.flagCancel 63 1) [] ∧ (63 : Byte).toNat ≤ 63) ∧
    (Admitted running hdr (.forceSet 0x1FFF 0 5 9) [] ∧ (0x1FFF : W16).toNat < 2 ^ 13 ∧ (0 : W32).toNat < running.ctl.points.length ∧
      ((running.forceOf (0 : W32).toNat).isSome = true ∨ running.ctl.forces.length < 4096)) ∧
    (let a := running.onCtl fun c => { c with forces := [force0 false] }
     Admitted a hdr (.forceClear 0 0) [] ∧ (a.forceOf (0 : W32).toNat).isSome = true) ∧
    (let a := running.onCtl fun c => { c with forces := [force0 true] }
     Admitted a hdr (.forceClear 1 0) [] ∧ a.ctl.forces.any (fun f => f.orphan && f.point == (0 : W32).toNat) = true) ∧
    (Admitted live hdr (.fieldRearm 1) [] ∧ (1 : Byte).toNat ≤ 1 ∧ live.on (Reg.fsLatched (1 : Byte).toNat) = false ∧
      (vat live.fio.sup (1 : Byte).toNat).enableAt = none) :=
  ⟨fun n h => wit (by revert n; decide +kernel), wit (by decide +kernel), wit (by decide +kernel), wit (by decide +kernel), wit (by decide +kernel),
   wit (by decide +kernel), wit (by decide +kernel), wit (by decide +kernel), wit (by decide +kernel), wit (by decide +kernel)⟩

theorem test_premises_LongCommandsStart :
    (Admitted running hdr (.loadImage 1 (2 ^ 30) 0) [8] ∧ (1 : Byte).toNat ≤ 1 ∧ 1 ≤ (2 ^ 30 : W32).toNat ∧ (2 ^ 30 : W32).toNat ≤ 2 ^ 30 ∧
      running.cstate ≠ 3 ∧ running.slotInUse (1 : Byte).toNat = false ∧ vat running.cmd.long hdr.ctx = none) ∧
    (Admitted running hdr (.verifyImage 1) [8] ∧ (1 : Byte).toNat ≤ 1 ∧ running.cstate ≠ 3 ∧
      running.get (Reg.slotState (1 : Byte).toNat) ≠ Slot.empty ∧ running.get (Reg.slotState (1 : Byte).toNat) ≠ Slot.running ∧
      vat running.cmd.long hdr.ctx = none) ∧
    (Admitted running hdr (.eraseSlot 1) [8] ∧ (1 : Byte).toNat ≤ 1 ∧ running.cstate ≠ 3 ∧
      running.slotInUse (1 : Byte).toNat = false ∧ vat running.cmd.long hdr.ctx = none) ∧
    (Admitted running hdr (.loadFirmware 1 (2 ^ 28) 0) [] ∧ (1 : Byte).toNat ≤ 1 ∧ 1 ≤ (2 ^ 28 : W32).toNat ∧ (2 ^ 28 : W32).toNat ≤ 2 ^ 28 ∧
      vat running.cmd.long hdr.ctx = none) ∧
    (Admitted running hdr (.skimPrepare 48 0) [8] ∧ 48 ≤ (48 : W32).toNat ∧ (48 : W32).toNat ≤ 48 + 16 * 1048576 ∧ running.cstate = 1 ∧
      running.ctl.running.isSome = true ∧ running.ctl.window = none ∧ running.get (Reg.slotState running.freeSlot) = Slot.verified ∧
      vat running.cmd.long hdr.ctx = none) ∧
    (let a := running.onCtl fun c => { c with window := some { slot := 1 } }
     Admitted a hdr .skimRollback [8] ∧ a.ctl.window = some { slot := 1 } ∧ a.inRollback = true ∧ a.ctl.skim = none ∧ vat a.cmd.long hdr.ctx = none) :=
  ⟨wit (by decide +kernel), wit (by decide +kernel), wit (by decide +kernel), wit (by decide +kernel), wit (by decide +kernel), wit (by decide +kernel)⟩

theorem test_premises_ChangeCommandsAct :
    (let k : SkimSt := { slot := 1 }
     let a := ((busy running (.skimPrepare 48 0)).onCtl fun c => { c with skim := some k }).set Reg.CSC_SKSTAT_phase 2
     Admitted a hdr (.skimSwitch 0) [8] ∧ a.ctl.skim = some k ∧ a.get Reg.CSC_SKSTAT_phase = 2 ∧ k.switchCmd = none ∧
      a.on Reg.CSC_SKSTAT_reverse = false ∧ (a.findSwitch k (max (a.now + 10000000) (0 : W64).toNat)).isSome = true) ∧
    (let a := running.onCtl fun c => { c with skim := some { slot := 1 } }
     Admitted a hdr .skimAbort [8] ∧ a.ctl.skim.isSome = true) ∧
    (let a := running.onCtl fun c => { c with window := some { slot := 1 } }
     Admitted a hdr .skimConfirm [8] ∧ a.inRollback = true ∧ a.ctl.skim = none) ∧
    (∀ t ∈ [(2, false, [1, 4]), (4, true, [1])],
      let a := (live.set Reg.GLB_MODE_prot 0x55).set (Reg.HCX_ROLE_active_role hdr.ctx) 1
      Admitted a hdr (.lifecycleSet (BitVec.ofNat 8 t.1) a.bkp.pc) [] ∧ t.1 ≠ a.lcy ∧ lcyRow a.lcy t.1 = some t.2 ∧ t.1 ≤ 4 ∧
      a.get (Reg.HCX_ROLE_active_role hdr.ctx) ∈ t.2.2 ∧ (t.1 = 2 → ∀ b, b < 4 → a.prot b < 2) ∧ (t.2.1 = true → a.role = Role.solo) ∧
      (a.takeIn hdr (.lifecycleSet (BitVec.ofNat 8 t.1) a.bkp.pc) []).lcyBusy hdr = false) ∧
    (Admitted live hdr (.resetModule 2) [] ∧ (2 : Byte).toNat ≤ 2) ∧
    (Admitted live hdr .requestRemoval [] ∧ (live.role = Role.standby ∨ (live.role = Role.solo ∧ live.lcy = Lcy.maintenance))) ∧
    (let a := ((live.onPar fun p => { p with dropped := true }).set Reg.PAR_STAT_role Role.primary).set Reg.PAR_STAT_partner_role Role.standby
     Admitted a hdr .requestRemoval [] ∧ a.role = Role.primary ∧ a.get Reg.PAR_STAT_partner_role = Role.standby ∧ a.anyLong = false ∧
      (∀ b, b < 4 → vat a.trp.ops b = none) ∧ a.par.removal = none) :=
  ⟨wit (by decide +kernel), wit (by decide +kernel), wit (by decide +kernel), fun t h => wit (by revert t; decide +kernel),
   wit (by decide +kernel), wit (by decide +kernel), wit (by decide +kernel)⟩

/-! ### Premises of the instructions of the control cores -/

/-- A program image with one instruction word at address 16 of its code, one task, one type, one instance and one INT point. -/
def image (w : Nat) : Image :=
  let code := padTo 16 [] ++ le 4 w ++ padTo 44 []
  let task := padTo 64 (padTo 36 (padTo 28 [] ++ le 4 1000) ++ le 2 1 ++ padTo 6 [] ++ le 2 1 ++ padTo 2 [] ++ le 4 1024)
  let secs := [(1, task), (2, padTo 16 []), (3, code), (4, padTo 16 (le 4 0 ++ le 4 64)), (7, padTo 32 [4, 3]), (10, padTo 8 [])]
  let dir := secs.foldl (fun (x : List Byte × Nat) e => (x.1 ++ le 4 e.1 ++ le 4 x.2 ++ le 4 e.2.length ++ le 4 0, x.2 + e.2.length)) ([], 160)
  padTo 64 (padTo 28 (padTo 6 [] ++ le 2 6) ++ le 2 1 ++ le 2 1 ++ le 4 1 ++ le 4 1) ++ dir.1 ++ secs.flatMap (·.2)

/-- Core 7 Busy with task 0 at address 16, which holds a word. -/
def coreAt (w : Nat) (f : CtlCore → CtlCore) : App :=
  let a := running.onCtl fun c => { c with slots := vput c.slots 0 (image w) }
  let a := a.onCtl fun c => { c with tasks := vup c.tasks 0 fun t => { t with scan := some { rel := ⟨0, 0, 0, 0, 0, 0⟩ } } }
  (a.setCore 7 1).onCore 7 fun c => f { c with item := some (.task 0), pc := 16, il := 64 }

/-- Three registers of given tags. -/
def regs (td ta tb : Nat) (c : CtlCore) : CtlCore :=
  { c with regs := vput (vput (vput c.regs 63 ⟨1, td⟩) 62 ⟨1, ta⟩) 61 ⟨1, tb⟩ }

def executing (a : App) (k w : Nat) : Bool :=
  a.life.boot != .held && a.coreState k == 1 && (a.core k).ended == false && (a.core k).item.isSome && a.wordAt (a.core k).pc == some w

theorem exe {a : App} {k w : Nat} {P : Prop} (e : executing a k w = true ∧ P) : Executing a k w ∧ P := by
  refine ⟨?_, e.2⟩
  have h := e.1
  simp only [executing, Bool.and_eq_true, bne_iff_ne, beq_iff_eq, ne_eq] at h
  exact ⟨h.1.1.1.1, h.1.1.1.2, h.1.1.2, h.1.2, h.2⟩

theorem test_premises_CoreArithmetic :
    ∀ r ∈ [(0x10, [2, 3, 7]), (0x11, [2, 3, 7]), (0x12, [2, 3]), (0x13, [2, 3, 7]), (0x14, [2, 3, 7]), (0x17, [2, 3, 7]), (0x18, [2, 3, 7]),
           (0x20, [1, 6]), (0x21, [1, 6]), (0x22, [1, 6]), (0x30, [4, 5]), (0x31, [4, 5]), (0x32, [4, 5]), (0x33, [4, 5]), (0x37, [4, 5]),
           (0x38, [4, 5])], ∀ t ∈ r.2,
      let a := coreAt (wordR r.1 63 62 61) (regs 0 t t)
      Executing a 7 (wordR r.1 63 62 61) ∧ ((a.core 7).reg 62).tag ∈ r.2 ∧ ((a.core 7).reg 61).tag = ((a.core 7).reg 62).tag := by
  intro r hr t ht a
  refine exe ?_
  revert r t
  decide +kernel

theorem test_premises_CoreUnaryShiftCompare :
    (∀ r ∈ [(0x15, [2, 7]), (0x16, [2, 7]), (0x23, [1, 6]), (0x34, [4, 5]), (0x35, [4, 5]), (0x36, [4, 5])], ∀ t ∈ r.2,
      let a := coreAt (wordR r.1 63 62 0) (regs 0 t 0)
      Executing a 7 (wordR r.1 63 62 0) ∧ ((a.core 7).reg 62).tag ∈ r.2) ∧
    (∀ r ∈ [(0x24, 6), (0x25, 6), (0x26, 2), (0x27, 6), (0x28, 6)], ∀ t ∈ [Tag.int, Tag.uint],
      let a := coreAt (wordR r.1 63 62 61) (regs 0 r.2 t)
      Executing a 7 (wordR r.1 63 62 61) ∧ ((a.core 7).reg 62).tag = r.2 ∧ ((a.core 7).reg 61).tag ∈ [Tag.int, Tag.uint]) ∧
    (∀ r ∈ [(0x40, [1, 2, 3, 4, 5, 6, 7]), (0x41, [1, 2, 3, 4, 5, 6, 7]), (0x42, [2, 3, 4, 5, 7]), (0x43, [2, 3, 4, 5, 7])], ∀ t ∈ r.2,
      let a := coreAt (wordR r.1 63 62 61) (regs 0 t t)
      Executing a 7 (wordR r.1 63 62 61) ∧ ((a.core 7).reg 62).tag ∈ r.2 ∧ ((a.core 7).reg 61).tag = ((a.core 7).reg 62).tag) := by
  refine ⟨?_, ?_, ?_⟩ <;> (intro r hr t ht a; refine exe ?_; revert r t; decide +kernel)

theorem test_premises_CoreMoves :
    (Executing (coreAt 0 id) 7 0 ∧ True) ∧
    (∀ t ∈ [1, 8], let a := coreAt (wordR 0x01 63 62 0) (regs 0 t 0)
      Executing a 7 (wordR 0x01 63 62 0) ∧ 1 ≤ ((a.core 7).reg 62).tag ∧ ((a.core 7).reg 62).tag ≤ 8) ∧
    (∀ i ∈ [0, 2 ^ 18 - 1], Executing (coreAt (wordX 0x02 63 i) id) 7 (wordX 0x02 63 i) ∧ i < 2 ^ 18) ∧
    (∀ e ∈ [(1, 0), (7, 2 ^ 14 - 1)],
      let w := wordX 0x03 63 (e.1 * 2 ^ 14 + e.2)
      let a := coreAt w id
      let p : Int := (a.core 7).pc + 4 + 4 * (BitVec.ofNat 14 e.2).toInt
      Executing a 7 w ∧ 0 ≤ p ∧ p + 8 ≤ (a.code.sect 3).length) ∧
    (∀ e ∈ [(2, 1), (3, 2), (6, 3), (7, 6), (2, 7)],
      let w := wordI 0x04 63 62 (e.2 * 2 ^ 8)
      let a := coreAt w (regs 0 e.1 0)
      Executing a 7 w ∧ ((a.core 7).reg 62).tag ∈ [Tag.int, Tag.uint, Tag.bits, Tag.time] ∧
        (e.2 ∈ [Tag.int, Tag.uint, Tag.bits, Tag.time] ∨ (e.2 = Tag.bool ∧ ((a.core 7).reg 62).v.toNat ≤ 1))) ∧
    (∀ t ∈ [1, 2, 3, 4, 5, 7], ∀ ty ∈ [1, 2, 3, 4, 5, 7],
      let w := wordI 0x05 63 62 (ty * 2 ^ 8)
      let a := coreAt w (regs 0 t 0)
      Executing a 7 w ∧ ((a.core 7).reg 62).tag ∈ [1, 2, 3, 4, 5, 7]) ∧
    (∀ t ∈ [1, 8], let a := coreAt (wordR 0x06 63 62 61) (regs 1 t t)
      Executing a 7 (wordR 0x06 63 62 61) ∧ ((a.core 7).reg 63).tag = Tag.bool ∧ 1 ≤ ((a.core 7).reg 62).tag ∧
        ((a.core 7).reg 62).tag ≤ 8 ∧ ((a.core 7).reg 61).tag = ((a.core 7).reg 62).tag) ∧
    (∀ t ∈ [2, 3, 7], let a := coreAt (wordI 0x19 63 62 4095) (regs 0 t 0)
      Executing a 7 (wordI 0x19 63 62 4095) ∧ ((a.core 7).reg 62).tag ∈ [Tag.int, Tag.uint, Tag.time]) := by
  refine ⟨exe (by decide +kernel), ?_, ?_, ?_, ?_, ?_, ?_, ?_⟩
  on_goal 5 => intro t ht ty hty w a; refine exe ?_; revert t ty; decide +kernel
  all_goals (intro x hx; refine exe ?_; revert x; decide +kernel)

theorem test_premises_CoreData :
    (∀ kind ∈ upto 16, let w := wordI (0x50 + kind) 63 63 0
      let a := coreAt w id
      Executing a 7 w ∧ (a.core 7).ib % (kindOf kind).1 = 0 ∧ (a.core 7).ib + (kindOf kind).1 ≤ (a.core 7).il) ∧
    (∀ kind ∈ upto 16, let w := wordI (0x60 + kind) 62 63 0
      let a := coreAt w (regs 0 (kindOf kind).2.1 0)
      let c := a.core 7
      let n := (kindOf kind).1
      Executing a 7 w ∧ (c.reg 62).tag = (kindOf kind).2.1 ∧ c.ib % n = 0 ∧ c.ib + n ≤ c.il ∧
        ({ c.log with stores := (upto n).foldl (fun l i => logPut l (c.ib + i) (BitVec.ofNat 8 ((c.reg 62).v.toNat / 256 ^ i))) c.log.stores } : WriteLog).size
          ≤ a.logLimit 7) ∧
    (let a := coreAt (wordI 0x70 63 0 0) fun c => { c with slots := [{}] }
     Executing a 7 (wordI 0x70 63 0 0) ∧ 0 < (a.core 7).slots.length) ∧
    (let a := coreAt (wordI 0x71 63 0 0) fun c => { regs 8 0 0 c with slots := [{}] }
     Executing a 7 (wordI 0x71 63 0 0) ∧ 1 ≤ ((a.core 7).reg 63).tag ∧ ((a.core 7).reg 63).tag ≤ 8 ∧ 0 < (a.core 7).slots.length) ∧
    (∀ o ∈ [0x78, 0x79, 0x7A], let w := wordX o 63 0
      Executing (coreAt w id) 7 w ∧ 0 < tkInCount ((coreAt w id).entryOf 7)) ∧
    (let w := wordX 0x7B 63 0
     let a := coreAt w (regs 2 0 0)
     let ty := ptType (a.code.point ((a.code.outList (a.entryOf 7)).getD 0 0))
     Executing a 7 w ∧ 0 < tkOutCount (a.entryOf 7) ∧ 1 ≤ typeTag ty ∧ ((a.core 7).reg 63).tag = typeTag ty ∧
       ({ (a.core 7).log with outs := outMerge (a.core 7).log.outs 0 (some (typeValue ty ((a.core 7).reg 63).v)) none } : WriteLog).size ≤ a.logLimit 7) ∧
    (let w := wordX 0x7C 63 0
     let a := coreAt w (regs 6 0 0)
     Executing a 7 w ∧ 0 < tkOutCount (a.entryOf 7) ∧ ((a.core 7).reg 63).tag = Tag.bits ∧
       ({ (a.core 7).log with outs := outMerge (a.core 7).log.outs 0 none (some 1) } : WriteLog).size ≤ a.logLimit 7) := by
  refine ⟨?_, ?_, exe (by decide +kernel), exe (by decide +kernel), ?_, exe (by decide +kernel), exe (by decide +kernel)⟩ <;>
    (intro x hx; refine exe ?_; revert x; decide +kernel)

theorem test_premises_CoreFlow :
    let dest := fun (a : App) (i : Nat) => ((a.core 7).pc : Int) + 4 + 4 * (BitVec.ofNat 18 i).toInt
    let inCode := fun (a : App) (p : Int) => 0 ≤ p ∧ p + 4 ≤ (a.code.sect 3).length
    (∀ i ∈ [0, 10], let a := coreAt (wordX 0x80 0 i) id; Executing a 7 (wordX 0x80 0 i) ∧ inCode a (dest a i)) ∧
    (∀ o ∈ [0x81, 0x82], let a := coreAt (wordX o 63 10) (regs 1 0 0)
      Executing a 7 (wordX o 63 10) ∧ inCode a (dest a 10) ∧ ((a.core 7).reg 63).tag = Tag.bool) ∧
    (∀ t ∈ [Tag.int, Tag.uint], let a := coreAt (wordI 0x83 63 62 4095) (regs 0 t 0)
      Executing a 7 (wordI 0x83 63 62 4095) ∧ ((a.core 7).reg 62).tag = t) ∧
    (∀ i ∈ [2 ^ 18 - 1, 2 ^ 18 - 5], let a := coreAt (wordX 0x84 63 i) (regs 8 0 0)
      Executing a 7 (wordX 0x84 63 i) ∧ inCode a (dest a i) ∧ ((a.core 7).reg 63).tag = Tag.lcnt) ∧
    (∀ i ∈ [10, 2 ^ 18 - 5], let a := coreAt (wordX 0x85 0 i) id
      Executing a 7 (wordX 0x85 0 i) ∧ inCode a (dest a i) ∧ (a.core 7).calls.length < 64) ∧
    (let a := coreAt (wordR 0x86 0 62 0) fun c => c.put 62 0 Tag.uint
     let e := a.code.inst ((a.core 7).reg 62).v.toNat
     Executing a 7 (wordR 0x86 0 62 0) ∧ ((a.core 7).reg 62).tag = Tag.uint ∧ ((a.core 7).reg 62).v.toNat < a.code.ninst ∧
       a.taskOf 7 = some 0 ∧ e.owner = 0 ∧ (a.core 7).calls.length < 64 ∧ inCode a (a.code.typ e.typ).1) ∧
    (let a := coreAt (wordR 0x87 0 0 0) fun c => { c with calls := [⟨4, 0, 0, []⟩] }
     Executing a 7 (wordR 0x87 0 0 0) ∧ (a.core 7).calls = ⟨4, 0, 0, []⟩ :: []) ∧
    (let a := coreAt (wordI 0x88 0 0 4095) id
     Executing a 7 (wordI 0x88 0 0 4095) ∧ (a.core 7).calls.foldl (fun u f => u + 32 + 16 * f.slots.length) (16 * 4095) ≤ 65536) ∧
    (Executing (coreAt (wordR 0xFF 0 0 0) id) 7 (wordR 0xFF 0 0 0) ∧ ((coreAt (wordR 0xFF 0 0 0) id).core 7).calls = []) ∧
    (let a := running.onCore 7 fun c => { c with item := some (.task 0) }
     a.life.boot ≠ .held ∧ a.coreState 7 = 0 ∧ (a.core 7).item.isSome = true) := by
  refine ⟨?_, ?_, ?_, ?_, ?_, exe (by decide +kernel), exe (by decide +kernel), exe (by decide +kernel), exe (by decide +kernel), by decide +kernel⟩ <;>
    (intro x hx; refine exe ?_; revert x; decide +kernel)

theorem test_premises_CoreServices :
    (∀ v ∈ [1, 2, 3, 4], Executing (coreAt (wordS v 63 0) id) 7 (wordS v 63 0) ∧ True) ∧
    (∀ r ∈ [(0x010, 3), (0x011, 2), (0x012, 2), (0x013, 1), (0x014, 1), (0x015, 2), (0x016, 2)], ∀ x ∈ [0, 2 ^ 64 - 1],
      let w := wordS r.1 63 (64 - r.2)
      let v := BitVec.ofNat 64 x
      let a := coreAt w fun c => ((c.put 63 v Tag.uint).put 62 v Tag.uint).put 61 v Tag.uint
      let c := a.core 7
      Executing a 7 w ∧ a.taskOf 7 = some 0 ∧
        (∀ j, j < r.2 → (c.reg (64 - r.2 + j)).tag ∈ [Tag.bool, Tag.int, Tag.uint, Tag.bits]) ∧ c.log.acts.length < 64 ∧
        ({ c.log with acts := c.log.acts ++ [⟨r.1, 0, []⟩] } : WriteLog).size ≤ a.logLimit 7) := by
  refine ⟨?_, ?_⟩
  · intro x hx; refine exe ?_; revert x; decide +kernel
  · intro r hr x hx w v a c; refine exe ?_; revert r x; decide +kernel

theorem test_premises_CoreEventsAct :
    (let a := coreAt 0 fun c => { c with ended := true }
     a.life.boot ≠ .held ∧ (a.core 7).ended = true ∧ (a.core 7).item = some (.task 0) ∧ (a.task 0).scan.isSome = true) ∧
    (let i : InitSt := { queue := [], cmd := none, warm := false, slot := 0, reason := 0 }
     let a := (coreAt 0 fun c => { c with ended := true, item := some (.init 0) }).onCtl fun c => { c with init := some i }
     a.life.boot ≠ .held ∧ (a.core 7).ended = true ∧ (a.core 7).item = some (.init 0) ∧ a.ctl.init = some i) ∧
    (let a := running.onCtl fun c => { c with actions := [(⟨0x14, 0, [15]⟩, none)] }
     a.life.boot ≠ .held ∧ nextAction a.ctl.flagged [] a.ctl.actions = some (⟨0x14, 0, [15]⟩, [])) ∧
    (let a := coreAt 0 id
     a.life.boot ≠ .held ∧ (a.core 7).ended = false ∧ a.coreState 7 < 2 ∧ (a.core 7).item.isSome = true) ∧
    (running.life.boot ≠ .held ∧ (running.core 7).ended = false ∧ running.coreState 7 < 2 ∧ (running.core 7).item = none) ∧
    (let a := { running.setCore 7 2 with tick := 2 * tMs }
     a.life.boot ≠ .held ∧ a.coreState 7 = 2 ∧ a.since (a.core 7).testAt (2 * tMs) = true) ∧
    (let a := { coreAt 0 id with tick := 500 }
     a.life.boot ≠ .held ∧ (a.core 7).item = some (.task 0) ∧ a.coreState 7 = 1 ∧ (a.core 7).ended = false ∧
       2 * tkWcet (a.entry 0) ≤ 4 * (a.tick - (a.core 7).startAt)) ∧
    (let a := { coreAt 0 (fun c => { c with item := some (.init 0) }) with tick := tMs }
     a.life.boot ≠ .held ∧ (a.core 7).item = some (.init 0) ∧ a.coreState 7 = 1 ∧ (a.core 7).ended = false ∧ a.since (a.core 7).startAt tMs = true) ∧
    (let a := { running with tick := 10 * tS }
     a.life.boot ≠ .held ∧ a.ctl.running.isSome = true ∧ a.failedFor tMs = false ∧ a.since a.ctl.copyAt (a.get Reg.CSC_PCTL_retain_period * 100 * tMs) = true) := by
  decide +kernel

theorem test_premises_CoreTraps :
    (∀ r ∈ [(0x10, [2, 3, 7]), (0x11, [2, 3, 7]), (0x12, [2, 3]), (0x13, [2, 3, 7]), (0x14, [2, 3, 7]), (0x17, [2, 3, 7]), (0x18, [2, 3, 7]),
            (0x20, [1, 6]), (0x21, [1, 6]), (0x22, [1, 6])],
      (let a := coreAt (wordR r.1 63 62 61) (regs 0 0 0); Executing a 7 (wordR r.1 63 62 61) ∧ ((a.core 7).reg 62).tag ∉ r.2) ∧
      (let a := coreAt (wordR r.1 63 62 61) (regs 0 (r.2.headD 0) 0)
       Executing a 7 (wordR r.1 63 62 61) ∧ ((a.core 7).reg 62).tag ∈ r.2 ∧ ((a.core 7).reg 61).tag ≠ ((a.core 7).reg 62).tag)) ∧
    (Executing (coreAt (wordR 0xEE 0 0 0) id) 7 (wordR 0xEE 0 0 0) ∧ opKnown (opOf (wordR 0xEE 0 0 0)) = false) ∧
    (Executing (coreAt (wordR 0x87 0 0 0) id) 7 (wordR 0x87 0 0 0) ∧ ((coreAt (wordR 0x87 0 0 0) id).core 7).calls = []) ∧
    (let a := coreAt (wordR 0xFF 0 0 0) fun c => { c with calls := [⟨4, 0, 0, []⟩] }
     Executing a 7 (wordR 0xFF 0 0 0) ∧ (a.core 7).calls ≠ []) ∧
    (Executing (coreAt (wordR 0xF0 0 0 0) id) 7 (wordR 0xF0 0 0 0) ∧ True) := by
  refine ⟨?_, exe (by decide +kernel), exe (by decide +kernel), exe (by decide +kernel), exe (by decide +kernel)⟩
  intro r hr
  refine ⟨exe ?_, exe ?_⟩ <;> (revert r; decide +kernel)

/-- ADD of two INT registers holding 1 writes 2 with the tag INT and goes to the next word (R374, R377). -/
theorem test_add :
    (next? (exec (.add 7) (st (coreAt (wordR 0x10 63 62 61) (regs 0 2 2))))).map
      (fun s => ((s.app.core 7).reg 63, (s.app.core 7).pc)) = some (⟨2, 2⟩, 20) := by decide +kernel

/-! ### Premises of the events of time, angle, analog and Sluice units -/

/-- The state at a later tick, and with a wall time in seconds. -/
def later (n : Nat) (a : App) : App := { a with tick := n, opTicks := n }
def wall (sec : W48) (a : App) : App := a.onTim fun t => { t with wall := { t.wall with sec := sec } }

theorem test_premises_TimeEventsAct :
    live.life.boot ≠ .held ∧
    (let a := live.setB (Reg.TIM_CMP_CTL_en 15) true
     a.life.boot ≠ .held ∧ a.on (Reg.TIM_CMP_CTL_en 15) = true ∧ vat a.tim.served 15 = false ∧ a.cmpTarget 15 ≤ a.now) ∧
    (let a := later tS (live.setB Reg.TIM_CTL_ptp_en true)
     a.life.boot ≠ .held ∧ a.on Reg.TIM_CTL_ptp_en = true ∧ a.since (vat a.tim.pdelayAt 5) tS = true) ∧
    (∀ q ∈ [TimeQ.traceable, TimeQ.fallback],
      let a := later (20 * tS) ((live.setB Reg.TIM_CTL_servo_sel true).onTim fun t => { t with gm := some default, tq := q })
      a.life.boot ≠ .held ∧ (a.tim.gm.isSome = true ∨ a.tim.gmGone = true) ∧ a.since a.tim.syncAt (a.get Reg.TIM_PTP_CFG_ann_timeout * tS) = true ∧
        a.on Reg.TIM_CTL_servo_sel = true ∧ a.since a.tim.adjustAt (4 * tS) = true ∧ a.tim.tq = q) ∧
    (let a := later (65536 * tS) (live.onTim fun t => { t with tq := .holdover })
     a.life.boot ≠ .held ∧ a.tim.tq = .holdover ∧ a.since a.tim.holdAt (a.get Reg.TIM_HOLD_LIMIT_hold_s * tS) = true) ∧
    (∀ b ∈ [true, false], let a := (live.set Reg.TIM_CTL_ref_in 1).setB Reg.TIM_REF_CFG_polarity b
      a.life.boot ≠ .held ∧ a.get Reg.TIM_CTL_ref_in = 1 ∧ b = a.on Reg.TIM_REF_CFG_polarity) ∧
    (let a := later (1500 * tMs) ((live.set Reg.TIM_CTL_ref_in 1).onTim fun t => { t with tq := .fallback })
     a.life.boot ≠ .held ∧ (a.tim.tq = .fallback ∨ a.tim.irigUtc = true) ∧ a.since a.tim.refAt (1500 * tMs) = true) ∧
    (let a := later (3600 * tS) (live.onTim fun t => { t with tq := .fallback })
     a.life.boot ≠ .held ∧ a.tim.tq ≠ .invalid ∧ a.since a.bkp.wroteAt tS = true ∧ a.bkp.mirrorAt + 3600 * tS ≤ a.opTicks ∧
       a.bkp.anchorAt + 3600 * tS ≤ a.opTicks) := by
  decide +kernel

theorem test_premises_StepApplied :
    (∀ d ∈ [(0 : Int), 1000000000 * 2 ^ 48 - 1 - live.now], 0 ≤ (live.now : Int) + d ∧ (live.now : Int) + d < 1000000000 * 2 ^ 48) ∧
    live.tim.tq ≠ .traceable := by decide +kernel

theorem test_premises_StepLeavesAngles :
    0 ≤ (live.now : Int) + 5 ∧ (live.now : Int) + 5 < 1000000000 * 2 ^ 48 ∧ 0 ≤ ((7 : Nat) : Int) + 5 ∧
    (let a := live.onClk 3 fun c => { c with trace := [(112, 0)] }; ∀ e ∈ (vat a.clk 3).trace, 0 ≤ (e.1 : Int) + 16 * 5) := by decide +kernel

/-- The state with the clock of bay 3 in a state, and later. -/
def clk3 (n : Nat) (st : ClkState) (f : Clock → Clock) : App := (later n live).onClk 3 fun c => f { c with st := st }

theorem test_premises_AngleEventsAct :
    (∀ p ∈ [none, some 0], let a := (clk3 0 .freeRun fun c => { c with lateReq := vput c.lateReq 7 p }).setB (Reg.ANG_CMP_CTL_en 3 7) true
     a.life.boot ≠ .held ∧ (vat a.clk 3).st ≠ .off ∧ a.on (Reg.ANG_CMP_CTL_en 3 7) = true ∧ (0 : BitVec 48).toNat = a.angTarget 3 7 ∧ vat (vat a.clk 3).lateReq 7 = p ∧
       (p = none → vat (vat a.clk 3).served 7 = false ∧ reached48 (a.a48 3) (a.angTarget 3 7) = true) ∧ (∀ n, p = some n → n ≤ a.sig.periods)) ∧
    (let a := clk3 0 .freeRun fun c => { c with acc := 2048 * 2 ^ 32 }
     a.life.boot ≠ .held ∧ a.tickDue 3 = true ∧ (2048 : BitVec 48).toNat = 2048 * ((vat a.clk 3).tickNo + 1) % 2 ^ 48) ∧
    (∀ r ∈ [1, 2], let a := clk3 0 .acquiring fun c => { c with lockTicks := 65536, vTicks := if r = 1 then 65536 else 0, refUsed := r }
     a.life.boot ≠ .held ∧ (vat a.clk 3).st = .acquiring ∧ 32 * a.get (Reg.ANG_LOCK_lock_cycles 3) ≤ (vat a.clk 3).lockTicks ∧
       ¬ ((vat a.clk 3).refUsed = 2 ∧ 32 * a.get (Reg.ANG_LOCK_lock_cycles 3) ≤ (vat a.clk 3).vTicks)) ∧
    (let a := clk3 0 .acquiring fun c => { c with vTicks := 65536, refUsed := 2 }
     a.life.boot ≠ .held ∧ (vat a.clk 3).st = .acquiring ∧ (vat a.clk 3).refUsed = 2 ∧ 32 * a.get (Reg.ANG_LOCK_lock_cycles 3) ≤ (vat a.clk 3).vTicks) ∧
    (let a := clk3 0 .lockedI fun c => { c with vTicks := 65536 }
     a.life.boot ≠ .held ∧ (vat a.clk 3).st = .lockedI ∧ 32 * a.get (Reg.ANG_LOCK_lock_cycles 3) ≤ (vat a.clk 3).vTicks) ∧
    (let a := clk3 (100000 * tMs) .frozen id
     a.life.boot ≠ .held ∧ (vat a.clk 3).st = .frozen ∧ a.since (vat a.clk 3).stAt (a.get (Reg.ANG_FRZ_freeze_max 3) * 100 * tMs) = true) ∧
    (∀ v ∈ [true, false], let a := clk3 0 .frozen fun c => { c with clearTicks := 65536, vValid := v }
     a.life.boot ≠ .held ∧ (vat a.clk 3).st = .frozen ∧ a.since (vat a.clk 3).stAt (a.get (Reg.ANG_FRZ_freeze_max 3) * 100 * tMs) = false ∧
       32 * a.get (Reg.ANG_FRZ_settle_cycles 3) ≤ (vat a.clk 3).clearTicks ∧ (vat a.clk 3).vValid = v) ∧
    (let a := clk3 (100000 * tS) .holdover id
     a.life.boot ≠ .held ∧ (vat a.clk 3).st = .holdover ∧ a.since (vat a.clk 3).stAt (a.get (Reg.ANG_HOLD_hold_max 3) * tS) = true) := by
  decide +kernel

/-- The state with the rotation of bay 3 enabled, its hand-over in a state, and no SELF_CAL. -/
def hand3 (n : Nat) (h : Handover) (f : AnaBay → AnaBay) : App :=
  let a := (later n live).setB (Reg.ANA_FLOAT_float_en 3) true
  { a with ana := { a.ana with calRun := none } }.onBay 3 fun x => f { x with hand := h }

/-- The words of a window of a hand-over: those of the Float slice equal to those of the old one, or a sixth less. -/
def pairsOf (n : Nat) (same : Bool) : List (Int × Int) :=
  let f : Int := if same then 384000000 else 320000000
  (List.replicate (n / 2) [(384000000, f), (-384000000, -f)]).flatten

def handWords (n : Nat) (same spoiled : Bool) (a : App) : App :=
  a.onSig fun z => { z with hand := vup z.hand 3 fun _ => { at_ := 0, pairs := pairsOf n same, spoiled := spoiled } }

theorem test_premises_HandoverEventsAct :
    (∀ d ∈ [none, some 1], let a := hand3 0 .idle fun x => { x with deferred := d }
      a.life.boot ≠ .held ∧ a.ana.calRun = none ∧ a.rotating 3 = true ∧ (vat a.ana.bays 3).deferred = d ∧ (vat a.ana.bays 3).dueAt ≤ a.tick ∧
        a.wallSec ≠ 1) ∧
    (let a := (hand3 tS (.connect 0) id).onSig fun z => { z with periods := 231 }
     a.life.boot ≠ .held ∧ (vat a.ana.bays 3).hand = .connect 0 ∧ 0 + 231 ≤ a.nextCic) ∧
    (∀ e ∈ [true, false], ∀ v ∈ [false, true],
      let a := handWords 2048 e v (hand3 tS (.compare 0) id)
      let ps := pairsOf 2048 e
      let f := fitLine (tooFlat ps) ps
      a.life.boot ≠ .held ∧ (vat a.ana.bays 3).hand = .compare 0 ∧ (a.handWin 3 0 2048).map (·.2) = some v ∧ a.handBlocked 3 = false ∧
        (e = true → 2000 * (f.1 - 2 ^ 32).natAbs ≤ 2 ^ 32 ∧ 5000 * f.2.natAbs ≤ rangeCode * 2 ^ 22) ∧
        (e = false → 2 ^ 32 < 2000 * (f.1 - 2 ^ 32).natAbs ∨ rangeCode * 2 ^ 22 < 5000 * f.2.natAbs)) ∧
    (∀ e ∈ [true, false], ∀ v ∈ [false, true],
      let a := handWords 512 e v (hand3 tS (.verify 0) id)
      let ps := pairsOf 512 e
      let f := fitLine (tooFlat ps) ps
      let p := ps.foldl (fun m x => max m x.1.natAbs) 0
      a.life.boot ≠ .held ∧ (vat a.ana.bays 3).hand = .verify 0 ∧ (a.handWin 3 0 512).map (·.2) = some v ∧ a.handBlocked 3 = false ∧
        (e = true → f.2.natAbs * 2 ^ 16 + (f.1 - 2 ^ 32).natAbs * p ≤ 64 * 2 ^ 32) ∧
        (e = false → 64 * 2 ^ 32 < f.2.natAbs * 2 ^ 16 + (f.1 - 2 ^ 32).natAbs * p)) ∧
    (let a := hand3 0 (.decided 0) id
     a.life.boot ≠ .held ∧ (vat a.ana.bays 3).hand = .decided 0 ∧ 0 ≤ a.nextCic) ∧
    (let a := hand3 (180 * tMs) (.calibrate 0 8) id
     a.life.boot ≠ .held ∧ (vat a.ana.bays 3).hand = .calibrate 0 8 ∧ a.since 0 (180 * tMs) = true) := by
  refine ⟨?_, ?_, ?_, ?_, ?_, ?_⟩ <;> decide +kernel

theorem test_premises_AnalogEventsAct :
    live.life.boot ≠ .held ∧
    (let a := later (500 * tMs) live
     let a := { a with ana := { a.ana with calRun := some 0 } }
     a.life.boot ≠ .held ∧ a.ana.calRun = some 0 ∧ a.since 0 (405 * tMs) = true ∧ a.ana.calCmd = none) ∧
    (let a := (live.onBay 3 fun x => { x with rangeNow := vput x.rangeNow 7 (!bitOf (live.get (Reg.ANA_CHCFG_ch 3)) 15), srcNow := 3 })
     a.life.boot ≠ .held ∧ vat (vat a.ana.bays 3).rangeNow 7 ≠ bitOf (a.get (Reg.ANA_CHCFG_ch 3)) (2 * 7 + 1) ∧
       (vat a.ana.bays 3).srcNow ≠ bitsOf (a.get Reg.ANA_REFCFG_src) (2 * 3) 2) ∧
    (let a := wall 2 live
     let a := { a with ana := { a.ana with decPend := some ([], 0) } }
     a.life.boot ≠ .held ∧ a.ana.decPend = some ([], 0) ∧ decEdge 0 ≤ a.modNow ∧ a.ana.aux.hkSec ≠ a.now / 1000000000) ∧
    (let a := later (200 * tMs) live
     a.life.boot ≠ .held ∧ a.since (vat (vat a.ana.bays 3).intAt 7) (200 * tMs) = true) ∧
    (let a := later 9 ((live.setB Reg.ANA_AUXSTAT_REF_SETTLED false).onAux fun x => { x with refAt := 9 })
     a.life.boot ≠ .held ∧ a.on Reg.ANA_AUXSTAT_REF_SETTLED = false ∧ a.ana.aux.refAt ≠ 0 ∧ a.ana.aux.refAt ≤ a.tick) ∧
    (let c : AuxConv := { src := .single, slot := ⟨0, 1, 0, 0⟩, startAt := 0 }
     let a := later tS (live.onAux fun x => { x with running := some c })
     a.life.boot ≠ .held ∧ a.ana.aux.running = some c ∧ a.ana.aux.heldTo = none ∧ [(5 : BitVec 24)].length = c.slot.n ∧
       a.since c.startAt (convTicks c.slot.n) = true) := by
  decide +kernel

theorem test_premises_SluiceEventsAct :
    (∀ e ∈ [0, 1], let a := live.set (Reg.SLU_STAT_state e) 0
      a.life.boot ≠ .held ∧ a.get (Reg.SLU_STAT_state e) = 0) ∧
    (∀ t ∈ [false, true],
      let p : PairSt := { ticks := if t then 0 else 5, told := t }
      let a := live.onSlu fun x => { x with live := [(1024 * live.groupOf 3 + 511, desc51)], pairs := [(511, p)] }
      a.life.boot ≠ .held ∧ (upto 4).find? (fun b => dLive (a.liveDesc b 511) b) = some 3 ∧ pairAt a.slu.pairs 511 = p ∧
        ((t = false → 4 < p.ticks ∧ p.told = false) ∧ (t = true → p.ticks = 0 ∧ p.told = true))) ∧
    (let t : ReadyTick := default
     let a := (live.set (Reg.SLU_STAT_state 1) 0).onSlu fun x => { x with eng := vup x.eng 1 fun e => { e with bays := vup e.bays 3 fun b => { b with ready := [t, t] } } }
     a.life.boot ≠ .held ∧ a.get (Reg.SLU_STAT_state 1) = 0 ∧ (3 : Nat) < 4 ∧ 2 ≤ (vat (vat a.slu.eng 1).bays 3).ready.length) ∧
    (let a := live.onSlu fun x => { x with eng := vup x.eng 1 fun e => { e with reloadAt := some 0 } }
     a.life.boot ≠ .held ∧ (vat a.slu.eng 1).reloadAt.isSome = true) ∧
    (let a := ((live.set (Reg.SLU_FDCTL_inst_en 3) 15).set (Reg.SLU_FDCTL_n_conf 3) 2).onSig fun z =>
       { z with fast := vup z.fast 3 fun f => { f with up := vput f.up 3 2 } }
     a.life.boot ≠ .held ∧ vat (vat a.slu.fast 3).inst 3 = false ∧ bitOf (a.get (Reg.SLU_FDCTL_inst_en 3)) 3 = true ∧
       a.get (Reg.SLU_FDCTL_n_conf 3) ≤ vat (vat a.sig.fast 3).up 3) ∧
    (let a := ((live.set (Reg.SLU_FDCTL_dd 3) 2).onSlu fun x => { x with fast := vup x.fast 3 fun f => { f with inst := vput f.inst 3 true } }).onSig
       fun z => { z with fast := vup z.fast 3 fun f => { f with down := vput f.down 3 2 } }
     a.life.boot ≠ .held ∧ vat (vat a.slu.fast 3).inst 3 = true ∧ a.get (Reg.SLU_FDCTL_dd 3) ≤ vat (vat a.sig.fast 3).down 3) ∧
    (let a := ((live.setB (Reg.SLU_FDCTL_dist_en 3) true).set (Reg.SLU_FDCTL_n_conf 3) 2).onSig fun z =>
       { z with fast := vup z.fast 3 fun f => { f with distUp := 2 } }
     a.life.boot ≠ .held ∧ a.on (Reg.SLU_FDCTL_dist_en 3) = true ∧ (vat a.slu.fast 3).dist = false ∧
       a.get (Reg.SLU_FDCTL_n_conf 3) ≤ (vat a.sig.fast 3).distUp) ∧
    (let a := ((live.set (Reg.SLU_FDCTL_dd 3) 2).onSlu fun x => { x with fast := vup x.fast 3 fun f => { f with dist := true } }).onSig fun z =>
       { z with fast := vup z.fast 3 fun f => { f with distDown := 2 } }
     a.life.boot ≠ .held ∧ (vat a.slu.fast 3).dist = true ∧ a.get (Reg.SLU_FDCTL_dd 3) ≤ (vat a.sig.fast 3).distDown) ∧
    (let a := live.onSlu fun x => { x with sub := vup x.sub 3 fun z => { z with pending := some (true, true, 0) } }
     a.life.boot ≠ .held ∧ (vat a.slu.sub 3).pending = some (true, true, 0)) ∧
    (∀ v ∈ [true, false], let a := later tS ((live.setB (Reg.SLU_BAY_sub_active 3) true).setB (Reg.SLU_BAY_sub_fallback 3) v)
      a.life.boot ≠ .held ∧ a.on (Reg.SLU_BAY_sub_active 3) = true ∧ a.on (Reg.SLU_BAY_sub_fallback 3) = v ∧
        a.svSilent 3 = true ∧ (vat a.slu.sub 3).pending = none) := by
  refine ⟨?_, ?_, ?_, ?_, ?_, ?_, ?_, ?_, ?_, ?_⟩ <;> decide +kernel

/-- The state with the breaker operation of bay 3, and later. -/
def op3 (n : Nat) (o : BrkOp) : App := (later n live).onTrp fun t => { t with ops := vput t.ops 3 (some o) }
def brkOp (p : BrkPhase) : BrkOp := { cmd := none, open_ := true, pow := true, target := 0, phase := p }

theorem test_premises_TripEventsAct :
    (let a := (later tS (live.setB (Reg.TRP_CHSTAT_on 7) true)).onCh 7 fun c => { c with hotAt := some 0 }
     (vat a.trp.ch 7).hotAt = some 0 ∧ a.on (Reg.TRP_CHSTAT_on 7) = true ∧ a.since 0 (200 * tMs) = true ∧ a.mayOpen 7 = true ∧
       (vat a.trp.ch 7).logicUp = true ∧ (vat a.trp.ch 7).measAt = none) ∧
    (∀ n ∈ [0, tMs], let a := (later tMs live).onCh 7 fun c => { c with measAt := some n, hotAt := some n }
     (vat a.trp.ch 7).measAt = some n ∧ a.since n tMs = decide (n = 0) ∧ (vat a.trp.ch 7).hotAt = some n ∧ a.since n (200 * tMs) = false) ∧
    (live.onLife fun l => { l with boot := .held }).life.boot = .held ∧
    (let a := later (10000 * tS) ((live.setB (Reg.TRP_CHSTAT_on 7) true).setB (Reg.TRP_CHCFG_seal_en 7) true)
     a.on (Reg.TRP_CHSTAT_on 7) = true ∧ (vat a.trp.ch 7).row = false ∧ a.on (Reg.TRP_CHCFG_seal_en 7) = true ∧
       a.since (vat a.trp.ch 7).onAt (a.get (Reg.TRP_CHTIM_t_min 7) * tMs) = true ∧
       a.since (vat a.trp.ch 7).offAt (a.get (Reg.TRP_CHTIM_seal_max 7) * 100 * tMs) = true) ∧
    (∀ n ∈ [1, 2, 3, 5], let a := (later (100 * tS) live).onCh 7 fun c => { c with cond := n }
      a.life.boot ≠ .held ∧ 1 ≤ (vat a.trp.ch 7).cond ∧ (vat a.trp.ch 7).cond ≤ 5 ∧ (vat a.trp.ch 7).cond ≠ 4 ∧
        a.since (vat a.trp.ch 7).condAt (a.get (Reg.TRP_CHTIM_tcs_time 7) * 100 * tMs) = true ∧ a.since a.trp.scanAt tUs = true) ∧
    (let a := op3 tS (brkOp (.fired 0 none))
     a.life.boot ≠ .held ∧ vat a.trp.ops 3 = some (brkOp (.fired 0 none)) ∧ a.since 0 ((brkOp (.fired 0 none)).fine / 4) = true) ∧
    (∀ v ∈ [true, false], let a := (op3 tS (brkOp (.fired 0 (some 2)))).setB (Reg.TRP_BKCFG_pow_fallback 3) v
      a.life.boot ≠ .held ∧ vat a.trp.ops 3 = some (brkOp (.fired 0 (some 2))) ∧ a.on (Reg.TRP_BKCFG_pow_fallback 3) = v) ∧
    (let o := { brkOp (.done 0) with out := true, shownAt := some 0 }
     let a := op3 (2 * tS) o
     a.life.boot ≠ .held ∧ vat a.trp.ops 3 = some o ∧ a.since 0 (a.get (Reg.TRP_BKTIM_pulse_ms 3) * 2 * tMs) = true ∧ a.since 0 (20 * tMs) = true) ∧
    (let o := brkOp (.done 0)
     let a := (op3 (2 * tS) o).set (Reg.TRP_BKTIM_pos_idx 3) 0x900
     a.life.boot ≠ .held ∧ vat a.trp.ops 3 = some o ∧ a.get (Reg.TRP_BKTIM_pos_idx 3) ≠ 0xFFF ∧ o.shownAt = none ∧ o.failed = false ∧
       a.since 0 (a.get (Reg.TRP_BKTIM_op_timeout 3) * tMs) = true ∧ o.onset = none ∧
       a.since 0 (5000 + a.get (Reg.TRP_BKTIM_op_timeout 3) * tMs) = true) ∧
    (let o := brkOp (.done 0)
     let f : JetFrame := { (default : JetFrame) with edge := 16 * 50000, ang := Vector.replicate 4 (65536 * 2 ^ 32), words := Vector.replicate 32 0x4000#16 }
     let a := ((op3 (2 * tS) o).set (Reg.TRP_BKTIM_op_timeout 3) 100).set (Reg.TRP_BKCFG_learn_mask 3) 0x80
     let b := a.onSig fun z => { z with ring := [f, { (default : JetFrame) with ang := Vector.replicate 4 0 }] }
     b.life.boot ≠ .held ∧ vat b.trp.ops 3 = some o ∧ o.onset = none ∧ b.onsetOf 3 o = some (b.jetStamp 3 7 f) ∧
       a.onsetOf 3 o = none ∧ a.since 0 (5000 + a.get (Reg.TRP_BKTIM_op_timeout 3) * tMs) = true) := by
  refine ⟨?_, ?_, ?_, ?_, ?_, ?_, ?_, ?_, ?_, ?_⟩ <;> decide +kernel

theorem test_premises_TripChannelFollowsRow :
    (live.get (Reg.TRP_CHSTAT_on 7) = 0 ∧ (vat live.trp.ch 7).overload = false ∧ (vat live.trp.ch 7).tspLost = false) ∧
    (let a := live.onCh 7 fun c => { c with overload := true }; a.get (Reg.TRP_CHSTAT_on 7) = 0 ∧ (vat a.trp.ch 7).overload = true) ∧
    (let a := live.onCh 7 fun c => { c with tspLost := true }; a.get (Reg.TRP_CHSTAT_on 7) = 0 ∧ (vat a.trp.ch 7).tspLost = true) ∧
    (let a := (live.setB (Reg.TRP_CHSTAT_on 7) true).set (Reg.TRP_CHTIM_t_min 7) 1
     a.get (Reg.TRP_CHSTAT_on 7) = 1 ∧ a.since (vat a.trp.ch 7).onAt (a.get (Reg.TRP_CHTIM_t_min 7) * tMs) = false) ∧
    (let a := ((live.setB (Reg.TRP_CHSTAT_on 7) true).setB (Reg.TRP_CHCFG_seal_en 7) true)
     a.get (Reg.TRP_CHSTAT_on 7) = 1 ∧ a.on (Reg.TRP_CHCFG_seal_en 7) = true ∧ a.lowFor 7 = false) ∧
    (∀ v ∈ [true, false], let a := later tS ((live.setB (Reg.TRP_CHSTAT_on 7) true).setB (Reg.TRP_CHCFG_seal_en 7) v)
      a.get (Reg.TRP_CHSTAT_on 7) = 1 ∧ a.since (vat a.trp.ch 7).onAt (a.get (Reg.TRP_CHTIM_t_min 7) * tMs) = true ∧
        (a.on (Reg.TRP_CHCFG_seal_en 7) = false ∨ a.lowFor 7 = true)) := by
  decide +kernel

/-- A group or arrival message with its CRC (R289, R305). -/
def message (kind dst src sel : Nat) : List Byte :=
  let d := le 1 kind ++ le 1 1 ++ le 2 dst ++ le 2 src ++ le 2 sel ++ le 4 1 ++ padTo 16 []
  d ++ le 4 (crc32c d)

theorem test_premises_CaptureEventsAct :
    (∀ x ∈ [(none, 0, 0), (some 0, 0, 0), (some 3, 0, 0), (some 3, 1, 0), (some 3, 0, 1), (some 3, 1, 1)],
      let r : PoolRow := ⟨1, 5, 8, 0, true, 0, 0, 0, Vector.replicate 32 0⟩
      let a := ((wall 2 live).onCap fun c => { c with last := x.1, gen := x.2.1, tsc := x.2.2 }).onSig fun z => { z with rows := [r] }
      let b := (upto 8).foldl (fun a i => a.subClose i []) a
      a.life.boot ≠ .held ∧ b.nextFrame = some r ∧ r.no = (1 : W64).toNat ∧ r.no ≠ (2 : W64).toNat ∧ b.frameDue r = true ∧ b.cap.last = x.1 ∧
        decide (b.cap.gen = r.gen) = decide (x.2.1 = 0) ∧ decide (b.cap.tsc = r.tsc) = decide (x.2.2 = 0) ∧
        (∀ l ∈ x.1, decide (l + r.navg = r.per) = decide (l = 3))) ∧
    ((upto 8).foldl (fun a i => a.subClose i []) live).nextFrame = none ∧
    (∀ g ∈ [false, true], ∀ o ∈ [[], [(0, 3)]],
      let a := (live.setB (Reg.CAP_TRG_CFG_gate 31) g).set (Reg.CAP_TRG_WIN_win_len 31) 1
      let a := (a.onCap fun c => { c with trig := vup c.trig 31 fun x => { x with opens := o } }).onSig fun z =>
        { z with trig := vup z.trig 31 fun x => { x with done := [⟨5, 1, 0, 0⟩, ⟨6, 2, 0, 0⟩] } }
      a.life.boot ≠ .held ∧ (vat live.sig.trig 31).done = [] ∧ (vat a.sig.trig 31).done = ⟨5, 1, 0, 0⟩ :: [⟨6, 2, 0, 0⟩] ∧
        a.on (Reg.CAP_TRG_CFG_gate 31) = g ∧ a.inWindow 31 5 = if o = [] then none else some 3) ∧
    (∀ k ∈ [1, 2, 3], ∀ h ∈ [[], [(9, 0#32)]], ∀ t ∈ [none, some 0],
      let a := { ((live.setB (Reg.CAP_GRP_en 3) true).set (Reg.CAP_GRP_group_id 3) 0x1234) with node := 7 }
      let a := a.onCap fun c => { c with grp := vup c.grp 3 fun x => { x with heard := h, stateAt := t } }
      let d := message k 0x1234 9 0
      let seq := BitVec.ofNat 32 (numAt d 8 4)
      let b := a.onGrp 3 fun x => { x with heard := heardPut x.heard 9 seq }
      a.life.boot ≠ .held ∧ a.node ≠ 0 ∧ a.groupSlot (numAt d 2 2) = some 3 ∧ d.length = 32 ∧ numAt d 28 4 = crc32c (d.take 28) ∧
        numAt d 1 1 = 1 ∧ numAt d 4 2 = 9 ∧ (9 : Nat) ≠ a.node ∧
        ((vat a.cap.grp 3).heard.find? (fun e => e.1 == 9) = none ∨
          ((vat a.cap.grp 3).heard.find? (fun e => e.1 == 9) = some (9, 0#32) ∧ laterSeq seq 0#32 = true)) ∧
        (vat b.cap.grp 3).heard.length ≤ 255 ∧ numAt d 0 1 = k ∧ (vat a.cap.grp 3).stateAt = t ∧ numAt d 12 8 = 0 ∧
        (let d' := d.take 31; a.groupSlot (numAt d' 2 2) = some 3 ∧ d'.length ≠ 32)) ∧
    (∀ n ∈ [1, 2], let r : Repeat := ⟨1, 0, [], 0, n⟩
      let a := (later tS live).onCap fun c => { c with repeats := [r] }
      a.life.boot ≠ .held ∧ a.cap.repeats[0]? = some r ∧
        a.cap.repeats.findIdx? (fun r => r.kind == 1 && a.since r.at_ (if r.done = 1 then tMs else 3 * tMs)) = some 0) ∧
    (let w : Owner := ⟨0, 0, 1⟩
     let a := { live with cmd := { live.cmd with owners := vput live.cmd.owners 8 (some w) } }
     a.life.boot ≠ .held ∧ vat a.cmd.owners 8 = some w ∧ a.ownerOf 8 = none) := by
  refine ⟨?_, ?_, ?_, ?_, ?_, ?_⟩ <;> decide +kernel

theorem test_premises_TravellingWaveEventsAct :
    (let f : JetFrame := default
     let a := live.onSig fun z => { z with jetCount := 9, ring := List.replicate 9 f, tw := vup z.tw 3 fun x => { x with picks := [1, 5] } }
     a.life.boot ≠ .held ∧ (vat a.sig.tw 3).picks = 1 :: [5] ∧ 1 + 8 ≤ a.sig.jetCount ∧ a.frameAt 1 = some f) ∧
    (∀ t ∈ [none, some 5], ∀ e ∈ [[], [0]],
      let d : TwDet := default
      let a := ((wall 2 live).set (Reg.CAP_TWCFG_confirm 3) 1).set (Reg.TRP_BKTIM_op_timeout 3) 100
      let a := ((a.onTwBay 3 fun x => { x with dets := [d] }).onSlu fun x => { x with fast := vup x.fast 3 fun f => { f with distAt := t } }).onTrp
        fun x => { x with execs := vput x.execs 3 e }
      a.life.boot ≠ .held ∧ (vat a.tw.bays 3).dets = d :: [] ∧ (vat a.slu.fast 3).distAt = t ∧
        d.arrival + a.get (Reg.CAP_TWCFG_confirm 3) * 1000000 ≤ a.now ∧ d.arrival ≤ 5 ∧ 5 < d.arrival + a.get (Reg.CAP_TWCFG_confirm 3) * 1000000 ∧
        ((vat a.trp.execs 3).any (fun e => decide (e ≤ d.arrival + 1000000) &&
          decide (d.arrival < e + a.get (Reg.TRP_BKTIM_op_timeout 3) * 1000000)) = !e.isEmpty)) ∧
    (∀ h ∈ [none, some hdr], ∀ n ∈ [none, some 0], let c : TwCut := { bay := 3, seq := 0, np := n, edge := 0, det := none, cmd := h }
      let a := ((wall 2 live).onTw fun t => { t with cuts := [c] }).onSig fun z =>
        { z with jetCount := 3689, ring := List.replicate 3688 { (default : JetFrame) with edge := 16000000000 } ++ [default] }
      a.life.boot ≠ .held ∧ a.tw.cuts.find? (fun c => c.bay == 3) = some c ∧ c.edge ≤ a.now ∧
        c.np.getD (a.nearestCount 3 c.edge) + 3688 ≤ a.sig.jetCount ∧ c.cmd = h) ∧
    (∀ h ∈ [[], [(4 * 7 + 2, 0#32)]],
      let a := { ((live.set (Reg.CAP_TWPEER_peer_node 3) 7).set (Reg.CAP_TWPEER_peer_bay 3) 2) with node := 9 }
      let a := a.onTwBay 3 fun x => { x with heard := h }
      let d := message 4 7 9 14
      let seq := BitVec.ofNat 32 (numAt d 8 4)
      a.life.boot ≠ .held ∧ numAt d 6 1 / 4 % 4 = 3 ∧ d.length = 32 ∧ numAt d 28 4 = crc32c (d.take 28) ∧ numAt d 0 1 = 4 ∧ numAt d 1 1 = 1 ∧
        numAt d 4 2 = a.node ∧ numAt d 2 2 = a.get (Reg.CAP_TWPEER_peer_node 3) ∧ numAt d 6 1 % 4 = a.get (Reg.CAP_TWPEER_peer_bay 3) ∧
        ((vat a.tw.bays 3).heard.find? (fun e => e.1 == 30) = none ∨
          ((vat a.tw.bays 3).heard.find? (fun e => e.1 == 30) = some (30, 0#32) ∧ laterSeq seq 0#32 = true)) ∧
        numAt (message 1 7 9 14) 0 1 ≠ 4) ∧
    (let r : Repeat := ⟨2, 0, [], 0, 2⟩
     let a := (later tS live).onCap fun c => { c with repeats := [r] }
     a.life.boot ≠ .held ∧ a.cap.repeats[0]? = some r ∧
       a.cap.repeats.findIdx? (fun r => r.kind == 2 && a.since r.at_ (if r.done = 1 then tMs else 3 * tMs)) = some 0) ∧
    (let a := (wall 2 live).onTwBay 3 fun t => { t with locals := [⟨0, 0, 0⟩] }
     a.life.boot ≠ .held ∧ (vat a.tw.bays 3).locals = ⟨0, 0, 0⟩ :: [] ∧ 0 + a.get Reg.CAP_TWCTL_rem_wait * 1000000 ≤ a.now) := by
  refine ⟨?_, ?_, ?_, ?_, ?_, ?_⟩ <;> decide +kernel

/-- A snapshot with its CRC, with no load-profile entries. -/
def snapshot : List Byte :=
  let d := padTo 384 ([1, 1] ++ padTo 6 [] ++ le 4 388)
  d ++ le 4 (crc32c d)

set_option maxRecDepth 10000 in
theorem test_premises_MailboxEventsAct :
    (live.life.boot ≠ .held ∧ snapOk snapshot = true ∧ snapOk [] = false) ∧
    (let q : MboxReq := ⟨hdr, buf, 0, 1, 0⟩
     let a := (later (2 * tS) (live.setB Reg.CIS_STAT_silent false)).onMbox fun m => { m with reqs := [q] }
     a.life.boot ≠ .held ∧ a.on Reg.CIS_STAT_silent = false ∧ a.since a.mbox.rxAt (300 * tMs) = true ∧
       a.mbox.reqs.find? (fun q => a.since q.at_ (2 * tS)) = some q) := by
  decide +kernel

/-! ### Premises of the setup accesses, the long operations and the host contexts -/

/-- Context 7 with the setup role. -/
def setup : App := live.setB (Reg.HCX_ROLE_active_setup 7) true

/-- Context 7 ready to be enabled. -/
def ready7 : App :=
  let a := ((setup.set (Reg.HCX_ROLE_role 7) 4).set (Reg.HCX_DBADDR_db_addr 7) 64).setB (Reg.HCX_PORT_link_up 1) true
  (upto 11).foldl (fun a r => a.set (Reg.HCX_RCFG_log2size 7 r) 4) a

/-- The present value of a register. -/
def value (a : App) (o : Nat) : Nat := ((regAt o).map (a.regValue o)).getD 0

theorem test_premises_SetupWritesAct :
    setup.life.boot ≠ .held ∧
    (∀ o ∈ [0x2100 + 0x20 * 15, 0x2110 + 0x20 * 15, 0x3040 + 0x100 * 3 + 0x10 * 7],
      setup.writeReason 7 o 8 (value setup o) = none ∧ (regAt o).isSome = true ∧ live.writeReason 7 o 8 (2 ^ 64 - 1) = some 1) ∧
    (∀ o ∈ [0x2108 + 0x20 * 15, 0x2118 + 0x20 * 15, 0x3048 + 0x100 * 3 + 0x10 * 7, 0x304C + 0x100 * 3 + 0x10 * 7, 0x3000 + 0x100 * 3,
            0x5000, 0x5010 + 4 * 3, 0xB100 + 0x20 * 31, 0xE084, 0xF384, 0x40],
      setup.writeReason 7 o 4 (value setup o) = none ∧ (regAt o).isSome = true ∧ live.writeReason 7 o 4 (2 ^ 32 - 1) = some 1) ∧
    (∀ o ∈ [0x7210 + 0x40 * 3, 0x7214 + 0x40 * 3, 0x720C + 0x40 * 3, 0xC000 + 4 * 7],
      setup.writeReason 7 o 4 (value setup o) = none ∧ (regAt o).isSome = true ∧ live.writeReason 7 o 4 (2 ^ 32 - 1) = some 1) ∧
    (setup.writeReason 7 0x1100C 4 (value setup 0x1100C) = none ∧ (regAt 0x1100C).isSome = true ∧
      live.writeReason 7 0x1100C 4 (2 ^ 32 - 1) = some 3) ∧
    (∀ v ∈ [1 + 2 ^ 16 * 5, 2 ^ 16 * 5], ready7.writeReason 7 (0x20000 + 0x4000 * 7) 4 v = none ∧ (regAt (0x20000 + 0x4000 * 7)).isSome = true ∧
      setup.writeReason 6 (0x20000 + 0x4000 * 7) 4 v = some 8) ∧
    (setup.writeReason 7 0x10010 8 5 = none ∧ (regAt 0x10010).isSome = true ∧ live.writeReason 7 0x10010 8 (2 ^ 64 - 1) = some 1) ∧
    setup.writeReason 7 0x40 2 0 = some 6 ∧
    (let a := setup.onClk 3 fun c => { c with defer := vput c.defer 7 [(7, 0x3040 + 0x100 * 3 + 0x10 * 7, 5)] }
     setup.defers 0x40 = none ∧ setup.defers (0x3040 + 0x100 * 3 + 0x10 * 7) = none ∧
       a.writeReason 7 (0x3040 + 0x100 * 3 + 0x10 * 7) 8 9 = none ∧ a.defers (0x3040 + 0x100 * 3 + 0x10 * 7) = some (3, 7)) := by
  refine ⟨?_, ?_, ?_, ?_, ?_, ?_, ?_, ?_, ?_⟩ <;> decide +kernel

theorem test_premises_SetupReadsAct :
    live.life.boot ≠ .held ∧ ((0x40 : Nat) % 8 = 0 ∧ (0x40 : Nat) ≠ ethDataAt ∧ (0x40 : Nat) ≠ canDataAt ∧ (0x44 : Nat) ≠ ethDataAt ∧ (0x44 : Nat) ≠ canDataAt) ∧
    ((regAt 0x40).map (·.wide) = some false ∧ (regAt 0x2100).map (·.wide) = some true ∧ (regAt 0xE084).map (·.wide) = some false ∧
      (regAt 0xF384).map (·.wide) = some false) ∧
    (let a := live.onCtx 7 fun c => { c with latch := some (0x2100, 9) }
     (0x2104 : Nat) % 4 = 0 ∧ regAt 0x2104 = none ∧ (vat a.ctxs 7).latch = some (0x2104 - 4, 9)) := by
  refine ⟨?_, ?_, ?_, ?_⟩ <;> decide +kernel

/-- The state with a long operation of context 7. -/
def long7 (c : Bool) (op : HostOp) (f : App → App) : App × LongOp :=
  let l : LongOp := { hdr := ⟨7, 0, 1⟩, op := op, total := 9, cancel := c }
  let a := f running
  ({ a with cmd := { a.cmd with long := vput a.cmd.long 7 (some l) } }, l)

theorem test_premises_LongOperationsStep :
    (∀ e ∈ [(true, HostOp.verifyImage 1), (false, .verifyImage 1), (false, .eraseSlot 1), (false, .loadFirmware 1 5 0), (false, .loadImage 1 5 0),
            (false, .skimPrepare 48 0)],
      let x := long7 e.1 e.2 id
      x.1.life.boot ≠ .held ∧ vat x.1.cmd.long 7 = some x.2 ∧ x.2.cancel = e.1 ∧ x.2.op = e.2 ∧ x.2.buf.length < 5 ∧
        ((x.1.onLong 7 fun _ => { x.2 with steps := x.2.steps + 1 }).progress { x.2 with steps := x.2.steps + 1 }).life.eraseLeft = 0) ∧
    (let w : SkimSt := { slot := 1 }
     let x := long7 false .skimRollback fun a => a.onCtl fun c => { c with skim := some w }
     let l1 := { x.2 with steps := x.2.steps + 1, phase := x.1.get Reg.CSC_SKSTAT_phase }
     x.1.life.boot ≠ .held ∧ vat x.1.cmd.long 7 = some x.2 ∧ x.2.cancel = false ∧ x.2.op = .skimRollback ∧
       ((x.1.onLong 7 fun _ => l1).progress l1).ctl.skim = some w ∧ w.built = false) := by
  refine ⟨?_, ?_⟩ <;> decide +kernel

/-- The state with an on-line change in a phase. -/
def skim (k : SkimSt) (phase : Nat) (rev : Bool) (f : App → App) : App :=
  f (((running.onCtl fun c => { c with skim := some k }).set Reg.CSC_SKSTAT_phase phase).setB Reg.CSC_SKSTAT_reverse rev)

theorem test_premises_SkimEventsAct :
    (let a := wall 31 (running.onCtl fun c => { c with window := some { slot := 1 } })
     a.life.boot ≠ .held ∧ a.ctl.window.isSome = true ∧ a.inRollback = false ∧ a.ctl.skim = none) ∧
    (∀ e ∈ [(5, true, none), (1, false, none), (1, false, some HostOp.nop)], ∀ n ∈ [64, 65],
      let k : SkimSt := { slot := 1, built := true, dirty := List.replicate n 0 }
      let p := fun (a : App) => ((((a.reapply k k.work).onCtl fun c => { c with skim := some { k with work := k.dirty, dirty := [] } }).satAdd
        Reg.CSC_SKSTAT_passes 1).set Reg.CSC_SKSTAT_dirty_kib (min 65535 (4 * k.dirty.length)))
      let a := skim k e.1 e.2.1 fun a => match e.2.2 with
        | some _ => (busy a (.skimPrepare 48 0))
        | none => a
      a.life.boot ≠ .held ∧ a.ctl.skim = some k ∧ k.built = true ∧ a.get Reg.CSC_SKSTAT_phase ≠ 3 ∧ decide (k.dirty.length ≤ 64) = decide (n = 64) ∧
        (p a).on Reg.CSC_SKSTAT_reverse = e.2.1 ∧ (e.2.1 = true → (p a).get Reg.CSC_SKSTAT_phase = 5) ∧ (p a).skimLong.isSome = e.2.2.isSome) ∧
    (∀ n ∈ [64, 65], let k : SkimSt := { slot := 1, dirty := List.replicate n 0, switchCmd := some hdr, putOff := some 0 }
      let a := skim k 2 false (later (10 * tS))
      a.life.boot ≠ .held ∧ a.ctl.skim = some k ∧ a.get Reg.CSC_SKSTAT_phase = 2 ∧ (k.switchCmd.isSome = true ∨ a.on Reg.CSC_SKSTAT_reverse = true) ∧
        a.get Reg.CSC_SKTSW_t_sw ≤ a.now ∧ (n = 64 → k.behind.length ≤ 64) ∧ (n = 65 → 64 < k.behind.length) ∧ a.since 0 (10 * tS) = true) ∧
    (∀ e ∈ [false, true], let k : SkimSt := { slot := 1, switchCmd := some hdr }
      let a := skim k 3 e fun a => if e then busy a .skimRollback else a
      a.life.boot ≠ .held ∧ a.ctl.running = some 0 ∧ a.get Reg.CSC_SKSTAT_phase = 3 ∧ a.drained = true ∧ a.on Reg.CSC_SKSTAT_reverse = e ∧
        k.switchCmd = some hdr ∧ (e = true → a.skimLong.isSome = true)) := by
  refine ⟨?_, ?_, ?_, ?_⟩ <;> decide +kernel

theorem test_premises_HostContextEventsAct :
    (let a := (live.setCtx 7 1).onCtx 7 fun c => { c with fetchAsked := true }
     a.life.boot ≠ .held ∧ a.fetchDue 7 = true) ∧
    (let a := live.setB (Reg.HCX_PORT_link_up 1) true
     a.life.boot ≠ .held ∧ a.on (Reg.HCX_PORT_link_up 1) = true) ∧
    (let a := (later tS live).onCtx 7 fun c => { c with msix := vup c.msix 3 fun m => { m with lastAt := some 0, waiting := true } }
     a.life.boot ≠ .held ∧ (vat (vat a.ctxs 7).msix 3).lastAt = some 0 ∧ (vat (vat a.ctxs 7).msix 3).waiting = true ∧
       a.since 0 (a.get (Reg.HCX_CTL_holdoff 7) * tUs) = true) := by
  refine ⟨?_, ?_, ?_⟩ <;> decide +kernel

/-! ### Premises of the events of field I/O, Ethernet, DMA and CAN -/

/-- Field channel 31 as an enabled input or output. -/
def fio31 (n : Nat) (out : Bool) (f : FioCh → FioCh) : App :=
  (((later n live).setB (Reg.FIO_CFG_en 31) true).setB (Reg.FIO_CFG_dir 31) out).onFio 31 f

theorem test_premises_FieldInputEventsAct :
    (∀ out ∈ [false, true], let a := fio31 0 out id
      let b := (a.setB (Reg.FIO_STAT_level 31) true).onFio 31 fun x =>
        { x with settleAt := none, deadWait := if a.passed x.deadWait (a.fioDeb 31) then none else x.deadWait }
      a.life.boot ≠ .held ∧ a.on (Reg.FIO_CFG_en 31) = true ∧ (vat a.fio.ch 31).islandOff = false ∧ (vat a.fio.ch 31).settleAt = none ∧
        a.on (Reg.FIO_STAT_level 31) ≠ true ∧ live.on (Reg.FIO_CFG_en 31) = false ∧ (live.onLife fun l => { l with boot := .held }).life.boot = .held ∧
        b.fioOut 31 = out) ∧
    (∀ lv ∈ [false, true], ∀ t ∈ [0, tS], let a := ((fio31 t false fun x => { x with region := 0 }).setB (Reg.FIO_CFG_class 31) true).setB (Reg.FIO_STAT_level 31) lv
      let a := ((a.set (Reg.FIO_SUP_win_lo 31) 3).set (Reg.FIO_SUP_win_hi 31) 5).set (Reg.FIO_SUP_diag_time 31) 1
      let b := a.set (Reg.FIO_MEAS_i_loop 31) (min 255 2)
      let h := b.heldOut 31 2
      let b1 := h.onFio 31 fun x => if x.region = 0 then x else { x with region := 0, regionAt := h.tick }
      a.life.boot ≠ .held ∧ a.fioIn 31 = true ∧ a.on (Reg.FIO_CFG_class 31) = true ∧ (vat a.fio.ch 31).islandOff = false ∧
        b.on (Reg.FIO_STAT_level 31) = lv ∧ 2 < h.get (Reg.FIO_SUP_win_lo 31) ∧
        (t = 0 → b1.since (vat b1.fio.ch 31).regionAt (b1.fioDiagTime 31) = false) ∧
        (t = tS → b1.since (vat b1.fio.ch 31).regionAt (b1.fioDiagTime 31) = true) ∧ (vat b1.fio.ch 31).wireBreak = false) ∧
    (∀ t ∈ [0, tS], let a := (fio31 t false fun x => { x with region := 2 }).setB (Reg.FIO_CFG_class 31) true
      let a := ((a.set (Reg.FIO_SUP_win_lo 31) 3).set (Reg.FIO_SUP_win_hi 31) 5).set (Reg.FIO_SUP_diag_time 31) 1
      let b := a.set (Reg.FIO_MEAS_i_loop 31) (min 255 5)
      let h := b.heldOut 31 5
      let b1 := h.onFio 31 fun x => if x.region = 2 then x else { x with region := 2, regionAt := h.tick }
      b.on (Reg.FIO_STAT_level 31) = false ∧ h.get (Reg.FIO_SUP_win_lo 31) ≤ 5 ∧ h.get (Reg.FIO_SUP_win_hi 31) ≤ 5 ∧
        (t = 0 → b1.since (vat b1.fio.ch 31).regionAt (b1.fioDiagTime 31) = false) ∧
        (t = tS → b1.since (vat b1.fio.ch 31).regionAt (b1.fioDiagTime 31) = true) ∧ (vat b1.fio.ch 31).loopHigh = false) ∧
    (let a := (fio31 tS false fun x => { x with held := some 0, region := 0 }).set (Reg.FIO_SUP_diag_time 31) 1
     a.passed (vat a.fio.ch 31).held (a.fioDiagTime 31) = true ∧ (vat a.fio.ch 31).region ≠ 1 ∧ (vat a.fio.ch 31).wireBreak = false) ∧
    (let a := ((fio31 tS false id).setB (Reg.FIO_STAT_chatter 31) true).set (Reg.FIO_DEB_settle 31) 1
     a.on (Reg.FIO_STAT_chatter 31) = true ∧ a.since (vat a.fio.ch 31).lastAt (a.get (Reg.FIO_DEB_settle 31) * 100 * tMs) = true) ∧
    (let a := ((fio31 tS false id).setB (Reg.FIO_STAT_level 31) true).set (Reg.FIO_STUCK_stuck_time 31) 1
     a.fioIn 31 = true ∧ a.on (Reg.FIO_STAT_level 31) = true ∧ a.get (Reg.FIO_STUCK_stuck_time 31) ≠ 0 ∧ (vat a.fio.ch 31).stuck = false ∧
       a.since (vat a.fio.ch 31).highAt (a.get (Reg.FIO_STUCK_stuck_time 31) * tS) = true) := by
  refine ⟨?_, ?_, ?_, ?_, ?_, ?_⟩ <;> decide +kernel

theorem test_premises_FieldOutputEventsAct :
    (let a := (fio31 tS true id).setB (Reg.FIO_STAT_on 31) true
     let m : OutMeas := ⟨100, 500, false, true⟩
     let a0 := (a.set (Reg.FIO_MEAS_v_term 31) (min 255 m.vTerm)).set (Reg.FIO_MEAS_i_out 31) (min 65535 m.iOut)
     let on := a0.on (Reg.FIO_STAT_on 31)
     let high := decide (50 ≤ m.vTerm)
     let a1 := a0.onFio 31 fun c =>
       { c with limit := c.limit.step (on && m.limit) a0.tick
                ext := c.ext.step ((!on && c.retryAt.isNone && high) || (on && !high && !m.limit)) a0.tick
                openW := c.openW.step (on && decide (m.iOut < 5) && a0.on (Reg.FIO_CFG_open_det 31)) a0.tick }
     let c := vat a1.fio.ch 31
     a.fioOut 31 = true ∧ (vat a.fio.ch 31).islandOff = false ∧ on = true ∧ (m.thermal || (c.limit.on && a1.since c.limit.at_ (2 * tMs))) = true ∧
       (c.ext.on != c.extDrive) = false ∧ (c.openW.on != c.openLoad) = false) ∧
    (let a := fio31 5 true fun x => { x with retryAt := some 5, silent := true }
     a.life.boot ≠ .held ∧ a.passed (vat a.fio.ch 31).retryAt 0 = true ∧ a.fioOut 31 = true ∧ (vat a.fio.ch 31).silent = true) ∧
    (let a := (fio31 (15 * tMs) true fun x => { x with off := true }).onSup 1 fun x => { x with enableAt := some (0, true) }
     a.life.boot ≠ .held ∧ (vat a.fio.sup (31 / 16)).enableAt = some (0, true) ∧ (vat a.fio.ch 31).off = true ∧
       a.on (Reg.fsLatched (31 / 16)) = false ∧ a.since 0 (a.fioLead 31 % 16 * tMs) = true) ∧
    (∀ p ∈ [0, 1], ∀ v ∈ [false, true], let a := (live.setB (Reg.fsLow p) v).setB (Reg.fsDead p) v
      a.life.boot ≠ .held ∧ a.on (Reg.fsLow p) = v ∧ a.on (Reg.fsDead p) = v) ∧
    (∀ p ∈ [0, 1], let a := (later (1000 * tS) live).setB (Reg.fsLatched p) true
      a.life.boot ≠ .held ∧ a.on (Reg.fsLatched p) = true ∧ a.on (Reg.fsLow p) = false ∧ a.on (Reg.fsDead p) = false ∧
        a.since (vat a.fio.sup p).lowClearAt (a.get Reg.FIO_CTL_recover * 10 * tMs) = true) := by
  refine ⟨?_, ?_, ?_, ?_, ?_⟩ <;> decide +kernel

/-- The state with words of the Ethernet and of the CAN table space. -/
def ethTbl (t : Tbl) (a : App) : App := a.onEth fun e => { e with tbl := t }
def canTbl (t : Tbl) (a : App) : App := a.onCan fun c => { c with tbl := t }

/-- A frame's head on port 7. -/
def head7 (good : Bool) : RxHead := ⟨7, good, 0, 0, none, 0⟩

theorem test_premises_EthernetEventsAct :
    (let a := (later (1000 * tS) live)
     a.life.boot ≠ .held ∧ a.since (vat a.eth.pairs 2).supAt (a.get (Reg.ETH_PAIR_life_check 2) * 100 * tMs) = true) ∧
    (let a := live.setB (Reg.ETH_PORT_en 5) true
     let l := a.ddLive 2 (vat a.eth.pairs 2).fwd
     let known := fun src : W48 => src.toNat = (a.get Reg.ETH_MAC_base + 2) % 2 ^ 48 ∨ l.any (fun e => e.src == src.toNat && e.seq == 0 && e.port == 4) = true
     a.life.boot ≠ .held ∧ a.on (Reg.ETH_PORT_en 5) = true ∧ known (BitVec.ofNat 48 (a.get Reg.ETH_MAC_base + 2)) ∧
       ¬ known (BitVec.ofNat 48 (a.get Reg.ETH_MAC_base + 3))) ∧
    (let a := (ethTbl [(512 * 127, 1)] live).setPub 127 { begun := true }
     a.life.boot ≠ .held ∧ entOn (a.pubEntry 127) = true ∧ (a.pub 127).begun = true ∧ a.pubPermit = true ∧ (a.pub 127).nextAt ≤ a.tick) ∧
    (∀ c ∈ [(false, false), (true, false), (true, true)],
      let a := (ethTbl (if c.2 then [(0x10000 + 256 * 31, 0x7F), (0x16400 + 256 * 15, 0xFF)] else []) live).setB (Reg.ETH_PORT_en 7) true
      let f : GooseRx := ⟨head7 c.1, 0, [], [], 0, 0, 0, false, false, 0, false, []⟩
      let g : SvRx := ⟨head7 c.1, 0, [], false, 0, 0, 0, []⟩
      let b := ((a.access .gooseSv .dram 64).rxTake f.head).1
      a.life.boot ≠ .held ∧ ((a.access .gooseSv .dram 64).rxTake f.head).2 = c.1 ∧ (c.1 = true → (upto 32).filter (b.cbMatches f) = if c.2 then [31] else []) ∧
        (c.1 = true → (upto 16).filter (fun v => headMatches (b.svSubEntry v) g.head g.appid 7 && strAt (b.svSubEntry v) 20 == g.svId) =
          if c.2 then [15] else [])) ∧
    (let a := ((ethTbl [(0x10000 + 256 * 31, 1)] live).setStat (cbAt 31) 1)
     a.life.boot ≠ .held ∧ entOn (a.cbEntry 31) = true ∧ a.stat (cbAt 31) = 1 ∧ (vat a.eth.cbs 31).until_ ≤ a.w64) ∧
    (let a := later tS ((ethTbl [(0x16400 + 256 * 15, 1)] live).setStat (svAt 15) 1)
     a.life.boot ≠ .held ∧ entOn (a.svSubEntry 15) = true ∧ a.stat (svAt 15) = 1 ∧ a.since (vat a.eth.sv 15).at_ (10 * tMs) = true) ∧
    (∀ g ∈ [4800, 12000],
     let a := wall 1 ((ethTbl [(0x16000 + 256 * 3, 1 + 256)] live).onEth fun x => { x with svNext := vput x.svNext 3 g })
     let a := a.onSig fun z => { z with pubHist := vput z.pubHist 3 [{ (default : CicRow) with per := 2 ^ 40 }] }
     let e := a.svPubEntry 3
     let ready := (a.now * svRate e / 1000000000 + 1) / svAsdus e
     a.life.boot ≠ .held ∧ entOn e = true ∧ a.pubPermit = true ∧ svAsdus e = 1 ∧ 1 ≤ ready ∧ (4800 : W64).toNat = 4800 ∧ (4800 : W64).toNat = ready - 1 ∧
       a.svProduced 3 (svRate e) (g * 1 + 1 - 1) = true ∧ a.svProduced 3 (svRate e) ((ready - 1) * 1 + 1 - 1) = true ∧
       (g = 4800 → vat a.eth.svNext 3 < ready ∧ ready ≤ vat a.eth.svNext 3 + svRate e / svAsdus e) ∧
       (g = 12000 → ready + svRate e / svAsdus e < vat a.eth.svNext 3)) := by
  refine ⟨?_, ?_, ?_, ?_, ?_, ?_, ?_⟩ <;> decide +kernel

/-- Channel 15 with one descriptor, from host to host where `own`. -/
def dma15 (own : Bool) : App :=
  let d := le 1 own.toNat ++ le 3 0 ++ le 4 1 ++ le 8 (2 ^ 63) ++ le 8 (2 ^ 63 + 64) ++ le 8 0
  live.onDma 15 fun x => { x with slots := [(0, d)], tail := 1 }

theorem test_premises_DmaEventsAct :
    (∀ own ∈ [false, true], let a := dma15 own
      a.life.boot ≠ .held ∧ a.dmaPick = some 15 ∧ (a.dmaSkip 15 dmaSlots).dmaWork 15 = own) ∧
    (∀ v ∈ [false, true], let a := live.onDma 15 fun x => { x with confirm := true, abort := v }
      a.life.boot ≠ .held ∧ (a.dmaCh 15).confirm = true ∧ (a.dmaCh 15).abort = v ∧ (a.dmaCh 15).halted = false) ∧
    (∀ n ∈ [0, 1], let a := (dma15 true).onDma 15 fun x => { x with pos := n }
      a.life.boot ≠ .held ∧ (a.dmaCh 15).halted = false ∧ (a.dmaCh 15).confirm = false ∧ (a.dmaCh 15).pos = n) ∧
    (let a := live.onDma 15 fun x => { x with halted := true }
     a.life.boot ≠ .held ∧ (a.dmaCh 15).halted = true) := by
  refine ⟨?_, ?_, ?_, ?_⟩ <;> decide +kernel

/-- A CAN bus enabled, with its state changed. -/
def bus (b : Nat) (f : CanBus → CanBus) : App := (live.setB (Reg.CAN_CFG_en b) true).onBus b f

theorem test_premises_CanScheduleEventsAct :
    (let a := (canTbl [(0x2000 * 9 + 0x1000 + 4 * 63, 2 ^ 24)] (bus 9 fun x => { x with startAt := some 0 })).setB (Reg.CAN_CFG_sched_en 9) true
     a.life.boot ≠ .held ∧ (a.bus 9).startAt = some 0 ∧ a.canColumns 9 (a.bus 9).next = (63, 0) :: [] ∧ a.on (Reg.CAN_CFG_en 9) = true ∧
       a.on (Reg.CAN_CFG_sched_en 9) = true ∧ a.since 0 0 = true) ∧
    (let w : CanWin := { col := 0, typ := 0, obj := 0, endAt := some 0 }
     let a := bus 9 fun x => { x with win := some w }
     a.life.boot ≠ .held ∧ (a.bus 9).win = some w ∧ w.endAt = some 0 ∧ 0 ≤ a.tick) ∧
    (live.life.boot ≠ .held ∧ ((vat live.can.sub 3).ready = [])) ∧
    (∀ n ∈ [0, 1], let a := (live.onCanSub 3 fun x => { x with ready := [(default, [])] }).onCtx 0 fun c => { c with streamPost := vput c.streamPost 0 1 }
      let b := if ((vat a.can.sub 3).recs != [] && a.since (vat a.can.sub 3).at_ (a.get (Reg.CAN_SUB_flush 3) * tMs)) = true then a.canBlockEnd 3 else a
      a.life.boot ≠ .held ∧ (vat b.can.sub 3).ready = (default, []) :: [] ∧
        (b.streamWrite (4 * b.get (Reg.CAN_SUB_port 3) + b.get (Reg.CAN_SUB_ctx 3)) (b.get (Reg.CAN_SUB_ring 3)) (vat b.can.sub 3).seq.toNat
          (b.canBlockBytes 3 default []) (List.replicate n ⟨64, 0x1000000, true, true⟩)).2 = (n == 1)) ∧
    (let a := live.set (Reg.CAN_STAT_state 11) 2
     a.life.boot ≠ .held ∧ a.get (Reg.CAN_STAT_state 11) = 2) := by
  refine ⟨?_, ?_, ?_, ?_, ?_⟩ <;> decide +kernel

theorem test_premises_CanTrafficEventsAct :
    (∀ r ∈ [true, false], let t : CanTx := { obj := 0, data := [] }
      let u : CanTx := { obj := 1, data := [] }
      let a := ((((bus 11 fun x => { x with pend := [u, t] }).setB Reg.GLB_MODE_outen true).set Reg.CSC_PSTAT_cstate 1).setB (Reg.CAN_CFG_restricted 11) r)
      a.life.boot ≠ .held ∧ t ∈ (a.bus 11).pend ∧ (∀ u ∈ (a.bus 11).pend, u ≠ t → a.canKey 11 t < a.canKey 11 u) ∧
        a.on (Reg.CAN_CFG_en 11) = true ∧ (a.bus 11).cur = none ∧ a.canLimited 11 = r ∧ a.canUp 11 = true) ∧
    (let a := later tS (canTbl [(0x2000 * 11 + 0x40 * 99, 1 + 2 ^ 16)] live)
     let a := a.onCan fun c => { c with stat := c.stat.put (objAt 11 99) (2 ^ 24) }
     let e := a.canObj 11 99
     a.life.boot ≠ .held ∧ coOn e = true ∧ coTx e = false ∧ 0 < coRxTo e ∧ bitsOf (a.canStat 11 99) 24 2 = 1 ∧
       a.since (a.canObjSt 11 99).at_ (coRxTo e * 10 * tMs) = true) ∧
    (let t : CanTx := { obj := 63, data := [] }
     let a := bus 9 fun x => { x with cur := some t }
     a.life.boot ≠ .held ∧ (a.bus 9).cur = some t ∧ a.canUp 9 = true) ∧
    (∀ r ∈ [false, true], let f : CanRx := { ts := 0, id := 0, ide := false, rtr := r, fdf := true, brs := false, esi := false, dlc := 0, payload := [] }
      let a := (bus 11 id).setB (Reg.CAN_CFG_fd_en 11) true
      a.life.boot ≠ .held ∧ a.canUp 11 = true ∧ (f.fdf = true → a.on (Reg.CAN_CFG_fd_en 11) = true) ∧ f.rtr = r) := by
  refine ⟨?_, ?_, ?_, ?_⟩ <;> decide +kernel

/-! ### Premises of the redundant pair, resets and the Cistern -/

/-- A module of a pair in a role and phase. -/
def pair (role phase : Nat) (a : App) : App :=
  { ((a.setB Reg.PAR_CFG_pair_en true).set Reg.PAR_STAT_role role).set Reg.PAR_STAT_phase phase with node := 5 }

/-- A migration map with no entries, between two images that are empty. -/
def emptyMap : List Byte :=
  let d := le 4 0x50414D53 ++ le 2 1 ++ padTo 34 []
  d ++ le 4 (crc32c (d ++ [])) ++ padTo 4 []

theorem test_premises_PairFramesAct :
    (∀ f ∈ [none, some 3], let a := (pair Role.primary 0 live).onPar fun p => { p with copy := f.map fun n => { point := some n } }
      let c := a.heard.onPar fun p => { p with unacked := p.unacked.filter (fun f => decide ((3 : W32).toNat < f.seq)) }
      let d := (c.releaseWaits (3 : W32).toNat).handover
      a.life.boot ≠ .held ∧ a.pairOn = true ∧ d.par.copy = f.map (fun n => { point := some n }) ∧
        (∀ x ∈ d.par.copy, (x.point.any fun s => decide (s ≤ (3 : W32).toNat)) = true)) ∧
    (let a := pair Role.standby 0 live
     let b := a.accept
     a.life.boot ≠ .held ∧ a.pairOn = true ∧ b.role = Role.standby ∧ b.follows = true ∧ (HostOp.readForces buf).cls = .q ∧
       (HostOp.flagSet 1 1).cls ≠ .q) ∧
    (let a := pair Role.joining 2 live
     a.life.boot ≠ .held ∧ a.pairOn = true ∧ a.accept.role = Role.joining ∧ a.accept.get Reg.PAR_STAT_phase = 2) ∧
    ((0x3000 : Nat) ≠ ethDataAt ∧ (0x3000 : Nat) ≠ canDataAt ∧
      (regAt 0x3000).map (fun r => r.fields.any (fun f => covered (8 * 0x3000 + f.lo))) = some true) ∧
    (let a := pair Role.standby 0 (live.journalize { hdr := hdr, op := .skimSwitch 0, peer := true })
     a.pairOn = true ∧ a.accept.follows = true ∧ (a.accept.cmd.journal.find? (fun e => e.hdr.ctx == 0 && e.hdr.tag == 1 && e.peer)).isSome = true) ∧
    (let b := (pair Role.standby 0 (live.set Reg.CSC_PSTAT_cstate 1)).accept
     mapCheck b.runImage (b.img b.freeSlot) emptyMap = none ∧ b.cstate = 1 ∧ b.follows = true) := by
  refine ⟨?_, ?_, ?_, ?_, ?_, ?_⟩ <;> decide +kernel

theorem test_premises_PairEventsAct :
    (let a := later tS (pair Role.primary 0 live)
     a.life.boot ≠ .held ∧ a.pairOn = true ∧ a.since a.par.beatAt (250 * tUs) = true) ∧
    (let a := pair Role.joining 2 live
     a.life.boot ≠ .held ∧ a.role = Role.joining ∧ a.get Reg.PAR_STAT_phase = 2) ∧
    (let a := (pair Role.primary 0 live).onPar fun p => { p with copy := some { draining := true } }
     a.life.boot ≠ .held ∧ a.role ≠ Role.joining ∧ a.par.copy = some { draining := true } ∧ a.leads = true ∧ a.quiet = true) ∧
    (let a := (later (1000 * tS) (pair Role.joining 3 live)).onPar fun p => { p with tracked := [7], matched := [7] }
     a.life.boot ≠ .held ∧ a.role = Role.joining ∧ a.get Reg.PAR_STAT_phase = 3 ∧
       a.since a.par.roleAt (a.get Reg.PAR_SYNC_sync_time * 100 * tMs) = true ∧ a.par.tracked.all a.par.matched.contains = true) ∧
    (let f : LinkFrame := ⟨1, 4, [], 0⟩
     let a := ((later tS (pair Role.primary 0 live)).set Reg.PAR_STAT_partner_role Role.standby).onPar fun p => { p with unacked := [f] }
     a.life.boot ≠ .held ∧ a.par.unacked.find? (fun f => f.kind == 3 || f.kind == 4) = some f ∧ a.streams = true ∧
       a.since f.at_ (a.get Reg.PAR_SYNC_ack_to * 10 * tUs) = true) ∧
    (∀ r ∈ [(Role.standby, 0), (Role.joining, 1), (Role.joining, 3), (Role.primary, 0)],
      let a := (later tS (pair r.1 r.2 (live.set Reg.PAR_STAT_partner_role Role.primary))).onPar fun p => { p with peer := some default, upAt := some 0 }
      a.life.boot ≠ .held ∧ a.pairOn = true ∧ a.par.peer.isSome = true ∧ a.since a.par.rxAt (500 * tUs) = true ∧
        (a.setB Reg.PAR_STAT_partner_seen false).role = r.1 ∧ a.get Reg.PAR_STAT_partner_role = Role.primary ∧ a.get Reg.PAR_STAT_phase = r.2 ∧
        a.par.upAt.isSome = true ∧ a.since a.par.rxAt a.missTicks = true ∧ a.on Reg.PAR_STAT_alv_fault = false) ∧
    (let a := (pair Role.primary 0 live).onPar fun p => { p with upAt := some 0 }
     a.life.boot ≠ .held ∧ a.pairOn = true ∧ a.on Reg.PAR_STAT_alv_fault = false ∧ a.par.upAt.isSome = true ∧ a.since a.par.rxAt (500 * tUs) = false) ∧
    (let a := later tS (live.setB Reg.PAR_STAT_alv_fault true)
     a.life.boot ≠ .held ∧ a.on Reg.PAR_STAT_alv_fault = true ∧ a.since a.par.alvAt tS = true) ∧
    (let a := later (100 * tS) (pair Role.joining 0 live)
     a.life.boot ≠ .held ∧ a.role = Role.joining ∧ a.get Reg.PAR_STAT_phase = 0 ∧
       a.since (max a.par.roleAt a.par.hbAt) (a.get Reg.PAR_TIM_pair_wait * 100 * tMs) = true) ∧
    (∀ n ∈ [0, 6, 7, 8, 9], let a := (later (600 * tS) ((pair Role.joining 4 live).set Reg.PAR_STAT_reason n)).onPar fun p => { p with offOkAt := some 0, upAt := some 0 }
      a.life.boot ≠ .held ∧ a.role = Role.joining ∧ a.get Reg.PAR_STAT_phase = 4 ∧ (a.get Reg.PAR_STAT_reason < 7 ∨
        (a.get Reg.PAR_STAT_reason = 7 ∧ a.passed a.par.offOkAt tS = true) ∨ (a.get Reg.PAR_STAT_reason = 9 ∧ a.passed a.par.upAt tS = true) ∨
        (a.get Reg.PAR_STAT_reason = 8 ∧ a.since a.par.roleAt (600 * tS) = true))) ∧
    (let a := wall 1 (live.setB Reg.PAR_STAT_window_open true)
     a.life.boot ≠ .held ∧ a.on Reg.PAR_STAT_window_open = true ∧ a.get Reg.PAR_UPG_upg_end * 1000000000 ≤ a.now) := by
  refine ⟨?_, ?_, ?_, ?_, ?_, ?_, ?_, ?_, ?_, ?_, ?_⟩ <;> decide +kernel

theorem test_premises_ResetEventsAct :
    (∀ v ∈ [false, true], let a := live.onLife fun l => { l with crst := v }
      a.failing = false ∧ (a.feedBack (0 : W64).toNat false).life.crst = v) ∧
    (live.onLife fun l => { l with failAt := some 0 }).failing = true ∧ (0 : W16).toNat < failBelow ∧
    (∀ m ∈ [ScrubOf.sram, .dram, .mram], live.since (vat live.life.scrubAt (scrubPlace m)) (scrubEvery m) = false ∧
      (let a := later (86400 * tS) live; a.since (vat a.life.scrubAt (scrubPlace m)) (scrubEvery m) = true)) ∧
    (∀ p ∈ [false, true], ∀ v ∈ [false, true], let a := live.onLife fun l => { l with power := p, poweredUp := v }
      (a.onLife fun l => { l with crst := false, poweredUp := false }).life.power = p ∧ a.life.poweredUp = v) ∧
    live.life.boot ≠ .held ∧
    (let a := (later tS live).onLife fun l => { l with boot := .wiping, autoSlot := some 1 }
     let b := a.onLife fun l => { l with boot := .starting }
     let c := b.setB Reg.CSC_PSTAT_ret_valid (!b.ctl.copies.isEmpty)
     a.life.boot ≠ .held ∧ a.life.boot = .wiping ∧ a.since a.life.lineAt (850 * tMs) = true ∧ c.life.autoSlot = some 1) ∧
    (let a := live.onLife fun l => { l with eraseLeft := 1 }; a.life.boot ≠ .held ∧ a.life.eraseLeft = 0 + 1) ∧
    (∀ v ∈ [false, true], let a := (live.setB Reg.GLB_PWR_feed_b_low v).set Reg.GLB_PWR_bus_min (min (live.get Reg.GLB_PWR_bus_min) 5)
      live.life.boot ≠ .held ∧ a.on Reg.GLB_PWR_feed_b_low = v) := by
  refine ⟨?_, ?_, Nat.lt_of_lt_of_le (by decide) (Nat.le_add_right 15700 _), ?_, ?_, ?_, ?_, ?_, ?_⟩ <;> decide +kernel

/-- The Cistern after reset, changed. -/
def cis (f : Cistern → Cistern) : State := { State.reset with cis := f State.reset.cis }

theorem test_premises_CisternRunsOn :
    (cis fun c => { c with on := false }).cis.on = false ∧
    (State.reset.cis.on = true ∧ State.reset.cis.queue = [] ∧ (List.replicate 480 (default : CisSample)).length = 480) ∧
    (let c := (cis fun c => { c with up := 60000, clock := c.clock + 3600000 }).cis
     c.on = true ∧ c.storedAt + 1000 ≤ c.up ∧
       (∀ ch, ch < 2 → c.clock / (vat c.set.profInt ch * 60000) ≠ (vat c.work.prof ch).from_ / (vat c.set.profInt ch * 60000)) ∧
       c.clock / (c.set.demInt * 60000) ≠ c.work.demFrom / (c.set.demInt * 60000) ∧ c.spareFor = none ∧ c.spareAt + 60000 ≤ c.up) :=
  ⟨rfl, ⟨rfl, rfl, List.length_replicate⟩, by decide +kernel⟩

/-- A read request with its CRC. -/
def request (req count : Nat) : List Byte :=
  let d := le 1 0x52 ++ le 1 req ++ le 2 7 ++ le 4 0 ++ le 2 count ++ le 2 0
  d ++ le 4 (crc32c d)

theorem test_premises_CisternPortActs :
    (State.reset.cis.on = true ∧ (BitVec.ofNat 32 State.reset.cis.set.code).toNat = State.reset.cis.set.code ∧
      (BitVec.ofNat 32 (State.reset.cis.set.code + 1)).toNat ≠ State.reset.cis.set.code) ∧
    (let c := (cis fun c => { c with session := some 0, up := 120000 }).cis
     c.on = true ∧ c.session = some 0 ∧ 0 + 120000 ≤ c.up ∧ c.session.isSome = true ∧ c.sealed = false) ∧
    (let c := State.reset.cis
     c.settingOk (.ctRatio 1) = true ∧ c.settingOk (.vtRatio 1) = true ∧ c.settingOk (.kAct 1) = true ∧ c.settingOk (.kReact 1000) = true ∧
       c.settingOk (.tariffs [(0, 1), (1439, 4)] [] 0x60) = true ∧ c.settingOk (.demInt 60) = true ∧ c.settingOk (.profInt 1 60) = true ∧
       c.settingOk (.localTime 1440 0) = true ∧ c.settingOk (.accessCode 99999999) = true) ∧
    (∀ x ∈ [(1, 254), (2, 127), (3, 127), (4, 1)], requestOk (request x.1 x.2) = true) ∧
    (∀ x ∈ [(1, 255), (2, 128), (3, 0), (4, 2), (5, 1)], requestOk (request x.1 x.2) = false) ∧
    (let c := (cis fun c => { c with queue := List.replicate 8 ⟨1, 0, 0, 1⟩ }).cis
     8 ≤ c.queue.length ∧ State.reset.cis.queue.length < 8) := by
  refine ⟨?_, ?_, ?_, ?_, ?_, ?_⟩ <;> decide +kernel

theorem test_premises_ClockTicks :
    (st live).pending = [] ∧ live.life.boot ≠ .held ∧ (live.onLife fun l => { l with boot := .held }).life.boot = .held ∧
      ¬ (live.life.boot = .starting ∧ live.ctl.init = none) ∧ live.life.failAt = none ∧
      (let ns := fun a : App => a.tim.wall.ns + a.tim.incr.toNat / 2 ^ 32 + (a.tim.wall.frac.toNat + a.tim.incr.toNat % 2 ^ 32) / 2 ^ 32
       ns live < 1000000000 ∧ 1000000000 ≤ ns (live.onTim fun t => { t with wall := { t.wall with ns := 999999996 } })) := by
  decide +kernel

theorem test_premises_NeverStops_held :
    let s := st (live.onLife fun l => { l with boot := .held })
    ¬ cisternRow (.nop hdr) ∧ ¬ islandRow (.nop hdr) ∧ s.app.life.boot = .held := by
  refine ⟨by simp [cisternRow], by simp [islandRow], rfl⟩

theorem test_premises_CisternIsolation :
    ¬ cisternRow (.nop hdr) ∧ State.reset.pending = [] ∧ cisternRow .cisternStore ∧
    (∃ t, exec .serviceSwitchHold State.reset = .next t ∧ t.cis.sealed ≠ State.reset.cis.sealed) ∧
    (let s := cis fun c => { c with session := some 0 }
     (∃ t, exec (.legalSettingChange (.demInt 60)) s = .next t ∧ t.cis.set ≠ s.cis.set) ∧
       (∃ t, exec (.calibration 7 1 2 3) s = .next t ∧ t.cis.cal ≠ s.cis.cal) ∧
       (∃ t, exec (.firmwareReplacement [1] true) s = .next t ∧ t.cis.fwCrc ≠ s.cis.fwCrc)) := by
  refine ⟨by simp [cisternRow], rfl, by simp [cisternRow], ⟨_, rfl, by decide +kernel⟩, ⟨_, rfl, by decide +kernel⟩, ⟨_, rfl, by decide +kernel⟩,
    ⟨_, rfl, by decide +kernel⟩⟩

/-- A Cistern that is sealed, with one request waiting, in a session. -/
def busyCis : State := cis fun c => { c with sealed := true, session := some 0, queue := [⟨1, 0, 0, 254⟩] }

theorem busyCis_inv : busyCis.cis.Inv := by
  refine ⟨⟨by decide, by decide, by decide, by decide, by decide, by decide, by decide⟩, by decide, ?_, ?_, ⟨by decide, fun q h => ?_⟩, by decide,
    by decide, by decide, by decide, fun t h => ?_, fun h => nomatch h⟩
  · intro ch; fin_cases ch <;> decide
  · intro ch; fin_cases ch <;> decide
  · simp only [busyCis, cis, List.mem_singleton] at h
    subst h
    exact .inl (by decide)
  · simp only [busyCis, cis, Option.some.injEq] at h
    exact h ▸ Nat.zero_le _

theorem test_premises_CisternInvKept : busyCis.cis.Inv ∧ ∃ t, step busyCis = .next t := ⟨busyCis_inv, _, rfl⟩

theorem test_premises_RegistersNeverDecrease :
    let s := { busyCis with pending := [.registerReset] }
    s.cis.Inv ∧ ∃ t, step s = .next t := ⟨busyCis_inv, _, rfl⟩

theorem test_premises_SealProtects :
    (State.reset.cis.on = true ∧ State.reset.cis.session = none) ∧
    (let c := (cis fun c => { c with session := some 0, sealed := true, clockBad := false }).cis
     let d : Int := (((0 : W32).toNat + 946684800 : Nat) : Int) - (c.clock / 1000 : Nat)
     let recent := ([(c.clock, 31)] : List (Nat × Int)).filter (fun (e : Nat × Int) => decide (c.clock < e.1 + 86400000))
     c.on = true ∧ c.session.isSome = true ∧ c.sealed = true ∧ c.clockBad = false ∧ 30 < (recent.foldl (fun (y : Int) e => y + e.2) d).natAbs) := by
  decide +kernel

theorem test_premises_AuditCounts :
    (∃ t, exec .serviceSwitchHold State.reset = .next t) ∧ (∃ t, exec (.readRequest []) State.reset = .next t) := ⟨⟨_, rfl⟩, ⟨_, rfl⟩⟩

/-! ### Premises of the rules over the whole block -/

theorem test_premises_StoresReadBack :
    (setup.regs.wf = true ∧ Reg.GLB_MODE_prot.bit ≠ Reg.TIM_CTL_ref_in.bit) ∧
    (((regAt 0x40).map (fun r => r.fields.map (·.lo))).any (fun l => decide l.Nodup) = true) ∧
    (8 * 0x40 + 0, live.tick) ∉ live.raised ∧ (8 * 0x40 + 0, live.tick) ∈ ({ live with raised := [(8 * 0x40, live.tick)] } : App).raised := by
  decide +kernel

theorem test_premises_RefusedWriteChangesNothing :
    live.life.boot ≠ .held ∧
    (∀ w ∈ [2, 4, 8], (live.writeReason 7 (0x40 : W32).toNat w 0).isSome = true) ∧ live.on (Reg.HCX_RFSD_valid 7) = false := by
  decide +kernel

theorem test_premises_CommandChecks :
    (∀ s, exec (.nop hdr) s = s.onApp fun a => a.process hdr .nop none [] (fun a => (a, .final Status.ok []))) ∧
    (live.life.boot ≠ .held ∧ hdr.tag ≠ 0#64 ∧ live.tagRec hdr.ctx hdr.tag = none ∧ (live.failing && (HostOp.flagSet 1 1).cls != .q) = false ∧
      ((live.onLife fun l => { l with failAt := some 0 }).failing && (HostOp.flagSet 1 1).cls != .q) = true) ∧
    (∀ e ∈ [(0, none), (HostOp.nop.crc, none), (HostOp.nop.crc, some (⟨0, 0, [], false⟩ : FinalRec))],
      let a := live.keepTag 0 { tag := 1, opcode := BitVec.ofNat 16 HostOp.nop.opcode, crc := BitVec.ofNat 32 e.1, index := 9, final := e.2 }
      (a.tagRec 0 1).isSome = true ∧ (a.tagRec 0 1).map (fun r => (r.opcode.toNat == HostOp.nop.opcode, r.final)) = some (true, e.2)) ∧
    ((live.set (Reg.HCX_ROLE_active_role 0) 0).cmdCheck hdr .nop none [] ≠ none) ∧
    (¬ ((HostOp.stepTime 0).servoOnly = false ∨ (live.on Reg.TIM_CTL_servo_sel = true ∧ live.servoCtx = hdr.ctx))) ∧
    (HostOp.nop.servoOnly = false ∧ HostOp.nop.roles.contains (live.get (Reg.HCX_ROLE_active_role hdr.ctx)) = true ∧
      ¬ (HostOp.nop.roles.contains (State.reset.app.get (Reg.HCX_ROLE_active_role hdr.ctx)) = true) ∧ live.accepts 0 .nop = true ∧
      (live.onLife fun l => { l with boot := .recovery }).accepts 0 .nop = false) ∧
    (∀ x ∈ [8], ((owns live 8).ownerOf x).map (·.ctx) = some hdr.ctx.val ∧ (live.ownerOf x).map (·.ctx) ≠ some hdr.ctx.val) := by
  refine ⟨fun _ => rfl, ?_, ?_, ?_, ?_, ?_, ?_⟩ <;> decide +kernel

theorem test_premises_StoresReadBack_data :
    (0 < [(5 : Byte)].length ∧ (7 : Nat) + [(5 : Byte)].length ≤ 8) ∧ Mem.wf [(7, 5)] = true ∧ (8 : Nat) ≠ 4 ∧ Tbl.wf [(4, 5)] = true := by
  decide +kernel

/-! ### The signal paths -/

/-- A module at the first nanoseconds of a second. -/
def early (n : Nat) : App := live.onTim fun t => { t with wall := { sec := 0, ns := n, frac := 0 } }

/-- Edges 7, 8, 63 and 1023 fall 474.7, 542.5, 4272.5 and 69,376.6 ns into a second (R72, R152). -/
theorem test_premises_EdgeMeasures :
    ∀ p ∈ [(472, 7, false), (540, 8, false), (4272, 63, false), (69376, 1023, true)], let a := (early p.1).clocksTick
      (st (early p.1)).pending = [] ∧ (early p.1).life.boot ≠ .held ∧ a.tim.edgeCount ≠ (early p.1).tim.edgeCount ∧ a.tim.edgeCount.toNat = p.2.1 ∧
        (decide (p.2.1 % 64 = 63 ∧ (p.2.1 / 64 + 1) % a.navg = 0) = p.2.2) := by
  decide +kernel

/-- With a bit density of +1 the raw outputs reach 8^K, and by 120 of 512 after the first 8 periods at K = 3 (R151); the premise
of CicIsMovingSum holds of every K of R150. -/
theorem test_cic : ((Cic.feed 3 8 (fun _ => true) 24 : Cic 18 × Int)).2 = 512 ∧ ((Cic.feed 3 8 (fun _ => true) 8 : Cic 18 × Int)).2 = 120 := by
  decide +kernel

theorem test_premises_CicIsMovingSum : ∀ code ∈ [0, 1, 2], 3 ≤ cicOrder code ∧ cicOrder code ≤ 5 := by decide

/-- A bit density of +1 equals 2^23 Pool LSB, six fraction bits kept, and 2^13 Jet LSB, two kept (R151). -/
theorem test_cic_scale : ([3, 4, 5].map fun k => (scalePool k (64 ^ k), scaleJet k (8 ^ k))) = List.replicate 3 (2 ^ 29, 2 ^ 15) := by
  decide +kernel

/-- The gains of R154: 0.001 363 54 and 0.001 636 25. -/
theorem test_integrator_gain : (integGain false * 100000000 + 2 ^ 31) / 2 ^ 32 = 136354 ∧ (integGain true * 100000000 + 2 ^ 31) / 2 ^ 32 = 163625 := by
  decide +kernel

/-- The worked example of a non-default chain: the stamps of Pool word 100 and of Jet sample 38,783. -/
theorem test_stamps :
    let a := ((early 30000000).set (Reg.DEC_PDLY_dp 0 0) 1740561).set (Reg.DEC_JDLY_dj 0 0) 21268
    a.poolStamp 0 (a.edge16 310271) = 20932814 ∧ a.jetStamp 0 0 { (default : JetFrame) with edge := a.edge16 310271 } = 21040270 := by
  decide +kernel

/-- Its averager: 48 words of 0.4 of the range through shift 6 and trim 0x1_5555 give 2,684,344 (R158). -/
theorem test_average :
    let a := ((live.set Reg.DEC_AVG_navg 47).set Reg.DEC_AVG_shift 6).set Reg.DEC_AVG_trim 0x15555
    let a := a.onSig fun z => { z with chans := vup z.chans 31 fun p => { p with acc := 48 * 64 * 2684354 } }
    wordValue (a.poolWord 31) = 2684344 := by
  decide +kernel

end Sys2Proof.Tests
end

section
/-! SUPPORT. The stores read back (O56): a canonical list of cells is fixed by what it reads as, and the fields of a register that an
accepted write reaches take the value by their access codes. -/

namespace Sys2Proof.Machine

open Host

/-! ### Canonical lists are fixed by their readings (log entry 3) -/

/-- In a list with strictly rising keys, looking a key up finds exactly the cell that is listed. -/
theorem lookup_eq_some_iff_mem {α : Type} {l : List (Nat × α)} (h : l.Pairwise (fun x y => x.1 < y.1)) (b : Nat) (v : α) :
    l.lookup b = some v ↔ (b, v) ∈ l := by
  induction l with
  | nil => simp
  | cons x t ih =>
    obtain ⟨c, w⟩ := x
    obtain ⟨hfirst, ht⟩ := List.pairwise_cons.mp h
    by_cases hb : b = c
    · subst hb
      have hnot : (b, v) ∉ t := fun hm => lt_irrefl b (hfirst _ hm)
      simp [hnot, eq_comm]
    · simp [List.lookup_cons, beq_eq_false_iff_ne.mpr hb, hb, ih ht]

/-- The cells of a canonical list, from its readings: `d` is what a key that is not listed reads as. -/
theorem mem_iff_lookup_getD {α : Type} (d : Nat → α) {l : List (Nat × α)} (h : l.Pairwise (fun x y => x.1 < y.1))
    (hd : ∀ x ∈ l, x.2 ≠ d x.1) (x : Nat × α) : x ∈ l ↔ (l.lookup x.1).getD (d x.1) = x.2 ∧ x.2 ≠ d x.1 := by
  rw [← lookup_eq_some_iff_mem h x.1 x.2]
  cases hl : l.lookup x.1 with
  | none => simp [eq_comm]
  | some w =>
    have hw : w ≠ d x.1 := hd _ ((lookup_eq_some_iff_mem h x.1 w).mp hl)
    simp only [Option.some.injEq, Option.getD_some]
    exact ⟨fun e => ⟨e, e ▸ hw⟩, And.left⟩

theorem eq_of_lookup_getD_eq {α : Type} (d : Nat → α) {l m : List (Nat × α)}
    (hl : l.Pairwise (fun x y => x.1 < y.1)) (hm : m.Pairwise (fun x y => x.1 < y.1))
    (dl : ∀ x ∈ l, x.2 ≠ d x.1) (dm : ∀ x ∈ m, x.2 ≠ d x.1)
    (h : ∀ b, (l.lookup b).getD (d b) = (m.lookup b).getD (d b)) : l = m := by
  have hmem : ∀ x, x ∈ l ↔ x ∈ m := fun x => by rw [mem_iff_lookup_getD d hl dl, mem_iff_lookup_getD d hm dm, h]
  have nodup {k : List (Nat × α)} (hk : k.Pairwise (fun x y => x.1 < y.1)) : k.Nodup :=
    hk.imp fun hlt he => (ne_of_lt hlt) (congrArg Prod.fst he)
  exact ((List.perm_ext_iff_of_nodup (nodup hl) (nodup hm)).mpr hmem).eq_of_pairwise
    (fun _ _ _ _ hab hba => absurd hab (lt_asymm hba)) hl hm

theorem RegFile.get_eq_lookup (r : RegFile) (b : Nat) : r.get b = (List.lookup b r).getD (fieldReset b) := by
  induction r with
  | nil => rfl
  | cons x t ih =>
    obtain ⟨c, v⟩ := x
    by_cases h : b = c
    · simp [RegFile.get, h]
    · simp [RegFile.get, List.lookup_cons, beq_eq_false_iff_ne.mpr h, h, ih]

theorem RegFile.pairwise_of_wf {r : RegFile} (h : r.wf = true) : List.Pairwise (fun x y => x.1 < y.1) r := by
  induction r with
  | nil => exact .nil
  | cons x t ih =>
    obtain ⟨habove, -, ht⟩ := (RegFile.wf_cons x t).mp h
    exact .cons habove (ih ht)

theorem RegFile.ne_fieldReset_of_wf {r : RegFile} (h : r.wf = true) : ∀ x ∈ r, x.2 ≠ fieldReset x.1 := by
  simp only [RegFile.wf, Bool.and_eq_true, List.all_eq_true, bne_iff_ne] at h
  exact h.2

/-- Register files in the canonical form that read alike are the same data. -/
theorem RegFile.ext_of_wf {r q : RegFile} (hr : r.wf = true) (hq : q.wf = true) (h : ∀ b, r.get b = q.get b) : r = q := by
  refine eq_of_lookup_getD_eq fieldReset (pairwise_of_wf hr) (pairwise_of_wf hq) (ne_fieldReset_of_wf hr) (ne_fieldReset_of_wf hq) ?_
  intro b
  rw [← r.get_eq_lookup, ← q.get_eq_lookup, h]

theorem Mem.get_eq_lookup (m : Mem) (o : Nat) : m.get o = (List.lookup o m).getD 0#8 := by
  induction m with
  | nil => rfl
  | cons x t ih =>
    obtain ⟨p, b⟩ := x
    by_cases h : o = p
    · simp [Mem.get, h]
    · simp [Mem.get, List.lookup_cons, beq_eq_false_iff_ne.mpr h, Ne.symm h, ih]

theorem Mem.pairwise_of_wf {m : Mem} (h : m.wf = true) : List.Pairwise (fun x y => x.1 < y.1) m := by
  induction m with
  | nil => exact .nil
  | cons x t ih =>
    obtain ⟨habove, -, ht⟩ := (Mem.wf_cons x t).mp h
    exact .cons habove (ih ht)

theorem Mem.ne_zero_of_wf {m : Mem} (h : m.wf = true) : ∀ x ∈ m, x.2 ≠ 0#8 := by
  simp only [Mem.wf, Bool.and_eq_true, List.all_eq_true, bne_iff_ne] at h
  exact h.2

/-- Memories in the canonical form that read alike are the same data. -/
theorem Mem.ext_of_wf {m n : Mem} (hm : m.wf = true) (hn : n.wf = true) (h : ∀ o, m.get o = n.get o) : m = n := by
  refine eq_of_lookup_getD_eq (fun _ => 0#8) (pairwise_of_wf hm) (pairwise_of_wf hn) (ne_zero_of_wf hm) (ne_zero_of_wf hn) ?_
  intro o
  rw [← m.get_eq_lookup, ← n.get_eq_lookup, h]

/-! ### The fields of a register that an accepted write reaches (R15, R17) -/

/-- What an accepted write of `v` leaves in a field of the register at `o` that reads `was`, by its access code. -/
def App.writtenField (a : App) (o v : Nat) (f : FieldDef) (was : Nat) : Nat :=
  match f.acc with
  | .rwc | .rw => bitsOf v f.lo f.w
  | .rw1c => if a.raised.contains (8 * o + f.lo, a.tick) then was else was - (was &&& bitsOf v f.lo f.w)
  | .ro | .wo => was

/-- The register file after one field of the register at `o` has taken its bits of `v`. -/
def App.writeField (a : App) (o v : Nat) (s : RegFile) (f : FieldDef) : RegFile :=
  match f.acc with
  | .rwc | .rw => s.set (8 * o + f.lo) (bitsOf v f.lo f.w)
  | .rw1c => if a.raised.contains (8 * o + f.lo, a.tick) then s
      else s.set (8 * o + f.lo) (s.get (8 * o + f.lo) - (s.get (8 * o + f.lo) &&& bitsOf v f.lo f.w))
  | .ro | .wo => s

theorem putFields_regs (a : App) (o v : Nat) (r : RegDef) :
    (a.putFields o v r).regs = r.fields.foldl (a.writeField o v) a.regs := rfl

theorem writeField_get_same (a : App) (o v : Nat) (s : RegFile) (f : FieldDef) :
    (a.writeField o v s f).get (8 * o + f.lo) = a.writtenField o v f (s.get (8 * o + f.lo)) := by
  unfold App.writeField App.writtenField
  cases f.acc with
  | rwc | rw => exact RegFile.get_set_same _ _ _
  | rw1c =>
    dsimp only
    split
    · rfl
    · exact RegFile.get_set_same _ _ _
  | ro | wo => rfl

theorem writeField_get_other (a : App) (o v : Nat) (s : RegFile) (f : FieldDef) {b : Nat} (h : b ≠ 8 * o + f.lo) :
    (a.writeField o v s f).get b = s.get b := by
  unfold App.writeField
  cases f.acc with
  | rwc | rw => exact RegFile.get_set_other _ _ (Ne.symm h)
  | rw1c =>
    dsimp only
    split
    · rfl
    · exact RegFile.get_set_other _ _ (Ne.symm h)
  | ro | wo => rfl

theorem foldl_writeField_get_other (a : App) (o v : Nat) (l : List FieldDef) (s : RegFile) {b : Nat}
    (h : ∀ f ∈ l, b ≠ 8 * o + f.lo) : (l.foldl (a.writeField o v) s).get b = s.get b := by
  induction l generalizing s with
  | nil => rfl
  | cons g t ih =>
    obtain ⟨hg, ht⟩ := List.forall_mem_cons.mp h
    rw [List.foldl_cons, ih _ ht, writeField_get_other _ _ _ _ _ hg]

/-- Fields at different bits are written independently: each ends as if it were written alone. -/
theorem foldl_writeField_get_mem (a : App) (o v : Nat) (l : List FieldDef) (s : RegFile) (hl : (l.map (·.lo)).Nodup)
    {f : FieldDef} (hf : f ∈ l) :
    (l.foldl (a.writeField o v) s).get (8 * o + f.lo) = a.writtenField o v f (s.get (8 * o + f.lo)) := by
  induction l generalizing s with
  | nil => simp at hf
  | cons g t ih =>
    obtain ⟨hg, ht⟩ := List.nodup_cons.mp hl
    have apart : ∀ f ∈ t, g.lo ≠ f.lo := fun f hm he => hg (List.mem_map.mpr ⟨f, hm, he.symm⟩)
    rw [List.foldl_cons]
    rcases List.mem_cons.mp hf with rfl | hm
    · rw [foldl_writeField_get_other _ _ _ _ _ fun e he => by have := apart e he; omega]
      exact writeField_get_same ..
    · rw [ih _ ht hm, writeField_get_other _ _ _ _ _ (by have := apart f hm; omega)]

theorem putFields_get_mem (a : App) (o v : Nat) (r : RegDef) (hr : (r.fields.map (·.lo)).Nodup) {f : FieldDef} (hf : f ∈ r.fields) :
    (a.putFields o v r).regs.get (8 * o + f.lo) = a.writtenField o v f (a.regs.get (8 * o + f.lo)) :=
  foldl_writeField_get_mem a o v r.fields a.regs hr hf

theorem putFields_get_other (a : App) (o v : Nat) (r : RegDef) {b : Nat} (h : ∀ f ∈ r.fields, b ≠ 8 * o + f.lo) :
    (a.putFields o v r).regs.get b = a.regs.get b :=
  foldl_writeField_get_other a o v r.fields a.regs h

theorem writtenField_of_writable (a : App) (o v : Nat) (f : FieldDef) (was : Nat) (h : f.acc = .rw ∨ f.acc = .rwc) :
    a.writtenField o v f was = bitsOf v f.lo f.w := by
  rcases h with h | h <;> simp [App.writtenField, h]

theorem writtenField_of_rw1c_cleared (a : App) (o v : Nat) (f : FieldDef) (was : Nat) (h : f.acc = .rw1c)
    (hn : (8 * o + f.lo, a.tick) ∉ a.raised) : a.writtenField o v f was = was - (was &&& bitsOf v f.lo f.w) := by
  simp [App.writtenField, h, hn]

theorem writtenField_of_rw1c_raised (a : App) (o v : Nat) (f : FieldDef) (was : Nat) (h : f.acc = .rw1c)
    (hm : (8 * o + f.lo, a.tick) ∈ a.raised) : a.writtenField o v f was = was := by
  simp [App.writtenField, h, hm]

theorem writtenField_of_read_only (a : App) (o v : Nat) (f : FieldDef) (was : Nat) (h : f.acc = .ro ∨ f.acc = .wo) :
    a.writtenField o v f was = was := by
  rcases h with h | h <;> simp [App.writtenField, h]

/-- Settles O56: each store by its read-after-write laws, its canonical form by `eq_of_lookup_getD_eq`, and an accepted write field
by field. -/
theorem storesReadBack : Obligations.StoresReadBack := by
  unfold Obligations.StoresReadBack
  refine ⟨fun a f v => ⟨get_set_same a f v, set_wf a f v, fun g h => get_set_other a v (Ne.symm h)⟩,
    fun r q hr hq h => RegFile.ext_of_wf hr hq h, fun a o v r hr => ⟨fun f hf => ?_, fun b hb => putFields_get_other a o v r hb⟩,
    fun m o bs => ⟨m.get_write_inside o bs, m.get_write_outside o bs, m.write_wf o bs⟩,
    fun m n hm hn h => Mem.ext_of_wf hm hn h,
    fun t o v => ⟨t.get_put_same o v, fun p h => t.get_put_other v (Ne.symm h), t.put_wf o v⟩⟩
  dsimp only
  rw [putFields_get_mem a o v r hr hf]
  exact ⟨writtenField_of_writable a o v f _, writtenField_of_rw1c_cleared a o v f _, writtenField_of_rw1c_raised a o v f _,
    writtenField_of_read_only a o v f _⟩

end Sys2Proof.Machine
end

section
/-! SUPPORT. Setup writes (O57, O30): what a refused write changes, and every row that is a write of one register. -/

namespace Sys2Proof.Machine

open Host

/-! ### Reading after setting a flag -/

theorem raise_get_same (a : App) (f : Fld) (h : 0 < f.w) : (a.raise f).get f = 1 := by
  have hset : (a.raise f).get f = 1 % 2 ^ f.w := get_set_same a f 1
  rw [hset, Nat.mod_eq_of_lt (Nat.one_lt_two_pow h.ne')]

theorem raise_get_other (a : App) {f g : Fld} (h : f.bit ≠ g.bit) : (a.raise f).get g = a.get g := get_set_other a 1 h

theorem satAdd_get_other (a : App) {f g : Fld} (n : Nat) (h : f.bit ≠ g.bit) : (a.satAdd f n).get g = a.get g := get_set_other a _ h

/-! ### Posting to a context leaves the other contexts -/

theorem onCtx_vat_other (a : App) {k j : Nat} (f : HostCtx → HostCtx) (h : k ≠ j) : vat (a.onCtx k f).ctxs j = vat a.ctxs j :=
  vat_vup_other _ _ h

theorem raiseMsix_vat_other (a : App) {k j : Nat} (v : Nat) (h : k ≠ j) : vat (a.raiseMsix k v).ctxs j = vat a.ctxs j :=
  onCtx_vat_other _ _ h

theorem postTo_vat_other (a : App) {k j : Nat} (cls : Nat) (p : List Byte) (h : k ≠ j) :
    vat (a.postTo k cls p).ctxs j = vat a.ctxs j := by
  unfold App.postTo
  dsimp only
  repeat' split
  all_goals simp only [raiseMsix_vat_other _ _ h, onCtx_vat_other _ _ h]

/-! ### A refused write (R461) -/

/-- The refusal shown in the registers of context `k`: counted, and recorded with offset and reason where none was recorded before. -/
def App.showRefusal (a : App) (k offset reason : Nat) : App :=
  let b := a.satAdd (Reg.HCX_CNT_refused k) 1
  if b.on (Reg.HCX_RFSD_valid k) then b
  else ((b.set (Reg.HCX_RFSD_offset k) offset).set (Reg.HCX_RFSD_reason k) reason).raise (Reg.HCX_RFSD_valid k)

theorem showRefusal_eq (a : App) (k o reason : Nat) :
    a.showRefusal k o reason = { a with regs := (a.showRefusal k o reason).regs, raised := (a.showRefusal k o reason).raised } := by
  unfold App.showRefusal
  dsimp only
  split <;> rfl

/-- A refused write shows its refusal and counts it, and its event is posted to the context or is not. -/
theorem refuse_cases (a : App) (k o v w reason : Nat) :
    a.refuse k o v w reason = (a.showRefusal k o reason).onCtx k (fun c => { c with refusals := c.refusals + 1 }) ∨
      ∃ f p, a.refuse k o v w reason =
        (((a.showRefusal k o reason).onCtx k fun c => { c with refusals := c.refusals + 1 }).onCtx k f).postTo k 7 p :=
  (ite_eq_or_eq _ _ _).symm.imp id fun h => ⟨_, _, h⟩

/-- Beside the refusal shown, a refused write changes contexts alone. -/
theorem refuse_eq (a : App) (k o v w reason : Nat) :
    a.refuse k o v w reason = { a.showRefusal k o reason with ctxs := (a.refuse k o v w reason).ctxs } := by
  rcases refuse_cases a k o v w reason with h | ⟨f, p, h⟩
  · rw [h]; rfl
  · rw [h]
    generalize a.showRefusal k o reason = b
    exact postTo_eq ..

theorem refuse_vat_other (a : App) {k j : Nat} (o v w reason : Nat) (h : k ≠ j) :
    vat (a.refuse k o v w reason).ctxs j = vat a.ctxs j := by
  have hshow : (a.showRefusal k o reason).ctxs = a.ctxs := by rw [showRefusal_eq]
  rcases refuse_cases a k o v w reason with hr | ⟨f, p, hr⟩
  · rw [hr, onCtx_vat_other _ _ h, hshow]
  · rw [hr, postTo_vat_other _ _ _ h, onCtx_vat_other _ _ h, onCtx_vat_other _ _ h, hshow]

theorem refuse_get (a : App) (k o v w reason : Nat) (f : Fld) : (a.refuse k o v w reason).get f = (a.showRefusal k o reason).get f :=
  get_of_regs (by rw [refuse_eq]) f

/-- The four fields of R461 are apart from every other, so that no other field changes. -/
theorem showRefusal_get_other (a : App) (k o reason : Nat) {f : Fld} (hc : f.bit ≠ (Reg.HCX_CNT_refused k).bit)
    (ho : f.bit ≠ (Reg.HCX_RFSD_offset k).bit) (hr : f.bit ≠ (Reg.HCX_RFSD_reason k).bit) (hv : f.bit ≠ (Reg.HCX_RFSD_valid k).bit) :
    (a.showRefusal k o reason).get f = a.get f := by
  unfold App.showRefusal
  dsimp only
  split
  · exact satAdd_get_other _ _ hc.symm
  · rw [raise_get_other _ hv.symm, get_set_other _ _ hr.symm, get_set_other _ _ ho.symm, satAdd_get_other _ _ hc.symm]

theorem showRefusal_of_first (a : App) (k o reason : Nat) (h : a.on (Reg.HCX_RFSD_valid k) = false) :
    a.showRefusal k o reason = (((a.satAdd (Reg.HCX_CNT_refused k) 1).set (Reg.HCX_RFSD_offset k) o).set (Reg.HCX_RFSD_reason k)
      reason).raise (Reg.HCX_RFSD_valid k) := by
  have hkeep : (a.satAdd (Reg.HCX_CNT_refused k) 1).on (Reg.HCX_RFSD_valid k) = a.on (Reg.HCX_RFSD_valid k) :=
    congrArg (· != 0) (satAdd_get_other a 1 (by simp only [Reg.HCX_CNT_refused, Reg.HCX_RFSD_valid]; omega))
  simp only [App.showRefusal, hkeep, h, Bool.false_eq_true, if_false]

/-- The first refusal is recorded with its offset and its reason. -/
theorem showRefusal_records_first (a : App) (k o reason : Nat) (h : a.on (Reg.HCX_RFSD_valid k) = false) :
    (a.showRefusal k o reason).get (Reg.HCX_RFSD_offset k) = o % 2 ^ (Reg.HCX_RFSD_offset k).w ∧
    (a.showRefusal k o reason).get (Reg.HCX_RFSD_reason k) = reason % 2 ^ (Reg.HCX_RFSD_reason k).w ∧
    (a.showRefusal k o reason).get (Reg.HCX_RFSD_valid k) = 1 := by
  have hvo : (Reg.HCX_RFSD_valid k).bit ≠ (Reg.HCX_RFSD_offset k).bit := by simp only [Reg.HCX_RFSD_valid, Reg.HCX_RFSD_offset]; omega
  have hvr : (Reg.HCX_RFSD_valid k).bit ≠ (Reg.HCX_RFSD_reason k).bit := by simp only [Reg.HCX_RFSD_valid, Reg.HCX_RFSD_reason]; omega
  have hro : (Reg.HCX_RFSD_reason k).bit ≠ (Reg.HCX_RFSD_offset k).bit := by simp only [Reg.HCX_RFSD_reason, Reg.HCX_RFSD_offset]; omega
  rw [showRefusal_of_first a k o reason h]
  refine ⟨?_, ?_, raise_get_same _ _ Nat.one_pos⟩
  · rw [raise_get_other _ hvo, get_set_other _ _ hro, get_set_same]
  · rw [raise_get_other _ hvr, get_set_same]

/-! ### A setup write by its outcome (R16, R460, R461, R571) -/

/-- The value of a write, cut to its width in bytes. -/
def cutTo (w v : Nat) : Nat := if w = 4 then v % 2 ^ 32 else v

theorem setupWrite_refused (a : App) (k o w v : Nat) {reason : Nat} (h : a.writeReason k o w (cutTo w v) = some reason) :
    a.setupWrite k o w v = a.refuse k o (cutTo w v) w reason := by
  unfold cutTo at h
  simp only [App.setupWrite, h]
  rfl

/-- The module after the mirrored copy of an accepted write has gone to the partner, where one goes (R571). -/
def App.mirrored (a : App) (o w v : Nat) (r : RegDef) : App :=
  if (a.changes o v r covered && a.mirrors) = true then a.linkSend 6 (a.setupBytes o w v) else a

theorem setupWrite_accepted (a : App) (k o w v : Nat) {r : RegDef} (h : a.writeReason k o w (cutTo w v) = none) (hr : regAt o = some r) :
    a.setupWrite k o w v = (a.mirrored o w (cutTo w v) r).putOrDefer k o (cutTo w v) := by
  unfold cutTo at h
  simp only [App.setupWrite, h, hr]
  rfl

/-- A copy on its way to the partner changes no clock: what waits for a firing waits all the same. -/
theorem mirrored_defers (a : App) (o w v : Nat) (r : RegDef) (p : Nat) : (a.mirrored o w v r).defers p = a.defers p := by
  unfold App.mirrored
  split
  · rw [linkSend_eq]; rfl
  · rfl

theorem putOrDefer_now (a : App) (k o v : Nat) (h : a.defers o = none) : a.putOrDefer k o v = (a.putSetup k o v).takeOff := by
  simp only [App.putOrDefer, h]

theorem putOrDefer_later (a : App) (k o v : Nat) {n u : Nat} (h : a.defers o = some (n, u)) :
    a.putOrDefer k o v = a.onClk n fun c => { c with defer := vput c.defer u (vat c.defer u ++ [(k, o, v)]) } := by
  simp only [App.putOrDefer, h]

/-! ### A refused write changes nothing else -/

theorem exec_setupWrite_live (s : State) (k : Fin 8) (o : W32) (w : Byte) (v : W64) (h : s.app.life.boot ≠ .held) :
    exec (.setupWrite k o w v) s = .next (s.withApp (s.app.setupWrite k o.toNat w.toNat v.toNat)) :=
  State.onApp_live s (fun a => a.setupWrite k o.toNat w.toNat v.toNat) h

/-- Settles O57: the refused write is `App.refuse`, which shows the refusal and touches the writing context alone. -/
theorem refusedWriteChangesNothing : Obligations.RefusedWriteChangesNothing := by
  unfold Obligations.RefusedWriteChangesNothing
  intro s k o w v reason hlive hreason
  have hrun : exec (.setupWrite k o w v) s = .next (s.withApp (s.app.refuse k o.toNat (cutTo w.toNat v.toNat) w.toNat reason)) := by
    rw [exec_setupWrite_live s k o w v hlive, setupWrite_refused _ _ _ _ _ hreason]
  refine ⟨_, hrun, rfl, rfl, ?_, fun j hj => ?_, fun f hc ho hr hv => ?_, fun hfirst => ?_⟩
  · change App.refuse _ _ _ _ _ _ = _
    rw [refuse_eq, showRefusal_eq]
    rfl
  · exact refuse_vat_other _ _ _ _ _ fun h => hj (Fin.ext h.symm)
  · exact (refuse_get ..).trans (showRefusal_get_other _ _ _ _ hc ho hr hv)
  · obtain ⟨hoff, hrsn, hvalid⟩ := showRefusal_records_first s.app k o.toNat reason hfirst
    refine ⟨(refuse_get ..).trans hoff, (refuse_get ..).trans hrsn, ?_⟩
    change (App.get (App.refuse ..) _ != 0) = true
    rw [refuse_get, hvalid]
    rfl

/-! ### The rows that are a write of one register -/

/-- What O30 says of a row: the write of `v` at offset `o` and width `w` is refused for its reason, or takes effect, at once or after
the firing it waits for, mirrored first where the fingerprint covers it. -/
def ActsAsWrite (s : State) (k : Fin 8) (i : Instr) (o w v : Nat) : Prop :=
  (∀ reason, s.app.writeReason k o w v = some reason → exec i s = .next (s.withApp (s.app.refuse k o v w reason))) ∧
  (∀ r, s.app.writeReason k o w v = none → regAt o = some r →
    (s.app.defers o = none → exec i s = .next (s.withApp ((s.app.mirrored o w v r).putSetup k o v).takeOff)) ∧
    (∀ n u, s.app.defers o = some (n, u) → exec i s = .next (s.withApp
      ((s.app.mirrored o w v r).onClk n fun c => { c with defer := vput c.defer u (vat c.defer u ++ [(k.val, o, v)]) }))))

/-- A row whose meaning is `App.setupWrite` of a value that its width cuts to `v` acts as the write of `v`. -/
theorem actsAsWrite_of_exec {s : State} {k : Fin 8} {i : Instr} {o w u : Nat} (hlive : s.app.life.boot ≠ .held)
    (hexec : exec i s = s.onApp fun a => a.setupWrite k o w u) : ActsAsWrite s k i o w (cutTo w u) := by
  have hrun : exec i s = .next (s.withApp (s.app.setupWrite k o w u)) := by rw [hexec, State.onApp_live s _ hlive]; rfl
  refine ⟨fun reason h => ?_, fun r h hr => ⟨fun hd => ?_, fun n u hd => ?_⟩⟩
  · rw [hrun, setupWrite_refused _ _ _ _ _ h]
  · rw [hrun, setupWrite_accepted _ _ _ _ _ h hr, putOrDefer_now _ _ _ _ ((mirrored_defers ..).trans hd)]
  · rw [hrun, setupWrite_accepted _ _ _ _ _ h hr, putOrDefer_later _ _ _ _ ((mirrored_defers ..).trans hd)]

theorem cutTo_four {v : Nat} (h : v < 2 ^ 32) : cutTo 4 v = v := by rw [cutTo, if_pos rfl, Nat.mod_eq_of_lt h]

theorem cutTo_of_ne_four {w : Nat} (v : Nat) (h : w ≠ 4) : cutTo w v = v := if_neg h

/-- A row that writes a doubleword. -/
theorem actsAsWrite_dword {s : State} {k : Fin 8} {i : Instr} {o v : Nat} (hlive : s.app.life.boot ≠ .held) (hv : v < 2 ^ 32)
    (hexec : exec i s = s.onApp fun a => a.setupWrite k o 4 v) : ActsAsWrite s k i o 4 v := by
  simpa only [cutTo_four hv] using actsAsWrite_of_exec hlive hexec

/-- A row that writes a value of another width as it is. -/
theorem actsAsWrite_uncut {s : State} {k : Fin 8} {i : Instr} {o w v : Nat} (hlive : s.app.life.boot ≠ .held) (hw : w ≠ 4)
    (hexec : exec i s = s.onApp fun a => a.setupWrite k o w v) : ActsAsWrite s k i o w v := by
  simpa only [cutTo_of_ne_four v hw] using actsAsWrite_of_exec hlive hexec

/-- The value of a doubleword register as an operand of 64 bits. -/
theorem toNat_natCast_setWidth (v : W64) : (((v.setWidth 32).toNat : W64)).toNat = (v.setWidth 32).toNat := by
  have h : (v.setWidth 32).toNat < 2 ^ 32 := BitVec.isLt _
  simp only [BitVec.natCast_eq_ofNat, BitVec.toNat_ofNat]
  omega

/-- Settles O30: every row is `App.setupWrite` of its register, whose outcomes `actsAsWrite_of_exec` gives. -/
theorem setupWritesAct : Obligations.SetupWritesAct := by
  unfold Obligations.SetupWritesAct
  intro s k hlive
  have dword {i : Instr} {o : Nat} (v : W32) (h : exec i s = s.onApp fun a => a.setupWrite k o 4 v.toNat) :
      ActsAsWrite s k i o 4 v.toNat := actsAsWrite_dword hlive v.isLt h
  have cmpDword {i : Instr} {o : Nat} (v : W64)
      (h : exec i s = s.onApp fun a => a.setupWrite k o 4 (((v.setWidth 32).toNat : W64)).toNat) :
      ActsAsWrite s k i o 4 (v.setWidth 32).toNat := dword (v.setWidth 32) (by rw [h, toNat_natCast_setWidth])
  have qword {i : Instr} {o : Nat} (v : W64) (h : exec i s = s.onApp fun a => a.setupWrite k o 8 v.toNat) :
      ActsAsWrite s k i o 8 v.toNat := actsAsWrite_uncut hlive (by decide) h
  refine ⟨?setupDword, ?setupOther, ?wallCompare, ?angleCompare, ?angleClock, ?decAvg, ?decCfg, ?fioCfg, ?context, ?plain, ?breaker,
    ?role, ?upgrade⟩
  case setupDword => exact fun o v => dword v (by rw [← BitVec.toNat_setWidth_of_le (w' := 64) (b := v) (by decide)]; rfl)
  case setupOther => exact fun o w v hw => actsAsWrite_uncut hlive (fun h => hw (BitVec.eq_of_toNat_eq h)) rfl
  case wallCompare => exact fun n v => ⟨qword v rfl, cmpDword v rfl, qword v rfl, cmpDword v rfl⟩
  case angleCompare => exact fun b u v => ⟨qword v rfl, cmpDword v rfl, cmpDword v rfl⟩
  case angleClock => exact fun b v => dword v rfl
  case decAvg => exact fun v => dword v rfl
  case decCfg =>
    have hcfg : ∀ b : Fin 4, b.castSucc ≠ 4 := by decide
    exact fun b v => dword v (by change execDecWrite k b.castSucc v s = _; rw [execDecWrite, if_neg (hcfg b)]; rfl)
  case fioCfg => exact fun f v => dword v rfl
  case context =>
    exact fun h => ⟨actsAsWrite_dword hlive (by have := h.isLt; omega) rfl, actsAsWrite_dword hlive (by have := h.isLt; omega) rfl⟩
  case plain => exact fun v => ⟨dword v rfl, dword v rfl, dword v rfl, dword v rfl, dword v rfl⟩
  case breaker =>
    have hopen : ∀ b : Fin 4, 0x7214 + 0x40 * b.val = 0x7210 + 0x40 * b.val + 4 * true.toNat := by decide
    exact fun b v => ⟨dword v rfl, dword v (by rw [hopen]; rfl), dword v rfl⟩
  case role => exact fun t v => dword v rfl
  case upgrade => exact fun v => qword v rfl

end Sys2Proof.Machine
end

section
/-! SUPPORT. The state after reset (O55). -/

namespace Sys2Proof.Machine

open Host

/-! ### The values at reset (R18, R600) -/

/-- The register file of State.reset lists the recorder's total alone. -/
theorem reset_get_of_ne (f : Fld) (h : f.bit ≠ Reg.EVR_TOTAL_n.bit) : State.reset.app.get f = fieldReset f.bit := if_neg h

theorem reset_get_EVR_TOTAL_n : State.reset.app.get Reg.EVR_TOTAL_n = 2 := rfl

theorem reset_cistern_reg (i : Fin 24) : State.reset.cis.work.reg i = 0 := by
  revert i; decide

/-- The tables give 0 as reset value of the states of contexts, life cycle and pair (R469, R18). -/
theorem fieldReset_states :
    (∀ k : Fin 8, fieldReset (Reg.HCX_STAT_state k).bit = 0) ∧ fieldReset Reg.LCY_STAT_state.bit = 0 ∧ fieldReset Reg.PAR_STAT_role.bit = 0 := by
  decide +kernel

theorem state_bits_ne_EVR_TOTAL_n :
    (∀ k : Fin 8, (Reg.HCX_STAT_state k).bit ≠ Reg.EVR_TOTAL_n.bit) ∧ Reg.LCY_STAT_state.bit ≠ Reg.EVR_TOTAL_n.bit ∧
      Reg.PAR_STAT_role.bit ≠ Reg.EVR_TOTAL_n.bit := by
  decide

/-- Settles O55: a field but the recorder's total reads its table's reset value, and the other parts hold what State.reset writes. -/
theorem resetValues : Obligations.ResetValues := by
  unfold Obligations.ResetValues
  obtain ⟨hctx, hlcy, hpar⟩ := fieldReset_states
  obtain ⟨nctx, nlcy, npar⟩ := state_bits_ne_EVR_TOTAL_n
  exact ⟨reset_get_of_ne, reset_get_EVR_TOTAL_n, rfl, fun k => (reset_get_of_ne _ (nctx k)).trans (hctx k),
    (reset_get_of_ne _ nlcy).trans hlcy, (reset_get_of_ne _ npar).trans hpar, rfl, rfl, rfl, rfl, rfl, rfl, reset_cistern_reg, rfl, rfl⟩

end Sys2Proof.Machine
end

section
/-! SUPPORT. A row's next state by its kind, for the rows of O25, O29, O43 and O58. -/

namespace Sys2Proof.Machine

open Host

/-- A row of the application partition in a module that is not held. -/
theorem exec_onApp_acts {i : Instr} {s : State} {f : App → App} {b : App} (hlive : s.app.life.boot ≠ .held)
    (hexec : exec i s = s.onApp f) (h : f s.app = b) : exec i s = .next (s.withApp b) :=
  h ▸ hexec.trans (State.onApp_live s f hlive)

/-- A row of the application partition whose condition does not hold. -/
theorem exec_onApp_rests {i : Instr} {s : State} {f : App → App} (hexec : exec i s = s.onApp f) (h : f s.app = s.app) :
    exec i s = .next s := by
  rw [hexec, onApp_eq, h, ite_self]; rfl

/-- A row of the islands acts in a held module too. -/
theorem exec_onIsland_acts {i : Instr} {s : State} {f : App → App} {b : App} (hexec : exec i s = s.onIsland f) (h : f s.app = b) :
    exec i s = .next (s.withApp b) := h ▸ hexec

/-- A row that acts under a condition alone. -/
theorem next_ite (s : State) (a : App) (p : Prop) [Decidable p] :
    (.next (if p then s.withApp a else s) : Outcome State Fault Refusal) = .next (s.withApp (if p then a else s.app)) := by
  split <;> rfl

end Sys2Proof.Machine
end

section
/-! SUPPORT. The mailbox, the resets, the feeds and the scrubber (O29, O43): a row's next state from the branch of its meaning. -/

namespace Sys2Proof.Machine

open Host

/-! ### The mailbox (R331, R333, R337, R499) -/

/-- Settles O29, each row by the branch that its premise chooses. -/
theorem mailboxEventsAct : Obligations.MailboxEventsAct := by
  unfold Obligations.MailboxEventsAct
  intro s hlive
  refine ⟨fun d t => ⟨fun hok => ?taken, fun hbad => ?counted⟩, fun hloud hsince => ?silent, fun q hq => ?timeout⟩
  case taken => exact exec_onApp_acts hlive (show execSnapshotRx d t s = _ from rfl) (if_pos hok)
  case counted => exact exec_onApp_acts hlive (show execSnapshotRx d t s = _ from rfl) (if_neg (Bool.eq_false_iff.mp hbad))
  case silent => exact exec_onApp_acts hlive (show execCisternSilent s = _ from rfl) (if_pos (by rw [hloud, hsince]; rfl))
  case timeout => exact exec_onApp_acts hlive (show execCisRequestTimeout s = _ from rfl) (by simp only [hq])

/-! ### Resets and feeds (R38, R39, R591, R592, R616 to R619) -/

/-- Feed and carrier reset in the power-fail sequence are kept for its end (R39, R619). -/
theorem resets_failing {s : State} (hfail : s.app.failing = true) :
    (∀ (ns : W64) (lost : Bool), exec (.powerOnReset ns lost) s = .next (s.withApp (s.app.onLife fun l => { l with refed := true }))) ∧
    ∀ x, exec (.carrierReset x) s = .next (s.withApp (s.app.onLife fun l => { l with crst := x })) :=
  ⟨fun ns lost => exec_onIsland_acts (show execPowerOnReset ns lost s = _ from rfl) (if_pos hfail),
    fun x => exec_onIsland_acts (show execCarrierReset x s = _ from rfl) (if_pos hfail)⟩

/-- Valid feed boots the module, or holds it while the carrier reset is asserted (R591, R592). -/
theorem exec_powerOnReset {s : State} (hrun : ¬ s.app.failing = true) (ns : W64) (lost : Bool) :
    let b := s.app.feedBack ns.toNat lost
    (b.life.crst = false → exec (.powerOnReset ns lost) s = .next (s.withApp (b.doReset 0 0))) ∧
    (b.life.crst = true → exec (.powerOnReset ns lost) s = .next (s.withApp (b.onLife fun l => { l with boot := .held, poweredUp := true }))) :=
  ⟨fun hfree => exec_onIsland_acts (show execPowerOnReset ns lost s = _ from rfl)
      ((if_neg hrun).trans (if_neg (Bool.eq_false_iff.mp hfree))),
    fun hcrst => exec_onIsland_acts (show execPowerOnReset ns lost s = _ from rfl) ((if_neg hrun).trans (if_pos hcrst))⟩

/-- A carrier reset holds the module while asserted and boots it at its release, if it has feed (R591, R592, R619). -/
theorem exec_carrierReset {s : State} (hrun : ¬ s.app.failing = true) :
    exec (.carrierReset true) s = .next (s.withApp (s.app.onLife fun l => { l with boot := .held, crst := true })) ∧
    (let b := s.app.onLife fun l => { l with crst := false, poweredUp := false };
      (b.life.power = false → exec (.carrierReset false) s = .next (s.withApp b)) ∧
      (b.life.power = true → s.app.life.poweredUp = true → exec (.carrierReset false) s = .next (s.withApp (b.resetNow 0))) ∧
      (b.life.power = true → s.app.life.poweredUp = false → exec (.carrierReset false) s = .next (s.withApp (b.resetNow 1)))) := by
  refine ⟨exec_onIsland_acts (show execCarrierReset true s = _ from rfl) ((if_neg hrun).trans (if_pos rfl)), ?_⟩
  refine ⟨fun hdead => ?dead, fun hfed hup => ?fed, fun hfed hdown => ?running⟩
  all_goals refine exec_onIsland_acts (show execCarrierReset false s = _ from rfl) ((if_neg hrun).trans ((if_neg Bool.false_ne_true).trans ?_))
  case dead => exact if_pos (by simpa using hdead)
  case fed => exact (if_neg (by simpa using hfed)).trans (if_pos hup)
  case running => exact (if_neg (by simpa using hfed)).trans (if_neg (Bool.eq_false_iff.mp hdown))

/-- The end of the DRAM wipe starts the program and ends the boot; an image that fails its CRC loses its slot first (R32, R594). -/
theorem exec_dramWipeEnd {s : State} (hlive : s.app.life.boot ≠ .held) (hwipe : s.app.life.boot = .wiping)
    (hdue : s.app.since s.app.life.lineAt (850 * tMs) = true) :
    let b := s.app.onLife fun l => { l with boot := .starting }
    let c := b.setB Reg.CSC_PSTAT_ret_valid (!b.ctl.copies.isEmpty)
    exec (.dramWipeEnd none) s = .next (s.withApp c.autoStart.bootEnd) ∧
    (∀ (p : W64) n, c.life.autoSlot = some n → exec (.dramWipeEnd (some p)) s = .next (s.withApp
      (((c.set (Reg.slotState n) Slot.invalid).record 0x0040 4 (p.toNat % 2 ^ 32) (p.toNat / 2 ^ 32) 0).autoStart.bootEnd))) := by
  intro b c
  refine ⟨exec_onApp_acts hlive (show execDramWipeEnd none s = _ from rfl) (if_pos ⟨hwipe, hdue⟩), fun p n hslot => ?_⟩
  refine exec_onApp_acts hlive (show execDramWipeEnd (some p) s = _ from rfl) ((if_pos ⟨hwipe, hdue⟩).trans ?_)
  simp only [hslot, c, b]
  rfl

/-- The bus below its threshold starts the power-fail sequence, once (R38, R618). -/
theorem exec_powerFail {s : State} (hlive : s.app.life.boot ≠ .held) (x y v : W16) :
    exec (.powerFail (x, y) v) s = .next (if s.app.failing = false ∧ v.toNat < failBelow then
      s.withApp (s.app.onLife fun l => { l with failAt := some s.app.tick, failFeeds := (x.toNat, y.toNat), refed := false }) else s) := by
  rw [next_ite]
  refine exec_onApp_acts hlive (show execPowerFail (x, y) v s = _ from rfl) ?_
  have hguard : (s.app.failing || decide (failBelow ≤ v.toNat)) = true ↔ ¬ (s.app.failing = false ∧ v.toNat < failBelow) := by
    cases s.app.failing <;> simp
  simp only [hguard, ite_not]

/-- A feed that crosses its threshold shows, with the urgent conversion of its voltage (R146, R617). -/
theorem exec_feedLow {s : State} (hlive : s.app.life.boot ≠ .held) (f : Fin 2) (low : Bool) (bus : W16) :
    let r := if f = 0 then Reg.GLB_PWR_feed_a_low else Reg.GLB_PWR_feed_b_low
    let b := s.app.set Reg.GLB_PWR_bus_min (min (s.app.get Reg.GLB_PWR_bus_min) bus.toNat)
    (b.on r ≠ low → exec (.feedLow f low bus) s = .next (s.withApp ((b.setB r low).auxUrgent (6 + f)))) ∧
    (b.on r = low → exec (.feedLow f low bus) s = .next (s.withApp b)) :=
  ⟨fun hcross => exec_onApp_acts hlive (show execFeedLow f low bus s = _ from rfl) (if_neg (by simpa using hcross)),
    fun hsame => exec_onApp_acts hlive (show execFeedLow f low bus s = _ from rfl) (if_pos (by simpa using hsame))⟩

/-! ### The scrubber (R30 to R32) -/

/-- A pass not earlier than its interval, with an uncorrectable word of its memories applied and recorded. -/
theorem exec_scrubPass {s : State} (hlive : s.app.life.boot ≠ .held) (m : ScrubOf)
    (hdue : s.app.since (vat s.app.life.scrubAt (scrubPlace m)) (scrubEvery m) = true) :
    let b := (s.app.onLife fun l => { l with scrubAt := vput l.scrubAt (scrubPlace m) s.app.tick }).scrubReads m
    exec (.scrubPass (m, none)) s = .next (s.withApp b) ∧
    ∀ (x : EccHit) (p : W64), exec (.scrubPass (m, some (x, p))) s = .next (s.withApp
      (if scrubMeets m x = true then (b.eccHit x).record 0x0040 (eccMemory x) (p.toNat % 2 ^ 32) (p.toNat / 2 ^ 32) 0 else b)) := by
  have hpass : ¬ (!s.app.since (vat s.app.life.scrubAt (scrubPlace m)) (scrubEvery m)) = true := by simp [hdue]
  exact ⟨exec_onApp_acts hlive (show execScrubPass (m, none) s = _ from rfl) (if_neg hpass),
    fun x p => exec_onApp_acts hlive (show execScrubPass (m, some (x, p)) s = _ from rfl) (if_neg hpass)⟩

/-- Settles O43: the rows of feed and carrier reset act in a held module too, the others while it is not held. -/
theorem resetEventsAct : Obligations.ResetEventsAct := by
  unfold Obligations.ResetEventsAct
  refine ⟨fun s => ⟨resets_failing, fun hrun => ?feeds, exec_onIsland_acts (show execHotSwapDisable s = _ from rfl) rfl⟩,
    fun s hlive => ⟨exec_onApp_acts hlive (show execWatchdogExpiry s = _ from rfl) rfl, exec_dramWipeEnd hlive, fun n hleft => ?erase,
      exec_powerFail hlive, exec_feedLow hlive, fun m h hsoon => ?scrubEarly, exec_scrubPass hlive⟩⟩
  case feeds =>
    obtain ⟨asserted, released⟩ := exec_carrierReset (Bool.eq_false_iff.mp hrun)
    exact ⟨exec_powerOnReset (Bool.eq_false_iff.mp hrun), asserted, released⟩
  case erase =>
    refine exec_onApp_acts hlive (show execBackgroundEraseStep s = _ from rfl) ((if_neg (by rw [hleft]; exact n.succ_ne_zero)).trans ?_)
    simp only [hleft, Nat.add_sub_cancel]
  case scrubEarly =>
    exact exec_onApp_rests (show execScrubPass (m, h) s = _ from rfl) (if_pos (by rw [hsoon]; rfl))

end Sys2Proof.Machine
end

section
/-! SUPPORT. The events of the trip channels, the matrix and the breaker controllers (O25). -/

namespace Sys2Proof.Machine

open Host

theorem inR_iff {lo hi n : Nat} : inR lo hi n = true ↔ lo ≤ n ∧ n ≤ hi := by simp [inR]

/-! ### The trip channels (R252, R253, R255, R258) -/

/-- TRIP_OVERLOAD opens a conducting switch whose current has been above 4.4 A for 200 ms, and does nothing else (R252). -/
theorem exec_tripOverload (s : State) (n : Fin 8) :
    let a := s.app
    let c := vat a.trp.ch n
    (∀ t, c.hotAt = some t → a.on (Reg.TRP_CHSTAT_on n) = true → a.since t (200 * tMs) = true →
      exec (.tripOverload n) s = .next (s.withApp ((a.chOpen n).onCh n fun c => { c with overload := true }))) ∧
    ((c.hotAt = none ∨ a.on (Reg.TRP_CHSTAT_on n) = false ∨ ∃ t, c.hotAt = some t ∧ a.since t (200 * tMs) = false) →
      exec (.tripOverload n) s = .next s) := by
  refine ⟨fun t hhot hon hlong => ?_, fun h => ?_⟩
  · exact exec_onIsland_acts (show execTripOverload n s = _ from rfl) (by simp only [hhot, hon, hlong, Bool.and_self, if_true])
  · refine exec_onIsland_acts (b := s.app) (show execTripOverload n s = _ from rfl) ?_
    obtain hcold | hoff | ⟨t, hhot, hshort⟩ := h
    · simp only [hcold]
    · cases hhot : (vat s.app.trp.ch n).hotAt <;> simp [hoff]
    · simp [hhot, hshort]

/-- At `seal_max` a channel that still seals in opens, if its `t_min` has elapsed (R253). -/
theorem exec_sealTimeout (s : State) (n : Fin 8) :
    let a := s.app
    let c := vat a.trp.ch n
    exec (.sealTimeout n) s = .next (if a.on (Reg.TRP_CHSTAT_on n) = true ∧ c.row = false ∧ a.on (Reg.TRP_CHCFG_seal_en n) = true ∧ a.lowFor n = false ∧
          a.since c.onAt (a.get (Reg.TRP_CHTIM_t_min n) * tMs) = true ∧ a.since c.offAt (a.get (Reg.TRP_CHTIM_seal_max n) * 100 * tMs) = true then
        s.withApp ((a.chOpen n).raise (Reg.TRP_CHSTAT_seal_timeout n)) else s) := by
  intro a c
  rw [next_ite]
  refine exec_onIsland_acts (show execSealTimeout n s = _ from rfl) ?_
  simp only [Bool.and_eq_true, Bool.not_eq_true', and_assoc]
  rfl

/-- A measurement earlier than 1 ms after the one before is left out (R258). -/
theorem exec_tcsMeasurement_early {s : State} {n : Fin 8} {t : Nat} (i tsp : W32) (v : W16)
    (hmeas : (vat s.app.trp.ch n).measAt = some t) (hsoon : s.app.since t tMs = false) : exec (.tcsMeasurement n i tsp v) s = .next s := by
  refine exec_onIsland_acts (b := s.app) (show execTcsMeasurement n i tsp v s = _ from rfl) (if_neg ?_)
  simp only [hmeas, hsoon, Bool.false_eq_true, not_false_eq_true]

/-- A diagnosis that has lasted `tcs_time` is reported; that of `ext_conduct` without its alarm until twice `seal_max` (R258). -/
theorem exec_tcsDiagnosis {s : State} (hlive : s.app.life.boot ≠ .held) (n : Fin 8) :
    let a := s.app
    let c := vat a.trp.ch n
    let t := a.get (Reg.TRP_CHTIM_tcs_time n) * 100 * tMs
    let long := a.since c.condAt (max t (2 * a.get (Reg.TRP_CHTIM_seal_max n) * 100 * tMs))
    exec (.tcsDiagnosis n) s = .next (if 1 ≤ c.cond ∧ c.cond ≤ 5 ∧ a.since c.condAt t = true then
        s.withApp (a.tcsReport n c.cond (c.cond != 4 || long)) else s) := by
  intro a c t long
  rw [next_ite]
  refine exec_onApp_acts hlive (show execTcsDiagnosis n s = _ from rfl) ?_
  have hreport : (if c.cond = 4 ∧ (!long) = true then a.tcsReport n 4 false else a.tcsReport n c.cond true) =
      a.tcsReport n c.cond (c.cond != 4 || long) := by
    by_cases hfour : c.cond = 4
    · cases long <;> simp [hfour]
    · simp [hfour, bne_iff_ne.mpr hfour]
  simp only [Bool.and_eq_true, inR_iff, and_assoc]
  exact congrArg (fun b => if 1 ≤ c.cond ∧ c.cond ≤ 5 ∧ a.since c.condAt t = true then b else a) hreport

/-! ### The breaker controllers (R261 to R266) -/

/-- Without an operation no row of the breaker controllers changes anything. -/
theorem breakerRows_idle {s : State} {b : Fin 4} (hop : vat s.app.trp.ops b = none) :
    exec (.breakerExecution b) s = .next s ∧ exec (.breakerOutputEnd b) s = .next s ∧ exec (.opTimeout b) s = .next s ∧
      exec (.onsetSearchEnd b) s = .next s :=
  ⟨exec_onApp_rests (show execBreakerExecution b s = _ from rfl) (by simp only [hop]),
    exec_onApp_rests (show execBreakerOutputEnd b s = _ from rfl) (by simp only [hop]),
    exec_onApp_rests (show execOpTimeout b s = _ from rfl) (by simp only [hop]),
    exec_onApp_rests (show execOnsetSearchEnd b s = _ from rfl) (by simp only [hop])⟩

/-- BREAKER_EXECUTION acts on an operation that has fired (R263, R264). -/
theorem exec_breakerExecution {s : State} (hlive : s.app.life.boot ≠ .held) {b : Fin 4} {o : BrkOp} (hop : vat s.app.trp.ops b = some o) :
    let a := s.app
    (∀ t, o.phase = .fired t none → exec (.breakerExecution b) s =
      .next (if a.since t (o.fine / 4) = true then s.withApp (a.brkExecute b) else s)) ∧
    (∀ t q, o.phase = .fired t (some q) → exec (.breakerExecution b) s = .next (s.withApp
      (if a.on (Reg.TRP_BKCFG_pow_fallback b) = true then (a.onOp b fun o => { o with powLost := true }).brkExecute b
       else a.brkEnd b o 3 q))) ∧
    ((∀ t q, o.phase ≠ .fired t q) → exec (.breakerExecution b) s = .next s) := by
  refine ⟨fun t hphase => ?_, fun t q hphase => ?_, fun hphase => ?_⟩
  · rw [next_ite]
    exact exec_onApp_acts hlive (show execBreakerExecution b s = _ from rfl) (by simp only [hop, hphase])
  · exact exec_onApp_acts hlive (show execBreakerExecution b s = _ from rfl) (by simp only [hop, hphase])
  · refine exec_onApp_rests (show execBreakerExecution b s = _ from rfl) ?_
    cases h : o.phase with
    | fired t q => exact absurd h (hphase t q)
    | _ => simp only [hop, h]

/-- Before its output has been given, an operation has no output end, no timeout and no onset search. -/
theorem breakerRows_not_done {s : State} {b : Fin 4} {o : BrkOp} (hop : vat s.app.trp.ops b = some o) (hphase : ∀ t, o.phase ≠ .done t) :
    exec (.breakerOutputEnd b) s = .next s ∧ exec (.opTimeout b) s = .next s ∧ exec (.onsetSearchEnd b) s = .next s := by
  cases h : o.phase with
  | done t => exact absurd h (hphase t)
  | _ =>
    exact ⟨exec_onApp_rests (show execBreakerOutputEnd b s = _ from rfl) (by simp only [hop, h]),
      exec_onApp_rests (show execOpTimeout b s = _ from rfl) (by simp only [hop, h]),
      exec_onApp_rests (show execOnsetSearchEnd b s = _ from rfl) (by simp only [hop, h])⟩

/-- BREAKER_OUTPUT_END at `pulse_ms`, or 20 ms after the position showed (R261). -/
theorem exec_breakerOutputEnd {s : State} (hlive : s.app.life.boot ≠ .held) {b : Fin 4} {o : BrkOp} {t : Nat}
    (hop : vat s.app.trp.ops b = some o) (hphase : o.phase = .done t) :
    let a := s.app
    (o.out = true → (a.since t (a.get (Reg.TRP_BKTIM_pulse_ms b) * 2 * tMs) = true ∨ ∃ u, o.shownAt = some u ∧ a.since u (20 * tMs) = true) →
      exec (.breakerOutputEnd b) s = .next (s.withApp
        (((a.onOp b fun o => { o with out := false }).setInp (0x880 + 4 * b + o.open_.toNat) false).brkSettle b))) ∧
    (o.out = false ∨ (a.since t (a.get (Reg.TRP_BKTIM_pulse_ms b) * 2 * tMs) = false ∧ ∀ u, o.shownAt = some u → a.since u (20 * tMs) = false) →
      exec (.breakerOutputEnd b) s = .next s) := by
  refine ⟨fun hout hdue => ?_, fun hrest => ?_⟩
  · refine exec_onApp_acts hlive (show execBreakerOutputEnd b s = _ from rfl) ?_
    simp only [hop, hphase, hout]
    obtain hlong | ⟨u, hshown, hlong⟩ := hdue
    · simp only [hlong, Bool.or_true, Bool.and_self, if_true]
    · simp only [hshown, hlong, Bool.true_or, Bool.and_self, if_true]
  · refine exec_onApp_rests (show execBreakerOutputEnd b s = _ from rfl) ?_
    simp only [hop, hphase]
    obtain hout | ⟨hshort, hshown⟩ := hrest
    · simp only [hout, Bool.false_and, Bool.false_eq_true, if_false]
    · cases h : o.shownAt with
      | none => simp [hshort]
      | some u => simp [hshort, hshown u h]

/-- ONSET_SEARCH_END at the onset or at the limit of the search (R266). -/
theorem exec_onsetSearchEnd {s : State} (hlive : s.app.life.boot ≠ .held) {b : Fin 4} {o : BrkOp} {t : Nat}
    (hop : vat s.app.trp.ops b = some o) (hphase : o.phase = .done t) :
    let a := s.app
    (o.onset ≠ none → exec (.onsetSearchEnd b) s = .next s) ∧
    (∀ x, o.onset = none → a.onsetOf b o = some x →
      exec (.onsetSearchEnd b) s = .next (s.withApp ((a.onOp b fun o => { o with onset := some (some x) }).brkSettle b))) ∧
    (o.onset = none → a.onsetOf b o = none → exec (.onsetSearchEnd b) s =
      .next (if a.since t (5000 + a.get (Reg.TRP_BKTIM_op_timeout b) * tMs) = true then
        s.withApp ((a.onOp b fun o => { o with onset := some none }).brkSettle b) else s)) := by
  refine ⟨fun hended => ?_, fun x hopen hx => ?_, fun hopen hnone => ?_⟩
  · refine exec_onApp_rests (show execOnsetSearchEnd b s = _ from rfl) ?_
    simp only [hop, hphase, Option.isSome_iff_ne_none.mpr hended, if_true]
  · exact exec_onApp_acts hlive (show execOnsetSearchEnd b s = _ from rfl)
      (by simp only [hop, hphase, hopen, hx, Option.isSome_none, Bool.false_eq_true, if_false])
  · rw [next_ite]
    exact exec_onApp_acts hlive (show execOnsetSearchEnd b s = _ from rfl)
      (by simp only [hop, hphase, hopen, hnone, Option.isSome_none, Bool.false_eq_true, if_false])

/-- In a held module only the rows of the trip island act (R591). -/
theorem tripRows_held {s : State} (hheld : s.app.life.boot = .held) :
    (∀ n : Fin 8, exec (.tripLogicReturn n) s = .next s ∧ exec (.tcsDiagnosis n) s = .next s) ∧ exec .matrixScan s = .next s ∧
    ∀ b : Fin 4, exec (.breakerExecution b) s = .next s ∧ exec (.breakerOutputEnd b) s = .next s ∧ exec (.opTimeout b) s = .next s ∧
      exec (.onsetSearchEnd b) s = .next s := by
  have rests {f : App → App} : s.onApp f = .next s := State.onApp_held s f hheld
  exact ⟨fun n => ⟨show execTripLogicReturn n s = _ from rests, show execTcsDiagnosis n s = _ from rests⟩,
    show execMatrixScan s = _ from rests, fun b => ⟨show execBreakerExecution b s = _ from rests,
      show execBreakerOutputEnd b s = _ from rests, show execOpTimeout b s = _ from rests, show execOnsetSearchEnd b s = _ from rests⟩⟩

/-- Settles O25: the rows of the trip island first, then those of the application partition, held or not. -/
theorem tripEventsAct : Obligations.TripEventsAct := by
  unfold Obligations.TripEventsAct
  refine ⟨fun s n => ?island, fun s hheld => tripRows_held hheld, fun s hlive => ?partition⟩
  case island =>
    obtain ⟨overload, noOverload⟩ := exec_tripOverload s n
    refine ⟨overload, noOverload, ?release, exec_sealTimeout s n, ?silent, fun i tsp v => ⟨?early, fun hdue => ?measured⟩⟩
    case release => rw [next_ite]; exact exec_onIsland_acts (show execSealInRelease n s = _ from rfl) rfl
    case silent => rw [next_ite]; exact exec_onIsland_acts (show execTripLogicSilent n s = _ from rfl) rfl
    case early =>
      rintro ⟨t, hmeas, hsoon⟩
      exact exec_tcsMeasurement_early i tsp v hmeas hsoon
    case measured =>
      refine exec_onIsland_acts (show execTcsMeasurement n i tsp v s = _ from rfl) (if_pos ?_)
      obtain hnone | ⟨t, hmeas, hlong⟩ := hdue
      · simp only [hnone]
      · simp only [hmeas, hlong]
  case partition =>
    refine ⟨fun n => exec_onApp_acts hlive (show execTripLogicReturn n s = _ from rfl) rfl, fun n => exec_tcsDiagnosis hlive n, ?scan,
      fun b hidle => breakerRows_idle hidle, fun b o hop => ?_⟩
    case scan => rw [next_ite]; exact exec_onApp_acts hlive (show execMatrixScan s = _ from rfl) rfl
    obtain ⟨fired, firedLost, notFired⟩ := exec_breakerExecution hlive hop
    refine ⟨fired, firedLost, notFired, breakerRows_not_done hop, fun t hphase => ?_⟩
    obtain ⟨outputEnd, outputStays⟩ := exec_breakerOutputEnd hlive hop hphase
    refine ⟨outputEnd, outputStays, ?timeout, exec_onsetSearchEnd hlive hop hphase⟩
    rw [next_ite]
    exact exec_onApp_acts hlive (show execOpTimeout b s = _ from rfl) (by simp only [hop, hphase])

end Sys2Proof.Machine
end

section
/-! SUPPORT. The checks of a command (O58): the way of the command processor, one branch at a time. -/

namespace Sys2Proof.Machine

open Host

/-! ### The checks in their order (R489) -/

section Checks

variable {a : App} {h : CmdHdr} {op : HostOp} {range : Option Nat} {objs : List Nat}

/-- The check of the servo: the context that TIM_CTL names (R53, log entry 16). -/
def App.ServoOk (a : App) (h : CmdHdr) (op : HostOp) : Prop :=
  op.servoOnly = false ∨ (a.on Reg.TIM_CTL_servo_sel = true ∧ a.servoCtx = h.ctx)

/-- The check of the role. -/
def App.RoleOk (a : App) (h : CmdHdr) (op : HostOp) : Prop := op.roles.contains (a.get (Reg.HCX_ROLE_active_role h.ctx)) = true

theorem servoFails_iff : (op.servoOnly && !(a.on Reg.TIM_CTL_servo_sel && a.servoCtx == h.ctx.val)) = true ↔ ¬ a.ServoOk h op := by
  unfold App.ServoOk
  cases op.servoOnly <;> cases a.on Reg.TIM_CTL_servo_sel <;> simp

theorem cmdCheck_servo (hservo : ¬ a.ServoOk h op) : a.cmdCheck h op range objs = some (Status.notServo, 0) :=
  if_pos (servoFails_iff.mpr hservo)

theorem cmdCheck_role (hservo : a.ServoOk h op) (hrole : ¬ a.RoleOk h op) :
    a.cmdCheck h op range objs = some (Status.role, a.get (Reg.HCX_ROLE_active_role h.ctx)) :=
  (if_neg fun hf => servoFails_iff.mp hf hservo).trans (if_pos (by simpa [App.RoleOk] using hrole))

theorem cmdCheck_mode (hservo : a.ServoOk h op) (hrole : a.RoleOk h op) (hmode : ¬ a.accepts h.ctx op = true) :
    a.cmdCheck h op range objs = some (Status.state, a.lcy) :=
  (if_neg fun hf => servoFails_iff.mp hf hservo).trans
    ((if_neg (by simpa [App.RoleOk] using hrole)).trans (if_pos (by simpa using hmode)))

/-- Past servo, role and mode the range of the arguments and the owners of the objects are left to check. -/
theorem cmdCheck_arguments (hservo : a.ServoOk h op) (hrole : a.RoleOk h op) (hmode : a.accepts h.ctx op = true) :
    a.cmdCheck h op range objs = match range with
      | some i => some (Status.range, op.offsetOf i)
      | none => (objs.find? fun i => (a.ownerOf i).map (·.ctx) != some h.ctx.val).map fun i => (Status.notOwner, objOf i) := by
  refine (if_neg fun hf => servoFails_iff.mp hf hservo).trans
    ((if_neg (by simpa [App.RoleOk] using hrole)).trans ((if_neg (by simpa using hmode)).trans ?_))
  cases range with
  | some i => rfl
  | none => cases objs.find? fun i => (a.ownerOf i).map (·.ctx) != some h.ctx.val <;> rfl

/-- With its arguments in range, a command passes when its context owns every object it touches (R495). -/
theorem cmdCheck_owned (hservo : a.ServoOk h op) (hrole : a.RoleOk h op) (hmode : a.accepts h.ctx op = true) :
    a.cmdCheck h op none objs = none ↔ ∀ x ∈ objs, (a.ownerOf x).map (·.ctx) = some h.ctx.val := by
  rw [cmdCheck_arguments hservo hrole hmode]
  simp [List.find?_eq_none]

end Checks

/-! ### A tag that its context has kept (R490, R491) -/

section Duplicates

variable {a : App} {h : CmdHdr} {op : HostOp} {r : TagRec}

theorem duplicate_reused (hother : r.opcode.toNat ≠ op.opcode ∨ r.crc.toNat ≠ op.crc) :
    a.duplicate h op r = a.reply h op.opcode Status.tagReused 0 (le 4 r.opcode.toNat) false false := if_pos hother

theorem duplicate_final {f : FinalRec} (hop : r.opcode.toNat = op.opcode) (hcrc : r.crc.toNat = op.crc) (hfinal : r.final = some f) :
    a.duplicate h op r = a.reply h op.opcode f.status.toNat f.step.toNat f.result true f.replayed := by
  rw [App.duplicate, if_neg (by simp [hop, hcrc]), hfinal]

theorem duplicate_executing (hop : r.opcode.toNat = op.opcode) (hcrc : r.crc.toNat = op.crc) (hfinal : r.final = none) :
    a.duplicate h op r = a.onTags h.ctx fun l => l.map fun q => if q.tag == h.tag then { q with links := q.links ++ [h.index] } else q := by
  rw [App.duplicate, if_neg (by simp [hop, hcrc]), hfinal]

end Duplicates

/-! ### The branches of the command processor (R38, R489 to R492) -/

section Process

variable {a : App} {h : CmdHdr} {op : HostOp} {range : Option Nat} {objs : List Nat} {eff : App → App × Reply}

theorem process_failing (hfail : (a.failing && op.cls != .q) = true) : a.process h op range objs eff = a := if_pos hfail

theorem process_badTag (hrun : (a.failing && op.cls != .q) = false) (htag : h.tag = 0#64) :
    a.process h op range objs eff = a.reply h op.opcode Status.badTag 0 [] false false :=
  (if_neg (Bool.eq_false_iff.mp hrun)).trans (if_pos htag)

theorem process_known {r : TagRec} (hrun : (a.failing && op.cls != .q) = false) (htag : h.tag ≠ 0#64) (hrec : a.tagRec h.ctx h.tag = some r) :
    a.process h op range objs eff = a.duplicate h op r := by
  rw [App.process, if_neg (Bool.eq_false_iff.mp hrun), if_neg htag, hrec]

/-- The tag record of a new command. -/
def TagRec.fresh (h : CmdHdr) (op : HostOp) : TagRec :=
  { tag := h.tag, opcode := BitVec.ofNat 16 op.opcode, crc := BitVec.ofNat 32 op.crc, index := h.index }

/-- A new command that fails a check is final with its status and detail; classes J and X keep its tag. -/
theorem process_refused {st d : Nat} (hrun : (a.failing && op.cls != .q) = false) (htag : h.tag ≠ 0#64)
    (hnew : a.tagRec h.ctx h.tag = none) (hcheck : a.cmdCheck h op range objs = some (st, d)) :
    a.process h op range objs eff =
      (if op.cls = .q then a else a.keepTag h.ctx (.fresh h op)).finish h op.opcode st 0 (le 4 d) false := by
  rw [App.process, if_neg (Bool.eq_false_iff.mp hrun), if_neg htag, hnew]
  by_cases hq : op.cls = .q
  · simp [hq, hcheck]
  · simp [hq, cmdCheck_keepTag, hcheck, TagRec.fresh]

end Process

/-- What refusing a command changes: contexts, tag records and journal, the requests at the memory ports, and what goes to the partner. -/
theorem keepTag_finish_frame (a : App) (k : Nat) (r : TagRec) (h : CmdHdr) (o st n : Nat) (res : List Byte) (q : Bool) :
    let b := (a.keepTag k r).finish h o st n res q
    b = { a with xbar := b.xbar, ctxs := b.ctxs, cmd := b.cmd, par := b.par, sent := b.sent } :=
  finish_eq (a.keepTag k r) h o st n res q

/-- Settles O58: the first part by the branches of `App.process`, the second by those of `App.cmdCheck`. -/
theorem commandChecks : Obligations.CommandChecks := by
  unfold Obligations.CommandChecks
  refine ⟨fun i h op range objs eff hexec s hlive => ?_, fun a h op range objs => ⟨cmdCheck_servo, cmdCheck_role, cmdCheck_mode,
    fun hservo hrole hmode n hrange => ?_, fun hservo hrole hmode hrange => ?_⟩⟩
  · have acts {b : App} (hb : s.app.process h op (range s.app) (objs s.app) (eff s.app) = b) : exec i s = .next (s.withApp b) :=
      exec_onApp_acts hlive (hexec s) hb
    refine ⟨fun hfail => acts (process_failing hfail), fun hrun => ⟨fun htag => acts (process_badTag hrun htag),
      fun htag r hrec => ⟨fun hother => acts ((process_known hrun htag hrec).trans (duplicate_reused hother)),
        fun hop hcrc f hfinal => acts ((process_known hrun htag hrec).trans (duplicate_final hop hcrc hfinal)),
        fun hop hcrc hfinal => acts ((process_known hrun htag hrec).trans (duplicate_executing hop hcrc hfinal))⟩,
      fun htag hnew st d hcheck => ?_⟩⟩
    have hrefused := process_refused (eff := eff s.app) hrun htag hnew hcheck
    by_cases hq : op.cls = .q
    · rw [if_pos hq] at hrefused
      exact ⟨_, acts hrefused, finish_eq .., fun _ => rfl, fun hne => absurd hq hne⟩
    · rw [if_neg hq] at hrefused
      exact ⟨_, acts hrefused, keepTag_finish_frame .., fun h => absurd h hq, fun _ => rfl⟩
  · rw [cmdCheck_arguments hservo hrole hmode, hrange]
  · rw [hrange]; exact cmdCheck_owned hservo hrole hmode

end Sys2Proof.Machine
end

section
/-! SUPPORT. The audit counter and the rejected-frame counter (O54): which row of the Cistern counts, and what it writes. -/

namespace Sys2Proof.Machine

open Host

/-! ### The two counters (R324) -/

/-- Both counters stay. -/
def Cistern.CountsKept (c d : Cistern) : Prop := d.audit = c.audit ∧ d.rejects = c.rejects

/-- The audit counter counts one, and the newest record carries its new value. -/
def Cistern.Audited (c d : Cistern) : Prop :=
  d.audit = c.audit + 1 ∧ d.rejects = c.rejects ∧ ∃ r l, d.log = r :: l ∧ r.audit = d.audit

/-- The rejected-frame counter counts one. -/
def Cistern.Rejected (c d : Cistern) : Prop := d.audit = c.audit ∧ d.rejects = c.rejects + 1

theorem Cistern.CountsKept.refl (c : Cistern) : c.CountsKept c := ⟨rfl, rfl⟩

theorem note_audited {c d : Cistern} (code param : Nat) : c.CountsKept d → c.Audited (d.note code param true)
  | ⟨haudit, hrejects⟩ => ⟨congrArg (· + 1) haudit, hrejects, _, _, rfl, rfl⟩

/-- A discarded frame opens a combined record, or goes into the one that is open (R21, R325). -/
theorem reject_rejected (c : Cistern) : c.Rejected c.reject := by
  unfold Cistern.reject
  cases hlog : c.log with
  | nil => exact ⟨rfl, rfl⟩
  | cons r l =>
    dsimp only
    split <;> exact ⟨rfl, rfl⟩

/-! ### A command of programming mode (R327) -/

/-- A command that audits does so where it is carried out, and else leaves both counters. -/
theorem command_audited {c : Cistern} {f : Cistern → Cistern} (allowed : Bool) (hf : c.Audited (f c)) :
    c.CountsKept (c.command allowed f) ∨
      c.on = true ∧ c.session.isSome = true ∧ allowed = true ∧ c.Audited (c.command allowed f) := by
  obtain ⟨-, heq⟩ | ⟨-, -, heq⟩ | ⟨hon, hsession, hallowed, heq⟩ | ⟨-, -, -, heq⟩ := command_cases c allowed f <;> rw [heq]
  · exact .inl ⟨rfl, rfl⟩
  · exact .inl ⟨rfl, rfl⟩
  · exact .inr ⟨hon, hsession, hallowed, hf⟩
  · exact .inl ⟨rfl, rfl⟩

/-- A command that does not audit leaves both counters. -/
theorem command_countsKept {c : Cistern} {f : Cistern → Cistern} (allowed : Bool) (hf : c.CountsKept (f c)) :
    c.CountsKept (c.command allowed f) := by
  obtain ⟨-, heq⟩ | ⟨-, -, heq⟩ | ⟨-, -, -, heq⟩ | ⟨-, -, -, heq⟩ := command_cases c allowed f <;> rw [heq]
  · exact ⟨rfl, rfl⟩
  · exact ⟨rfl, rfl⟩
  · exact hf
  · exact ⟨rfl, rfl⟩

/-! ### The rows of the Cistern -/

section Rows

variable {s t : State}

/-- The next Cistern of a row of the Cistern. -/
theorem cis_next {i : Instr} {f : Cistern → Cistern} (h : exec i s = .next t) (hexec : exec i s = s.onCis f) : t.cis = f s.cis := by
  rw [hexec, onCis_eq] at h
  cases h
  rfl

theorem periodEnd_countsKept {l : List CisInput} {freq : W32} {delay : Fin 6291457} (h : exec (.cisternPeriodEnd l freq delay) s = .next t) :
    s.cis.CountsKept t.cis := by
  rw [cis_next h (show execCisternPeriodEnd l freq delay s = _ from rfl)]
  dsimp only
  split
  · exact .refl _
  · split <;> exact ⟨by simp, by simp⟩

theorem store_countsKept (h : exec .cisternStore s = .next t) : s.cis.CountsKept t.cis := by
  rw [cis_next h (show execCisternStore s = _ from rfl)]
  split <;> exact ⟨rfl, rfl⟩

theorem supplyLoss_countsKept (h : exec .cisternSupplyLoss s = .next t) : s.cis.CountsKept t.cis := by
  rw [cis_next h (show execCisternSupplyLoss s = _ from rfl)]
  split <;> exact ⟨rfl, rfl⟩

theorem powerUp_countsKept {p : Vector CalPoints 9} {n : W64} {k : Bool} (h : exec (.cisternPowerUp p n k) s = .next t) :
    s.cis.CountsKept t.cis := by
  rw [cis_next h (show execCisternPowerUp p n k s = _ from rfl)]
  dsimp only
  split
  · exact .refl _
  · exact ⟨by simp, by simp⟩

theorem watchdogRestart_countsKept (h : exec .cisternWatchdogRestart s = .next t) : s.cis.CountsKept t.cis := by
  rw [cis_next h (show execCisternWatchdogRestart s = _ from rfl)]
  split <;> exact ⟨rfl, rfl⟩

theorem spareCheck_countsKept {x y : Int} (h : exec (.spareCheck x y) s = .next t) : s.cis.CountsKept t.cis := by
  rw [cis_next h (show execSpareCheck x y s = _ from rfl)]
  dsimp only
  split
  · split <;> exact ⟨rfl, rfl⟩
  · exact .refl _

theorem demandIntervalEnd_countsKept (h : exec .demandIntervalEnd s = .next t) : s.cis.CountsKept t.cis := by
  rw [cis_next h (show execDemandIntervalEnd s = _ from rfl)]
  dsimp only
  split <;> exact ⟨rfl, rfl⟩

theorem profileIntervalEnd_countsKept {ch : Fin 2} (h : exec (.profileIntervalEnd ch) s = .next t) : s.cis.CountsKept t.cis := by
  rw [cis_next h (show execProfileIntervalEnd ch s = _ from rfl)]
  dsimp only
  split <;> exact ⟨rfl, rfl⟩

theorem opticalReadout_countsKept (h : exec .opticalReadout s = .next t) : s.cis.CountsKept t.cis := by
  rw [cis_next h (show execOpticalReadout s = _ from rfl)]
  split <;> exact ⟨rfl, rfl⟩

theorem programmingMode_countsKept {w : W32} (h : exec (.programmingMode w) s = .next t) : s.cis.CountsKept t.cis := by
  rw [cis_next h (show execProgrammingMode w s = _ from rfl)]
  repeat' split
  all_goals exact ⟨rfl, rfl⟩

theorem programmingTimeout_countsKept (h : exec .programmingTimeout s = .next t) : s.cis.CountsKept t.cis := by
  rw [cis_next h (show execProgrammingTimeout s = _ from rfl)]
  repeat' split
  all_goals exact ⟨rfl, rfl⟩

theorem demandReset_countsKept (h : exec .demandReset s = .next t) : s.cis.CountsKept t.cis := by
  rw [cis_next h (show execDemandReset s = _ from rfl)]
  exact command_countsKept true ⟨rfl, rfl⟩

/-- The service switch audits the change of the seal (R326). -/
theorem serviceSwitchHold_audits (h : exec .serviceSwitchHold s = .next t) :
    s.cis.CountsKept t.cis ∨ s.cis.on = true ∧ s.cis.Audited t.cis := by
  rw [cis_next h (show execServiceSwitchHold s = _ from rfl)]
  dsimp only
  split
  · next hon => exact .inr ⟨hon, note_audited _ _ ⟨rfl, rfl⟩⟩
  · exact .inl (.refl _)

/-- A row that is a command of programming mode whose effect audits. -/
theorem row_audits {i : Instr} {allowed : Cistern → Bool} {f : Cistern → Cistern} (h : exec i s = .next t)
    (hexec : exec i s = s.onCis fun c => c.command (allowed c) f) (hf : s.cis.Audited (f s.cis)) :
    s.cis.CountsKept t.cis ∨ s.cis.on = true ∧ s.cis.session.isSome = true ∧ allowed s.cis = true ∧ s.cis.Audited t.cis := by
  rw [cis_next h hexec]
  exact command_audited (allowed s.cis) hf

theorem calibration_audits {ch : Fin 8} {x y z : W32} (h : exec (.calibration ch x y z) s = .next t) :
    s.cis.CountsKept t.cis ∨ s.cis.on = true ∧ s.cis.session.isSome = true ∧ (!s.cis.sealed) = true ∧ s.cis.Audited t.cis :=
  row_audits (allowed := fun c => !c.sealed) h (show execCalibration ch x y z s = _ from rfl) (note_audited _ _ ⟨rfl, rfl⟩)

theorem registerReset_audits (h : exec .registerReset s = .next t) :
    s.cis.CountsKept t.cis ∨ s.cis.on = true ∧ s.cis.session.isSome = true ∧ (!s.cis.sealed) = true ∧ s.cis.Audited t.cis :=
  row_audits (allowed := fun c => !c.sealed) h (show execRegisterReset s = _ from rfl) (note_audited _ _ ⟨rfl, rfl⟩)

theorem firmwareReplacement_audits {p : List Byte} {v : Bool} (h : exec (.firmwareReplacement p v) s = .next t) :
    s.cis.CountsKept t.cis ∨ s.cis.on = true ∧ s.cis.session.isSome = true ∧ (!s.cis.sealed && v) = true ∧ s.cis.Audited t.cis :=
  row_audits (allowed := fun c => !c.sealed && v) h (show execFirmwareReplacement p v s = _ from rfl) (note_audited _ _ ⟨rfl, rfl⟩)

theorem legalSettingChange_audits {x : CisSetting} (h : exec (.legalSettingChange x) s = .next t) :
    s.cis.CountsKept t.cis ∨
      s.cis.on = true ∧ s.cis.session.isSome = true ∧ (!s.cis.sealed && s.cis.settingOk x) = true ∧ s.cis.Audited t.cis := by
  refine row_audits (allowed := fun c => !c.sealed && c.settingOk x) h (show execLegalSettingChange x s = _ from rfl) ?_
  obtain ⟨-, -, -, haudit, hrejects, -⟩ := putSetting_fr s.cis x
  exact note_audited _ _ ⟨haudit, hrejects⟩

/-- The record of a clock setting that its allowance forbids does not audit (R322, R325). -/
theorem notePastAllowance_audits {c d : Cistern} {ok : Bool} (n : Nat)
    (hd : c.CountsKept d ∨ c.on = true ∧ c.session.isSome = true ∧ ok = true ∧ c.Audited d) :
    let e := if c.on && c.session.isSome && !ok then d.note 0x31 n false else d
    c.CountsKept e ∨ c.on = true ∧ c.session.isSome = true ∧ c.Audited e := by
  obtain hkept | ⟨hon, hsession, rfl, haudited⟩ := hd
  · refine .inl ?_
    split <;> exact hkept
  · refine .inr ⟨hon, hsession, ?_⟩
    simpa using haudited

theorem clockSetting_audits {x : W32} (h : exec (.clockSetting x) s = .next t) :
    s.cis.CountsKept t.cis ∨ s.cis.on = true ∧ s.cis.session.isSome = true ∧ s.cis.Audited t.cis := by
  rw [cis_next h (show execClockSetting x s = _ from rfl)]
  exact notePastAllowance_audits _ (command_audited _ (note_audited _ _ ⟨by simp, by simp⟩))

/-- A frame that is no request is counted, any other leaves both counters (R21, R334). -/
theorem readRequest_rejects {d : List Byte} (h : exec (.readRequest d) s = .next t) :
    s.cis.CountsKept t.cis ∨ s.cis.on = true ∧ requestOk d = false ∧ s.cis.Rejected t.cis := by
  rw [cis_next h (show execReadRequest d s = _ from rfl)]
  split
  · exact .inl (.refl _)
  · next hon =>
    split
    · next hbad => exact .inr ⟨by simpa using hon, by simpa using hbad, reject_rejected _⟩
    · split <;> exact .inl ⟨rfl, rfl⟩

end Rows

/-! ### Every command and event -/

/-- The seal transitions and the accepted commands that R324 has audited. -/
def Cistern.MayAudit (c : Cistern) (i : Instr) : Prop :=
  i = .serviceSwitchHold ∨
    (c.session.isSome = true ∧
      ((c.sealed = false ∧ ((∃ ch x y z, i = .calibration ch x y z) ∨ (∃ x, i = .legalSettingChange x) ∨ i = .registerReset ∨
        (∃ p, i = .firmwareReplacement p true))) ∨ (∃ x, i = .clockSetting x)))

/-- How a row may leave the two counters (R324). -/
def Cistern.Counts (c : Cistern) (i : Instr) (d : Cistern) : Prop :=
  c.CountsKept d ∨ (c.on = true ∧ c.Audited d ∧ c.MayAudit i) ∨ (c.on = true ∧ c.Rejected d ∧ ∃ x, i = .readRequest x ∧ requestOk x = false)

/-- A command of programming mode that audits in Open state alone. -/
theorem counts_of_open {c d : Cistern} {i : Instr} {more : Bool}
    (h : c.CountsKept d ∨ c.on = true ∧ c.session.isSome = true ∧ (!c.sealed && more) = true ∧ c.Audited d)
    (hi : more = true → (∃ ch x y z, i = .calibration ch x y z) ∨ (∃ x, i = .legalSettingChange x) ∨ i = .registerReset ∨
      (∃ p, i = .firmwareReplacement p true)) : c.Counts i d := by
  refine h.imp_right fun ⟨hon, hsession, hallowed, haudited⟩ => .inl ⟨hon, haudited, .inr ⟨hsession, .inl ?_⟩⟩
  obtain ⟨hopen, hmore⟩ := Bool.and_eq_true_iff.mp hallowed
  exact ⟨by simpa using hopen, hi hmore⟩

/-- What a row of the Cistern does to the two counters. -/
theorem cisternRow_counts {i : Instr} {s t : State} (hrow : cisternRow i) (h : exec i s = .next t) : s.cis.Counts i t.cis := by
  obtain ⟨l, f, d, rfl⟩ | rfl | rfl | ⟨p, n, k, rfl⟩ | rfl | ⟨x, y, rfl⟩ | rfl | ⟨ch, rfl⟩ | rfl | rfl | ⟨w, rfl⟩ | rfl |
    ⟨ch, x, y, z, rfl⟩ | ⟨x, rfl⟩ | rfl | ⟨p, v, rfl⟩ | ⟨w, rfl⟩ | rfl | ⟨d, rfl⟩ := hrow
  · exact .inl (periodEnd_countsKept h)
  · exact .inl (store_countsKept h)
  · exact .inl (supplyLoss_countsKept h)
  · exact .inl (powerUp_countsKept h)
  · exact .inl (watchdogRestart_countsKept h)
  · exact .inl (spareCheck_countsKept h)
  · exact .inl (demandIntervalEnd_countsKept h)
  · exact .inl (profileIntervalEnd_countsKept h)
  · exact (serviceSwitchHold_audits h).imp_right fun ⟨hon, haudited⟩ => .inl ⟨hon, haudited, .inl rfl⟩
  · exact .inl (opticalReadout_countsKept h)
  · exact .inl (programmingMode_countsKept h)
  · exact .inl (programmingTimeout_countsKept h)
  · exact counts_of_open (more := true) (by simpa using calibration_audits h) fun _ => .inl ⟨_, _, _, _, rfl⟩
  · exact counts_of_open (legalSettingChange_audits h) fun _ => .inr (.inl ⟨_, rfl⟩)
  · exact counts_of_open (more := true) (by simpa using registerReset_audits h) fun _ => .inr (.inr (.inl rfl))
  · exact counts_of_open (firmwareReplacement_audits h) fun hsigned => .inr (.inr (.inr ⟨_, by rw [hsigned]⟩))
  · exact (clockSetting_audits h).imp_right fun ⟨hon, hsession, haudited⟩ => .inl ⟨hon, haudited, .inr ⟨hsession, .inr ⟨_, rfl⟩⟩⟩
  · exact .inl (demandReset_countsKept h)
  · exact (readRequest_rejects h).imp_right fun ⟨hon, hbad, hrejected⟩ => .inr ⟨hon, hrejected, _, rfl, hbad⟩

/-- Every row leaves the two counters as R324 allows: only the rows of the Cistern reach them. -/
theorem exec_counts {i : Instr} {s t : State} (h : exec i s = .next t) : s.cis.Counts i t.cis := by
  obtain ⟨-, -, f, hexec⟩ | ⟨-, -, f, hexec⟩ | ⟨hrow, -⟩ := exec_kinds i
  · rw [hexec, onApp_eq] at h
    cases h
    exact .inl (.refl _)
  · rw [hexec, onIsland_eq] at h
    cases h
    exact .inl (.refl _)
  · exact cisternRow_counts hrow h

/-- Settles O54, from the three ways in which a row may leave the counters. -/
theorem auditCounts : Obligations.AuditCounts := by
  unfold Obligations.AuditCounts
  intro i s t h
  obtain ⟨haudit, hrejects⟩ | ⟨hon, ⟨haudit, hrejects, hlog⟩, hmay⟩ | ⟨hon, ⟨haudit, hrejects⟩, hbad⟩ := exec_counts h
  · exact ⟨.inl haudit, .inl hrejects⟩
  · exact ⟨.inr ⟨haudit, hon, hlog, hmay⟩, .inl hrejects⟩
  · exact ⟨.inl haudit, .inr ⟨hrejects, haudit, hon, hbad⟩⟩

end Sys2Proof.Machine
end

section
/-! SUPPORT. A step of wall time (O19): what an applied and a refused step leave of the timebase. -/

namespace Sys2Proof.Machine

open Host

/-! ### Instants as nanoseconds (R7, R47) -/

/-- Wall time set to a count of nanoseconds that its 48-bit seconds hold reads as that count. -/
theorem total_ofTotal (w : Wall) {t : Nat} (h : t < 1000000000 * 2 ^ 48) : (w.ofTotal t).total = t := by
  have hsec : t / 1000000000 < 2 ^ 48 := Nat.div_lt_of_lt_mul h
  simp only [Wall.total, Wall.ofTotal, BitVec.toNat_ofNat, Nat.mod_eq_of_lt hsec]
  exact Nat.div_add_mod' t 1000000000

/-! ### Applied steps (R47, R50, R53, R69) -/

/-- Marking the compare units that a step passed notes them alone (R69, R70). -/
theorem markPassed_eq (a : App) (old : Nat) : ∃ l, a.markPassed old = a.onTim fun t => { t with lateReq := l } := by
  unfold App.markPassed
  generalize upto 16 = units
  induction units generalizing a with
  | nil => exact ⟨a.tim.lateReq, rfl⟩
  | cons n units ih =>
    rw [List.foldl_cons]
    split
    · obtain ⟨l, h⟩ := ih (a.onTim fun t => { t with lateReq := vput t.lateReq n true })
      exact ⟨l, h⟩
    · exact ih a

/-- A step applied, from the state with its record written and the units it passed marked (R47, R50, R69). -/
def App.stepShown (a : App) (forced : Bool) : App :=
  if forced then
    let b := (a.onTim fun t => { t with tq := .holdover, holdAt := a.tick, source := 0 }).anchor 2
    if a.tim.tq = .holdover then b else (b.postState 20 0 a.tqc 2 0).anchor 1
  else a.anchor 2

theorem applyStep_eq (a : App) (d : Int) (forced : Bool) :
    a.applyStep d forced = App.stepShown (((a.stepped d).record 0x0010 (toBits 64 d % 2 ^ 32) (toBits 64 d / 2 ^ 32) (a.stepped d).tsc
      forced.toNat).markPassed a.now) forced := rfl

theorem stepShown_time (a : App) (forced : Bool) :
    (a.stepShown forced).cmd = a.cmd ∧ ∃ q i c, (a.stepShown forced).tim = { a.tim with tq := q, holdAt := i, source := c } := by
  unfold App.stepShown
  dsimp only
  split
  · split <;> simp only [anchor_cmd, anchor_tim, postState_cmd, postState_tim, onTim_cmd, onTim_tim] <;> exact ⟨trivial, _, _, _, rfl⟩
  · simp only [anchor_cmd, anchor_tim]
    exact ⟨trivial, _, _, _, rfl⟩

/-- A record and the marks of the compare units leave the commands, and of the timebase all but these marks. -/
theorem record_markPassed_time (a : App) (c p q r t old : Nat) :
    ((a.record c p q r t).markPassed old).cmd = a.cmd ∧
    ∃ l, ((a.record c p q r t).markPassed old).tim = { a.tim with lateReq := l } := by
  obtain ⟨l, hpassed⟩ := markPassed_eq (a.record c p q r t) old
  rw [hpassed, onTim_cmd, onTim_tim, record_cmd, record_tim]
  exact ⟨rfl, l, rfl⟩

/-- Beside the move itself an applied step marks compare units, and a forced one sets Holdover; no command record is touched. -/
theorem applyStep_time (a : App) (d : Int) (forced : Bool) :
    (a.applyStep d forced).cmd = a.cmd ∧
    ∃ l q i c, (a.applyStep d forced).tim = { (a.stepped d).tim with lateReq := l, tq := q, holdAt := i, source := c } := by
  obtain ⟨hmarked, l, hlate⟩ := record_markPassed_time (a.stepped d) 0x0010 (toBits 64 d % 2 ^ 32) (toBits 64 d / 2 ^ 32)
    (a.stepped d).tsc forced.toNat a.now
  obtain ⟨hshown, q, i, c, h⟩ := stepShown_time _ forced
  rw [applyStep_eq]
  exact ⟨hshown.trans hmarked, l, q, i, c, by rw [h, hlate]⟩

/-- The instant after a step that stays within the 48-bit seconds. -/
theorem stepped_now (a : App) (d : Int) (hlow : 0 ≤ (a.now : Int) + d) (hhigh : (a.now : Int) + d < 1000000000 * 2 ^ 48) :
    ((a.stepped d).now : Int) = a.now + d := by
  have hfits : ((a.now : Int) + d).toNat < 1000000000 * 2 ^ 48 := by omega
  have hnow : (a.stepped d).now = ((a.now : Int) + d).toNat := total_ofTotal a.tim.wall hfits
  rw [hnow, Int.toNat_of_nonneg hlow]

/-! ### Refused steps (R48) -/

/-- A refused step outside Traceable sets its flag, counts and is noted as the first (R49), and changes nothing else of the timebase. -/
theorem refuseStep_tim (a : App) (d : Int) (h : a.tim.tq ≠ .traceable) :
    (a.refuseStep d).tim = { a.tim with stepRefused := true, refusedSteps := a.tim.refusedSteps + 1, steppedOnce := true } := by
  unfold App.refuseStep App.gmLost
  dsimp only
  rw [if_neg (by rw [record_tim]; exact h), record_tim]
  rfl

/-- Settles O19: an applied step is `App.stepped` but for fields that the statement does not name. -/
theorem stepApplied : Obligations.StepApplied := by
  unfold Obligations.StepApplied
  refine ⟨fun a d forced hlow hhigh => ?applied, fun a d hfree => ?refused⟩
  case applied =>
    obtain ⟨hcmd, l, q, i, c, htim⟩ := applyStep_time a d forced
    have hnow : (a.applyStep d forced).now = (a.stepped d).now := by unfold App.now; rw [htim]
    refine ⟨by rw [hnow, stepped_now a d hlow hhigh], ?_⟩
    rw [htim]
    exact ⟨rfl, rfl, rfl, rfl, rfl, hcmd, rfl⟩
  case refused =>
    dsimp only
    rw [refuseStep_tim a d hfree]
    exact ⟨rfl, rfl, rfl, rfl, rfl, rfl⟩

end Sys2Proof.Machine
end

section
/-! SUPPORT. Wall time over one tick (O47): what the parts of a tick leave of the timebase. -/

namespace Sys2Proof.Machine

open Host

/-! ### The wall clock over a tick (R40) -/

theorem tick_frac (w : Wall) (i : W64) : (w.tick i).frac.toNat = (w.frac.toNat + i.toNat % 2 ^ 32) % 2 ^ 32 := by
  unfold Wall.tick
  dsimp only
  split <;> exact BitVec.toNat_ofNat _ _

theorem tick_wraps (w : Wall) (i : W64) (h : 1000000000 ≤ w.ns + i.toNat / 2 ^ 32 + (w.frac.toNat + i.toNat % 2 ^ 32) / 2 ^ 32) :
    (w.tick i).ns = w.ns + i.toNat / 2 ^ 32 + (w.frac.toNat + i.toNat % 2 ^ 32) / 2 ^ 32 - 1000000000 ∧ (w.tick i).sec = w.sec + 1 := by
  unfold Wall.tick
  dsimp only
  rw [if_pos h]
  exact ⟨rfl, rfl⟩

theorem tick_counts (w : Wall) (i : W64) (h : w.ns + i.toNat / 2 ^ 32 + (w.frac.toNat + i.toNat % 2 ^ 32) / 2 ^ 32 < 1000000000) :
    (w.tick i).ns = w.ns + i.toNat / 2 ^ 32 + (w.frac.toNat + i.toNat % 2 ^ 32) / 2 ^ 32 ∧ (w.tick i).sec = w.sec := by
  unfold Wall.tick
  dsimp only
  rw [if_neg (Nat.not_le.mpr h)]
  exact ⟨rfl, rfl⟩

/-! ### What a tick brings to the timebase (R7, R40, R72) -/

/-- A modulator edge leaves the timebase and the counts of ticks. -/
theorem sigTick_time (a : App) (n : Int) :
    (a.sigTick n).tim = a.tim ∧ (a.sigTick n).tick = a.tick ∧ (a.sigTick n).opTicks = a.opTicks := by
  have hstill : (a.sigTick n).still = a.still := (sigTick_measured a n).rest
  exact ⟨(congrArg App.tim hstill :), (congrArg App.tick hstill :), (congrArg App.opTicks hstill :)⟩

/-- The crossbar and the Ethernet ports leave the counts of ticks, and of the timebase all but the stamps of peer-delay requests. -/
theorem portsTick_time (a : App) :
    (∃ p, a.xbarTick.portsTick.tim = { a.tim with pdSent := p }) ∧ a.xbarTick.portsTick.tick = a.tick ∧
      a.xbarTick.portsTick.opTicks = a.opTicks := by
  obtain ⟨x, i, hxbar⟩ := xbarTick_spec a
  obtain ⟨e, l, p, hports⟩ := portsTick_spec a.xbarTick
  rw [hports, hxbar]
  exact ⟨⟨p, rfl⟩, rfl, rfl⟩

/-- The clocks, the signal paths, the crossbar and the ports over one tick: wall time and the increment in force. -/
theorem tickParts_time {a u : App} {n : Int} (hu : u = (a.clocksTick.sigTick n).xbarTick.portsTick) :
    u.tick = a.tick ∧ u.opTicks = a.opTicks ∧ u.tim.wall = a.tim.wall.tick a.tim.incr ∧ u.tim.incr = a.tim.incr := by
  obtain ⟨⟨p, htim⟩, htick, hop⟩ := portsTick_time (a.clocksTick.sigTick n)
  obtain ⟨etim, etick, eop⟩ := sigTick_time a.clocksTick n
  obtain ⟨ctim, ctick, cop⟩ := clocksTick_time a
  have hall : u.tim = { a.clocksTick.tim with pdSent := p } := by rw [hu, htim, etim]
  exact ⟨by rw [hu, htick, etick, ctick], by rw [hu, hop, eop, cop], by rw [hall, ctim], by rw [hall, ctim]⟩

/-! ### What time alone brings to a boot and to the power-fail sequence (R38, R594 to R596) -/

/-- `b` has the timebase, the control program, and the stage of the boot and of the power-fail sequence that `a` has. -/
structure App.SameStage (a b : App) : Prop where
  tim : b.tim = a.tim
  ctl : b.ctl = a.ctl
  boot : b.life.boot = a.life.boot
  failAt : b.life.failAt = a.life.failAt

theorem SameStage_refl (a : App) : a.SameStage a := ⟨rfl, rfl, rfl, rfl⟩

theorem SameStage_trans {a b c : App} (h : a.SameStage b) (k : b.SameStage c) : a.SameStage c :=
  ⟨k.tim.trans h.tim, k.ctl.trans h.ctl, k.boot.trans h.boot, k.failAt.trans h.failAt⟩

theorem SameStage_ite {a b c : App} (p : Prop) [Decidable p] (h : a.SameStage b) (k : a.SameStage c) : a.SameStage (if p then b else c) := by
  split
  · exact h
  · exact k

theorem SameStage_fold {α : Type} (f : App → α → App) (h : ∀ (a : App) (x : α), a.SameStage (f a x)) (l : List α) (a : App) :
    a.SameStage (l.foldl f a) := by
  induction l generalizing a with
  | nil => exact SameStage_refl a
  | cons x l ih => exact SameStage_trans (h a x) (ih (f a x))

theorem SameStage_postState (a : App) (c i o n p : Nat) : a.SameStage (a.postState c i o n p) :=
  ⟨postState_tim .., postState_ctl .., congrArg _ (postState_life ..), congrArg _ (postState_life ..)⟩

/-- A record changes nothing of the life cycle but the recorder's records. -/
theorem record_life (a : App) (c p q r t : Nat) : ∃ l, (a.record c p q r t).life = { a.life with records := l } := by
  unfold App.record
  dsimp only
  rw [set_life, set_life]
  exact ⟨_, rfl⟩

theorem SameStage_record (a : App) (c p q r t : Nat) : a.SameStage (a.record c p q r t) := by
  obtain ⟨l, hlife⟩ := record_life a c p q r t
  exact ⟨record_tim .., record_ctl .., by rw [hlife], by rw [hlife]⟩

theorem setClk_stage (a : App) (n : Nat) (st : ClkState) : a.SameStage (a.setClk n st) := by
  unfold App.setClk
  dsimp only
  refine SameStage_ite _ (SameStage_refl a) (SameStage_trans ?_ (SameStage_postState ..))
  exact SameStage_ite _ ⟨rfl, rfl, rfl, rfl⟩ ⟨rfl, rfl, rfl, rfl⟩

/-- Enabling the clock of a bay reaches the clock, the engines and its firing unit. -/
theorem clockOn_stage (a : App) (b : Nat) : a.SameStage (a.clockOn b) := by
  have hstart : a.SameStage (a.clkStart b) := by
    unfold App.clkStart
    exact SameStage_trans (SameStage_trans (b := a.onClk b _) ⟨rfl, rfl, rfl, rfl⟩ (setClk_stage _ b .freeRun)) ⟨rfl, rfl, rfl, rfl⟩
  have hengines : (a.clkStart b).SameStage ((upto 2).foldl (fun a e => a.onEng e b fun _ => {}) (a.clkStart b)) :=
    SameStage_fold (fun a e => a.onEng e b fun _ => {}) (fun _ _ => ⟨rfl, rfl, rfl, rfl⟩) _ _
  unfold App.clockOn App.freshBay
  exact SameStage_trans (SameStage_trans hstart hengines) ⟨rfl, rfl, rfl, rfl⟩

/-- The enabled angle clocks start at the 40 ms line (R594). -/
def App.lineStep (a : App) : App :=
  if !a.life.lineDone && decide (a.life.lineAt ≤ a.tick) then
    (upto 4).foldl (fun a b => if a.on (Reg.ANG_CFG_en b) then a.clockOn b else a) (a.onLife fun l => { l with lineDone := true })
  else a

/-- Protection is noted as in service (R595). -/
def App.protStep (a : App) : App :=
  if !a.life.protDone && a.life.lineDone && a.protUp then
    (a.onLife fun l => { l with protDone := true }).set Reg.LCY_BOOT_prot_ms (min 65535 ((a.tick - a.life.bootAt) / tMs))
  else a

/-- The boot-complete record is written (R596). -/
def App.noteStep (a : App) : App :=
  if a.life.boot = .done ∧ a.life.protDone = true ∧ a.life.bootNoted = false ∧ (a.life.ctlDone = true ∨ a.ctl.running.isNone = true) then
    (a.onLife fun l => { l with bootNoted := true }).record 0x0003 (a.get Reg.LCY_BOOT_prot_ms) (a.get Reg.LCY_BOOT_ctl_ms) 0 0
  else a

theorem bootStep_eq (a : App) : a.bootStep = a.lineStep.bootEnd.protStep.noteStep := rfl

theorem lineStep_stage (a : App) : a.SameStage a.lineStep := by
  unfold App.lineStep
  refine SameStage_ite _ (SameStage_trans (b := a.onLife fun l => { l with lineDone := true }) ⟨rfl, rfl, rfl, rfl⟩ ?_) (SameStage_refl a)
  exact SameStage_fold _ (fun a b => SameStage_ite _ (clockOn_stage a b) (SameStage_refl a)) _ _

theorem protStep_stage (a : App) : a.SameStage a.protStep := by
  unfold App.protStep
  exact SameStage_ite _ ⟨rfl, rfl, rfl, rfl⟩ (SameStage_refl a)

theorem noteStep_stage (a : App) : a.SameStage a.noteStep := by
  unfold App.noteStep
  refine SameStage_ite _ (SameStage_trans (b := a.onLife fun l => { l with bootNoted := true }) ?_ (SameStage_record ..)) (SameStage_refl a)
  exact ⟨rfl, rfl, rfl, rfl⟩

/-- A boot does not end before its last stage, nor while an initialisation runs (R594). -/
theorem bootEnd_idle {a : App} (h : ¬ (a.life.boot = .starting ∧ a.ctl.init = none)) : a.bootEnd = a :=
  if_neg (by rwa [Option.isNone_iff_eq_none])

/-- Unless a boot ends in it, the step of the boot leaves the timebase (R594 to R596). -/
theorem bootStep_stage {a : App} (h : ¬ (a.life.boot = .starting ∧ a.ctl.init = none)) : a.SameStage a.bootStep := by
  have hline := lineStep_stage a
  rw [bootStep_eq, bootEnd_idle (by rwa [hline.boot, hline.ctl])]
  exact SameStage_trans (SameStage_trans hline (protStep_stage _)) (noteStep_stage _)

/-- Outside the power-fail sequence its step does nothing (R38). -/
theorem failStep_idle {a : App} (h : a.life.failAt = none) : a.failStep = a := by
  unfold App.failStep
  rw [h]

/-- On an empty queue one tick passes (log entry 1). -/
theorem step_empty {s : State} (hempty : s.pending = []) : step s = .next (s.withApp s.app.tickOnce) := by
  unfold step
  split
  · next c rest hqueue => exact absurd (hqueue.symm.trans hempty) (List.cons_ne_nil c rest)
  · rfl

/-- Settles O47: a tick is `App.tickOnce`, whose parts keep the timebase but for what `clocksTick_time` states. -/
theorem clockTicks : Obligations.ClockTicks := by
  unfold Obligations.ClockTicks
  intro s hempty a0 u
  rw [step_empty hempty]
  unfold App.tickOnce
  refine ⟨fun hheld => congrArg (fun b => Outcome.next (s.withApp b)) (if_pos hheld),
    fun hlive => ⟨congrArg (fun b => Outcome.next (s.withApp b)) (if_neg hlive), ?_⟩⟩
  have htim : a0.tim = s.app.tim := rfl
  obtain ⟨htick, hop, hwall, hincr⟩ := tickParts_time (rfl : u = (a0.clocksTick.sigTick s.app.tim.edgeCount).xbarTick.portsTick)
  clear_value u a0
  rw [htim] at hwall hincr
  refine ⟨htick, hop, ?_, fun hstage hpower => ?_⟩
  · intro w incrInt incrFrac sum ns
    rw [hwall]
    exact ⟨tick_frac w s.app.tim.incr, hincr, tick_wraps w s.app.tim.incr, tick_counts w s.app.tim.incr⟩
  · have hsame := bootStep_stage hstage
    rw [failStep_idle (hsame.failAt.trans hpower), hsame.tim]

end Sys2Proof.Machine
end

section
/-! SUPPORT. Host commands that are admitted (O1, O3): the reading commands deliver their data, the time commands act. -/

namespace Sys2Proof.Machine

open Host

/-! ### An admitted command (R488, R489) -/

/-- A check of an argument that holds is passed over. -/
@[simp] theorem firstFail_cons_true (n : Nat) (l : List (Nat × Bool)) : firstFail ((n, true) :: l) = firstFail l := rfl

@[simp] theorem firstFail_nil : firstFail [] = none := rfl

/-- An admitted command with its arguments in range, whose effect answers a final status, ends with it. -/
theorem exec_ended {i : Instr} {s : State} {h : CmdHdr} {op : HostOp} {range : App → Option Nat} {objs : List Nat}
    {eff : App → App × Reply} {st : Nat} {res : List Byte} {f : App → App}
    (hexec : exec i s = s.onApp fun a => a.process h op (range a) objs eff) (hadm : Admitted s.app h op objs) (hrange : range s.app = none)
    (heff : eff (s.app.takeIn h op objs) = (f (s.app.takeIn h op objs), .final st res)) :
    exec i s = .next (s.withApp (s.app.ended h op objs st res f)) :=
  exec_onApp_acts hadm.up hexec (by rw [hrange]; exact process_ended s.app h op objs eff st res f hadm heff)

/-- A reading command takes nothing in: it has no journal entry and touches no object (R490, R492). -/
theorem takeIn_query (a : App) (h : CmdHdr) {op : HostOp} (hq : op.cls = .q) : a.takeIn h op [] = a := by
  simp [App.takeIn, hq]

/-- A buffer that takes the data receives it, with its length and CRC-32C in the result (R488). -/
theorem outData_takes (a : App) (h : CmdHdr) {out : Out} {data : List Byte} (htakes : outTakes out data) :
    a.outData h out data = (a.writeHost h.ctx out.addr data, .final Status.ok (le 4 data.length ++ le 4 (crc32c data))) := by
  obtain ⟨-, hdone, hfits⟩ := htakes
  unfold App.outData
  rw [if_neg (Nat.not_lt.mpr hfits), hdone]

/-- An admitted reading command whose effect puts `data` into its buffer, and then changes `f`. -/
theorem exec_delivered {i : Instr} {s : State} {h : CmdHdr} {op : HostOp} {range : App → Option Nat} {out : Out} {data : List Byte}
    {eff : App → App × Reply} {f : App → App} (hq : op.cls = .q)
    (hexec : exec i s = s.onApp fun a => a.process h op (range a) [] eff) (hadm : Admitted s.app h op []) (hrange : range s.app = none)
    (htakes : outTakes out data) (heff : ∀ b r, s.app.outData h out data = (b, r) → eff s.app = (f b, r)) :
    exec i s = .next (s.withApp (s.app.delivered h op out data f)) := by
  refine exec_ended hexec hadm hrange ?_
  rw [takeIn_query s.app h hq]
  exact heff _ _ (outData_takes s.app h htakes)

/-- The check of a buffer's address passes where the buffer takes data. -/
theorem outRange_takes {out : Out} {data : List Byte} (htakes : outTakes out data) : outRange out = none := if_pos htakes.1

/-- Settles O1: each row is `exec_delivered` with the data of its effect and the flags that it clears. -/
theorem readsDeliver : Obligations.ReadsDeliver := by
  unfold Obligations.ReadsDeliver
  refine ⟨fun s h out clear hadm hclear htakes => ?time, fun s h out bay clear hadm hbay hclear htakes => ?angle,
    fun s h out group first count hadm hgroup hfirst hcount htakes => ?settings, fun s h out seq hadm hseq htakes => ?aux,
    fun s h out seq r hadm hfound htakes => ?record, fun s h out hadm htakes => ?snapshot,
    fun s h out first count hadm hcount htakes => ?points, fun s h out hadm htakes => ?forces⟩
  case time =>
    refine exec_delivered rfl (show execReadTime h out clear s = _ from rfl) hadm (by simp [htakes.1, hclear]) htakes fun b r hdata => ?_
    unfold opReadTime
    rw [hdata]
    rfl
  case angle =>
    refine exec_delivered rfl (show execReadAngle h out bay clear s = _ from rfl) hadm (by simp [htakes.1, hbay, hclear]) htakes
      fun b r hdata => ?_
    unfold opReadAngle
    rw [hdata]
  case settings =>
    exact exec_delivered rfl (show execReadSettings h out group first count s = _ from rfl) hadm
      (by simp [htakes.1, hgroup, hfirst, hcount]) htakes fun b r hdata => hdata
  case aux =>
    exact exec_delivered rfl (show execReadAux h out seq s = _ from rfl) hadm (by simp [htakes.1, hseq]) htakes fun b r hdata => hdata
  case record =>
    refine exec_delivered rfl (show execReadTwRecord h out seq s = _ from rfl) hadm (outRange_takes htakes) htakes fun b r' hdata => ?_
    simp only [opReadTwRecord, hfound, hdata]
  case snapshot =>
    exact exec_delivered rfl (show execReadSnapshot h out s = _ from rfl) hadm (outRange_takes htakes) htakes fun b r hdata => hdata
  case points =>
    have hfirst : first.toNat ≤ s.app.ctl.points.length := le_trans (Nat.le_add_right _ _) hcount
    exact exec_delivered rfl (show execReadPoints h out first count s = _ from rfl) hadm (by simp [htakes.1, hfirst, hcount]) htakes
      fun b r hdata => hdata
  case forces =>
    exact exec_delivered rfl (show execReadForces h out s = _ from rfl) hadm (outRange_takes htakes) htakes fun b r hdata => hdata

/-! ### The time commands (R41, R47, R50, R53) -/

/-- Whether a step is allowed is not changed by taking a command in. -/
@[simp] theorem takeIn_stepAllowed (a : App) (h : CmdHdr) (op : HostOp) (l : List Nat) (d : Int) :
    (a.takeIn h op l).stepAllowed d = a.stepAllowed d := by
  simp [App.stepAllowed]

theorem incrOk_of_bounds {i : Nat} (hlow : 0x3FF7CED91 ≤ i) (hhigh : i ≤ 0x40083126F) : incrOk i = true := by
  simp [incrOk, incrMin, incrMax, hlow, hhigh]

/-- FORCE_TIME by an offset steps by it (R50). -/
theorem opForceTime_offset (ns : W32) (value : W64) (a : App) :
    opForceTime 0 ns value a = (a.applyStep value.toInt true, .final Status.ok []) := by
  unfold opForceTime
  rw [if_pos (by decide)]

/-- FORCE_TIME to an absolute time steps by the difference (R50). -/
theorem opForceTime_absolute (ns : W32) {value : W64} (hvalue : value.toNat < 2 ^ 48) (a : App) :
    opForceTime 1 ns value a =
      (a.applyStep ((value.toNat * 1000000000 + ns.toNat : Nat) - (a.now : Int)) true, .final Status.ok []) := by
  unfold opForceTime
  rw [if_neg (by decide), Nat.mod_eq_of_lt hvalue]

/-- Settles O3: each row is `exec_ended` with the branch of its effect that its premises choose. -/
theorem timeCommandsAct : Obligations.TimeCommandsAct := by
  unfold Obligations.TimeCommandsAct
  refine ⟨fun s h value hadm => ?byOffset, fun s h ns value hadm hns hvalue => ?toInstant, fun s h incr hadm hlow hhigh => ?rate,
    fun s h incr hadm hlow hhigh hnone => ?lock, fun s h offset hadm hallowed => ?step⟩
  case byOffset => exact exec_ended (show execForceTime h 0 0 value s = _ from rfl) hadm rfl (opForceTime_offset 0 value _)
  case toInstant =>
    refine exec_ended (show execForceTime h 1 ns value s = _ from rfl) hadm ?_ ?_
    · rw [if_neg (by decide), decide_eq_true hns, decide_eq_true (Or.inr hvalue)]
      rfl
    · rw [opForceTime_absolute ns hvalue, takeIn_now]
  case rate =>
    exact exec_ended (show execAdjustRate h incr 0 s = _ from rfl) hadm (by simp [incrOk_of_bounds hlow hhigh]) rfl
  case lock =>
    refine exec_ended (show execAdjustRate h incr 1 s = _ from rfl) hadm (by simp [incrOk_of_bounds hlow hhigh]) ?_
    have hpending : (s.app.takeIn h (.adjustRate incr 1) []).tim.refusedPending = false := by rw [takeIn_tim, hnone]
    exact congrArg (·, Reply.final Status.ok []) (if_pos ⟨rfl, hpending⟩)
  case step =>
    refine exec_ended (show execStepTime h offset s = _ from rfl) hadm rfl ?_
    unfold opStepTime App.tryStep
    rw [takeIn_stepAllowed, if_pos hallowed]

end Sys2Proof.Machine
end

section
/-! SUPPORT. The events of wall time and of the backup domain (O18): each row by the branch that its condition chooses. -/

namespace Sys2Proof.Machine

open Host

/-! ### The wall compare units (R68 to R70) -/

/-- An enabled unit whose target is reached and not yet served fires. -/
theorem wallDue_of_reached {a : App} {n : Nat} (hen : a.on (Reg.TIM_CMP_CTL_en n) = true) (hnew : vat a.tim.served n = false)
    (hpast : a.cmpTarget n ≤ a.now) : a.wallDue n = true := by
  simp [App.wallDue, hen, hnew, hpast]

/-! ### PTP messages (R52, R526) -/

/-- A PTP message is served with its class-6 event, unless it is a general one past its port's limit. -/
theorem exec_ptpMessageRx {s : State} (hlive : s.app.life.boot ≠ .held) (p : Fin 6) (m : PtpMsg) (raw : List Byte)
    (hon : s.app.on Reg.TIM_CTL_ptp_en = true) :
    let a := s.app
    exec (.ptpMessageRx p m raw) s = .next (s.withApp
      (if ptpIsEvent m = true then (a.postPtp p raw).onPtp p m
       else if (a.boundTake p).2 = true then ((a.boundTake p).1.postPtp p raw).onPtp p m else (a.boundTake p).1)) := by
  intro a
  refine exec_onApp_acts hlive (show execPtpMessageRx p m raw s = _ from rfl) ((if_pos hon).trans ?_)
  cases ptpIsEvent m with
  | true => rfl
  | false =>
    obtain ⟨b, taken⟩ := s.app.boundTake p
    cases taken <;> rfl

/-! ### The state of wall time (R53, R54) -/

/-- The loss of the grandmaster or of the host servo: Traceable goes to Fallback on a valid reference input, else to Holdover. -/
theorem gmLost_eq (a : App) :
    a.gmLost = if a.tim.tq = .traceable then (if a.refValid = true then a.setTq .fallback else a.goHoldover) else a := rfl

/-- The silence of the host servo says nothing of the reference input. -/
theorem refValid_hostServoSilent (a : App) : (a.onTim fun t => { t with hostServoSilent := true }).refValid = a.refValid := rfl

/-- Settles O18: each row by the branch that its condition chooses. -/
theorem timeEventsAct : Obligations.TimeEventsAct := by
  unfold Obligations.TimeEventsAct
  intro s hlive a
  refine ⟨fun n hen hnew hpast => ?compare, fun p m raw hon => exec_ptpMessageRx hlive p m raw hon, fun x y => ?pdelay,
    fun hgm hsince => ?announce, fun hhost hsince => ?servo, fun hhold hsince => ?holdLimit, fun b hin hedge => ?edge, fun hfollows hsince => ?lost,
    fun hvalid hsince => ?backup, fun hdue => ?mirror, fun hdue => ?anchor⟩
  case compare => exact exec_onApp_acts hlive (show execWallCompareFire n s = _ from rfl) (if_pos (wallDue_of_reached hen hnew hpast))
  case pdelay =>
    intro p hon hsince
    exact exec_onApp_acts hlive (show execPdelayInterval x y s = _ from rfl) (if_pos ⟨hon, hsince⟩)
  case announce =>
    exact exec_onApp_acts hlive (show execAnnounceTimeout s = _ from rfl) ((if_pos ⟨hgm, hsince⟩).trans (gmLost_eq _))
  case servo =>
    refine exec_onApp_acts hlive (show execHostServoSilence s = _ from rfl) ((if_pos ⟨hhost, hsince⟩).trans ?_)
    rw [gmLost_eq, refValid_hostServoSilent]
    rfl
  case holdLimit => exact exec_onApp_acts hlive (show execHoldLimitReached s = _ from rfl) (if_pos ⟨hhold, hsince⟩)
  case edge => exact exec_onApp_acts hlive (show execReferenceEdge (.pps b) s = _ from rfl) (if_pos ⟨hin, hedge⟩)
  case lost => exact exec_onApp_acts hlive (show execReferenceLost s = _ from rfl) (if_pos ⟨hfollows, hsince⟩)
  case backup => exact exec_onApp_acts hlive (show execBackupWrite s = _ from rfl) (if_pos ⟨hvalid, hsince⟩)
  case mirror => exact exec_onApp_acts hlive (show execOtMirror s = _ from rfl) (if_pos hdue)
  case anchor => exact exec_onApp_acts hlive (show execAnchorPeriodic s = _ from rfl) (if_pos hdue)

end Sys2Proof.Machine
end

section
/-! SUPPORT. The events of the Ethernet ports (O37): redundancy, GOOSE and sampled values. -/

namespace Sys2Proof.Machine

open Host

/-! ### The ring (R57, R523) -/

/-- A good ring frame that the module neither sent nor passed on before leaves by the other port of its pair; a PTP message takes its
correction on the way. -/
theorem exec_hsrFrameRx_passes {s : State} (hlive : s.app.life.boot ≠ .held) (p : Fin 4) (src : W48) (seq : W16) (d : List Byte) (resid : W32)
    (hon : s.app.on (Reg.ETH_PORT_en (p.val + 2)) = true) :
    let a := s.app
    let x := (p.val + 2) / 2
    let out := 2 * x + (1 - (p.val + 2) % 2)
    let l := a.ddLive x (vat a.eth.pairs x).fwd
    ¬ (src.toNat = (a.get Reg.ETH_MAC_base + x) % 2 ^ 48 ∨ l.any (fun e => e.src == src.toNat && e.seq == seq.toNat && e.port == out) = true) →
    let fwd := (if 4096 ≤ l.length then l.drop 1 else l) ++ [⟨src.toNat, seq.toNat, out, a.tick⟩]
    exec (.hsrFrameRx p true src seq d none resid) s = .next (s.withApp ((a.onPair x fun y => { y with fwd := fwd }).portSend 6 out d)) ∧
    ∀ i,
      let amount := resid.toNat + median (vat a.tim.pdelay (p.val + 2))
      exec (.hsrFrameRx p true src seq d (some i) resid) s = .next (s.withApp
        ((a.onPair x fun y => { y with added := tcKeep y.added (d.drop i) amount, fwd := fwd }).portSend 6 out
          (corrected d i (tcAmount (vat a.eth.pairs x).added (d.drop i) amount)))) := by
  intro a x out l hnew fwd
  have hopen : ¬ (!s.app.on (Reg.ETH_PORT_en (p.val + 2))) = true := by simp [hon]
  exact ⟨exec_onApp_acts hlive (show execHsrFrameRx p true src seq d none resid s = _ from rfl)
      ((if_neg hopen).trans ((if_neg (by decide)).trans (if_neg hnew))),
    fun i => exec_onApp_acts hlive (show execHsrFrameRx p true src seq d (some i) resid s = _ from rfl)
      ((if_neg hopen).trans ((if_neg (by decide)).trans (if_neg hnew)))⟩

/-! ### GOOSE (R532, R534) -/

/-- The next retransmission of a dataset repeats its state with the next sqNum, after twice the interval up to T0. -/
theorem exec_gooseRetransmission {s : State} (hlive : s.app.life.boot ≠ .held) (d : Fin 128)
    (hon : entOn (s.app.pubEntry d) = true) (hbegun : (s.app.pub d).begun = true) (hpermit : s.app.pubPermit = true)
    (hdue : (s.app.pub d).nextAt ≤ s.app.tick) :
    let a := s.app
    let gap := min (2 * (a.pub d).gap) (pubT0 (a.pubEntry d))
    exec (.gooseRetransmission d) s = .next (s.withApp
      ((a.setPub d { a.pub d with sq := goNext (a.pub d).sq, gap := gap, nextAt := a.tick + gap * tMs }).pubSend d)) :=
  exec_onApp_acts hlive (show execGooseRetransmission d s = _ from rfl) (if_pos (by simp [hon, hbegun, hpermit, hdue]))

/-- The three ways of a received frame, GOOSE or ASDU: stopped before the subscriptions, claimed by none of them, or taken by every one
that it belongs to (R526, R534, R536). -/
theorem rxTake_cases (x : App × Bool) (h : RxHead) (l : App → List Nat) (f : App → Nat → App) :
    let b := if !x.2 then x.1 else if (l x.1).isEmpty then x.1.rxDrop h else (l x.1).foldl f x.1
    (x.2 = false → b = x.1) ∧ (x.2 = true → l x.1 = [] → b = x.1.rxDrop h) ∧ (x.2 = true → l x.1 ≠ [] → b = (l x.1).foldl f x.1) := by
  exact ⟨fun hdrop => by simp [hdrop], fun htake hnone => by simp [htake, hnone], fun htake hsome => by simp [htake, hsome]⟩

/-! ### Sampled values (R537) -/

/-- The frame that a stream sends is its next one while that is within a second of the latest, else the latest (log entry 117). -/
theorem svFrame_next {sent ready second g : Nat}
    (hnext : g = sent ∧ sent < ready ∧ ready ≤ sent + second ∨ g = ready - 1 ∧ (sent + second < ready ∨ ready + second < sent)) :
    let near := decide (sent ≤ ready + second) && decide (ready ≤ sent + second)
    (if near = true then sent else ready - 1) = g ∧ (!(near && decide (ready ≤ sent))) = true := by
  obtain ⟨rfl, hlow, hhigh⟩ | ⟨rfl, hfar⟩ := hnext
  · have hnear : g ≤ ready + second := by omega
    simp [hnear, hlow, hhigh]
  · have hapart : (decide (sent ≤ ready + second) && decide (ready ≤ sent + second)) = false := by
      rw [← Bool.decide_and, decide_eq_false_iff_not]
      omega
    rw [hapart]
    exact ⟨rfl, rfl⟩

/-- A frame of samples leaves once the filter of its last sample has its words, if it is the one that the stream sends. -/
theorem exec_svPublication {s : State} (hlive : s.app.life.boot ≠ .held) (b : Fin 4) (g : W64) :
    let a := s.app
    let e := a.svPubEntry b
    let n := svAsdus e
    let ready := (a.now * svRate e / 1000000000 + 1) / n
    let sent := vat a.eth.svNext b
    let x := a.onEth fun x => { x with svNext := vput x.svNext b (g.toNat + 1) }
    entOn e = true → a.pubPermit = true → 1 ≤ ready → a.svProduced b (svRate e) (g.toNat * n + n - 1) = true →
    (g.toNat = sent ∧ sent < ready ∧ ready ≤ sent + svRate e / n ∨
      g.toNat = ready - 1 ∧ (sent + svRate e / n < ready ∨ ready + svRate e / n < sent)) →
    exec (.svPublication b g) s = .next (s.withApp
      (x.ethSendAll 4 (pubPorts e) (bytesAt e 4 6) (some (numAt e 12 2)) (x.svBody b (g.toNat * n) e (x.svWords b (svRate e) n g.toNat)))) := by
  intro a e n ready sent x hon hpermit hready hproduced hnext
  obtain ⟨hframe, hopen⟩ := svFrame_next hnext
  refine exec_onApp_acts hlive (show execSvPublication b g s = _ from rfl) ?_
  dsimp only
  rw [hframe]
  have hguard : (g.toNat == g.toNat && entOn e && a.pubPermit && decide (1 ≤ ready) &&
      !((decide (sent ≤ ready + svRate e / n) && decide (ready ≤ sent + svRate e / n)) && decide (ready ≤ sent)) &&
      a.svProduced b (svRate e) (g.toNat * n + n - 1)) = true := by
    rw [beq_self_eq_true, hon, hpermit, decide_eq_true hready, hopen, hproduced]
    rfl
  exact if_pos hguard

/-- Settles O37: each row by the branch that its premises choose, received frames by `rxTake_cases`. -/
theorem ethernetEventsAct : Obligations.EthernetEventsAct := by
  unfold Obligations.EthernetEventsAct
  intro s hlive a
  refine ⟨fun x hdue => ?supervision, fun p src seq d o resid hon => ?ring, fun p link an => ?link, fun d hon hbegun hpermit hdue => ?resend,
    fun f => ?goose, fun c hon hvalid hpast => ?expiry, fun f => ?asdu, fun v hon hvalid hsince => ?streamLost, fun b g => ?samples⟩
  case supervision => exact exec_onApp_acts hlive (show execSupervisionFrame x s = _ from rfl) (if_pos hdue)
  case ring =>
    have hopen : ¬ (!a.on (Reg.ETH_PORT_en (p.val + 2))) = true := by simp [hon]
    intro x out l known
    exact ⟨exec_onApp_acts hlive (show execHsrFrameRx p false src seq d o resid s = _ from rfl) ((if_neg hopen).trans (if_pos rfl)),
      fun hknown => exec_onApp_acts hlive (show execHsrFrameRx p true src seq d o resid s = _ from rfl)
        ((if_neg hopen).trans ((if_neg (by decide)).trans (if_pos hknown))),
      exec_hsrFrameRx_passes hlive p src seq d resid hon⟩
  case link => exact exec_onApp_acts hlive (show execEthLinkChange p link an s = _ from rfl) rfl
  case resend => exact exec_gooseRetransmission hlive d hon hbegun hpermit hdue
  case goose =>
    obtain ⟨dropped, unclaimed, taken⟩ := rxTake_cases ((a.access .gooseSv .dram 64).rxTake f.head) f.head
      (fun b => (upto 32).filter (b.cbMatches f)) (fun x c => x.cbTake f c)
    exact ⟨fun h => exec_onApp_acts hlive (show execGooseFrameRx f s = _ from rfl) (dropped h),
      fun h k => exec_onApp_acts hlive (show execGooseFrameRx f s = _ from rfl) (unclaimed h k),
      fun h k => exec_onApp_acts hlive (show execGooseFrameRx f s = _ from rfl) (taken h k)⟩
  case expiry => exact exec_onApp_acts hlive (show execGooseExpiry c s = _ from rfl) (if_pos ⟨hon, hvalid, hpast⟩)
  case asdu =>
    obtain ⟨dropped, unclaimed, taken⟩ := rxTake_cases ((a.access .gooseSv .dram 64).rxTake f.head) f.head
      (fun b => (upto 16).filter (fun v => headMatches (b.svSubEntry v) f.head f.appid 7 && strAt (b.svSubEntry v) 20 == f.svId))
      (fun x v => x.svTake f v)
    exact ⟨fun h => exec_onApp_acts hlive (show execSvAsduRx f s = _ from rfl) (dropped h),
      fun h k => exec_onApp_acts hlive (show execSvAsduRx f s = _ from rfl) (unclaimed h k),
      fun h k => exec_onApp_acts hlive (show execSvAsduRx f s = _ from rfl) (taken h k)⟩
  case streamLost => exact exec_onApp_acts hlive (show execSvStreamLost v s = _ from rfl) (if_pos ⟨hon, hvalid, hsince⟩)
  case samples =>
    intro e n ready sent goes hon hpermit hready hproduced
    have hgoes := exec_svPublication hlive b g hon hpermit hready hproduced
    exact ⟨fun hg hlow hhigh => hgoes (.inl ⟨hg, hlow, hhigh⟩), fun hg hfar => hgoes (.inr ⟨hg, hfar⟩)⟩

end Sys2Proof.Machine
end

section
/-! SUPPORT. The angle clocks over a step of wall time (O20): the modulator's scale moves by whole seconds, the remembered CIC periods
with wall time, and no angle. -/

namespace Sys2Proof.Machine

open Host

/-! ### What an applied step leaves (R47, R50, R79) -/

theorem vat_map {α β : Type} {n : Nat} [Inhabited α] [Inhabited β] (v : Vector α n) (f : α → β) (h : f default = default) (i : Nat) :
    vat (v.map f) i = f (vat v i) := by
  by_cases hi : i < n
  · rw [vat_eq _ hi, vat_eq _ hi, Vector.getElem_map]
  · simp [vat, hi, h]

/-- Showing a step writes, of the registers, the two counters of the event recorder alone, and nothing of the angle clocks. -/
theorem stepShown_rest (a : App) (forced : Bool) :
    (a.stepShown forced).clk = a.clk ∧
    ∀ f : Fld, f.bit ≠ Reg.EVR_TOTAL_n.bit → f.bit ≠ Reg.EVR_OVW_overwritten.bit → (a.stepShown forced).get f = a.get f := by
  unfold App.stepShown
  dsimp only
  split
  · split
    · exact ⟨by rw [anchor_clk, onTim_clk], fun f h1 h2 => by rw [anchor_get _ _ h1 h2]; rfl⟩
    · exact ⟨by rw [anchor_clk, postState_clk, anchor_clk, onTim_clk],
        fun f h1 h2 => by rw [anchor_get _ _ h1 h2, get_of_regs (postState_regs ..), anchor_get _ _ h1 h2]; rfl⟩
  · exact ⟨anchor_clk a 2, fun f h1 h2 => anchor_get a 2 h1 h2⟩

/-- Marking the compare units that a step passed leaves clocks and registers. -/
theorem markPassed_rest (a : App) (old : Nat) : (a.markPassed old).clk = a.clk ∧ (a.markPassed old).regs = a.regs := by
  obtain ⟨l, h⟩ := markPassed_eq a old
  rw [h]
  exact ⟨rfl, rfl⟩

/-- The clocks after an applied step: their remembered CIC periods alone have moved. -/
theorem applyStep_clk (a : App) (d : Int) (forced : Bool) : (a.applyStep d forced).clk = a.clk.map fun c => c.shift d := by
  rw [applyStep_eq, (stepShown_rest _ _).1, (markPassed_rest _ _).1, record_clk]
  rfl

theorem applyStep_get (a : App) (d : Int) (forced : Bool) {f : Fld} (h1 : f.bit ≠ Reg.EVR_TOTAL_n.bit)
    (h2 : f.bit ≠ Reg.EVR_OVW_overwritten.bit) : (a.applyStep d forced).get f = a.get f := by
  rw [applyStep_eq, (stepShown_rest _ _).2 f h1 h2, get_of_regs (markPassed_rest _ _).2, record_get _ _ _ _ _ _ h1 h2]
  rfl

theorem vat_applyStep_clk (a : App) (d : Int) (forced : Bool) (n : Nat) :
    vat (a.applyStep d forced).clk n = (vat a.clk n).shift d := by
  rw [applyStep_clk]
  exact vat_map a.clk (fun c => c.shift d) rfl n

/-- A field below the event recorder's counters, as those of the angle compare units are, reads as before the step. -/
theorem applyStep_get_below (a : App) (d : Int) (forced : Bool) {f : Fld} (h : f.bit < Reg.EVR_TOTAL_n.bit) :
    (a.applyStep d forced).get f = a.get f :=
  applyStep_get a d forced (Nat.ne_of_lt h) (Nat.ne_of_lt (Nat.lt_trans h (by decide)))

/-! ### The CIC period in progress (R51, R72, R152) -/

/-- A phase is kept but for whole seconds. -/
theorem modWrap_seconds (e : Int) : ∃ k : Int, modWrap e = e - k * modSecond :=
  ⟨(e + modSecond / 2) / modSecond, by
    have h := Int.emod_add_mul_ediv (e + modSecond / 2) modSecond
    rw [Int.mul_comm] at h
    unfold modWrap
    omega⟩

/-- Wall time and phase moved alike leave the modulator's scale but for whole seconds. -/
theorem modNs_step (w : Wall) (e d : Int) (hlow : 0 ≤ (w.total : Int) + d) (hhigh : (w.total : Int) + d < 1000000000 * 2 ^ 48) :
    ∃ k : Int, (w.ofTotal ((w.total : Int) + d).toNat).modNs (modWrap (e + d * (100000 * 2 ^ 32 : Nat))) = w.modNs e + k * 1000000000 := by
  obtain ⟨k, hwrap⟩ := modWrap_seconds (e + d * (100000 * 2 ^ 32 : Nat))
  refine ⟨k, ?_⟩
  have htotal : ((w.ofTotal ((w.total : Int) + d).toNat).total : Int) = w.total + d := by
    rw [total_ofTotal _ (by omega), Int.toNat_of_nonneg hlow]
  have hfrac : (w.ofTotal ((w.total : Int) + d).toNat).frac = w.frac := rfl
  unfold Wall.modNs
  rw [hwrap, hfrac]
  unfold modSecond
  omega

/-! ### Stamps (R83) -/

/-- The angle at an instant, with the instant, the present and the remembered periods all moved by the same time. -/
theorem traceAt_shift {t t' m m' : Nat} {x : Int} (y : Nat) (ht : (t' : Int) = t + x) (hm : (m' : Int) = m + x) (l : List (Nat × Nat))
    (hl : ∀ e ∈ l, 0 ≤ (e.1 : Int) + x) :
    traceAt t' (m', y) (l.map fun e => (((e.1 : Int) + x).toNat, e.2)) = traceAt t (m, y) l := by
  induction l generalizing m m' y with
  | nil => rfl
  | cons e l ih =>
    obtain ⟨hhead, htail⟩ := List.forall_mem_cons.mp hl
    have hmoved : ((((e.1 : Int) + x).toNat : Nat) : Int) = e.1 + x := Int.toNat_of_nonneg hhead
    have hreached : ((e.1 : Int) + x).toNat ≤ t' ↔ e.1 ≤ t := by omega
    have hpassed : t' - ((e.1 : Int) + x).toNat = t - e.1 := by omega
    have hlength : m' - ((e.1 : Int) + x).toNat = m - e.1 := by omega
    simp only [List.map_cons, traceAt, hreached, hpassed, hlength]
    rw [ih e.2 hmoved htail]

/-! ### Angles over an applied step (R79) -/

section Stepped

variable (a : App) {d : Int} (forced : Bool) (hlow : 0 ≤ (a.now : Int) + d) (hhigh : (a.now : Int) + d < 1000000000 * 2 ^ 48)

include hlow hhigh

/-- A step leaves the part of the CIC period in progress that has passed. -/
theorem cicPart_applyStep : (a.applyStep d forced).cicPart = a.cicPart := by
  obtain ⟨-, l, q, i, c, htim⟩ := applyStep_time a d forced
  obtain ⟨k, hns⟩ := modNs_step a.tim.wall a.tim.modErr d hlow hhigh
  have hpart : (a.applyStep d forced).cicPart = ((a.tim.wall.modNs a.tim.modErr + k * 1000000000) * 230400 % 1000000000).toNat := by
    rw [← hns]
    unfold App.cicPart
    rw [htim]
    rfl
  rw [hpart, Int.add_mul, Int.mul_right_comm, Int.add_mul_emod_self_right]
  rfl

theorem now16_applyStep : ((a.applyStep d forced).now16 : Int) = a.now16 + 16 * d := by
  obtain ⟨-, l, q, i, c, htim⟩ := applyStep_time a d forced
  have hnow : (a.applyStep d forced).now = (a.stepped d).now := by unfold App.now; rw [htim]
  have hstep := stepped_now a d hlow hhigh
  have hfrac : (a.applyStep d forced).tim.wall.frac = a.tim.wall.frac := by rw [htim]; rfl
  unfold App.now16
  rw [hnow, hfrac]
  omega

theorem angleFx_applyStep (n : Nat) : (a.applyStep d forced).angleFx n = a.angleFx n := by
  unfold App.angleFx
  rw [cicPart_applyStep a forced hlow hhigh, vat_applyStep_clk]
  rfl

theorem a48At_applyStep {n t : Nat} (ht : 0 ≤ (t : Int) + d) (htrace : ∀ e ∈ (vat a.clk n).trace, 0 ≤ (e.1 : Int) + 16 * d) :
    (a.applyStep d forced).a48At n ((t : Int) + d).toNat = a.a48At n t := by
  unfold App.a48At
  rw [angleFx_applyStep a forced hlow hhigh, vat_applyStep_clk]
  exact congrArg (· / 2 ^ 32) (traceAt_shift (a.angleFx n) (by omega) (now16_applyStep a forced hlow hhigh) _ htrace)

end Stepped

/-- Settles O20: a step moves the remembered periods with wall time (`Clock.shift`), and the phase within the CIC period stays. -/
theorem stepLeavesAngles : Obligations.StepLeavesAngles := by
  unfold Obligations.StepLeavesAngles
  intro a d forced hlow hhigh b
  refine ⟨fun n => vat_applyStep_clk a d forced n, fun n => ?angle, fun n t ht htrace => a48At_applyStep a forced hlow hhigh ht htrace,
    fun n u hn hu => ?registers⟩
  case angle => exact congrArg (· / 2 ^ 32) (angleFx_applyStep a forced hlow hhigh n)
  case registers =>
    refine fun f hf => applyStep_get_below a d forced ?_
    revert f
    simp only [List.forall_mem_cons, Reg.ANG_CMP_TGT_tgt, Reg.ANG_CMP_PER_period_au, Reg.ANG_CMP_CTL_en, Reg.ANG_CMP_CTL_next,
      Reg.ANG_CMP_CTL_dest, Reg.ANG_CMP_CTL_dest_index, Reg.ANG_CMP_CTL_late, Reg.ANG_CMP_CTL_own, Reg.ANG_CMP_CTL_skipped,
      Reg.EVR_TOTAL_n, List.not_mem_nil, IsEmpty.forall_iff, implies_true, and_true]
    omega

end Sys2Proof.Machine
end

section
/-! SUPPORT. The events of the angle clocks (O21): each row by the branch that its condition chooses. -/

namespace Sys2Proof.Machine

open Host

/-! ### The angle compare units (R100, R102 to R104) -/

/-- A unit of a running clock is due where a late request has come, or at its target not yet served. -/
theorem angDue_of_reached {a : App} {b u : Nat} (hst : (vat a.clk b).st ≠ .off) (hen : a.on (Reg.ANG_CMP_CTL_en b u) = true)
    (h : (∃ p, vat (vat a.clk b).lateReq u = some p ∧ p ≤ a.sig.periods) ∨
      (vat (vat a.clk b).lateReq u = none ∧ vat (vat a.clk b).served u = false ∧ reached48 (a.a48 b) (a.angTarget b u) = true)) :
    a.angDue b u = true := by
  unfold App.angDue
  obtain ⟨p, hlate, hpast⟩ | ⟨hlate, hnew, hreached⟩ := h
  · simp [hst, hen, hlate, hpast]
  · simp [hst, hen, hlate, hnew, hreached]

theorem unitTarget_zero (a : App) (b : Nat) : a.unitTarget b 0 = 2048 * ((vat a.clk b).tickNo + 1) % 2 ^ 48 := rfl

theorem unitTarget_of_ne (a : App) (b : Nat) {u : Fin 8} (h : u ≠ 0) : a.unitTarget b u = a.angTarget b u :=
  if_neg fun h0 => h (Fin.ext h0)

/-- Settles O21: each row by the branch that its condition chooses. -/
theorem angleEventsAct : Obligations.AngleEventsAct := by
  unfold Obligations.AngleEventsAct
  intro s b hlive a c
  refine ⟨fun u t hunit ht hst hen hdue => ?unit, fun t ht hdue => ?tick, fun hst hlock hfirst => ?lock, fun hst hvalid => ?overLocked,
    fun hst href hvalid => ?overAcquiring, fun hst hsince => ?freezeMax, fun hst hclear hsince => ?settle, fun hst hsince => ?holdMax⟩
  case unit =>
    exact exec_onApp_acts hlive (show execAngleCompareFire b u t s = _ from rfl)
      ((if_neg (not_not_intro (ht.trans (unitTarget_of_ne a b hunit).symm))).trans
        ((if_neg hunit).trans (if_pos (angDue_of_reached hst hen hdue))))
  case tick =>
    exact exec_onApp_acts hlive (show execAngleCompareFire b 0 t s = _ from rfl)
      ((if_neg (not_not_intro (ht.trans (unitTarget_zero a b).symm))).trans ((if_pos rfl).trans (if_pos hdue)))
  case lock =>
    exact exec_onApp_acts hlive (show execLockCriterion b s = _ from rfl) (if_pos ⟨hst, hlock, by simpa [imp_iff_not_or] using hfirst⟩)
  case overLocked =>
    exact exec_onApp_acts hlive (show execVoltageValidCount b s = _ from rfl) ((if_pos hvalid).trans (by rw [show (vat s.app.clk b).st = _ from hst]))
  case overAcquiring =>
    exact exec_onApp_acts hlive (show execVoltageValidCount b s = _ from rfl)
      ((if_pos hvalid).trans (by rw [show (vat s.app.clk b).st = _ from hst]; exact if_pos href))
  case freezeMax => exact exec_onApp_acts hlive (show execFreezeMax b s = _ from rfl) (if_pos ⟨hst, hsince⟩)
  case settle =>
    refine exec_onApp_acts hlive (show execSettleComplete b s = _ from rfl) ((if_pos ⟨hst, hclear, by simpa using hsince⟩).trans ?_)
    simp only [Bool.or_eq_true]
    rfl
  case holdMax => exact exec_onApp_acts hlive (show execHoldMax b s = _ from rfl) (if_pos ⟨hst, hsince⟩)

end Sys2Proof.Machine
end

section
/-! SUPPORT. The events of the analog part (O22, O23): each row by the branch that its condition chooses. -/

namespace Sys2Proof.Machine

open Host

/-! ### The windows of a hand-over (R126, R130) -/

/-- A window without OVR and FS in a bay that nothing blocks is judged. -/
theorem undisturbed {spoiled blocked : Bool} (hclean : spoiled = false) (hfree : blocked = false) : ¬ (spoiled || blocked) = true :=
  Bool.eq_false_iff.mp (Bool.or_eq_false_iff.mpr ⟨hclean, hfree⟩)

/-- The end of a comparison window whose words have been taken: deferred, a mismatch, or the trim and the verification. -/
theorem exec_comparisonWindowEnd {s : State} (hlive : s.app.life.boot ≠ .held) {b : Fin 4} {t : Nat} {pairs : List (Int × Int)} {spoiled : Bool}
    (hhand : (vat s.app.ana.bays b).hand = .compare t) (hwin : s.app.handWin b t 2048 = some (pairs, spoiled)) :
    exec (.comparisonWindowEnd b) s = .next (s.withApp
      (if spoiled || s.app.handBlocked b then s.app.handDefer b
       else if 2000 * ((fitLine (tooFlat pairs) pairs).1 - 2 ^ 32).natAbs > 2 ^ 32 ∨
           5000 * (fitLine (tooFlat pairs) pairs).2.natAbs > rangeCode * 2 ^ 22 then s.app.handMismatch b
       else (s.app.trimFloat b (fitLine (tooFlat pairs) pairs).1 (fitLine (tooFlat pairs) pairs).2).setHand b (.verify s.app.nextCic))) := by
  refine exec_onApp_acts hlive (show execComparisonWindowEnd b s = _ from rfl) ?_
  simp only [hhand, hwin]

/-- The end of a verification window whose words have been taken: deferred, a mismatch, or the decision. -/
theorem exec_verifyWindowEnd {s : State} (hlive : s.app.life.boot ≠ .held) {b : Fin 4} {t : Nat} {pairs : List (Int × Int)} {spoiled : Bool}
    (hhand : (vat s.app.ana.bays b).hand = .verify t) (hwin : s.app.handWin b t 512 = some (pairs, spoiled)) :
    exec (.verifyWindowEnd b) s = .next (s.withApp
      (if spoiled || s.app.handBlocked b then s.app.handDefer b
       else if (fitLine (tooFlat pairs) pairs).2.natAbs * 2 ^ 16 +
           ((fitLine (tooFlat pairs) pairs).1 - 2 ^ 32).natAbs * pairs.foldl (fun m x => max m x.1.natAbs) 0 > 64 * 2 ^ 32 then s.app.handMismatch b
       else s.app.setHand b (.decided (t + 513)))) := by
  refine exec_onApp_acts hlive (show execVerifyWindowEnd b s = _ from rfl) ?_
  simp only [hhand, hwin]

/-- Settles O22: each row by the branch that its condition chooses. -/
theorem handoverEventsAct : Obligations.HandoverEventsAct := by
  unfold Obligations.HandoverEventsAct
  intro s b hlive a x
  refine ⟨fun hcal hdue => ⟨fun hrot hnone => ?starts, fun hrest => ?passes⟩, fun sec hdef hrot hsec => ?retry, fun kc hhand hdue => ?settled,
    fun t pairs spoiled hhand hwin => ⟨fun hdisturbed => ?compareDefer, fun hclean hfree => ⟨fun hgain hofs => ?trim, fun hbeyond => ?compareMiss⟩⟩,
    fun t pairs spoiled hhand hwin => ⟨fun hdisturbed => ?verifyDefer, fun hclean hfree => ⟨fun hstep => ?decide, fun hbeyond => ?verifyMiss⟩⟩,
    fun kt hhand hdue => ?takeOver, fun t i p hhand hsince => ?calibrated⟩
  case starts =>
    exact exec_onApp_acts hlive (show execHandoverStart b s = _ from rfl)
      ((if_pos ⟨Option.isNone_iff_eq_none.mpr hcal, hdue⟩).trans (if_pos ⟨hrot, hnone⟩))
  case passes =>
    have hstays : ¬((s.app.handGrid b).rotating b = true ∧ (vat s.app.ana.bays b).deferred = none) := fun ⟨hrot, hnone⟩ =>
      hrest.elim (fun hstill => Bool.eq_false_iff.mp hstill hrot) fun hwaits => hwaits hnone
    exact exec_onApp_acts hlive (show execHandoverStart b s = _ from rfl)
      ((if_pos ⟨Option.isNone_iff_eq_none.mpr hcal, hdue⟩).trans (if_neg hstays))
  case retry =>
    refine exec_onApp_acts hlive (show execHandoverRetry b s = _ from rfl) ?_
    simp only [show (vat s.app.ana.bays b).deferred = _ from hdef]
    exact if_pos ⟨hrot, hsec⟩
  case settled =>
    refine exec_onApp_acts hlive (show execHandoverSettleEnd b s = _ from rfl) ?_
    simp only [show (vat s.app.ana.bays b).hand = _ from hhand]
    exact if_pos hdue
  case compareDefer => rw [exec_comparisonWindowEnd hlive hhand hwin, if_pos (Bool.or_eq_true_iff.mpr hdisturbed)]
  case trim =>
    rw [exec_comparisonWindowEnd hlive hhand hwin, if_neg (undisturbed hclean hfree),
      if_neg (not_or.mpr ⟨Nat.not_lt.mpr hgain, Nat.not_lt.mpr hofs⟩)]
  case compareMiss =>
    rw [exec_comparisonWindowEnd hlive hhand hwin, if_neg (undisturbed hclean hfree), if_pos hbeyond]
  case verifyDefer => rw [exec_verifyWindowEnd hlive hhand hwin, if_pos (Bool.or_eq_true_iff.mpr hdisturbed)]
  case decide =>
    rw [exec_verifyWindowEnd hlive hhand hwin, if_neg (undisturbed hclean hfree),
      if_neg (Nat.not_lt.mpr hstep)]
  case verifyMiss =>
    rw [exec_verifyWindowEnd hlive hhand hwin, if_neg (undisturbed hclean hfree), if_pos hbeyond]
  case takeOver =>
    refine exec_onApp_acts hlive (show execTakeOver b s = _ from rfl) ?_
    simp only [show (vat s.app.ana.bays b).hand = _ from hhand]
    exact if_pos hdue
  case calibrated =>
    refine exec_onApp_acts hlive (show execSliceCalibrationEnd b p s = _ from rfl) ?_
    simp only [show (vat s.app.ana.bays b).hand = _ from hhand]
    exact if_pos hsince

/-! ### SELF_CAL, and the rows beside the hand-over -/

/-- A slice that is calibrated leaves the command that waits for SELF_CAL. -/
theorem calSlice_calCmd (a : App) (b i : Nat) (p : CalPoints) : (a.calSlice b i p).ana.calCmd = a.ana.calCmd := by
  unfold App.calSlice
  cases calFactors p with
  | none => simp
  | some f => rfl

theorem calSlices_calCmd (points : Nat → CalPoints) (l : List Nat) (a : App) :
    (l.foldl (fun a i => a.calSlice (i / 9) (i % 9) (points i)) a).ana.calCmd = a.ana.calCmd := by
  induction l generalizing a with
  | nil => rfl
  | cons i l ih => rw [List.foldl_cons, ih, calSlice_calCmd]

/-- Settles O23: each row by the branch that its condition chooses; a SELF_CAL that no command waits for completes none. -/
theorem analogEventsAct : Obligations.AnalogEventsAct := by
  unfold Obligations.AnalogEventsAct
  intro s hlive a
  refine ⟨fun b => ?overdue, fun b i => ?loopReset, fun points t hrun hsince hcmd => ?selfCal, fun b c hr => ?range, fun b hr => ?source,
    fun f t hpend hdue => ?decEdge, fun b c hsince => ?integrator, fun hsec => ?housekeeping, fun hon href hdue => ?settled,
    fun c l hrun hheld hlen hsince => ?converted⟩
  case overdue => exact exec_onApp_acts hlive (show execCalOverdue b s = _ from rfl) rfl
  case loopReset => exact exec_onApp_acts hlive (show execSliceLoopReset b i s = _ from rfl) rfl
  case selfCal =>
    refine exec_onApp_acts hlive (show execSelfCalComplete points s = _ from rfl) ?_
    simp only [show s.app.ana.calRun = _ from hrun, calSlices_calCmd (vat points), show s.app.ana.calCmd = _ from hcmd]
    exact if_pos hsince
  case range => exact exec_onApp_acts hlive (show execRangeChange b c s = _ from rfl) (if_neg hr)
  case source => exact exec_onApp_acts hlive (show execReferenceSourceChange b s = _ from rfl) (if_neg hr)
  case decEdge =>
    refine exec_onApp_acts hlive (show execDecChangeEdge s = _ from rfl) ?_
    simp only [show s.app.ana.decPend = _ from hpend]
    exact if_pos hdue
  case integrator => exact exec_onApp_acts hlive (show execIntegratorSettleEnd b c s = _ from rfl) (if_pos hsince)
  case housekeeping => exact exec_onApp_acts hlive (show execHousekeepingDue s = _ from rfl) (if_neg hsec)
  case settled => exact exec_onApp_acts hlive (show execRefSettled s = _ from rfl) (if_pos ⟨hon, href, hdue⟩)
  case converted =>
    refine exec_onApp_acts hlive (show execAuxConversionEnd l s = _ from rfl) ?_
    simp only [show s.app.ana.aux.running = _ from hrun]
    exact if_pos (by simp [show s.app.ana.aux.heldTo = _ from hheld, hlen, show s.app.since _ _ = _ from hsince])

end Sys2Proof.Machine
end

section
/-! SUPPORT. The settings and analog commands (O4): each row by what its effect does to the state that has taken the command in. -/

namespace Sys2Proof.Machine

open Host

/-- An admitted command with its arguments in range concludes what its effect answers; the objects may depend on the state. -/
theorem exec_concluded {i : Instr} {s : State} {h : CmdHdr} {op : HostOp} {range : App → Option Nat} {objs : App → List Nat}
    {eff : App → App × Reply} {b : App} {r : Reply}
    (hexec : exec i s = s.onApp fun a => a.process h op (range a) (objs a) eff) (hadm : Admitted s.app h op (objs s.app))
    (hrange : range s.app = none) (heff : eff (s.app.takeIn h op (objs s.app)) = (b, r)) :
    exec i s = .next (s.withApp (b.conclude h op r)) :=
  exec_onApp_acts hadm.up hexec (by rw [hrange, process_admitted s.app h op _ eff hadm, heff])

/-- A command that is final later concludes nothing yet. -/
theorem conclude_later (a : App) (h : CmdHdr) (op : HostOp) : a.conclude h op .later = a := rfl

/-! ### What taking a command in leaves of the settings -/

@[simp] theorem takeIn_groupOf (a : App) (h : CmdHdr) (op : HostOp) (l : List Nat) : (a.takeIn h op l).groupOf = a.groupOf := by
  funext b
  simp [App.groupOf]

@[simp] theorem takeIn_defaultGroup (a : App) (h : CmdHdr) (op : HostOp) (l : List Nat) :
    (a.takeIn h op l).defaultGroup = a.defaultGroup := by
  funext b
  simp [App.defaultGroup]

@[simp] theorem takeIn_protOf (a : App) (h : CmdHdr) (op : HostOp) (l : List Nat) (b : Nat) : (a.takeIn h op l).protOf b = a.protOf b := by
  simp [App.protOf]

@[simp] theorem takeIn_clkOn (a : App) (h : CmdHdr) (op : HostOp) (l : List Nat) : (a.takeIn h op l).clkOn = a.clkOn := by
  funext b
  simp [App.clkOn]

@[simp] theorem takeIn_groupsAhead (a : App) (h : CmdHdr) (op : HostOp) (l : List Nat) : (a.takeIn h op l).groupsAhead = a.groupsAhead := by
  simp [App.groupsAhead]

/-- A change to the settings gives the same groups ahead on the state that has taken a command in. -/
@[simp] theorem takeIn_onSlu_groupsAhead (a : App) (h : CmdHdr) (op : HostOp) (l : List Nat) (f : SluSt → SluSt) :
    ((a.takeIn h op l).onSlu f).groupsAhead = (a.onSlu f).groupsAhead := by
  have hgroup : ((a.takeIn h op l).onSlu f).groupOf = (a.onSlu f).groupOf := takeIn_groupOf a h op l
  simp only [App.groupsAhead, hgroup, onSlu_slu, takeIn_slu]

/-! ### The checks of the settings (R192, R195, R203, R223, R641) -/

/-- No bay of the four passes a test that none of them meets. -/
theorem find_bay_none {p : Nat → Bool} (hp : ∀ b, b < 4 → p b = false) : (upto 4).find? p = none := by
  simp only [List.find?_eq_none, upto, List.mem_range, Bool.not_eq_true]
  exact hp

/-- No combination of groups claims a slot twice. -/
theorem claimed_nil {l : List (Nat × List Byte)} {ahead : List (Nat → Nat)} (h : ∀ f ∈ ahead, claimedTwice l f = []) :
    ahead.flatMap (claimedTwice l) = [] := List.flatMap_eq_nil_iff.mpr h

/-- Descriptors that each pass leave no bad slot. -/
theorem badDescs_nil {curves : Vector (Option (List Byte)) 8} {g : Nat} {new : List (Nat × List Byte)}
    (h : ∀ e ∈ new, descOk curves g e.2 = true) : (new.filter (fun e => !(descOk curves g e.2))).map (fun e => e.1 % 1024) = [] := by
  rw [List.map_eq_nil_iff, List.filter_eq_nil_iff]
  exact fun e he => by simp [h e he]

/-- A group whose slots all agree with their partners has no bad pair. -/
theorem badPairs_nil {l : List (Nat × List Byte)} {g : Nat} (h : ∀ n, n < 1024 → pairOk l g n = true) :
    ((l.filter (fun e => e.1 / 1024 == g)).map (fun e => e.1 % 1024)).filter (fun s => !(pairOk l g s)) = [] := by
  rw [List.filter_eq_nil_iff]
  intro n hn
  obtain ⟨e, -, rfl⟩ := List.mem_map.mp hn
  simp [h _ (Nat.mod_lt e.1 (by decide))]

/-- WRITE_SETTINGS puts its descriptors in place where every check passes (R192, R203). -/
theorem opWriteSettings_ok {a : App} {group : Byte} {first count : W16} {desc : List Byte} {new l : List (Nat × List Byte)}
    (hnew : new = carried group.toNat first.toNat count.toNat desc) (hl : l = applyDescs a.slu.descs new)
    (hserved : ∀ b, b < 4 → a.groupOf b = group.toNat → a.protOf b ≠ 0) (hdesc : ∀ e ∈ new, descOk a.slu.curves group.toNat e.2 = true)
    (hpair : ∀ n, n < 1024 → pairOk l group.toNat n = true) (hstreams : streamsBad l group.toNat = [])
    (hclaimed : ∀ f ∈ a.groupsAhead, claimedTwice l f = []) (hload : overload l a.clkOn a.groupsAhead a.defaultGroup = none) :
    opWriteSettings group first count desc a = ((a.onSlu fun x => { x with descs := l }).showLoads, .final Status.ok []) := by
  have hbay : (upto 4).find? (fun b => a.groupOf b == group.toNat && a.protOf b == 0) = none :=
    find_bay_none fun b hb => by simpa using hserved b hb
  unfold opWriteSettings
  simp only [← hnew, ← hl, hbay, badDescs_nil hdesc, badPairs_nil hpair, hstreams, claimed_nil hclaimed, hload, List.append_nil]
  rfl

/-- A group request that passes the rule of admission waits for the bay's next tick (R195, R202, R641). -/
theorem opSelectGroup_ok {a : App} {bay group : Byte} {after : App}
    (hafter : after = a.onSlu fun x => { x with groupReq := vup x.groupReq bay.toNat (· ++ [group.toNat]) })
    (hclaimed : ∀ f ∈ after.groupsAhead, claimedTwice a.slu.descs f = [])
    (hload : overload a.slu.descs a.clkOn after.groupsAhead a.defaultGroup = none) :
    opSelectGroup bay group a = (after, .final Status.ok []) := by
  unfold opSelectGroup App.requestGroup
  simp only [← hafter, claimed_nil hclaimed, hload]
  rfl

theorem bytesAt_zero_length (l : List Byte) : bytesAt l 0 l.length = l :=
  List.ext_getElem (by simp [bytesAt, upto]) fun i hi _ => by
    have hlt : i < l.length := by simpa [bytesAt, upto] using hi
    simp [bytesAt, upto, hlt]

/-- SET_CURVE stores a table that no descriptor in service uses (R222, R223). -/
theorem opSetCurve_ok {a : App} {body : List Byte} {t : Nat} (ht : t = numAt body 0 1) (hlen : body.length = 264) (hbody : curveBad body = none)
    (hunused : ∀ n, n < 4 → a.protOf n = 0 → ∀ e ∈ a.slu.descs, dType e.2 ≠ 0 → dEn e.2 = true → dCurve e.2 = 0x10 + t →
      e.1 / 1024 ≠ a.groupOf n) :
    opSetCurve body a = (a.onSlu fun x => { x with curves := vput x.curves t (some body) }, .final Status.ok []) := by
  have hpad : padTo 264 body = body := hlen ▸ bytesAt_zero_length body
  have hbay : (upto 4).find? (fun n => a.protOf n == 0 && a.slu.descs.any (fun e =>
      dType e.2 != 0 && dEn e.2 && dCurve e.2 == 0x10 + t && e.1 / 1024 == a.groupOf n)) = none :=
    find_bay_none fun n hn => by
      rw [Bool.and_eq_false_imp]
      intro hprot
      rw [List.any_eq_false]
      intro e he
      simpa using hunused n hn (by simpa using hprot) e he
  unfold opSetCurve
  simp only [hpad, hbody, ← ht, hbay]

/-! ### SELF_CAL and AUX_START (R123, R144) -/

/-- SELF_CAL starts with no bay In service and no calibration running. -/
theorem opSelfCal_starts {a : App} (h : CmdHdr) (hprot : ∀ b, b < 4 → a.protOf b ≠ 0) (hidle : a.ana.calRun = none) :
    opSelfCal h a = (a.selfCalStart (some h), .later) := by
  have hbay : (upto 4).find? (fun b => a.protOf b == 0) = none := find_bay_none fun b hb => by simpa using hprot b hb
  simp only [opSelfCal, hbay, hidle]
  rfl

/-- A single conversion is queued while fewer than sixteen wait. -/
theorem opAuxStart_single {a : App} (slot : W32) (hroom : a.ana.aux.singles.length < 16) :
    opAuxStart 255 slot a = ((a.onAux fun x => { x with singles := x.singles ++
      [⟨bitsOf slot.toNat 0 4, bitsOf slot.toNat 4 8 + 1, bitsOf slot.toNat 12 4, bitsOf slot.toNat 16 2⟩] }).auxNext, .final Status.ok []) := by
  unfold opAuxStart
  exact (if_pos rfl).trans (if_neg (Nat.not_le.mpr hroom))

theorem ne_255_of_seq {seq : Byte} (hseq : seq.toNat ≤ 15) : seq ≠ 255#8 := by
  rintro rfl
  exact absurd hseq (by decide)

/-- A sequence that neither waits nor runs becomes due. -/
theorem opAuxStart_sequence {a : App} {seq : Byte} (slot : W32) (hseq : seq.toNat ≤ 15) (hidle : a.ana.aux.busySeq seq.toNat = false) :
    opAuxStart seq slot a = (((a.onAux fun x => { x with seqs := insertNat seq.toNat x.seqs }).auxPendField).auxNext, .final Status.ok []) := by
  unfold opAuxStart App.auxStartSeq
  rw [if_neg (ne_255_of_seq hseq), if_neg (Bool.eq_false_iff.mp hidle)]

/-- Settles O4: each row is `exec_concluded` with the branch of its effect that its premises choose. -/
theorem settingsCommandsAct : Obligations.SettingsCommandsAct := by
  unfold Obligations.SettingsCommandsAct
  refine ⟨fun s h group first count desc hadm hgroup hfirst hone hcount hend hserved hdesc hpair hstreams hclaimed hload => ?write,
    fun s h bay group hbay hgroup hadm hclaimed hload => ?select, fun s h body hadm hlen hbody hunused => ?curve,
    fun s h hadm hprot hidle => ?selfCal, fun s h slot hadm hslot hroom => ?single, fun s h seq slot hadm hseq hidle => ?sequence⟩
  case write =>
    exact exec_concluded (show execWriteSettings h group first count desc s = _ from rfl) hadm
      (by simp [hgroup, hfirst, hone, hcount, hend])
      (opWriteSettings_ok rfl (by rw [takeIn_slu]) (by simpa using hserved) (by simpa using hdesc) hpair hstreams (by simpa using hclaimed)
        (by simpa using hload))
  case select =>
    exact exec_concluded (objs := fun _ => [4 + bay.toNat]) (show execSelectGroup h bay group s = _ from rfl) hadm (by simp [hbay, hgroup])
      (opSelectGroup_ok rfl (by simpa using hclaimed) (by simpa using hload))
  case curve =>
    exact exec_concluded (range := fun _ => none) (show execSetCurve h body s = _ from rfl) hadm rfl
      (opSetCurve_ok rfl hlen hbody (by simpa using hunused))
  case selfCal =>
    have hexec : exec (.selfCal h) s = s.onApp fun a => a.process h .selfCal none [] (opSelfCal h) := rfl
    rw [exec_concluded (range := fun _ => none) (objs := fun _ => []) hexec hadm rfl
      (opSelfCal_starts h (by simpa using hprot) (by rw [takeIn_ana, hidle])), conclude_later]
  case single =>
    exact exec_concluded (objs := fun _ => []) (show execAuxStart h 255 slot s = _ from rfl) hadm (by simp [hslot])
      (opAuxStart_single slot (by rw [takeIn_ana]; exact hroom))
  case sequence =>
    exact exec_concluded (objs := fun _ => []) (show execAuxStart h seq slot s = _ from rfl) hadm (by simp [hseq, ne_255_of_seq hseq])
      (opAuxStart_sequence slot hseq (by rw [takeIn_ana]; exact hidle))

end Sys2Proof.Machine
end

section
/-! SUPPORT. A CIC filter of order K from cleared registers (O59): K running sums behind each other, then K combs over the decimated
outputs. Both are linear and shift with their input, so that they commute, and a comb over a running sum is a moving sum. -/

namespace Sys2Proof.Machine

open Host

/-! ### Running sums, combs and moving sums of a sequence that begins at 0 -/

/-- A sequence by the number of values before the place asked for: the value just passed, 0 before the first. -/
def delayed (f : Nat → Int) : Nat → Int
  | 0 => 0
  | n + 1 => f n

/-- What an integrator holds. -/
def runningSum (f : Nat → Int) (n : Nat) : Int := ∑ m ∈ Finset.range (n + 1), f m

/-- What a comb of delay `d` gives. -/
def combDiff (d : Nat) (f : Nat → Int) (n : Nat) : Int := f n - delayed f (n + 1 - d)

theorem delayed_runningSum (f : Nat → Int) (n : Nat) : delayed (runningSum f) n = ∑ m ∈ Finset.range n, f m := by
  cases n <;> rfl

theorem runningSum_eq (f : Nat → Int) (n : Nat) : runningSum f n = delayed (runningSum f) n + f n := by
  rw [delayed_runningSum]
  exact Finset.sum_range_succ f n

theorem delayed_runningSum_step (f : Nat → Int) (n : Nat) :
    delayed (runningSum f) n = delayed (runningSum f) (n - 1) + delayed f n := by
  cases n with
  | zero => rfl
  | succ n => exact runningSum_eq f n

theorem runningSum_delayed (f : Nat → Int) (d n : Nat) :
    ∑ m ∈ Finset.range n, delayed f (m + 1 - d) = delayed (runningSum f) (n - d) := by
  induction n with
  | zero => rw [Nat.zero_sub]; rfl
  | succ n ih =>
    rw [Finset.sum_range_succ, ih, delayed_runningSum_step f (n + 1 - d)]
    congr 2
    omega

/-- A comb and a running sum may change places. -/
theorem combDiff_runningSum_commute (d : Nat) : Function.Commute (combDiff d) runningSum := by
  intro f
  funext n
  unfold combDiff
  rw [← runningSum_delayed, runningSum, runningSum, Finset.sum_sub_distrib]

/-- A comb over a running sum: the sum telescopes. -/
theorem movingSum_eq (d : Nat) : movingSum d = combDiff d ∘ runningSum := by
  funext f n
  have hterm : ∀ j : Nat, (if j ≤ n then f (n - j) else 0) = delayed (runningSum f) (n + 1 - j) - delayed (runningSum f) (n + 1 - (j + 1)) := by
    intro j
    rw [delayed_runningSum_step f (n + 1 - j), Nat.sub_sub, add_sub_cancel_left]
    split
    · next h => rw [Nat.sub_add_comm h]; rfl
    · next h => rw [Nat.sub_eq_zero_of_le (Nat.lt_of_not_le h)]; rfl
  calc movingSum d f n = ∑ j ∈ Finset.range d, (if j ≤ n then f (n - j) else 0) := rfl
    _ = delayed (runningSum f) (n + 1) - delayed (runningSum f) (n + 1 - d) := by
      rw [Finset.sum_congr rfl fun j _ => hterm j]
      exact Finset.sum_range_sub' (fun j => delayed (runningSum f) (n + 1 - j)) d

/-- K moving sums are K running sums with K combs behind them. -/
theorem movingSum_iterate (d k : Nat) (f : Nat → Int) : (movingSum d)^[k] f = (combDiff d)^[k] (runningSum^[k] f) := by
  rw [movingSum_eq, (combDiff_runningSum_commute d).comp_iterate]
  rfl

theorem abs_movingSum_le {d : Nat} {f : Nat → Int} {b : Int} (h : ∀ n, |f n| ≤ b) (n : Nat) : |movingSum d f n| ≤ d * b := by
  have hb : 0 ≤ b := (abs_nonneg _).trans (h 0)
  calc |movingSum d f n| = |∑ j ∈ Finset.range d, (if j ≤ n then f (n - j) else 0)| := rfl
    _ ≤ ∑ j ∈ Finset.range d, |if j ≤ n then f (n - j) else 0| := Finset.abs_sum_le_sum_abs _ _
    _ ≤ ∑ j ∈ Finset.range d, b := Finset.sum_le_sum fun j _ => by split <;> simp [h, hb]
    _ = d * b := by simp

theorem abs_movingSum_iterate_le {d : Nat} {f : Nat → Int} (h : ∀ n, |f n| ≤ 1) (k n : Nat) : |(movingSum d)^[k] f n| ≤ (d : Int) ^ k := by
  induction k generalizing n with
  | zero => exact h n
  | succ k ih =>
    rw [Function.iterate_succ_apply', pow_succ']
    exact abs_movingSum_le ih n

/-! ### The registers of a filter (R150) -/

/-- The modulator bits as +1 and -1. -/
def bitLevel (x : Nat → Bool) (n : Nat) : Int := if x n then 1 else -1

theorem abs_bitLevel_le (x : Nat → Bool) (n : Nat) : |bitLevel x n| ≤ 1 := by
  unfold bitLevel
  split <;> decide

theorem bitStep_eq {w : Nat} (x : Nat → Bool) (n : Nat) : (bitStep (x n) : BitVec w) = BitVec.ofInt w (bitLevel x n) := by
  unfold bitStep bitLevel
  split
  · exact BitVec.eq_of_toNat_eq rfl
  · rw [BitVec.ofInt_neg]
    exact congrArg (- ·) (BitVec.eq_of_toNat_eq rfl)

theorem ofInt_sub (w : Nat) (a b : Int) : BitVec.ofInt w (a - b) = BitVec.ofInt w a - BitVec.ofInt w b := by
  rw [sub_eq_add_neg, BitVec.ofInt_add, BitVec.ofInt_neg, BitVec.sub_eq_add_neg]

/-- Combs that hold their sequences as `d` periods ago give the differences at period `n`, and hold the sequences of then. -/
theorem combs_eq {w d n : Nat} (k : Nat) {f : Nat → Int} {l : List (BitVec w)}
    (h : ∀ j < k, l[j]? = some (BitVec.ofInt w (delayed ((combDiff d)^[j] f) (n + 1 - d)))) :
    (combs (BitVec.ofInt w (f n)) k l).1 = BitVec.ofInt w ((combDiff d)^[k] f n) ∧
      ∀ j < k, (combs (BitVec.ofInt w (f n)) k l).2[j]? = some (BitVec.ofInt w ((combDiff d)^[j] f n)) := by
  induction k generalizing f l with
  | zero => exact ⟨by unfold combs; rfl, fun j hj => absurd hj (Nat.not_lt_zero j)⟩
  | succ k ih =>
    cases l with
    | nil => exact absurd (h 0 (Nat.succ_pos k)) (by simp)
    | cons c l =>
      have hc : c = BitVec.ofInt w (delayed f (n + 1 - d)) := Option.some.inj (h 0 (Nat.succ_pos k))
      have hdiff : BitVec.ofInt w (f n) - c = BitVec.ofInt w (combDiff d f n) := by rw [hc, ← ofInt_sub]; rfl
      obtain ⟨hout, hheld⟩ := ih (f := combDiff d f) (l := l) fun j hj => h (j + 1) (Nat.succ_lt_succ hj)
      rw [← hdiff] at hout hheld
      refine ⟨hout, fun j hj => ?_⟩
      cases j with
      | zero => rfl
      | succ j => exact hheld j (Nat.lt_of_succ_lt_succ hj)

/-- What the integrators of a filter hold after `n` modulator periods of the input `f`, and its combs after `m`, modulo their width. -/
structure Cic.Holds {w : Nat} (k d : Nat) (f : Nat → Int) (n m : Nat) (c : Cic w) : Prop where
  integ : ∀ j < 5, vat c.integ j = BitVec.ofInt w (delayed (runningSum^[j + 1] f) n)
  comb : ∀ j < k, vat c.comb j = BitVec.ofInt w (delayed ((combDiff d)^[j] (runningSum^[k] f)) m)

theorem cleared_holds {w : Nat} (k d : Nat) (f : Nat → Int) : ({} : Cic w).Holds k d f 0 0 := by
  have hzero (j : Nat) : vat (Vector.replicate 5 (0 : BitVec w)) j = BitVec.ofInt w 0 := by
    unfold vat
    split
    · simp
    · rfl
  exact ⟨fun j _ => hzero j, fun j _ => hzero j⟩

/-- The sum of an integrator and what the one before it holds by then. -/
theorem integ_step (w j : Nat) (f : Nat → Int) (n : Nat) :
    BitVec.ofInt w (delayed (runningSum^[j + 1] f) n) + BitVec.ofInt w (runningSum^[j] f n) = BitVec.ofInt w (runningSum^[j + 1] f n) := by
  rw [← BitVec.ofInt_add, Function.iterate_succ_apply', ← runningSum_eq]

theorem Cic.Holds.clock {w k d n m : Nat} {f : Nat → Int} {c : Cic w} (h : c.Holds k d f n m) :
    (c.clock (BitVec.ofInt w (f n))).Holds k d f (n + 1) m := by
  refine ⟨fun j hj => ?_, h.comb⟩
  have h0 := integ_step w 0 f n
  have h1 := integ_step w 1 f n
  have h2 := integ_step w 2 f n
  have h3 := integ_step w 3 f n
  have h4 := integ_step w 4 f n
  rw [← h.integ _ (by decide)] at h0 h1 h2 h3 h4
  unfold Cic.clock
  dsimp only
  rw [show f n = runningSum^[0] f n from rfl, h0, h1, h2, h3, h4]
  interval_cases j <;> rfl

theorem Cic.Holds.dump {w k d n m : Nat} {f : Nat → Int} {c : Cic w} (h : c.Holds k d f (n + 1) m) (hk : 1 ≤ k) (hk5 : k ≤ 5)
    (hm : m = n + 1 - d) :
    (c.dump k).1 = (BitVec.ofInt w ((movingSum d)^[k] f n)).toInt ∧ (c.dump k).2.Holds k d f (n + 1) (n + 1) := by
  have hin : vat c.integ (k - 1) = BitVec.ofInt w (runningSum^[k] f n) := by
    rw [h.integ _ (by omega), Nat.sub_add_cancel hk]
    rfl
  obtain ⟨hout, hheld⟩ := combs_eq k (f := runningSum^[k] f) (n := n) (d := d) (l := c.comb.toList) fun j hj => by
    rw [← hm, ← h.comb j hj, vat_eq _ (hj.trans_le hk5)]
    simp [hj.trans_le hk5]
  unfold Cic.dump
  rw [hin]
  refine ⟨by rw [movingSum_iterate, ← hout], h.integ, fun j hj => ?_⟩
  simp [vat_eq _ (hj.trans_le hk5), hheld j hj, delayed]

/-- A filter fed from cleared registers: what it holds, and its latest output in its registers' width (R150). -/
theorem feed_holds {w k d : Nat} (hk : 1 ≤ k) (hk5 : k ≤ 5) (x : Nat → Bool) (n : Nat) :
    ((Cic.feed k d x n : Cic w × Int)).1.Holds k d (bitLevel x) n (d * (n / d)) ∧
      ((Cic.feed k d x n : Cic w × Int)).2 = (BitVec.ofInt w (delayed ((movingSum d)^[k] (bitLevel x)) (d * (n / d)))).toInt := by
  induction n with
  | zero =>
    rw [Nat.zero_div]
    exact ⟨cleared_holds k d _, by simp [Cic.feed, delayed]⟩
  | succ n ih =>
    have hclock := bitStep_eq (w := w) x n ▸ ih.1.clock
    unfold Cic.feed
    dsimp only
    split
    · next hlast =>
      have hdvd : d ∣ n + 1 := Nat.dvd_of_mod_eq_zero hlast
      have hspan : d * (n / d) + d = n + 1 := by rw [← Nat.mul_add_one, ← Nat.succ_div_of_dvd hdvd, Nat.mul_div_cancel' hdvd]
      rw [Nat.mul_div_cancel' hdvd]
      exact (hclock.dump hk hk5 (Nat.eq_sub_of_add_eq hspan)).symm
    · next hlast =>
      rw [Nat.succ_div_of_not_dvd fun hdvd => hlast (Nat.mod_eq_zero_of_dvd hdvd)]
      exact ⟨hclock, ih.2⟩

/-- Output `t` loses nothing to the wrap of registers that are wide enough for it (R150, R151). -/
theorem feed_output {w k d : Nat} (hd : 0 < d) (hk : 1 ≤ k) (hk5 : k ≤ 5) (hw : 0 < w) (hwide : (d : Int) ^ k < 2 ^ (w - 1))
    (x : Nat → Bool) (t : Nat) :
    ((Cic.feed k d x (d * t + d) : Cic w × Int)).2 = (movingSum d)^[k] (bitLevel x) (d * t + (d - 1)) := by
  have hlast : d * ((d * t + d) / d) = d * t + (d - 1) + 1 := by
    rw [← Nat.mul_succ, Nat.mul_div_cancel_left _ hd, Nat.mul_succ, Nat.add_assoc, Nat.sub_add_cancel hd]
  obtain ⟨hlow, hhigh⟩ := abs_le.mp (abs_movingSum_iterate_le (d := d) (abs_bitLevel_le x) k (d * t + (d - 1)))
  rw [(feed_holds hk hk5 x _).2, hlast]
  exact BitVec.toInt_ofInt_eq_self hw ((neg_le_neg hwide.le).trans hlow) (hhigh.trans_lt hwide)

/-- Settles O59: the order-K filter is K combs behind K running sums (`feed_holds`), which are K moving sums
(`movingSum_iterate`), and their bound fits the registers. -/
theorem cicIsMovingSum : Obligations.CicIsMovingSum := by
  unfold Obligations.CicIsMovingSum
  intro k t x hk hk5 bit pool jet
  have hpool : pool = (movingSum 64)^[k] bit (64 * t + 63) :=
    feed_output (by decide) (by omega) hk5 (by decide) (by interval_cases k <;> decide) x t
  have hjet : jet = (movingSum 8)^[k] bit (8 * t + 7) :=
    feed_output (by decide) (by omega) hk5 (by decide) (by interval_cases k <;> decide) x t
  obtain ⟨hpoolLow, hpoolHigh⟩ := abs_le.mp (abs_movingSum_iterate_le (d := 64) (abs_bitLevel_le x) k (64 * t + 63))
  obtain ⟨hjetLow, hjetHigh⟩ := abs_le.mp (abs_movingSum_iterate_le (d := 8) (abs_bitLevel_le x) k (8 * t + 7))
  exact ⟨hpool, hjet, hpool ▸ hpoolLow, hpool ▸ hpoolHigh, hjet ▸ hjetLow, hjet ▸ hjetHigh⟩

end Sys2Proof.Machine
end

section
/-! SUPPORT. What a modulator edge gives (O60): the three stages of `App.sigEdge`, a stage at a time, in the filters, the Jet ring and
the Pool words. -/

namespace Sys2Proof.Machine

open Host

/-! ### What depends on registers that an edge leaves (R150, R160) -/

theorem poolK_of_measured {a b : App} (h : a.Measured b) {n : Nat} (hn : n < 4) : b.poolK n = a.poolK n := by
  have hfield : (Reg.DEC_CFG_pool_k n).bit ∉ edgeFields := by
    interval_cases n <;> decide
  unfold App.poolK
  rw [h.regs _ hfield]

theorem navg_of_measured {a b : App} (h : a.Measured b) : b.navg = a.navg := by
  unfold App.navg
  rw [h.regs _ (by decide)]

theorem edge16_of_measured {a b : App} (h : a.Measured b) (e : Nat) : b.edge16 e = a.edge16 e := by
  have htim : b.tim = a.tim := (congrArg App.tim h.rest :)
  unfold App.edge16 App.modLag16
  rw [htim]

/-- `g` names every bay that takes the samples of a stream. -/
def App.Covers (a : App) (g : Nat → Bool) : Prop := ∀ n, n < 4 → a.isSub n = true → g n = true

theorem App.Covers.of_measured {a b : App} {g : Nat → Bool} (hg : a.Covers g) (h : a.Measured b) : b.Covers g := by
  intro n hn hsub
  exact hg n hn ((h.on (sub_not_edge hn)).symm.trans hsub)

/-! ### The stage of a Jet sample (R150, R294) -/

/-- The stage of `App.sigEdge` that ends a Jet sample. -/
def App.jetStage (a : App) (e : Nat) : App := if e % 8 = 7 then ((a.jetSample e).access .jet .dram 64).twTrack else a

theorem sigEdge_eq (a : App) (e : Nat) :
    a.sigEdge e = if e % 64 = 63 then (a.clockSlices.jetStage e).cicSample e (e / 64) else a.clockSlices.jetStage e := rfl

/-- The sample and its frame, with the words as the detectors leave them. -/
theorem jetStage_sample {a : App} {e : Nat} (he : e % 8 = 7) : (a.jetSample e).SameWords (a.jetStage e) := by
  unfold App.jetStage
  rw [if_pos he]
  exact SameWords_trans (SameWords_access _ _ _ _) (twTrack_words _)

theorem jetStage_idle {a : App} {e : Nat} (he : e % 8 ≠ 7) : a.jetStage e = a := if_neg he

theorem jetStage_measured (a : App) (e : Nat) : a.Measured (a.jetStage e) := by
  by_cases he : e % 8 = 7
  · exact Measured_trans (jetSample_measured a e) (jetStage_sample he).meas
  · rw [jetStage_idle he]
    exact Measured_refl a

theorem vat_ofFn {α : Type} [Inhabited α] {n : Nat} (f : Fin n → α) (i : Fin n) : vat (Vector.ofFn f) i.val = f i := by
  rw [vat_eq _ i.isLt]
  simp

theorem clockSlices_slice (a : App) (i : Fin 36) :
    (vat a.clockSlices.sig.slices i).pool = (vat a.sig.slices i).pool.clock (bitStep (Config.modBit i a.sig.edges)) ∧
      (vat a.clockSlices.sig.slices i).jet = (vat a.sig.slices i).jet.clock (bitStep (Config.modBit i a.sig.edges)) := by
  unfold App.clockSlices
  rw [onSig_sig, vat_ofFn]
  exact ⟨rfl, rfl⟩

theorem jetSample_slice (a : App) (e : Nat) (i : Fin 36) :
    vat (a.jetSample e).sig.slices i = { vat a.sig.slices i with jet := ((vat a.sig.slices i).jet.dump (a.jetK (i / 9))).2 } := by
  unfold App.jetSample
  rw [onSig_sig, vat_ofFn]

theorem jetSample_rows (a : App) (e : Nat) : (a.jetSample e).sig.rows = a.sig.rows := by
  unfold App.jetSample
  rw [onSig_sig]

theorem jetStage_slice (a : App) (e : Nat) (i : Fin 36) :
    (vat (a.jetStage e).sig.slices i).pool = (vat a.sig.slices i).pool ∧
      (vat (a.jetStage e).sig.slices i).jet =
        if e % 8 = 7 then ((vat a.sig.slices i).jet.dump (a.jetK (i / 9))).2 else (vat a.sig.slices i).jet := by
  split
  · next he =>
    rw [(jetStage_sample he).slices, jetSample_slice]
    exact ⟨rfl, rfl⟩
  · next he =>
    rw [jetStage_idle he]
    exact ⟨rfl, rfl⟩

theorem jetStage_rows {a : App} {g : Nat → Bool} (hg : a.Covers g) (e : Nat) :
    (a.jetStage e).sig.rows.map (PoolRow.without g) = a.sig.rows.map (PoolRow.without g) := by
  by_cases he : e % 8 = 7
  · rw [(jetStage_sample he).rows g (hg.of_measured (jetSample_measured a e)), jetSample_rows]
  · rw [jetStage_idle he]

/-! ### The stage of a CIC sample (R150, R160) -/

/-- `b` has the filters and the Jet ring of `a`. -/
structure App.SameFilters (a b : App) : Prop where
  slices : b.sig.slices = a.sig.slices
  jetCount : b.sig.jetCount = a.sig.jetCount
  ring : b.sig.ring = a.sig.ring

theorem App.SameWords.filters {a b : App} (h : a.SameWords b) : a.SameFilters b := ⟨h.slices, h.jetCount, h.ring⟩

theorem SameFilters_trans {a b c : App} (h : a.SameFilters b) (k : b.SameFilters c) : a.SameFilters c :=
  ⟨k.slices.trans h.slices, k.jetCount.trans h.jetCount, k.ring.trans h.ring⟩

theorem rowPut_filters (a : App) (r : PoolRow) : a.SameFilters (a.rowPut r) := by
  obtain ⟨-, hslices, hcount, hring, -⟩ := (rowPut_rows a r).1
  dsimp only [onSig_sig] at hslices hcount hring
  exact ⟨hslices, hcount, hring⟩

theorem rowPut_measured (a : App) (r : PoolRow) : a.Measured (a.rowPut r) :=
  Measured_trans (rowPut_rows a r).1.meas (Measured_back _ _)

theorem poolWords_filters (a : App) (e w : Nat) : a.SameFilters (a.poolWords e w) := by
  unfold App.poolWords
  exact SameFilters_trans (rowPut_filters a _) (rowTake_words _ _).filters

/-- The words of a window head the Pool words. -/
theorem poolWords_rows {a : App} {g : Nat → Bool} (hg : a.Covers g) (e w : Nat) :
    (a.poolWords e w).sig.rows.map (PoolRow.without g) = ((a.poolRow e w :: a.sig.rows).take 1290555).map (PoolRow.without g) := by
  unfold App.poolWords
  rw [(rowTake_words _ _).rows g (hg.of_measured (rowPut_measured a _)), (rowPut_rows a _).2]

theorem cicDump_slice (a : App) (i : Fin 36) :
    vat a.cicDump.sig.slices i = { vat a.sig.slices i with pool := ((vat a.sig.slices i).pool.dump (a.poolK (i / 9))).2 } := by
  unfold App.cicDump App.cicOuts
  rw [onSig_sig, vat_ofFn, vat_ofFn]

theorem cicDump_others (a : App) : a.cicDump.sig = { a.sig with slices := a.cicDump.sig.slices } := by
  unfold App.cicDump
  rw [onSig_sig]

/-- The state in which the bays have taken the outputs of a CIC sample. -/
def App.cicTaken (a : App) (k : Nat) : App := a.cicDump.cicBays (fun i => (vat a.cicOuts i).1) k

theorem cicSample_eq (a : App) (e k : Nat) :
    a.cicSample e k = if (k + 1) % (a.cicTaken k).navg = 0 then (a.cicTaken k).poolWords e (k / (a.cicTaken k).navg) else a.cicTaken k := rfl

theorem cicTaken_words (a : App) (k : Nat) : a.cicDump.SameWords (a.cicTaken k) := cicBays_words _ _ _

theorem cicTaken_measured (a : App) (k : Nat) : a.Measured (a.cicTaken k) := Measured_trans (cicDump_measured a) (cicTaken_words a k).meas

theorem cicTaken_rows {a : App} {g : Nat → Bool} (hg : a.Covers g) (k : Nat) :
    (a.cicTaken k).sig.rows.map (PoolRow.without g) = a.sig.rows.map (PoolRow.without g) := by
  rw [(cicTaken_words a k).rows g (hg.of_measured (cicDump_measured a)), cicDump_others]

theorem cicSample_filters (a : App) (e k : Nat) : a.cicDump.SameFilters (a.cicSample e k) := by
  rw [cicSample_eq]
  split
  · exact SameFilters_trans (cicTaken_words a k).filters (poolWords_filters _ e _)
  · exact (cicTaken_words a k).filters

theorem poolRow_edge (a : App) (e w : Nat) : (a.poolRow e w).edge = a.edge16 e := rfl

/-- The CIC sample that ends an averager window. -/
theorem cicSample_rows_of_end {a : App} {k : Nat} (hend : (k + 1) % a.navg = 0) (e : Nat) :
    ∃ r : PoolRow, r.no = k / a.navg ∧ r.edge = a.edge16 e ∧ ∀ g, a.Covers g →
      (a.cicSample e k).sig.rows.map (PoolRow.without g) = ((r :: a.sig.rows).take 1290555).map (PoolRow.without g) := by
  have hmeas := cicTaken_measured a k
  refine ⟨(a.cicTaken k).poolRow e (k / a.navg), rfl, (poolRow_edge ..).trans (edge16_of_measured hmeas e), fun g hg => ?_⟩
  rw [cicSample_eq, navg_of_measured hmeas, if_pos hend, poolWords_rows (hg.of_measured hmeas), List.map_take, List.map_cons,
    cicTaken_rows hg, List.map_take, List.map_cons]

theorem cicSample_rows_of_not_end {a : App} {k : Nat} (hend : ¬ (k + 1) % a.navg = 0) (e : Nat) {g : Nat → Bool} (hg : a.Covers g) :
    (a.cicSample e k).sig.rows.map (PoolRow.without g) = a.sig.rows.map (PoolRow.without g) := by
  rw [cicSample_eq, navg_of_measured (cicTaken_measured a k), if_neg hend, cicTaken_rows hg]

/-! ### The edge -/

/-- The CIC stage leaves the Jet filters and the Jet ring. -/
theorem sigEdge_jet (a : App) (e : Nat) :
    (∀ i : Fin 36, (vat (a.sigEdge e).sig.slices i).jet = (vat (a.clockSlices.jetStage e).sig.slices i).jet) ∧
      (a.sigEdge e).sig.jetCount = (a.clockSlices.jetStage e).sig.jetCount ∧
      (a.sigEdge e).sig.ring = (a.clockSlices.jetStage e).sig.ring := by
  rw [sigEdge_eq]
  split
  · have hsame := cicSample_filters (a.clockSlices.jetStage e) e (e / 64)
    exact ⟨fun i => by rw [hsame.slices, cicDump_slice], by rw [hsame.jetCount, cicDump_others], by rw [hsame.ring, cicDump_others]⟩
  · exact ⟨fun _ => rfl, rfl, rfl⟩

theorem sigEdge_pool (a : App) (e : Nat) (i : Fin 36) :
    (vat (a.sigEdge e).sig.slices i).pool =
      if e % 64 = 63 then ((vat a.clockSlices.sig.slices i).pool.dump (a.poolK (i / 9))).2 else (vat a.clockSlices.sig.slices i).pool := by
  have hmeas : a.Measured (a.clockSlices.jetStage e) := Measured_trans (clockSlices_measured a) (jetStage_measured _ e)
  rw [sigEdge_eq]
  split
  · rw [(cicSample_filters _ e _).slices, cicDump_slice, (jetStage_slice _ e i).1, poolK_of_measured hmeas (by omega)]
  · exact (jetStage_slice _ e i).1

theorem sigEdge_slices (a : App) (e : Nat) (i : Fin 36) :
    let z := vat a.sig.slices i
    let pool := z.pool.clock (bitStep (Config.modBit i a.sig.edges))
    let jet := z.jet.clock (bitStep (Config.modBit i a.sig.edges))
    (vat (a.sigEdge e).sig.slices i).pool = (if e % 64 = 63 then (pool.dump (a.poolK (i / 9))).2 else pool) ∧
      (vat (a.sigEdge e).sig.slices i).jet = (if e % 8 = 7 then (jet.dump (a.jetK (i / 9))).2 else jet) := by
  obtain ⟨hpool, hjet⟩ := clockSlices_slice a i
  refine ⟨by rw [sigEdge_pool, hpool], ?_⟩
  rw [(sigEdge_jet a e).1 i, (jetStage_slice _ e i).2, hjet]
  rfl

/-- An edge that ends a Jet sample: its frame heads the ring (R294). -/
theorem sigEdge_ring_of_jet {a : App} {e : Nat} (he : e % 8 = 7) :
    (a.sigEdge e).sig.jetCount = a.sig.jetCount + 1 ∧
      ∃ f : JetFrame, (a.sigEdge e).sig.ring = (f :: a.sig.ring).take 33554432 ∧ f.edge = a.edge16 e ∧ ∀ b : Fin 4, vat f.ang b = a.angleFx b := by
  obtain ⟨-, hcount, hring⟩ := sigEdge_jet a e
  have hsample := jetStage_sample (a := a.clockSlices) he
  rw [hsample.jetCount, jetSample_count] at hcount
  rw [hsample.ring, jetSample_ring] at hring
  exact ⟨hcount, a.clockSlices.jetFrame e, hring, rfl, fun b => vat_ofFn _ b⟩

theorem sigEdge_ring_of_not_jet {a : App} {e : Nat} (he : e % 8 ≠ 7) :
    (a.sigEdge e).sig.jetCount = a.sig.jetCount ∧ (a.sigEdge e).sig.ring = a.sig.ring := by
  obtain ⟨-, hcount, hring⟩ := sigEdge_jet a e
  rw [jetStage_idle he] at hcount hring
  exact ⟨hcount, hring⟩

/-- An edge that ends an averager window: its words head the Pool words (R160). -/
theorem sigEdge_rows_of_window {a : App} {e : Nat} (hcic : e % 64 = 63) (hend : (e / 64 + 1) % a.navg = 0) :
    ∃ r : PoolRow, r.no = e / 64 / a.navg ∧ r.edge = a.edge16 e ∧ ∀ g, a.Covers g →
      (a.sigEdge e).sig.rows.map (PoolRow.without g) = ((r :: a.sig.rows).take 1290555).map (PoolRow.without g) := by
  have hmeas : a.Measured (a.clockSlices.jetStage e) := Measured_trans (clockSlices_measured a) (jetStage_measured _ e)
  rw [← navg_of_measured hmeas] at hend
  obtain ⟨r, hno, hedge, hrows⟩ := cicSample_rows_of_end hend e
  refine ⟨r, hno.trans (by rw [navg_of_measured hmeas]), hedge.trans (edge16_of_measured hmeas e), fun g hg => ?_⟩
  rw [sigEdge_eq, if_pos hcic, hrows g (hg.of_measured hmeas), List.map_take, List.map_cons,
    jetStage_rows (hg.of_measured (clockSlices_measured a)), List.map_take, List.map_cons]
  rfl

theorem sigEdge_rows_of_no_window {a : App} {e : Nat} (hno : ¬ (e % 64 = 63 ∧ (e / 64 + 1) % a.navg = 0)) {g : Nat → Bool} (hg : a.Covers g) :
    (a.sigEdge e).sig.rows.map (PoolRow.without g) = a.sig.rows.map (PoolRow.without g) := by
  have hmeas : a.Measured (a.clockSlices.jetStage e) := Measured_trans (clockSlices_measured a) (jetStage_measured _ e)
  have hjet : (a.clockSlices.jetStage e).sig.rows.map (PoolRow.without g) = a.sig.rows.map (PoolRow.without g) :=
    jetStage_rows (hg.of_measured (clockSlices_measured a)) e
  rw [sigEdge_eq]
  split
  · next hcic =>
    rw [cicSample_rows_of_not_end (fun hend => hno ⟨hcic, by rwa [navg_of_measured hmeas] at hend⟩) e (hg.of_measured hmeas), hjet]
  · exact hjet

/-- A tick of a live module in which a modulator edge falls runs `App.sigEdge` on it. -/
theorem tickOnce_edge {a b : App} (hb : b = { a with tick := a.tick + 1, opTicks := if a.life.power then a.opTicks + 1 else a.opTicks })
    (hlive : a.life.boot ≠ .held) (hedge : b.clocksTick.tim.edgeCount ≠ a.tim.edgeCount) :
    a.tickOnce = (b.clocksTick.sigEdge b.clocksTick.tim.edgeCount.toNat).xbarTick.portsTick.bootStep.failStep := by
  subst hb
  unfold App.tickOnce
  dsimp only
  rw [if_neg hlive]
  unfold App.sigTick
  rw [if_neg hedge]

/-- Settles O60: the tick runs `App.sigEdge` on the clocks' state, whose signal paths are those before the tick but for the count of
CIC periods. -/
theorem edgeMeasures : Obligations.EdgeMeasures := by
  unfold Obligations.EdgeMeasures
  intro s hempty hlive a e bare hedge
  have hmeas := sigEdge_measured a e
  have hslices := sigEdge_slices a e
  have hring := sigEdge_ring_of_jet (a := a) (e := e)
  have hstay := sigEdge_ring_of_not_jet (a := a) (e := e)
  have hwindow := sigEdge_rows_of_window (a := a) (e := e)
  have hquiet := sigEdge_rows_of_no_window (a := a) (e := e)
  obtain ⟨n, hsig⟩ : ∃ n, a.sig = { s.app.sig with periods := n } := clocksTick_sig _
  rw [hsig] at hslices hring hstay hwindow hquiet
  refine ⟨a.sigEdge e, ?_, hmeas.rest, hmeas.regs, hslices, hring, hstay, fun ⟨hcic, hend⟩ => hwindow hcic hend, fun hno g hg => hquiet hno hg⟩
  rw [step_empty hempty, tickOnce_edge rfl hlive hedge]

end Sys2Proof.Machine
end

section
/-! SUPPORT. The events of the Sluice engines, the fast detector and substitution (O24): each row by the branch that its condition
chooses. -/

namespace Sys2Proof.Machine

open Host

/-! ### The engines (R206, R207) -/

theorem engUp_of_run {a : App} {e : Nat} (h : a.get (Reg.SLU_STAT_state e) = 0) : a.engUp e = true := beq_iff_eq.mpr h

/-- The event by which bay `b` reports whether the copies of its pair in slot `n` differ. -/
def App.tellPair (a : App) (n b : Nat) (told : Bool) (ev : Nat) : App :=
  let p := pairAt a.slu.pairs n
  let d := a.liveDesc b n
  (a.onSlu fun x => { x with pairs := putPair x.pairs n { p with told := told } }).sluEvent n (dType d) ev
    p.stamp 0 (whereByte (dBay d) 0 2) (dGroup d) 0

/-- PAIR_DISAGREE of a slot that bay `b` has live. -/
theorem exec_pairDisagree_live {s : State} (hlive : s.app.life.boot ≠ .held) {n : Fin 512} {b : Nat}
    (hbay : (upto 4).find? (fun b => dLive (s.app.liveDesc b n) b) = some b) :
    exec (.pairDisagree n) s = .next (s.withApp
      (if 4 < (pairAt s.app.slu.pairs n).ticks ∧ (pairAt s.app.slu.pairs n).told = false then s.app.tellPair n b true 4
       else if (pairAt s.app.slu.pairs n).ticks = 0 ∧ (pairAt s.app.slu.pairs n).told then s.app.tellPair n b false 5
       else s.app)) := by
  refine exec_onApp_acts hlive (show execPairDisagree n s = _ from rfl) ?_
  simp only [hbay]
  rfl

/-- An engine that is up faults on its own fault, or where a bay holds two ready ticks that it has not evaluated. -/
theorem engineFaulted_of_cause {a : App} {e : Nat} {internal : Bool} (hup : a.get (Reg.SLU_STAT_state e) = 0)
    (hcause : internal = true ∨ ∃ b, b < 4 ∧ 2 ≤ (vat (vat a.slu.eng e).bays b).ready.length) :
    a.engUp e = true ∧
      (internal = true ∨ (upto 4).any (fun b => decide (2 ≤ (vat (vat a.slu.eng e).bays b).ready.length)) = true) := by
  refine ⟨engUp_of_run hup, hcause.imp_right fun ⟨b, hb, hready⟩ => ?_⟩
  exact List.any_eq_true.mpr ⟨b, List.mem_range.mpr hb, decide_eq_true hready⟩

/-! ### Substitution (R210) -/

/-- SV_FALLBACK of a substituted bay whose stream is silent and that no change awaits: sub_fallback alone decides. -/
theorem svFallback_silent {a : App} {b : Nat} (hsub : a.on (Reg.SLU_BAY_sub_active b) = true) (hsilent : a.svSilent b = true)
    (hnone : (vat a.slu.sub b).pending = none) :
    (a.isSub b && a.svSilent b && a.on (Reg.SLU_BAY_sub_fallback b) && (vat a.slu.sub b).pending.isNone) =
      a.on (Reg.SLU_BAY_sub_fallback b) := by
  rw [show a.isSub b = true from hsub, hsilent, hnone, Option.isNone_none, Bool.and_true, Bool.and_true, Bool.true_and]

/-- Settles O24: each row by the branch that its condition chooses. -/
theorem sluiceEventsAct : Obligations.SluiceEventsAct := by
  unfold Obligations.SluiceEventsAct
  intro s hlive a
  refine ⟨fun e hup => ?evaluation, fun n b hbay => ⟨fun hticks htold => ?disagree, fun hticks htold => ?agree⟩,
    fun e hup => ⟨?internalFault, fun hmissed => ?missedTicks⟩, fun e hreload => ?reloaded, fun b c hout hen hcount => ?instPickup,
    fun b c hup hcount => ?instDropout, fun b hen hout hcount => ?distPickup, fun b hup hcount => ?distDropout,
    fun b v lost n hpend => ?substitution, fun b hsub hsilent hnone => ?fallback⟩
  case evaluation => exact exec_onApp_acts hlive (show execTickEvaluation e s = _ from rfl) (if_pos (engUp_of_run hup))
  case disagree =>
    rw [exec_pairDisagree_live hlive hbay, if_pos ⟨hticks, htold⟩]
    rfl
  case agree =>
    have hagain : ¬(4 < (pairAt s.app.slu.pairs n).ticks ∧ (pairAt s.app.slu.pairs n).told = false) := fun ⟨_, hnew⟩ =>
      Bool.eq_false_iff.mp hnew htold
    rw [exec_pairDisagree_live hlive hbay, if_neg hagain, if_pos ⟨hticks, htold⟩]
    rfl
  case internalFault =>
    exact exec_onApp_acts hlive (show execEngineFaulted e true s = _ from rfl) (if_pos (engineFaulted_of_cause hup (.inl rfl)))
  case missedTicks =>
    exact exec_onApp_acts hlive (show execEngineFaulted e false s = _ from rfl) (if_pos (engineFaulted_of_cause hup (.inr hmissed)))
  case reloaded =>
    obtain ⟨t, ht⟩ := Option.isSome_iff_exists.mp hreload
    refine exec_onApp_acts hlive (show execEngineReloadEnd e s = _ from rfl) ?_
    simp only [show (vat s.app.slu.eng e).reloadAt = _ from ht]
    rfl
  case instPickup => exact exec_onApp_acts hlive (show execInstantaneousPickup b c s = _ from rfl) (if_pos ⟨hen, hout, hcount⟩)
  case instDropout => exact exec_onApp_acts hlive (show execInstantaneousDropout b c s = _ from rfl) (if_pos ⟨hup, hcount⟩)
  case distPickup => exact exec_onApp_acts hlive (show execDisturbancePickup b s = _ from rfl) (if_pos ⟨hen, hout, hcount⟩)
  case distDropout => exact exec_onApp_acts hlive (show execDisturbanceDropout b s = _ from rfl) (if_pos ⟨hup, hcount⟩)
  case substitution =>
    refine exec_onApp_acts hlive (show execSubstitutionChange b s = _ from rfl) ?_
    simp only [show (vat s.app.slu.sub b).pending = _ from hpend]
    rfl
  case fallback =>
    exact exec_onApp_acts hlive (show execSvFallback b s = _ from rfl) (if_congr (by rw [svFallback_silent hsub hsilent hnone]) rfl rfl)

end Sys2Proof.Machine
end

section
/-! SUPPORT. How a trip channel takes its row (O26): what it notes of the row, and the three things that then can happen. -/

namespace Sys2Proof.Machine

open Host

/-! ### Noting the row -/

/-- The channel with its row noted, and the instant of a deassertion. -/
def App.noteRow (a : App) (n : Nat) (row : Bool) : App :=
  if row == (vat a.trp.ch n).row then a else a.onCh n fun c => { c with row := row, offAt := if row then c.offAt else a.tick }

@[simp] theorem noteRow_get (a : App) (n : Nat) (row : Bool) (f : Fld) : (a.noteRow n row).get f = a.get f := by
  unfold App.noteRow
  split <;> rfl

@[simp] theorem noteRow_on (a : App) (n : Nat) (row : Bool) (f : Fld) : (a.noteRow n row).on f = a.on f := by
  unfold App.on
  rw [noteRow_get]

@[simp] theorem noteRow_tick (a : App) (n : Nat) (row : Bool) : (a.noteRow n row).tick = a.tick := by
  unfold App.noteRow
  split <;> rfl

@[simp] theorem noteRow_since (a : App) (n : Nat) (row : Bool) (t d : Nat) : (a.noteRow n row).since t d = a.since t d := by
  unfold App.since
  rw [noteRow_tick]

/-- Of its channel, noting the row changes the row and perhaps the instant of its deassertion. -/
theorem noteRow_ch (a : App) {n : Nat} (hn : n < 8) (row : Bool) :
    ∃ t, vat (a.noteRow n row).trp.ch n = { vat a.trp.ch n with row := row, offAt := t } := by
  unfold App.noteRow
  split
  next hsame => exact ⟨(vat a.trp.ch n).offAt, by rw [eq_of_beq hsame]⟩
  next => exact ⟨_, by rw [onCh_trp, vat_vup_same _ _ hn]⟩

theorem noteRow_onAt (a : App) {n : Nat} (hn : n < 8) (row : Bool) :
    (vat (a.noteRow n row).trp.ch n).onAt = (vat a.trp.ch n).onAt := by
  obtain ⟨t, hch⟩ := noteRow_ch a hn row
  rw [hch]

theorem noteRow_lowFor (a : App) {n : Nat} (hn : n < 8) (row : Bool) : (a.noteRow n row).lowFor n = a.lowFor n := by
  obtain ⟨t, hch⟩ := noteRow_ch a hn row
  simp only [App.lowFor, hch, noteRow_since]

/-- With its row noted a channel may open where it conducts, the row is deasserted, `t_min` has elapsed, and seal-in does not
hold it (R253). -/
theorem noteRow_mayOpen (a : App) {n : Nat} (hn : n < 8) (row : Bool) :
    (a.noteRow n row).mayOpen n = true ↔ a.on (Reg.TRP_CHSTAT_on n) = true ∧ row = false ∧
      a.since (vat a.trp.ch n).onAt (a.get (Reg.TRP_CHTIM_t_min n) * tMs) = true ∧
      (a.on (Reg.TRP_CHCFG_seal_en n) = false ∨ a.lowFor n = true) := by
  obtain ⟨t, hch⟩ := noteRow_ch a hn row
  simp only [App.mayOpen, hch, noteRow_on, noteRow_get, noteRow_since, noteRow_lowFor a hn, Bool.and_eq_true, Bool.or_eq_true,
    Bool.not_eq_true', and_assoc]

/-! ### What then happens (R252 to R254) -/

/-- The channel begins to conduct: one more operation, and `t_min` runs from now. -/
def App.chClose (a : App) (n : Nat) : App :=
  ((a.setB (Reg.TRP_CHSTAT_on n) true).wrapAdd (Reg.TRP_CHCNT_ops n) 1).onCh n fun c =>
    { c with onAt := a.tick, noCurrent := false, tested := false }

/-- Whether an asserted row makes the channel conduct. -/
def App.MayClose (a : App) (n : Nat) : Prop :=
  a.on (Reg.TRP_CHSTAT_on n) = false ∧ (vat a.trp.ch n).overload = false ∧ (vat a.trp.ch n).tspLost = false

theorem chRow_eq (a : App) (n : Nat) (row : Bool) :
    a.chRow n row = if (row && !(a.noteRow n row).on (Reg.TRP_CHSTAT_on n) && !(vat a.trp.ch n).overload && !(vat a.trp.ch n).tspLost) = true
      then (a.noteRow n row).chClose n else if (a.noteRow n row).mayOpen n then (a.noteRow n row).chOpen n else a.noteRow n row := rfl

theorem chRow_closes {a : App} {n : Nat} (h : a.MayClose n) : a.chRow n true = (a.noteRow n true).chClose n := by
  obtain ⟨hoff, hcool, htsp⟩ := h
  rw [chRow_eq, noteRow_on, hoff, hcool, htsp]
  rfl

/-- A row that does not make the channel conduct leaves the question whether it opens. -/
theorem chRow_of_not_close {a : App} {n : Nat} {row : Bool} (h : ¬ (row = true ∧ a.MayClose n)) :
    a.chRow n row = if (a.noteRow n row).mayOpen n then (a.noteRow n row).chOpen n else a.noteRow n row := by
  rw [chRow_eq, noteRow_on]
  exact if_neg (by simpa only [App.MayClose, Bool.and_eq_true, Bool.not_eq_true', and_assoc] using h)

theorem chRow_stays {a : App} {n : Nat} {row : Bool} (h : ¬ (row = true ∧ a.MayClose n)) (hheld : ¬ (a.noteRow n row).mayOpen n = true) :
    a.chRow n row = a.noteRow n row := by
  rw [chRow_of_not_close h, if_neg hheld]

theorem chRow_opens {a : App} {n : Nat} {row : Bool} (h : ¬ (row = true ∧ a.MayClose n)) (hfree : (a.noteRow n row).mayOpen n = true) :
    a.chRow n row = (a.noteRow n row).chOpen n := by
  rw [chRow_of_not_close h, if_pos hfree]

/-! ### What each of them shows -/

theorem on_bit_ne_ops_bit (n : Nat) : (Reg.TRP_CHSTAT_on n).bit ≠ (Reg.TRP_CHCNT_ops n).bit := by
  simp only [Reg.TRP_CHSTAT_on, Reg.TRP_CHCNT_ops]
  omega

theorem chClose_on (a : App) (n : Nat) : (a.chClose n).get (Reg.TRP_CHSTAT_on n) = 1 := by
  have hkept : (a.chClose n).get (Reg.TRP_CHSTAT_on n) = (a.setB (Reg.TRP_CHSTAT_on n) true).get (Reg.TRP_CHSTAT_on n) :=
    get_set_other _ _ (on_bit_ne_ops_bit n).symm
  exact hkept.trans (get_set_same a _ _)

theorem chClose_ops (a : App) (n : Nat) : (a.chClose n).get (Reg.TRP_CHCNT_ops n) = (a.get (Reg.TRP_CHCNT_ops n) + 1) % 2 ^ 32 := by
  have hcounted : (a.chClose n).get (Reg.TRP_CHCNT_ops n) = ((a.setB (Reg.TRP_CHSTAT_on n) true).get (Reg.TRP_CHCNT_ops n) + 1) % 2 ^ 32 :=
    get_set_same _ (Reg.TRP_CHCNT_ops n) _
  rw [hcounted, App.setB, get_set_other _ _ (on_bit_ne_ops_bit n)]

theorem chClose_onAt (a : App) {n : Nat} (hn : n < 8) : (vat (a.chClose n).trp.ch n).onAt = a.tick :=
  congrArg TripCh.onAt (vat_vup_same a.trp.ch _ hn)

theorem chOpen_on (a : App) (n : Nat) : (a.chOpen n).get (Reg.TRP_CHSTAT_on n) = 0 := get_set_same a _ _

theorem chOpen_ops (a : App) (n : Nat) : (a.chOpen n).get (Reg.TRP_CHCNT_ops n) = a.get (Reg.TRP_CHCNT_ops n) :=
  get_set_other a _ (on_bit_ne_ops_bit n)

/-- A conducting channel that its row does not let open shows as before: conducting, nothing counted, `t_min` not restarted. -/
theorem chRow_conducting_stays {a : App} {n : Nat} (hn : n < 8) {row : Bool} (hon : a.get (Reg.TRP_CHSTAT_on n) = 1)
    (hheld : ¬ (a.noteRow n row).mayOpen n = true) :
    (a.chRow n row).get (Reg.TRP_CHSTAT_on n) = 1 ∧ (a.chRow n row).get (Reg.TRP_CHCNT_ops n) = a.get (Reg.TRP_CHCNT_ops n) ∧
      (vat (a.chRow n row).trp.ch n).onAt = (vat a.trp.ch n).onAt := by
  have hclosed : ¬ (row = true ∧ a.MayClose n) := fun ⟨_, hoff, _⟩ => by simp [App.on, hon] at hoff
  rw [chRow_stays hclosed hheld, noteRow_get, noteRow_get]
  exact ⟨hon, rfl, noteRow_onAt a hn row⟩

/-- Settles O26: the channel closes, opens or stays by its row, and shows what each of them leaves. -/
theorem tripChannelFollowsRow : Obligations.TripChannelFollowsRow := by
  unfold Obligations.TripChannelFollowsRow
  intro a n hn
  refine ⟨fun hoff hcool htsp => ?rises, fun hoff hkept row => ?keptOff, fun hon hearly row => ?minTime, fun hon hseal hcurrent row => ?sealedIn,
    fun hon => ?assertsAgain, fun hon hlong hfree => ?falls⟩
  case rises =>
    have hclose : a.MayClose n := ⟨by simp [App.on, hoff], hcool, htsp⟩
    simp only [chRow_closes hclose, chClose_on, chClose_ops, chClose_onAt _ hn, noteRow_get, noteRow_tick, and_self]
  case keptOff =>
    have hkeeps : ¬ (row = true ∧ a.MayClose n) := by
      rintro ⟨-, -, hcool, htsp⟩
      simp [hcool, htsp] at hkept
    have hrest : ¬ (a.noteRow n row).mayOpen n = true := fun h => by
      obtain ⟨hon, -⟩ := (noteRow_mayOpen a hn row).mp h
      simp [App.on, hoff] at hon
    simp only [chRow_stays hkeeps hrest, noteRow_get, hoff, and_self]
  case minTime =>
    refine chRow_conducting_stays hn hon fun h => ?_
    obtain ⟨-, -, hlong, -⟩ := (noteRow_mayOpen a hn row).mp h
    exact Bool.false_ne_true (hearly.symm.trans hlong)
  case sealedIn =>
    refine chRow_conducting_stays hn hon fun h => ?_
    obtain ⟨-, -, -, hfree⟩ := (noteRow_mayOpen a hn row).mp h
    simp [hseal, hcurrent] at hfree
  case assertsAgain =>
    refine chRow_conducting_stays hn hon fun h => ?_
    obtain ⟨-, hrow, -⟩ := (noteRow_mayOpen a hn true).mp h
    exact Bool.false_ne_true hrow.symm
  case falls =>
    have hopens : (a.noteRow n false).mayOpen n = true := (noteRow_mayOpen a hn false).mpr ⟨by simp [App.on, hon], rfl, hlong, hfree⟩
    have hkeeps : ¬ (false = true ∧ a.MayClose n) := fun ⟨hrow, _⟩ => Bool.false_ne_true hrow
    simp only [chRow_opens hkeeps hopens, chOpen_on, chOpen_ops, noteRow_get, and_self]

end Sys2Proof.Machine
end

section
/-! SUPPORT. BREAKER_CLOSE and BREAKER_OPEN (O5): what a breaker controller does with a command that it accepts. -/

namespace Sys2Proof.Machine

open Host

/-- An admitted command with its arguments in range that is final later leaves what its effect makes of the state. -/
theorem exec_begun {i : Instr} {s : State} {h : CmdHdr} {op : HostOp} {range : App → Option Nat} {objs : List Nat}
    {eff : App → App × Reply} {b : App}
    (hexec : exec i s = s.onApp fun a => a.process h op (range a) objs eff) (hadm : Admitted s.app h op objs) (hrange : range s.app = none)
    (heff : eff (s.app.takeIn h op objs) = (b, .later)) : exec i s = .next (s.withApp b) :=
  exec_concluded (objs := fun _ => objs) hexec hadm hrange heff

/-! ### What taking a command in leaves of the matrix, the angle clocks and the engines -/

@[simp] theorem takeIn_isDirect (a : App) (h : CmdHdr) (op : HostOp) (l : List Nat) (r i : Nat) :
    (a.takeIn h op l).isDirect r i = a.isDirect r i := by
  simp [App.isDirect, App.rowTerms]

@[simp] theorem takeIn_tripRow (a : App) (h : CmdHdr) (op : HostOp) (l : List Nat) (b : Nat) : (a.takeIn h op l).tripRow b = a.tripRow b := by
  simp [App.tripRow]

@[simp] theorem takeIn_aq (a : App) (h : CmdHdr) (op : HostOp) (l : List Nat) (b : Nat) : (a.takeIn h op l).aq b = a.aq b := by
  simp [App.aq]

@[simp] theorem takeIn_freeUnit (a : App) (h : CmdHdr) (op : HostOp) (l : List Nat) (b : Nat) :
    (a.takeIn h op l).freeUnit b = a.freeUnit b := by
  simp [App.freeUnit]

@[simp] theorem takeIn_refAngle (a : App) (h : CmdHdr) (op : HostOp) (l : List Nat) (b ch : Nat) :
    (a.takeIn h op l).refAngle b ch = a.refAngle b ch := by
  simp [App.refAngle, App.engUp]

@[simp] theorem takeIn_angleFx (a : App) (h : CmdHdr) (op : HostOp) (l : List Nat) (b : Nat) : (a.takeIn h op l).angleFx b = a.angleFx b := by
  simp [App.angleFx, App.cicPart]

@[simp] theorem takeIn_firingPoint (a : App) (h : CmdHdr) (op : HostOp) (l : List Nat) (b target t16 phi : Nat) :
    (a.takeIn h op l).firingPoint b target t16 phi = a.firingPoint b target t16 phi := by
  simp only [App.firingPoint, takeIn_angleFx, takeIn_clk]

/-! ### The controller (R260, R263) -/

/-- An operation begins: its failed input deasserts and its busy input asserts. -/
def App.brkStart (a : App) (b : Nat) (o : BrkOp) : App :=
  ((a.onTrp fun t => { t with ops := vput t.ops b (some o) }).setInp (0x883 + 4 * b) false).setInp (0x882 + 4 * b) true

/-- The row of a controller that an operation drives. -/
def App.brkRow (a : App) (b : Nat) (open_ : Bool) : Nat :=
  a.get (if open_ then Reg.TRP_BKCFG_open_row b else Reg.TRP_BKCFG_close_row b)

/-- The controller is enabled and free, no trip row stands against a close, and the row is direct. -/
structure App.BrkReady (a : App) (b : Nat) (open_ : Bool) : Prop where
  enabled : a.on (Reg.TRP_BKCFG_en b) = true
  free : vat a.trp.ops b = none
  noTrip : open_ = false → a.tripRow b = none
  direct : a.isDirect (a.brkRow b open_) (0x880 + 4 * b + open_.toNat) = true

/-- A command taken in leaves a controller ready. -/
theorem takeIn_brkReady {a : App} {b : Nat} {open_ : Bool} (hready : a.BrkReady b open_) (h : CmdHdr) (op : HostOp) (l : List Nat) :
    (a.takeIn h op l).BrkReady b open_ where
  enabled := by rw [takeIn_on, hready.enabled]
  free := by rw [takeIn_trp, hready.free]
  noTrip hclose := by rw [takeIn_tripRow, hready.noTrip hclose]
  direct := by rw [takeIn_isDirect, App.brkRow, takeIn_get]; exact hready.direct

/-- The firing point of an operation with the learned time and the reference of its bay, and the fine wait (R263). -/
def App.brkFiring (a : App) (b : Nat) (open_ : Bool) (target : Nat) : Nat × Nat :=
  a.firingPoint b target (a.get (Reg.TRP_BKTOP_t_op b open_.toNat)) (a.refAngle b (a.get (Reg.TRP_BKCFG_ref_ch b)))

@[simp] theorem takeIn_brkFiring (a : App) (h : CmdHdr) (op : HostOp) (l : List Nat) (b : Nat) (open_ : Bool) (target : Nat) :
    (a.takeIn h op l).brkFiring b open_ target = a.brkFiring b open_ target := by
  simp only [App.brkFiring, takeIn_firingPoint, takeIn_get, takeIn_refAngle]

/-- A point-on-wave operation waits for the unit `u`, which is set to the firing point `f`. -/
def App.brkSchedule (a : App) (h : CmdHdr) (b : Nat) (open_ : Bool) (target u : Nat) (f : Nat × Nat) : App :=
  (a.brkStart b { cmd := some h, open_ := open_, pow := true, target := target, phase := .sched u, fine := f.2 }).takeUnit b u f.1 0 2
    open_.toNat false

/-- No trip row stands against an operation that a ready controller takes. -/
theorem App.BrkReady.unopposed {a : App} {b : Nat} {open_ : Bool} (hready : a.BrkReady b open_) :
    (if open_ then none else a.tripRow b) = none := by
  cases open_ with
  | false => exact hready.noTrip rfl
  | true => rfl

theorem App.BrkReady.directRow {a : App} {b : Nat} {open_ : Bool} (hready : a.BrkReady b open_) :
    a.isDirect (if open_ then a.get (Reg.TRP_BKCFG_open_row b) else a.get (Reg.TRP_BKCFG_close_row b)) (0x880 + 4 * b + open_.toNat) = true := by
  rw [← apply_ite a.get]
  exact hready.direct

/-- A ready controller starts an immediate operation, due at the next matrix scan. -/
theorem brkAccept_immediate {a : App} {b : Nat} {open_ : Bool} (hready : a.BrkReady b open_) (h : CmdHdr) (target : Nat) :
    a.brkAccept (some h) b open_ false target =
      (a.brkStart b { cmd := some h, open_ := open_, pow := false, target := target, phase := .due }, none) := by
  unfold App.brkAccept
  simp only [hready.enabled, hready.free, hready.unopposed, hready.directRow]
  rfl

/-- A ready controller schedules a point-on-wave operation on a locked clock with a free compare unit. -/
theorem brkAccept_pow {a : App} {b u : Nat} {open_ : Bool} (hready : a.BrkReady b open_) (hlock : lockedAq (a.aq b) = true)
    (hunit : a.freeUnit b = some u) (h : CmdHdr) (target : Nat) :
    a.brkAccept (some h) b open_ true target = (a.brkSchedule h b open_ target u (a.brkFiring b open_ target), none) := by
  unfold App.brkAccept
  simp only [hready.enabled, hready.free, hready.unopposed, hready.directRow, hlock, hunit]
  rfl

/-! ### The two commands -/

/-- An admitted command that its controller accepts is final later: for now it leaves what the controller makes of it. -/
theorem exec_brkAccepted {i : Instr} {s : State} {h : CmdHdr} {op : HostOp} {open_ : Bool} {bay mode : Byte} {target : W16} {b : App}
    (hexec : exec i s = s.onApp fun a => a.process h op (firstFail [(0, bay.toNat ≤ 3), (1, mode.toNat ≤ 1)]) [bay.toNat]
      (opBreaker h open_ bay mode target))
    (hadm : Admitted s.app h op [bay.toNat]) (hbay : bay.toNat ≤ 3) (hmode : mode.toNat ≤ 1)
    (haccept : (s.app.takeIn h op [bay.toNat]).brkAccept (some h) bay.toNat open_ (mode == 1#8) target.toNat = (b, none)) :
    exec i s = .next (s.withApp b) := by
  refine exec_begun hexec hadm (by simp [hbay, hmode]) ?_
  unfold opBreaker
  rw [haccept]

/-- An immediate command to a ready controller starts its operation. -/
theorem exec_brkImmediate {i : Instr} {s : State} {h : CmdHdr} {op : HostOp} {open_ : Bool} {bay : Byte} {target : W16}
    (hexec : exec i s = s.onApp fun a => a.process h op (firstFail [(0, bay.toNat ≤ 3), (1, (0 : Byte).toNat ≤ 1)]) [bay.toNat]
      (opBreaker h open_ bay 0 target))
    (hbay : bay.toNat ≤ 3) (hadm : Admitted s.app h op [bay.toNat]) (hready : s.app.BrkReady bay.toNat open_) :
    exec i s = .next (s.withApp ((s.app.takeIn h op [bay.toNat]).brkStart bay.toNat
      { cmd := some h, open_ := open_, pow := false, target := target.toNat, phase := .due })) :=
  exec_brkAccepted hexec hadm hbay (by decide) (brkAccept_immediate (takeIn_brkReady hready h op _) h target.toNat)

/-- A point-on-wave command to a ready controller of a locked bay schedules its operation on the free unit. -/
theorem exec_brkPow {i : Instr} {s : State} {h : CmdHdr} {op : HostOp} {open_ : Bool} {bay : Byte} {target : W16} {u : Nat}
    (hexec : exec i s = s.onApp fun a => a.process h op (firstFail [(0, bay.toNat ≤ 3), (1, (1 : Byte).toNat ≤ 1)]) [bay.toNat]
      (opBreaker h open_ bay 1 target))
    (hbay : bay.toNat ≤ 3) (hadm : Admitted s.app h op [bay.toNat]) (hready : s.app.BrkReady bay.toNat open_)
    (hlock : lockedAq (s.app.aq bay.toNat) = true) (hunit : s.app.freeUnit bay.toNat = some u) :
    exec i s = .next (s.withApp ((s.app.takeIn h op [bay.toNat]).brkSchedule h bay.toNat open_ target.toNat u
      (s.app.brkFiring bay.toNat open_ target.toNat))) := by
  have haccept := brkAccept_pow (takeIn_brkReady hready h op [bay.toNat]) (by rwa [takeIn_aq]) (by rwa [takeIn_freeUnit]) h target.toNat
  rw [takeIn_brkFiring] at haccept
  exact exec_brkAccepted hexec hadm hbay (by decide) haccept

/-- Settles O5: immediate and point-on-wave, each for both commands. -/
theorem breakerCommandsAct : Obligations.BreakerCommandsAct := by
  unfold Obligations.BreakerCommandsAct
  intro start ready pow
  have ofReady {a : App} {b : Nat} {open_ : Bool} : ready a b open_ → a.BrkReady b open_ := fun ⟨henabled, hfree, hnoTrip, hdirect⟩ =>
    ⟨henabled, hfree, hnoTrip, hdirect⟩
  exact ⟨fun s h bay target hbay hadm hready =>
      exec_brkImmediate (show execBreakerClose h bay 0 target s = _ from rfl) hbay hadm (ofReady hready),
    fun s h bay target hbay hadm hready =>
      exec_brkImmediate (show execBreakerOpen h bay 0 target s = _ from rfl) hbay hadm (ofReady hready),
    fun s h bay target u hbay hadm hready hlock hunit =>
      exec_brkPow (show execBreakerClose h bay 1 target s = _ from rfl) hbay hadm (ofReady hready) hlock hunit,
    fun s h bay target u hbay hadm hready hlock hunit =>
      exec_brkPow (show execBreakerOpen h bay 1 target s = _ from rfl) hbay hadm (ofReady hready) hlock hunit⟩

end Sys2Proof.Machine
end

section
/-! SUPPORT. The commands of the trip, capture, fault-location and mailbox units (O6): each row by what its effect does to the state
that has taken the command in. -/

namespace Sys2Proof.Machine

open Host

/-! ### ARM_CAPTURE and FIRE_CAPTURE (R290, R291) -/

theorem opArmCapture_eq (slot arm : Byte) (a : App) :
    opArmCapture slot arm a = ((a.setArmed slot.toNat (arm == 1#8) a.now).groupSend slot.toNat (if arm = 1#8 then 1 else 2) 0 a.now a.tqc,
      .final Status.ok []) := by
  simp only [opArmCapture, App.armSlot, beq_iff_eq]

/-- FIRE_CAPTURE of a slot inserts its mark and fires the slot. -/
theorem fireSlot_of_slot {slot : Nat} (hslot : slot ≤ 3) (a : App) :
    a.fireSlot slot = (let b := a.insertMark (a.ownMark 4 0 a.now a.tqc a.tsc 0 0); b.fireSend slot 0xFF b.now b.tqc b.tsc) :=
  if_pos (Nat.lt_succ_of_le hslot)

/-! ### CUT_TW_RECORD (R301, R302) -/

@[simp] theorem takeIn_twRoom (a : App) (h : CmdHdr) (op : HostOp) (l : List Nat) : (a.takeIn h op l).twRoom = a.twRoom := by
  simp only [App.twRoom, takeIn_tw]

/-- With room a record is asked for under the next number, and the command is final when it is cut. -/
theorem opCutTwRecord_room {a : App} (hroom : a.twRoom = true) (hseq : a.tw.seq ≠ 0xFFFFFFFF#32) (h : CmdHdr) (bay : Byte) (t : W64) :
    opCutTwRecord h bay t a = (a.onTw fun w =>
      { w with seq := w.seq + 1
               cuts := w.cuts ++ [{ bay := bay.toNat, seq := w.seq.toNat, np := none, edge := t.toNat, det := none, cmd := some h }] },
      .later) := by
  have hnumber : a.tw.seq.toNat ≠ 0xFFFFFFFF := fun hlast => hseq (BitVec.eq_of_toNat_eq hlast)
  unfold opCutTwRecord App.twAsk
  rw [if_pos hroom]
  split
  next hlast => exact absurd (congrArg Prod.snd hlast) hnumber
  next hask => exact congrArg (fun x : App × Nat => (x.1, Reply.later)) hask.symm

/-- Without room no record is cut, and one more is counted lost. -/
theorem opCutTwRecord_full {a : App} (hfull : a.twRoom = false) (h : CmdHdr) (bay : Byte) (t : W64) :
    opCutTwRecord h bay t a = (a.satAdd Reg.CAP_TWCTL_rec_lost 1, .final Status.ok (le 4 0xFFFFFFFF)) := by
  unfold opCutTwRecord App.twAsk
  rw [hfull]
  rfl

/-- Settles O6: each row is `exec_ended`, or `exec_concluded` where the command is final later, with its effect. -/
theorem captureCommandsAct : Obligations.CaptureCommandsAct := by
  unfold Obligations.CaptureCommandsAct
  refine ⟨fun s h ch hch hadm => ?clearFault, fun s h slot arm hslot harm hadm => ?arm, fun s h slot hslot hadm => ?fireSlot,
    fun s h hadm => ?fireNone, fun s h bay t hbay hadm hpast hahead hroom hseq => ?cut, fun s h bay t hbay hadm hpast hahead hfull => ?lost,
    fun s h out req count first haddr hlow hhigh hone hcount hadm => ?request⟩
  case clearFault => exact exec_ended (show execClearTripFault h ch s = _ from rfl) hadm (by simp [hch]) rfl
  case arm => exact exec_ended (show execArmCapture h slot arm s = _ from rfl) hadm (by simp [hslot, harm]) (opArmCapture_eq slot arm _)
  case fireSlot =>
    exact exec_ended (show execFireCapture h slot s = _ from rfl) hadm (by simp [hslot])
      (congrArg (·, Reply.final Status.ok []) (fireSlot_of_slot hslot _))
  case fireNone => exact exec_ended (show execFireCapture h 255 s = _ from rfl) hadm rfl rfl
  case cut =>
    exact exec_begun (show execCutTwRecord h bay t s = _ from rfl) hadm (by simp [hbay, hpast, hahead])
      (opCutTwRecord_room (by rwa [takeIn_twRoom]) (by rwa [takeIn_tw]) h bay t)
  case lost =>
    exact exec_ended (show execCutTwRecord h bay t s = _ from rfl) hadm (by simp [hbay, hpast, hahead])
      (opCutTwRecord_full (by rwa [takeIn_twRoom]) h bay t)
  case request =>
    refine exec_begun (show execCisternRequest h out req count first s = _ from rfl) hadm (by simp [haddr, hlow, hhigh, hone, hcount]) ?_
    simp only [opCisternRequest, takeIn_mbox, send_tick, takeIn_tick]
    rfl

end Sys2Proof.Machine
end

section
/-! SUPPORT. The events of the capture module and of command ownership (O27): each row by the branch that its condition chooses. -/

namespace Sys2Proof.Machine

open Host

/-! ### The release of a frame (R276 to R278) -/

/-- The state after the blocks in progress of the subscriptions disabled meanwhile have been written. -/
def App.closeSubs (a : App) (ds : Nat → List StreamDesc) : App := (upto 8).foldl (fun a i => a.subClose i (ds i)) a

/-- The last part of `App.frameOut`: the frame is noted as the last one released, and every enabled subscription takes it. -/
def App.frameTo (a : App) (r : PoolRow) (f : CapFrame) (ds : Nat → List StreamDesc) : App :=
  (upto 8).foldl (fun a i => if (vat a.cap.subs i).on then (a.subFirst i f).subFrame i f (ds i) else a)
    ((a.access .capture .dram 384).onCap fun c => { c with last := some r.per, tsc := r.tsc, gen := r.gen })

/-- The early ends and marks of `App.frameOut`, where a frame may follow a DEC_ change, a step or a gap. -/
def App.frameEnds (a : App) (dec stepped gap : Bool) (f : CapFrame) (ds : Nat → List StreamDesc) : App :=
  let b := if dec || stepped || gap then a.breakBlocks ds else a
  let c := if dec then b.markAll 6 f else b
  if stepped then c.markAll 8 f else c

theorem frameEnds_none (a : App) (f : CapFrame) (ds : Nat → List StreamDesc) : a.frameEnds false false false f ds = a := rfl

theorem frameEnds_gap (a : App) (f : CapFrame) (ds : Nat → List StreamDesc) : a.frameEnds false false true f ds = a.breakBlocks ds := rfl

theorem frameEnds_dec (a : App) (gap : Bool) (f : CapFrame) (ds : Nat → List StreamDesc) :
    a.frameEnds true false gap f ds = (a.breakBlocks ds).markAll 6 f := rfl

theorem frameEnds_step (a : App) (gap : Bool) (f : CapFrame) (ds : Nat → List StreamDesc) :
    a.frameEnds false true gap f ds = (a.breakBlocks ds).markAll 8 f := rfl

theorem frameEnds_dec_step (a : App) (gap : Bool) (f : CapFrame) (ds : Nat → List StreamDesc) :
    a.frameEnds true true gap f ds = ((a.breakBlocks ds).markAll 6 f).markAll 8 f := rfl

theorem frameOut_first {a : App} (hfirst : a.cap.last = none) (r : PoolRow) (ds : Nat → List StreamDesc) :
    a.frameOut r ds = a.frameTo r (a.frameFrom r) ds := by
  simp only [App.frameOut, hfirst]
  rfl

theorem frameOut_after {a : App} {l : Nat} (hlast : a.cap.last = some l) (r : PoolRow) (ds : Nat → List StreamDesc) :
    a.frameOut r ds = (a.frameEnds (a.cap.gen != r.gen) (a.cap.tsc != r.tsc) (l + r.navg != r.per) (a.frameFrom r) ds).frameTo r
      (a.frameFrom r) ds := by
  simp only [App.frameOut, hlast]
  rfl

section Release

variable {s : State} {descs : Vector (List StreamDesc) 8} {b : App} (hlive : s.app.life.boot ≠ .held)
  (hclosed : s.app.closeSubs (vat descs ·) = b)

include hlive hclosed

/-- FRAME_RELEASE without a frame left to release. -/
theorem exec_frameRelease_none (hnone : b.nextFrame = none) (number : W64) : exec (.frameRelease number descs) s = .next (s.withApp b) := by
  subst hclosed
  refine exec_onApp_acts hlive (show execFrameRelease number descs s = _ from rfl) ?_
  simp only [App.closeSubs] at hnone ⊢
  simp only [hnone]

variable {r : PoolRow} (hnext : b.nextFrame = some r)

include hnext

/-- FRAME_RELEASE with a frame left: it is released under its own number, once it is due. -/
theorem exec_frameRelease_some (number : W64) :
    exec (.frameRelease number descs) s = .next (s.withApp
      (if r.no = number.toNat ∧ b.frameDue r then b.frameOut r (vat descs ·) else b)) := by
  subst hclosed
  refine exec_onApp_acts hlive (show execFrameRelease number descs s = _ from rfl) ?_
  simp only [App.closeSubs] at hnext ⊢
  simp only [hnext]
  rfl

variable {number : W64} (hno : r.no = number.toNat) (hdue : b.frameDue r = true)

include hno hdue

/-- FRAME_RELEASE of a frame that is due, where none has been released before it. -/
theorem exec_frameRelease_first (hfirst : b.cap.last = none) :
    exec (.frameRelease number descs) s = .next (s.withApp (b.frameTo r (b.frameFrom r) (vat descs ·))) := by
  rw [exec_frameRelease_some hlive hclosed hnext, if_pos ⟨hno, hdue⟩, frameOut_first hfirst]

/-- FRAME_RELEASE of a frame that is due, behind an earlier one. -/
theorem exec_frameRelease_after {l : Nat} (hlast : b.cap.last = some l) :
    exec (.frameRelease number descs) s = .next (s.withApp
      ((b.frameEnds (b.cap.gen != r.gen) (b.cap.tsc != r.tsc) (l + r.navg != r.per) (b.frameFrom r) (vat descs ·)).frameTo r
        (b.frameFrom r) (vat descs ·))) := by
  rw [exec_frameRelease_some hlive hclosed hnext, if_pos ⟨hno, hdue⟩, frameOut_after hlast]

end Release

/-! ### Trigger units (R281, R283) -/

/-- TRIGGER_FIRE of a unit with a completed condition: an ungated unit fires, a gated one in its capture window alone. -/
theorem exec_triggerFire {s : State} (hlive : s.app.life.boot ≠ .held) {u : Fin 32} {d : TrigDone} {rest : List TrigDone}
    (hdone : (vat s.app.sig.trig u).done = d :: rest) :
    let b := s.app.onSig fun s => { s with trig := vup s.trig u (fun x => { x with done := rest }) }
    exec (.triggerFire u) s = .next (s.withApp
      (if s.app.on (Reg.CAP_TRG_CFG_gate u) then (s.app.inWindow u d.t).elim b (b.trigFire u d) else b.trigFire u d 0)) := by
  refine exec_onApp_acts hlive (show execTriggerFire u s = _ from rfl) ?_
  simp only [hdone]
  refine if_congr Iff.rfl ?_ rfl
  change (match s.app.inWindow u d.t with | some q => _ | none => _) = _
  cases s.app.inWindow u d.t <;> rfl

/-! ### Group messages (R289 to R291) -/

/-- Whether a message from a node with a sequence number comes after those heard from it (R289). -/
def heardLater (l : List (Nat × W32)) (node : Nat) (seq : W32) : Bool :=
  match l.find? (fun e => e.1 == node) with
  | some e => laterSeq seq e.2
  | none => true

theorem heardLater_iff {l : List (Nat × W32)} {node : Nat} {seq : W32} :
    heardLater l node seq = true ↔ ∀ e, l.find? (fun e => e.1 == node) = some e → laterSeq seq e.2 = true := by
  unfold heardLater
  cases l.find? (fun e => e.1 == node) <;> simp

/-- The condition under which a slot accepts a group message (R289). -/
def App.groupValid (a : App) (d : List Byte) (g : Nat) : Bool :=
  d.length == 32 && numAt d 28 4 == crc32c (d.take 28) && numAt d 1 1 == 1 && numAt d 4 2 != a.node &&
    heardLater (vat a.cap.grp g).heard (numAt d 4 2) (BitVec.ofNat 32 (numAt d 8 4)) && inR 1 3 (numAt d 0 1)

theorem groupValid_iff {a : App} {d : List Byte} {g : Nat} :
    a.groupValid d g = true ↔
      d.length = 32 ∧ numAt d 28 4 = crc32c (d.take 28) ∧ numAt d 1 1 = 1 ∧ numAt d 4 2 ≠ a.node ∧
        (∀ e, (vat a.cap.grp g).heard.find? (fun e => e.1 == numAt d 4 2) = some e → laterSeq (BitVec.ofNat 32 (numAt d 8 4)) e.2 = true) ∧
        1 ≤ numAt d 0 1 ∧ numAt d 0 1 ≤ 3 := by
  simp [App.groupValid, heardLater_iff, inR, and_assoc]

/-- The slot after it has noted the sequence number of an accepted message. -/
def App.groupHeard (a : App) (d : List Byte) (g : Nat) : App :=
  let b := a.onGrp g fun x => { x with heard := heardPut x.heard (numAt d 4 2) (BitVec.ofNat 32 (numAt d 8 4)) }
  if 255 < (vat b.cap.grp g).heard.length then b.setB (Reg.CAP_GRPSTAT_grp_oversize g) true else b

/-- A change to a slot that leaves the instant of its state in the slot leaves it in the module. -/
theorem onGrp_stateAt (a : App) (g : Nat) {f : GrpSt → GrpSt} (hf : ∀ x, (f x).stateAt = x.stateAt) :
    (vat (a.onGrp g f).cap.grp g).stateAt = (vat a.cap.grp g).stateAt := by
  change (vat (vup a.cap.grp g f) g).stateAt = _
  by_cases hg : g < 4
  · rw [vat_vup_same _ _ hg, hf]
  · simp [vat, hg]

/-- Noting a sequence number leaves the instant at which the state of the slot was set. -/
theorem groupHeard_stateAt (a : App) (d : List Byte) (g : Nat) :
    (vat (a.groupHeard d g).cap.grp g).stateAt = (vat a.cap.grp g).stateAt := by
  unfold App.groupHeard
  dsimp only
  split
  next => exact onGrp_stateAt a g fun _ => rfl
  next => exact onGrp_stateAt a g fun _ => rfl

theorem groupHeard_tsc (a : App) (d : List Byte) (g : Nat) : (a.groupHeard d g).tsc = a.tsc := by
  unfold App.groupHeard
  dsimp only
  split <;> rfl

/-- Whether an arm (1) or disarm (2) at an instant sets the state of a slot last set at `last` (R290). -/
def armTakes (last : Option Nat) (instant msg : Nat) : Bool :=
  match last with
  | none => true
  | some t => decide (t < instant) || (t == instant && msg == 2)

theorem armTakes_iff {last : Option Nat} {instant msg : Nat} :
    armTakes last instant msg = true ↔ ∀ t, last = some t → t < instant ∨ (t = instant ∧ msg = 2) := by
  cases last <;> simp [armTakes]

/-- GROUP_MESSAGE_RX without a slot in use for the message. -/
theorem exec_groupMessageRx_none {s : State} {d : List Byte} (h : s.app.node = 0 ∨ s.app.groupSlot (numAt d 2 2) = none) :
    exec (.groupMessageRx d) s = .next s := by
  have hslot : (if s.app.node = 0 then none else s.app.groupSlot (numAt d 2 2)) = none := by
    simpa [or_iff_not_imp_left] using h
  refine exec_onApp_rests (show execGroupMessageRx d s = _ from rfl) ?_
  simp only [hslot]

/-- GROUP_MESSAGE_RX for a slot in use: what is not valid is counted, a fire fires the slot, and the others set its state or not. -/
theorem exec_groupMessageRx_some {s : State} (hlive : s.app.life.boot ≠ .held) {d : List Byte} {g : Nat} (hnode : s.app.node ≠ 0)
    (hslot : s.app.groupSlot (numAt d 2 2) = some g) :
    exec (.groupMessageRx d) s = .next (s.withApp
      (if s.app.groupValid d g then
        if numAt d 0 1 = 3 then
          ((s.app.groupHeard d g).satAdd (Reg.CAP_GRPSTAT_fires_rx g) 1).fireMark g (numAt d 12 8) (numAt d 7 1 % 16) s.app.tsc (numAt d 4 2)
            (numAt d 2 2) (BitVec.ofNat 32 (numAt d 8 4)).toNat
        else if armTakes (vat s.app.cap.grp g).stateAt (numAt d 12 8) (numAt d 0 1) then
          (s.app.groupHeard d g).setArmed g (numAt d 0 1 == 1) (numAt d 12 8)
        else s.app.groupHeard d g
       else s.app.satAdd (Reg.CAP_GRPSTAT_discarded g) 1)) := by
  have hin : (if s.app.node = 0 then none else s.app.groupSlot (numAt d 2 2)) = some g := (if_neg hnode).trans hslot
  refine exec_onApp_acts hlive (show execGroupMessageRx d s = _ from rfl) ?_
  rw [← groupHeard_stateAt s.app d g, ← groupHeard_tsc s.app d g]
  simp only [hin]
  rfl

/-! ### Repeats (R289, R305) -/

/-- The first message of a kind whose repeat is due is sent again, where publishing is permitted, and its second repeat ends it. -/
theorem repeatDue_some {a : App} {kind i : Nat} {r : Repeat}
    (hdue : a.cap.repeats.findIdx? (fun r => r.kind == kind && a.since r.at_ (if r.done = 1 then tMs else 3 * tMs)) = some i)
    (hget : a.cap.repeats[i]? = some r) :
    let b := a.onCap fun c => { c with repeats := if r.done = 1 then c.repeats.set i { r with done := 2 } else c.repeats.eraseIdx i }
    a.repeatDue kind = if b.pubPermit = true then b.volith r.kind r.port r.data else b := by
  have hr : a.cap.repeats.getD i default = r := by rw [List.getD_eq_getElem?_getD, hget, Option.getD_some]
  simp only [App.repeatDue, hdue, hr]
  rfl

/-! ### The rows -/

/-- Settles O27: each row by the branch that its condition chooses. -/
theorem captureEventsAct : Obligations.CaptureEventsAct := by
  unfold Obligations.CaptureEventsAct
  intro s hlive a
  refine ⟨fun number descs => ?release, fun u hdone => ?nothingDone,
    fun u d rest hdone => ⟨fun hgate => ?ungated, fun hgate hout => ?outside, fun q hgate hin => ?inside⟩,
    fun d hnone => ?noSlot, fun d g hnode hslot => ⟨fun hbad => ?discarded, fun hvalid hfire => ?fire, fun hvalid hmsg hnew => ?sets,
      fun t hvalid hmsg hset hold => ?keeps⟩,
    fun i r hdue hget => ?again, fun o w hown hended => ?expired⟩
  case release =>
    intro ds b
    have hclosed : s.app.closeSubs (vat descs ·) = b := rfl
    clear_value b
    refine ⟨fun hnone => ?noFrame, fun r hnext hearly => ?notDue, fun r hnext hno hdue => ⟨fun hfirst => ?firstFrame,
      fun l hlast hgen htsc hfollows => ?follows, fun l hlast hgen htsc hgap => ?gap, fun l hlast hgen htsc => ?decChange,
      fun l hlast hgen htsc => ?step, fun l hlast hgen htsc => ?both⟩⟩
    case noFrame => exact exec_frameRelease_none hlive hclosed hnone number
    case notDue =>
      have hstays : ¬(r.no = number.toNat ∧ b.frameDue r = true) := fun ⟨hno, hdue⟩ =>
        hearly.elim (· hno) fun hwaits => Bool.eq_false_iff.mp hwaits hdue
      rw [exec_frameRelease_some hlive hclosed hnext, if_neg hstays]
    case firstFrame => exact exec_frameRelease_first hlive hclosed hnext hno hdue hfirst
    case follows =>
      rw [exec_frameRelease_after hlive hclosed hnext hno hdue hlast, bne_eq_false_iff_eq.mpr hgen, bne_eq_false_iff_eq.mpr htsc,
        bne_eq_false_iff_eq.mpr hfollows, frameEnds_none]
      rfl
    case gap =>
      rw [exec_frameRelease_after hlive hclosed hnext hno hdue hlast, bne_eq_false_iff_eq.mpr hgen, bne_eq_false_iff_eq.mpr htsc,
        bne_iff_ne.mpr hgap, frameEnds_gap]
      rfl
    case decChange =>
      rw [exec_frameRelease_after hlive hclosed hnext hno hdue hlast, bne_iff_ne.mpr hgen, bne_eq_false_iff_eq.mpr htsc,
        frameEnds_dec]
      rfl
    case step =>
      rw [exec_frameRelease_after hlive hclosed hnext hno hdue hlast, bne_eq_false_iff_eq.mpr hgen, bne_iff_ne.mpr htsc,
        frameEnds_step]
      rfl
    case both =>
      rw [exec_frameRelease_after hlive hclosed hnext hno hdue hlast, bne_iff_ne.mpr hgen, bne_iff_ne.mpr htsc,
        frameEnds_dec_step]
      rfl
  case nothingDone =>
    refine exec_onApp_rests (show execTriggerFire u s = _ from rfl) ?_
    simp only [show (vat s.app.sig.trig u).done = _ from hdone]
  case ungated => exact (exec_triggerFire hlive hdone).trans (by rw [if_neg (Bool.eq_false_iff.mp hgate)])
  case outside => exact (exec_triggerFire hlive hdone).trans (by rw [if_pos hgate, show s.app.inWindow u d.t = _ from hout, Option.elim_none])
  case inside => exact (exec_triggerFire hlive hdone).trans (by rw [if_pos hgate, show s.app.inWindow u d.t = _ from hin, Option.elim_some])
  case noSlot => exact exec_groupMessageRx_none hnone
  case discarded => exact (exec_groupMessageRx_some hlive hnode hslot).trans (by rw [if_neg fun h => hbad (groupValid_iff.mp h)])
  case fire =>
    exact (exec_groupMessageRx_some hlive hnode hslot).trans (by rw [if_pos (groupValid_iff.mpr hvalid), if_pos hfire]; rfl)
  case sets =>
    exact (exec_groupMessageRx_some hlive hnode hslot).trans
      (by rw [if_pos (groupValid_iff.mpr hvalid), if_neg hmsg, if_pos (armTakes_iff.mpr hnew)]; rfl)
  case keeps =>
    have hstays : ¬ armTakes (vat s.app.cap.grp g).stateAt (numAt d 12 8) (numAt d 0 1) = true := fun h => by
      have := armTakes_iff.mp h t hset
      omega
    exact (exec_groupMessageRx_some hlive hnode hslot).trans
      (by rw [if_pos (groupValid_iff.mpr hvalid), if_neg hmsg, if_neg hstays]; rfl)
  case again =>
    refine exec_onApp_acts hlive (show execGroupMessageRepeat s = _ from rfl) ?_
    exact repeatDue_some hdue hget
  case expired =>
    refine exec_onApp_acts hlive (show execOwnershipExpiry o s = _ from rfl) ?_
    simp only [show vat s.app.cmd.owners o = _ from hown, show s.app.ownerOf o = _ from hended]
    rfl

end Sys2Proof.Machine
end

section
/-! SUPPORT. The events of travelling-wave fault location (O28): each row by the branch that its condition chooses. -/

namespace Sys2Proof.Machine

open Host

/-! ### Detections (R298, R299) -/

theorem satAdd_get_same (a : App) (f : Fld) (n : Nat) : (a.satAdd f n).get f = min (2 ^ f.w - 1) (a.get f + n) :=
  (get_set_same a f _).trans <| Nat.mod_eq_of_lt <|
    (Nat.min_le_left _ _).trans_lt (Nat.sub_lt (Nat.two_pow_pos _) Nat.one_pos)

/-- Asking for a record changes the records asked for and their numbers, or counts one lost. -/
theorem twAsk_frame (a : App) (c : TwCut) :
    (a.twAsk c).1.sig = a.sig ∧ (a.twAsk c).1.tw.bays = a.tw.bays ∧
      ∀ f : Fld, Reg.CAP_TWCTL_rec_lost.bit ≠ f.bit → (a.twAsk c).1.get f = a.get f := by
  unfold App.twAsk
  split
  next => exact ⟨rfl, rfl, fun f _ => rfl⟩
  next => exact ⟨rfl, rfl, fun f hf => satAdd_get_other a 1 hf⟩

/-- A detection is counted, asks for a record and waits for its qualification; a free value is drawn for a flat front alone
(log entry 58). -/
theorem twDetect_eq (a : App) (b np : Nat) (f : JetFrame) :
    ∃ (k : Nat) (c : TwCut) (d : TwDet),
      a.twDetect b np f =
        (((({ a with freeCtr := k } : App).access .wavefront .dram (64 * 80)).satAdd (Reg.CAP_TWSTAT_detections b) 1).twAsk c).1.onTwBay b
          fun t => { t with dets := t.dets ++ [d] } := by
  simp only [App.twDetect]
  split
  next => exact ⟨a.freeCtr, _, _, rfl⟩
  next => exact ⟨a.freeCtr + 1, _, _, rfl⟩

theorem twDetect_sig (a : App) (b np : Nat) (f : JetFrame) : (a.twDetect b np f).sig = a.sig := by
  obtain ⟨k, c, d, hdetect⟩ := twDetect_eq a b np f
  rw [hdetect]
  exact (twAsk_frame _ c).1

theorem rec_lost_ne_detections (b : Nat) : Reg.CAP_TWCTL_rec_lost.bit ≠ (Reg.CAP_TWSTAT_detections b).bit := by
  simp only [Reg.CAP_TWCTL_rec_lost, Reg.CAP_TWSTAT_detections]
  omega

theorem twDetect_get_detections (a : App) (b np : Nat) (f : JetFrame) :
    (a.twDetect b np f).get (Reg.CAP_TWSTAT_detections b) =
      min (2 ^ (Reg.CAP_TWSTAT_detections b).w - 1) (a.get (Reg.CAP_TWSTAT_detections b) + 1) := by
  obtain ⟨k, c, d, hdetect⟩ := twDetect_eq a b np f
  obtain ⟨-, -, hget⟩ := twAsk_frame
    ((({ a with freeCtr := k } : App).access .wavefront .dram (64 * 80)).satAdd (Reg.CAP_TWSTAT_detections b) 1) c
  rw [hdetect]
  exact (hget _ (rec_lost_ne_detections b)).trans (satAdd_get_same _ _ 1)

theorem twDetect_dets_length (a : App) {b : Nat} (hb : b < 4) (np : Nat) (f : JetFrame) :
    (vat (a.twDetect b np f).tw.bays b).dets.length = (vat a.tw.bays b).dets.length + 1 := by
  obtain ⟨k, c, d, hdetect⟩ := twDetect_eq a b np f
  obtain ⟨-, hbays, -⟩ := twAsk_frame
    ((({ a with freeCtr := k } : App).access .wavefront .dram (64 * 80)).satAdd (Reg.CAP_TWSTAT_detections b) 1) c
  rw [hdetect]
  simp only [App.onTwBay, onTw_tw, hbays, vat_vup_same _ _ hb, List.length_append, List.length_singleton]
  rfl

theorem frameAt_onSig_tw (a : App) (g : SigSt → Vector TwTrack 4) (n : Nat) :
    (a.onSig fun z => { z with tw := g z }).frameAt n = a.frameAt n := rfl

/-- WAVEFRONT_PICKUP of the earliest pickup, once the frames for its peak are in the ring. -/
theorem exec_wavefrontPickup {s : State} (hlive : s.app.life.boot ≠ .held) {b : Fin 4} {np : Nat} {rest : List Nat} {f : JetFrame}
    (hpicks : (vat s.app.sig.tw b).picks = np :: rest) (hpeak : np + 8 ≤ s.app.sig.jetCount) (hframe : s.app.frameAt np = some f) :
    exec (.wavefrontPickup b) s = .next (s.withApp
      ((s.app.onSig fun z => { z with tw := vup z.tw b fun x => { x with picks := rest } }).twDetect b np f)) := by
  refine exec_onApp_acts hlive (show execWavefrontPickup b s = _ from rfl) ?_
  simp only [hpicks, if_pos hpeak]
  rw [frameAt_onSig_tw, hframe]

/-! ### Qualification (R300) -/

/-- The disturbance function has picked up at or after the arrival, before confirm has passed. -/
def App.twConfirmed (a : App) (b : Nat) (d : TwDet) : Bool :=
  match (vat a.slu.fast b).distAt with
  | some t => decide (d.arrival ≤ t) && decide (t < d.arrival + a.get (Reg.CAP_TWCFG_confirm b) * 1000000)
  | none => false

theorem twConfirmed_none {a : App} {b : Nat} (h : (vat a.slu.fast b).distAt = none) (d : TwDet) : a.twConfirmed b d = false := by
  rw [App.twConfirmed, h]

theorem twConfirmed_some {a : App} {b t : Nat} {d : TwDet} (h : (vat a.slu.fast b).distAt = some t) (hfrom : d.arrival ≤ t)
    (hto : t < d.arrival + a.get (Reg.CAP_TWCFG_confirm b) * 1000000) : a.twConfirmed b d = true := by
  rw [App.twConfirmed, h]
  simp only [hfrom, hto, decide_true, Bool.and_self]

/-- The detection falls to an operation of the bay's own breaker. -/
def App.twOwn (a : App) (b : Nat) (d : TwDet) : Bool :=
  (vat a.trp.execs b).any fun e =>
    decide (e ≤ d.arrival + 1000000) && decide (d.arrival < e + a.get (Reg.TRP_BKTIM_op_timeout b) * 1000000)

/-- A detection is decided: it leaves the bay, its record carries the outcome, and it is reported. -/
def App.twDecide (a : App) (b : Nat) (d : TwDet) (rest : List TwDet) (ok own : Bool) : App :=
  let noted := (a.onTwBay b fun t => { t with dets := rest }).onTw fun t =>
    { t with cuts := t.cuts.map fun (c : TwCut) => if c.seq == d.recSeq then { c with qualified := ok, own := own } else c }
  noted.postDetection b d ok own

/-- A qualified detection goes to the peer, and is paired with the peer's arrivals. -/
def App.twShare (a : App) (b : Nat) (d : TwDet) : App :=
  ((a.arrivalSend b d).onTwBay b fun t => { t with locals := t.locals ++ [⟨d.arrival, d.tq, d.recSeq⟩] }).pairAll b

/-- QUALIFICATION of the first detection of a bay, confirmed or with confirm past. -/
theorem exec_qualification {s : State} (hlive : s.app.life.boot ≠ .held) {b : Fin 4} {d : TwDet} {rest : List TwDet} {seen own ok : Bool}
    (hdets : (vat s.app.tw.bays b).dets = d :: rest) (hseen : s.app.twConfirmed b d = seen) (hown : s.app.twOwn b d = own)
    (hok : (seen && !own) = ok) (hdue : seen = true ∨ d.arrival + s.app.get (Reg.CAP_TWCFG_confirm b) * 1000000 ≤ s.app.now) :
    let a := s.app.twDecide b d rest ok own
    exec (.qualification b) s = .next (s.withApp (if (ok && a.on (Reg.CAP_TWCFG_peer_en b)) = true then a.twShare b d else a)) := by
  subst hseen hown hok
  refine exec_onApp_acts hlive (show execQualification b s = _ from rfl) ?_
  simp only [hdets]
  exact if_pos ((Bool.or_eq_true _ _).mpr (hdue.imp id decide_eq_true))

/-! ### Records (R301) -/

/-- TW_RECORD_CUT of the first record asked for of a bay, with its window complete: a command that asked for it is final. -/
theorem exec_twRecordCut {s : State} (hlive : s.app.life.boot ≠ .held) {b : Fin 4} {c : TwCut}
    (hfirst : s.app.tw.cuts.find? (fun c => c.bay == b.val) = some c) (hpast : c.edge ≤ s.app.now)
    (hwindow : c.np.getD (s.app.nearestCount b c.edge) + 3688 ≤ s.app.sig.jetCount) :
    let a := s.app.onTw fun t =>
      { t with cuts := t.cuts.erase c, recs := putTwRec t.recs (s.app.twRecord c (c.np.getD (s.app.nearestCount b c.edge))) }
    exec (.twRecordCut b) s = .next (s.withApp
      (c.cmd.elim a fun hd => a.conclude hd (.cutTwRecord 0 0) (.final Status.ok (le 4 c.seq)))) := by
  refine exec_onApp_acts hlive (show execTwRecordCut b s = _ from rfl) ?_
  simp only [hfirst]
  rw [if_pos ⟨hpast, hwindow⟩]
  cases c.cmd <;> rfl

/-! ### Arrivals of the peer (R306, R307) -/

/-- The bay that an arrival message is for. -/
def arrivalBay (d : List Byte) : Nat := numAt d 6 1 / 4 % 4

/-- The key under which a bay notes the sequence numbers of a sender. -/
def arrivalKey (d : List Byte) : Nat := 4 * numAt d 2 2 + numAt d 6 1 % 4

/-- The sequence number of an arrival message. -/
def arrivalSeq (d : List Byte) : W32 := BitVec.ofNat 32 (numAt d 8 4)

theorem heardLater_iff_none_or {l : List (Nat × W32)} {key : Nat} {seq : W32} :
    heardLater l key seq = true ↔
      l.find? (fun e => e.1 == key) = none ∨ ∃ e, l.find? (fun e => e.1 == key) = some e ∧ laterSeq seq e.2 = true := by
  unfold heardLater
  cases l.find? (fun e => e.1 == key) <;> simp

theorem heardLater_eq_false_iff {l : List (Nat × W32)} {key : Nat} {seq : W32} :
    heardLater l key seq = false ↔ ∃ e, l.find? (fun e => e.1 == key) = some e ∧ laterSeq seq e.2 = false := by
  unfold heardLater
  cases l.find? (fun e => e.1 == key) <;> simp

/-- The condition under which an arrival message is kept (R306). -/
def App.arrivalValid (a : App) (d : List Byte) : Bool :=
  d.length == 32 && numAt d 28 4 == crc32c (d.take 28) && numAt d 0 1 == 4 && numAt d 1 1 == 1 && a.node != 0 &&
    numAt d 4 2 == a.msgNode && numAt d 2 2 == a.get (Reg.CAP_TWPEER_peer_node (arrivalBay d)) &&
    numAt d 6 1 % 4 == a.get (Reg.CAP_TWPEER_peer_bay (arrivalBay d)) &&
    heardLater (vat a.tw.bays (arrivalBay d)).heard (arrivalKey d) (arrivalSeq d)

theorem arrivalValid_iff {a : App} {d : List Byte} :
    a.arrivalValid d = true ↔
      d.length = 32 ∧ numAt d 28 4 = crc32c (d.take 28) ∧ numAt d 0 1 = 4 ∧ numAt d 1 1 = 1 ∧ a.node ≠ 0 ∧ numAt d 4 2 = a.msgNode ∧
        numAt d 2 2 = a.get (Reg.CAP_TWPEER_peer_node (arrivalBay d)) ∧
        numAt d 6 1 % 4 = a.get (Reg.CAP_TWPEER_peer_bay (arrivalBay d)) ∧
        ((vat a.tw.bays (arrivalBay d)).heard.find? (fun e => e.1 == arrivalKey d) = none ∨
          ∃ e, (vat a.tw.bays (arrivalBay d)).heard.find? (fun e => e.1 == arrivalKey d) = some e ∧ laterSeq (arrivalSeq d) e.2 = true) := by
  simp only [App.arrivalValid, heardLater_iff_none_or, Bool.and_eq_true, beq_iff_eq, bne_iff_ne, and_assoc]

theorem arrivalValid_eq_false_iff {a : App} {d : List Byte} :
    a.arrivalValid d = false ↔
      d.length ≠ 32 ∨ numAt d 28 4 ≠ crc32c (d.take 28) ∨ numAt d 0 1 ≠ 4 ∨ numAt d 1 1 ≠ 1 ∨ a.node = 0 ∨ numAt d 4 2 ≠ a.msgNode ∨
        numAt d 2 2 ≠ a.get (Reg.CAP_TWPEER_peer_node (arrivalBay d)) ∨
        numAt d 6 1 % 4 ≠ a.get (Reg.CAP_TWPEER_peer_bay (arrivalBay d)) ∨
        ∃ e, (vat a.tw.bays (arrivalBay d)).heard.find? (fun e => e.1 == arrivalKey d) = some e ∧ laterSeq (arrivalSeq d) e.2 = false := by
  simp only [App.arrivalValid, heardLater_eq_false_iff, Bool.and_eq_false_iff, beq_eq_false_iff_ne, bne_eq_false_iff_eq, or_assoc]

/-- The arrival of the peer is kept beside those of the last 200 ms, and its sequence number noted. -/
def App.arrivalKept (a : App) (d : List Byte) : App :=
  a.onTwBay (arrivalBay d) fun t =>
    { t with heard := heardPut t.heard (arrivalKey d) (arrivalSeq d)
             remotes := t.remotes.filter (fun x => !a.since x.at_ (200 * tMs)) ++ [⟨numAt d 12 8, numAt d 7 1 % 16, a.tick⟩] }

/-- ARRIVAL_MESSAGE_RX: a valid arrival is kept and paired, and any other is counted. -/
theorem exec_arrivalMessageRx {s : State} (hlive : s.app.life.boot ≠ .held) (d : List Byte) :
    exec (.arrivalMessageRx d) s = .next (s.withApp
      (if s.app.arrivalValid d = true then (s.app.arrivalKept d).pairAll (arrivalBay d)
       else s.app.satAdd (Reg.CAP_TWSTAT_discarded (arrivalBay d)) 1)) :=
  exec_onApp_acts hlive (show execArrivalMessageRx d s = _ from rfl) rfl

/-! ### The rows -/

/-- Settles O28: each row by the branch that its condition chooses. -/
theorem travellingWaveEventsAct : Obligations.TravellingWaveEventsAct := by
  unfold Obligations.TravellingWaveEventsAct
  intro s hlive a
  refine ⟨fun b np rest f hpicks hpeak hframe => ?pickup,
    fun b d rest hdets => ⟨fun hnone hstop => ?unconfirmed, fun t hdist hfrom hto hown => ?ownOperation,
      fun t hdist hfrom hto hown => ?qualified⟩,
    fun b c hfirst hpast => ?cut,
    fun d => ⟨fun hbad => ?discarded, fun hlen hcrc hkind hver hnode hto hfrom hbay hnew => ?kept⟩,
    fun i r hdue hget => ?again, fun b l rest hlocals hwait => ?alone⟩
  case pickup =>
    refine ⟨_, exec_wavefrontPickup hlive hpicks hpeak hframe, ?_⟩
    dsimp only [State.withApp]
    refine ⟨?_, ?_, twDetect_dets_length _ b.isLt np f⟩
    · rw [twDetect_get_detections, get_of_regs (onSig_regs s.app _)]
    · rw [twDetect_sig, onSig_sig, vat_vup_same _ _ b.isLt]
  case unconfirmed =>
    refine (exec_qualification (ok := false) hlive hdets (twConfirmed_none hnone d) rfl rfl (.inr hstop)).trans ?_
    rw [Bool.false_and, if_neg Bool.false_ne_true]
    rfl
  case ownOperation =>
    refine (exec_qualification (ok := false) hlive hdets (twConfirmed_some hdist hfrom hto) hown rfl (.inl rfl)).trans ?_
    rw [Bool.false_and, if_neg Bool.false_ne_true]
    rfl
  case qualified =>
    refine (exec_qualification (ok := true) hlive hdets (twConfirmed_some hdist hfrom hto) hown rfl (.inl rfl)).trans ?_
    rw [Bool.true_and]
    rfl
  case cut =>
    intro np hwindow a1
    have hcut := exec_twRecordCut hlive hfirst hpast hwindow
    exact ⟨fun hcmd => hcut.trans (by rw [hcmd]; rfl), fun hd hcmd => hcut.trans (by rw [hcmd]; rfl)⟩
  case discarded =>
    have hinvalid : s.app.arrivalValid d = false := arrivalValid_eq_false_iff.mpr hbad
    refine (exec_arrivalMessageRx hlive d).trans ?_
    rw [if_neg (Bool.eq_false_iff.mp hinvalid)]
    rfl
  case kept =>
    have hvalid : s.app.arrivalValid d = true := arrivalValid_iff.mpr ⟨hlen, hcrc, hkind, hver, hnode, hto, hfrom, hbay, hnew⟩
    refine (exec_arrivalMessageRx hlive d).trans ?_
    rw [if_pos hvalid]
    rfl
  case again => exact exec_onApp_acts hlive (show execArrivalMessageRepeat s = _ from rfl) (repeatDue_some hdue hget)
  case alone =>
    refine exec_onApp_acts hlive (show execRemWaitExpiry b s = _ from rfl) ?_
    simp only [show (vat s.app.tw.bays b).locals = _ from hlocals]
    exact if_pos hwait

end Sys2Proof.Machine
end

section
/-! SUPPORT. The rows of the Cistern: each row's next state as an equation, under the condition that chooses it. -/

namespace Sys2Proof.Machine

open Host

/-! ### A row by the branch of its meaning -/

theorem exec_onCis_acts {i : Instr} {s : State} {f : Cistern → Cistern} {d : Cistern} (hexec : exec i s = s.onCis f) (h : f s.cis = d) :
    exec i s = .next (s.withCis d) := h ▸ hexec

theorem exec_onCis_rests {i : Instr} {s : State} {f : Cistern → Cistern} (hexec : exec i s = s.onCis f) (h : f s.cis = s.cis) :
    exec i s = .next s := exec_onCis_acts hexec h

/-- A row of the Cistern that acts under a condition alone. -/
theorem next_ite_withCis (s : State) (d : Cistern) (p : Prop) [Decidable p] :
    (.next (if p then s.withCis d else s) : Outcome State Fault Refusal) = .next (s.withCis (if p then d else s.cis)) := by
  split <;> rfl

/-! ### Programming commands (R327, R330) -/

/-- A refusal in a session, whose time of last command is renewed. -/
def Cistern.deny (c : Cistern) : Cistern := { c.refuse with session := some c.up }

theorem command_off {c : Cistern} (hoff : c.on = false) (b : Bool) (f : Cistern → Cistern) : c.command b f = c := by
  simp [Cistern.command, hoff]

theorem command_no_session {c : Cistern} (hon : c.on = true) (hsession : c.session = none) (b : Bool) (f : Cistern → Cistern) :
    c.command b f = c.refuse := by
  simp [Cistern.command, hon, hsession]

theorem command_in_session {c : Cistern} (hon : c.on = true) (hsession : c.session.isSome = true) (b : Bool) (f : Cistern → Cistern) :
    c.command b f = if b = true then (f c).accept else c.deny := by
  simp [Cistern.command, hon, Option.isSome_iff_ne_none.mp hsession, Cistern.deny]

/-- A command that the Open state alone permits, on the further condition `p`. -/
theorem command_open {c : Cistern} (hon : c.on = true) (hsession : c.session.isSome = true) (p : Bool) (f : Cistern → Cistern) :
    c.command (!c.sealed && p) f = if c.sealed = false ∧ p = true then (f c).accept else c.deny :=
  (command_in_session hon hsession _ f).trans (if_congr (by simp) rfl rfl)

theorem command_sealed {c : Cistern} (hon : c.on = true) (hsession : c.session.isSome = true) (f : Cistern → Cistern) :
    c.command (!c.sealed) f = if c.sealed = true then c.deny else (f c).accept := by
  rw [command_in_session hon hsession]
  cases c.sealed <;> rfl

/-- The rows that are programming commands. -/
def programmingRow (i : Instr) : Prop :=
  (∃ ch g p o, i = .calibration ch g p o) ∨ (∃ x, i = .legalSettingChange x) ∨ i = .registerReset ∨
    (∃ p sg, i = .firmwareReplacement p sg) ∨ (∃ x, i = .clockSetting x) ∨ i = .demandReset

/-! ### The clock (R322) -/

/-- The step of the clock that a setting to `x` seconds since 2000 asks for. -/
def Cistern.clockStep (c : Cistern) (x : W32) : Int := ((x.toNat + 946684800 : Nat) : Int) - (c.clock / 1000 : Nat)

/-- The adjustments of the last 24 h. -/
def Cistern.recentAdjusts (c : Cistern) : List (Nat × Int) := c.adjusts.filter fun e => decide (c.clock < e.1 + 86400000)

/-- Whether any setting of the clock is allowed. -/
def Cistern.clockFree (c : Cistern) : Bool := !c.sealed || c.clockBad

/-- Whether a setting of the clock is allowed: any, or one within the allowance of 24 h. -/
def Cistern.clockAllows (c : Cistern) (x : W32) : Bool :=
  c.clockFree || decide ((c.recentAdjusts.foldl (fun (y : Int) e => y + e.2) (c.clockStep x)).natAbs ≤ 30)

/-- The adjustments kept after an allowed setting. -/
def Cistern.nextAdjusts (c : Cistern) (x : W32) : List (Nat × Int) :=
  if c.clockFree then []
  else ((x.toNat + 946684800) * 1000, c.clockStep x) :: c.recentAdjusts.map fun e => (((e.1 : Int) + 1000 * c.clockStep x).toNat, e.2)

/-- The clock set to `x` seconds since 2000 by a step `d`, with the adjustments `l` kept. -/
def Cistern.setClock (c : Cistern) (x : W32) (d : Int) (l : List (Nat × Int)) : Cistern :=
  ((({ c with clock := (x.toNat + 946684800) * 1000, clockBad := false, adjusts := l } : Cistern).demShort false).profNote 3).note 0x30
    (toBits 32 d) true

/-- CLOCK_SETTING as a programming command, with the record of one that the allowance forbids. -/
theorem exec_clockSetting_onCis (x : W32) (s : State) :
    exec (.clockSetting x) s = s.onCis fun c =>
      let d := c.command (c.clockAllows x) fun e => e.setClock x (c.clockStep x) (c.nextAdjusts x)
      if c.on && c.session.isSome && !c.clockAllows x then d.note 0x31 (toBits 32 (c.clockStep x)) false else d := rfl

/-- CLOCK_SETTING in a session. -/
theorem exec_clockSetting {s : State} (hon : s.cis.on = true) (hsession : s.cis.session.isSome = true) (x : W32) :
    exec (.clockSetting x) s = .next (s.withCis
      (if s.cis.clockAllows x = true then (s.cis.setClock x (s.cis.clockStep x) (s.cis.nextAdjusts x)).accept
       else s.cis.deny.note 0x31 (toBits 32 (s.cis.clockStep x)) false)) := by
  refine exec_onCis_acts (exec_clockSetting_onCis x s) ?_
  cases s.cis.clockAllows x <;> simp [hon, hsession, command_in_session hon hsession]

theorem exec_clockSetting_free {s : State} (hon : s.cis.on = true) (hsession : s.cis.session.isSome = true)
    (hfree : s.cis.sealed = false ∨ s.cis.clockBad = true) (x : W32) :
    exec (.clockSetting x) s = .next (s.withCis (s.cis.setClock x (s.cis.clockStep x) []).accept) := by
  have hfree : s.cis.clockFree = true := by simpa [Cistern.clockFree] using hfree
  simp [exec_clockSetting hon hsession, Cistern.clockAllows, Cistern.nextAdjusts, hfree]

section Bound

variable {s : State} (hon : s.cis.on = true) (hsession : s.cis.session.isSome = true) (hsealed : s.cis.sealed = true)
  (hgood : s.cis.clockBad = false)

include hon hsession hsealed hgood

theorem exec_clockSetting_within {x : W32}
    (hwithin : (s.cis.recentAdjusts.foldl (fun (y : Int) e => y + e.2) (s.cis.clockStep x)).natAbs ≤ 30) :
    exec (.clockSetting x) s = .next (s.withCis (s.cis.setClock x (s.cis.clockStep x)
      (((x.toNat + 946684800) * 1000, s.cis.clockStep x) ::
        s.cis.recentAdjusts.map fun e => (((e.1 : Int) + 1000 * s.cis.clockStep x).toNat, e.2))).accept) := by
  simp [exec_clockSetting hon hsession, Cistern.clockAllows, Cistern.nextAdjusts, Cistern.clockFree, hsealed, hgood, hwithin]

theorem exec_clockSetting_past {x : W32}
    (hpast : 30 < (s.cis.recentAdjusts.foldl (fun (y : Int) e => y + e.2) (s.cis.clockStep x)).natAbs) :
    exec (.clockSetting x) s = .next (s.withCis (s.cis.deny.note 0x31 (toBits 32 (s.cis.clockStep x)) false)) := by
  simp [exec_clockSetting hon hsession, Cistern.clockAllows, Cistern.clockFree, hsealed, hgood, hpast.not_ge]

end Bound

/-- Outside a session, or without supply, every programming row is a command alone. -/
theorem exec_programmingRow {i : Instr} (hi : programmingRow i) {s : State} (h : (s.cis.on && s.cis.session.isSome) = false) :
    ∃ b f, exec i s = .next (s.withCis (s.cis.command b f)) := by
  obtain ⟨ch, g, p, o, rfl⟩ | ⟨x, rfl⟩ | rfl | ⟨p, sg, rfl⟩ | ⟨x, rfl⟩ | rfl := hi
  · exact ⟨_, _, show execCalibration ch g p o s = _ from rfl⟩
  · exact ⟨_, _, show execLegalSettingChange x s = _ from rfl⟩
  · exact ⟨_, _, show execRegisterReset s = _ from rfl⟩
  · exact ⟨_, _, show execFirmwareReplacement p sg s = _ from rfl⟩
  · exact ⟨s.cis.clockAllows x, fun e => e.setClock x (s.cis.clockStep x) (s.cis.nextAdjusts x),
      exec_onCis_acts (exec_clockSetting_onCis x s) (by simp only [h, Bool.false_and, Bool.false_eq_true, if_false])⟩
  · exact ⟨_, _, show execDemandReset s = _ from rfl⟩

theorem exec_programmingRow_off {i : Instr} (hi : programmingRow i) {s : State} (hoff : s.cis.on = false) : exec i s = .next s := by
  obtain ⟨b, f, hexec⟩ := exec_programmingRow hi (s := s) (by rw [hoff, Bool.false_and])
  rw [hexec, command_off hoff]
  rfl

theorem exec_programmingRow_no_session {i : Instr} (hi : programmingRow i) {s : State} (hon : s.cis.on = true)
    (hsession : s.cis.session = none) : exec i s = .next (s.withCis s.cis.refuse) := by
  obtain ⟨b, f, hexec⟩ := exec_programmingRow hi (s := s) (by rw [hsession, Option.isSome_none, Bool.and_false])
  rw [hexec, command_no_session hon hsession]

/-! ### A period (R315, R331, R335) -/

/-- The end of a period: its samples measured, the clock, the interval in progress and the profiles moved on. -/
def Cistern.afterPeriod (c : Cistern) (l : List CisInput) (freq : W32) : Cistern :=
  let r := shiftVolts c.volts (l.take 480)
  let c1 : Cistern := { ({ c with tariff := c.tariffNow, volts := r.2 } : Cistern).measure r.1 with
    freq := freq.toNat, clock := c.clock + 100, up := c.up + 100 }
  (c1.profNote c1.profBits).onWork fun d =>
    { d with demMs := d.demMs + 100, prof := vup d.prof 1 (fun p =>
        { p with n := p.n + 1, sums := (p.sums.zip ((c1.rms.take 3) ++ ((c1.rms.drop 4).take 3))).map (fun x => x.1 + x.2) }) }

/-- The period's snapshot sent: the sequence number, the sample position and the power-up calibration move on. -/
def Cistern.afterTransfer (c : Cistern) (l : List CisInput) (freq : W32) (delay : Fin 6291457) : Cistern :=
  let c2 := c.afterPeriod l freq
  let mirror := (shiftVolts c.volts (l.take 480)).1.map fun x => (upto 8).map fun i => c2.mirrorWord i (vat x.ch i)
  { c2 with snap := c2.snapshot mirror (c2.pos * 65536) ((c2.pos + 480) * 65536 + delay), seq := c2.seq + 1, pos := c2.pos + 480
            reply := [], calLeft := c2.calLeft - 1 }

/-- The oldest request served. -/
def Cistern.serve (c : Cistern) : Cistern :=
  match c.queue with
  | q :: t => { c with queue := t, reply := c.answer q }
  | [] => c

@[simp] theorem cis_afterPeriod_pos (c : Cistern) (l : List CisInput) (freq : W32) : (c.afterPeriod l freq).pos = c.pos := by
  simp [Cistern.afterPeriod]
@[simp] theorem cis_afterPeriod_seq (c : Cistern) (l : List CisInput) (freq : W32) : (c.afterPeriod l freq).seq = c.seq := by
  simp [Cistern.afterPeriod]
@[simp] theorem cis_afterPeriod_queue (c : Cistern) (l : List CisInput) (freq : W32) : (c.afterPeriod l freq).queue = c.queue := by
  simp [Cistern.afterPeriod]

theorem serve_nil {c : Cistern} (h : c.queue = []) : c.serve = c := by
  unfold Cistern.serve; rw [h]

theorem serve_cons {c : Cistern} {q : CisReq} {t : List CisReq} (h : c.queue = q :: t) :
    c.serve = { c with queue := t, reply := c.answer q } := by
  unfold Cistern.serve; rw [h]

theorem exec_cisternPeriodEnd {s : State} (hon : s.cis.on = true) (l : List CisInput) (freq : W32) (delay : Fin 6291457) :
    exec (.cisternPeriodEnd l freq delay) s = .next (s.withCis (s.cis.afterTransfer l freq delay).serve) := by
  refine exec_onCis_acts (show execCisternPeriodEnd l freq delay s = _ from rfl) ((if_neg ?_).trans rfl)
  simp [hon]

/-! ### The other rows of the measurement (R314, R318, R320 to R322, R325) -/

/-- The interval of profile `ch` ended: its entry, and a new interval from now on (R321). -/
def Cistern.endProfile (c : Cistern) (ch : Fin 2) : Cistern :=
  let p := vat c.work.prof ch
  let val := if ch = 0 then (c.work.wh.zip p.base).map (fun x => min 0xFFFFFFFF (x.1 - x.2)) else p.sums.map (fun x => x / max 1 p.n)
  let e : ProfEntry := ⟨c.bound (vat c.set.profInt ch * 60000), p.flags ||| c.profBits, p.count % 65536, val⟩
  let q : ProfSt := { entries := (e :: p.entries).take 8192, count := p.count + 1, from_ := c.clock, base := c.work.wh }
  c.onWork fun d => { d with prof := vput d.prof ch q }

/-- The demand interval ended: each maximum takes the demand of a whole interval, and a new one begins (R320). -/
def Cistern.endDemand (c : Cistern) : Cistern :=
  let next := fun (m : Nat × Nat) (e : Nat) =>
    let w := demandOf e c.work.demMs
    if !c.work.demPart && decide (m.1 < w) then (w, c.bound (c.set.demInt * 60000)) else m
  c.onWork fun d =>
    { d with maxI := next d.maxI d.demAcc.1, maxE := next d.maxE d.demAcc.2, demAcc := (0, 0), demMs := 0, demFrom := c.clock,
             demPart := false }

/-- The state stored once more, and the Cistern stopped (R318). -/
def Cistern.stop (c : Cistern) : Cistern :=
  { c.note 2 0 false with on := false, stored := c.work, clockSaved := c.clock / 1000 * 1000, session := none, queue := [], reply := []
                          optical := [], refused := false }

/-- The state stored (R318). -/
def Cistern.store (c : Cistern) : Cistern := { c with stored := c.work, storedAt := c.up, clockSaved := c.clock / 1000 * 1000 }

/-- The working state read from the store at power-up, with the clock that the backup has held, or the stored one (R318, R322). -/
def Cistern.wake (c : Cistern) (outage : W64) (kept : Bool) : Cistern :=
  let held := kept || decide (outage.toNat ≤ 604800000)
  { c with on := true, up := 0, calLeft := 3, work := c.stored, storedAt := 0, seq := 0, pos := 0, volts := Vector.replicate 3 []
           swId := c.fwCrc, clock := if held then c.clock + outage.toNat else c.clockSaved, clockBad := c.clockBad || !held }

/-- Power-up (R314, R318, R322, R323). -/
def Cistern.start (c : Cistern) (points : Vector CalPoints 9) (outage : W64) (kept : Bool) : Cistern :=
  ((((c.wake outage kept).note 1 (min 0xFFFFFFFF (outage.toNat / 1000)) false).takeSlices points).demShort false).profNote 5

/-- The spare checked, `far` whether it is out of its limits (R314). -/
def Cistern.checkSpare (c : Cistern) (far : Bool) : Cistern :=
  let d : Cistern := { c with spareAt := c.up, warn := far }
  if far = c.warn then d else d.note 0x61 far.toNat false

/-- Whether the spare measures outside its limits (R314). -/
def Cistern.spareFar (c : Cistern) (zero plus : Int) : Bool :=
  decide (10000 * (zero - c.spare0.1).natAbs > 2 * rangeCode) || decide (10000 * (plus - c.spare0.2).natAbs > 2 * c.spare0.2.natAbs)

section Measurement

variable {s : State}

theorem exec_cisternPeriodEnd_off (hoff : s.cis.on = false) (l : List CisInput) (freq : W32) (delay : Fin 6291457) :
    exec (.cisternPeriodEnd l freq delay) s = .next s :=
  exec_onCis_rests (show execCisternPeriodEnd l freq delay s = _ from rfl) (by simp [hoff])

theorem exec_cisternStore_off (hoff : s.cis.on = false) : exec .cisternStore s = .next s :=
  exec_onCis_rests (show execCisternStore s = _ from rfl) (by simp [hoff])

theorem exec_profileIntervalEnd_off (hoff : s.cis.on = false) (ch : Fin 2) : exec (.profileIntervalEnd ch) s = .next s :=
  exec_onCis_rests (show execProfileIntervalEnd ch s = _ from rfl) (by simp [hoff])

theorem exec_demandIntervalEnd_off (hoff : s.cis.on = false) : exec .demandIntervalEnd s = .next s :=
  exec_onCis_rests (show execDemandIntervalEnd s = _ from rfl) (by simp [hoff])

theorem exec_cisternSupplyLoss_off (hoff : s.cis.on = false) : exec .cisternSupplyLoss s = .next s :=
  exec_onCis_rests (show execCisternSupplyLoss s = _ from rfl) (by simp [hoff])

theorem exec_cisternWatchdogRestart_off (hoff : s.cis.on = false) : exec .cisternWatchdogRestart s = .next s :=
  exec_onCis_rests (show execCisternWatchdogRestart s = _ from rfl) (by simp [hoff])

theorem exec_spareCheck_off (hoff : s.cis.on = false) (zero plus : Int) : exec (.spareCheck zero plus) s = .next s :=
  exec_onCis_rests (show execSpareCheck zero plus s = _ from rfl) (by simp [hoff])

theorem exec_cisternPowerUp_off (hoff : s.cis.on = false) (points : Vector CalPoints 9) (outage : W64) (kept : Bool) :
    exec (.cisternPowerUp points outage kept) s = .next (s.withCis (s.cis.start points outage kept)) :=
  exec_onCis_acts (show execCisternPowerUp points outage kept s = _ from rfl) (if_neg (by simp [hoff]))

theorem exec_cisternPowerUp_on (hon : s.cis.on = true) (points : Vector CalPoints 9) (outage : W64) (kept : Bool) :
    exec (.cisternPowerUp points outage kept) s = .next s :=
  exec_onCis_rests (show execCisternPowerUp points outage kept s = _ from rfl) (if_pos hon)

theorem exec_cisternStore (hon : s.cis.on = true) :
    exec .cisternStore s = .next (if s.cis.storedAt + 1000 ≤ s.cis.up then s.withCis s.cis.store else s) := by
  rw [next_ite_withCis]
  exact exec_onCis_acts (show execCisternStore s = _ from rfl) (if_congr (by simp [hon]) rfl rfl)

theorem exec_profileIntervalEnd (hon : s.cis.on = true) (ch : Fin 2) :
    exec (.profileIntervalEnd ch) s = .next
      (if s.cis.clock / (vat s.cis.set.profInt ch * 60000) ≠ (vat s.cis.work.prof ch).from_ / (vat s.cis.set.profInt ch * 60000) then
        s.withCis (s.cis.endProfile ch) else s) := by
  rw [next_ite_withCis]
  exact exec_onCis_acts (show execProfileIntervalEnd ch s = _ from rfl) (if_congr (by simp [hon]) rfl rfl)

theorem exec_demandIntervalEnd (hon : s.cis.on = true) :
    exec .demandIntervalEnd s = .next
      (if s.cis.clock / (s.cis.set.demInt * 60000) ≠ s.cis.work.demFrom / (s.cis.set.demInt * 60000) then s.withCis s.cis.endDemand
       else s) := by
  rw [next_ite_withCis]
  exact exec_onCis_acts (show execDemandIntervalEnd s = _ from rfl) (if_congr (by simp [hon]) rfl rfl)

theorem exec_cisternSupplyLoss (hon : s.cis.on = true) : exec .cisternSupplyLoss s = .next (s.withCis s.cis.stop) :=
  exec_onCis_acts (show execCisternSupplyLoss s = _ from rfl) (if_pos hon)

theorem exec_cisternWatchdogRestart (hon : s.cis.on = true) :
    exec .cisternWatchdogRestart s = .next (s.withCis (({ s.cis with session := none } : Cistern).note 0x70 0 false)) :=
  exec_onCis_acts (show execCisternWatchdogRestart s = _ from rfl) (if_pos hon)

theorem exec_spareCheck (hon : s.cis.on = true) (zero plus : Int) :
    exec (.spareCheck zero plus) s = .next
      (if s.cis.spareFor = none ∧ s.cis.spareAt + 60000 ≤ s.cis.up then s.withCis (s.cis.checkSpare (s.cis.spareFar zero plus)) else s) := by
  rw [next_ite_withCis]
  refine exec_onCis_acts (show execSpareCheck zero plus s = _ from rfl) (if_congr (by simp [hon]) (if_congr ?_ rfl rfl) rfl)
  exact beq_iff_eq

end Measurement

/-! ### The service switch, the optical port and the request decoder (R326, R327, R330, R334) -/

/-- The seal state toggled, a session ended, with its record (R326). -/
def Cistern.toggleSeal (c : Cistern) : Cistern :=
  ({ c.profNote (64 * (!c.sealed).toNat) with sealed := !c.sealed, session := none } : Cistern).note
    (if c.sealed = true then 0x11 else 0x10) 0 true

/-- All data given on the optical port (R330). -/
def Cistern.giveReadout (c : Cistern) : Cistern := { c with optical := c.readout, refused := false }

/-- A channel's calibration replaced (R327). -/
def Cistern.calibrate (c : Cistern) (ch : Fin 8) (x : CisCal) : Cistern :=
  ({ c with cal := vput c.cal ch x } : Cistern).note 0x20 (2 ^ ch.val) true

/-- A setting changed (R327). -/
def Cistern.changeSetting (c : Cistern) (x : CisSetting) : Cistern := (c.putSetting x).note 0x21 (settingNumber x) true

/-- All energy registers cleared (R318). -/
def Cistern.clearRegisters (c : Cistern) : Cistern :=
  (c.onWork fun d =>
    { d with energy := Vector.replicate 24 0, prof := vup d.prof 0 (fun p => { p with base := [0, 0, 0, 0] }) }).note 0x23 0 true

/-- The firmware replaced (R323). -/
def Cistern.replaceFirmware (c : Cistern) (part : List Byte) : Cistern :=
  ({ c with fwCrc := BitVec.ofNat 32 (crc32c part) } : Cistern).note 0x22 c.swId.toNat true

/-- The maxima of demand cleared (R327). -/
def Cistern.clearMaxima (c : Cistern) : Cistern :=
  let c1 := c.onWork fun d => { d with maxI := (0, 0), maxE := (0, 0), resets := d.resets + 1 }
  c1.note 0x40 c1.work.resets.toNat false

/-- A read request put into the queue (R334). -/
def Cistern.enqueue (c : Cistern) (d : List Byte) : Cistern :=
  { c with queue := c.queue ++ [⟨numAt d 1 1, numAt d 2 2, numAt d 4 4, numAt d 8 2⟩] }

section Port

variable {s : State}

theorem exec_serviceSwitchHold_off (hoff : s.cis.on = false) : exec .serviceSwitchHold s = .next s :=
  exec_onCis_rests (show execServiceSwitchHold s = _ from rfl) (by simp [hoff])

theorem exec_opticalReadout_off (hoff : s.cis.on = false) : exec .opticalReadout s = .next s :=
  exec_onCis_rests (show execOpticalReadout s = _ from rfl) (by simp [hoff])

theorem exec_programmingMode_off (hoff : s.cis.on = false) (x : W32) : exec (.programmingMode x) s = .next s :=
  exec_onCis_rests (show execProgrammingMode x s = _ from rfl) (by simp [hoff])

theorem exec_readRequest_off (hoff : s.cis.on = false) (d : List Byte) : exec (.readRequest d) s = .next s :=
  exec_onCis_rests (show execReadRequest d s = _ from rfl) (by simp [hoff])

theorem exec_programmingTimeout_no_session (h : s.cis.session = none) : exec .programmingTimeout s = .next s :=
  exec_onCis_rests (show execProgrammingTimeout s = _ from rfl) (by rw [h])

theorem exec_programmingTimeout_in_session {t : Nat} (h : s.cis.session = some t) :
    exec .programmingTimeout s = .next (if t + 120000 ≤ s.cis.up then s.withCis { s.cis with session := none } else s) := by
  rw [next_ite_withCis]
  exact exec_onCis_acts (show execProgrammingTimeout s = _ from rfl) (by rw [h])

theorem exec_serviceSwitchHold (hon : s.cis.on = true) : exec .serviceSwitchHold s = .next (s.withCis s.cis.toggleSeal) :=
  exec_onCis_acts (show execServiceSwitchHold s = _ from rfl) (if_pos hon)

theorem exec_opticalReadout (hon : s.cis.on = true) : exec .opticalReadout s = .next (s.withCis s.cis.giveReadout) :=
  exec_onCis_acts (show execOpticalReadout s = _ from rfl) (if_pos hon)

theorem exec_programmingMode (hon : s.cis.on = true) (x : W32) :
    exec (.programmingMode x) s = .next (s.withCis (if x.toNat = s.cis.set.code then s.cis.accept else s.cis.refuse)) :=
  exec_onCis_acts (show execProgrammingMode x s = _ from rfl) (if_neg (by simp [hon]))

theorem exec_calibration (hon : s.cis.on = true) (hsession : s.cis.session.isSome = true) (ch : Fin 8) (g p o : W32) :
    exec (.calibration ch g p o) s = .next (s.withCis (if s.cis.sealed = true then s.cis.deny else (s.cis.calibrate ch ⟨g, p, o⟩).accept)) :=
  exec_onCis_acts (show execCalibration ch g p o s = _ from rfl) (command_sealed hon hsession fun c => c.calibrate ch ⟨g, p, o⟩)

theorem exec_legalSettingChange (hon : s.cis.on = true) (hsession : s.cis.session.isSome = true) (x : CisSetting) :
    exec (.legalSettingChange x) s = .next (s.withCis
      (if s.cis.sealed = false ∧ s.cis.settingOk x = true then (s.cis.changeSetting x).accept else s.cis.deny)) :=
  exec_onCis_acts (show execLegalSettingChange x s = _ from rfl) (command_open hon hsession _ fun c => c.changeSetting x)

theorem exec_registerReset (hon : s.cis.on = true) (hsession : s.cis.session.isSome = true) :
    exec .registerReset s = .next (s.withCis (if s.cis.sealed = true then s.cis.deny else s.cis.clearRegisters.accept)) :=
  exec_onCis_acts (show execRegisterReset s = _ from rfl) (command_sealed hon hsession Cistern.clearRegisters)

theorem exec_firmwareReplacement (hon : s.cis.on = true) (hsession : s.cis.session.isSome = true) (part : List Byte) (signed : Bool) :
    exec (.firmwareReplacement part signed) s = .next (s.withCis
      (if s.cis.sealed = false ∧ signed = true then (s.cis.replaceFirmware part).accept else s.cis.deny)) :=
  exec_onCis_acts (show execFirmwareReplacement part signed s = _ from rfl) (command_open hon hsession signed fun c => c.replaceFirmware part)

theorem exec_demandReset (hon : s.cis.on = true) (hsession : s.cis.session.isSome = true) :
    exec .demandReset s = .next (s.withCis s.cis.clearMaxima.accept) :=
  exec_onCis_acts (show execDemandReset s = _ from rfl) (command_in_session hon hsession true Cistern.clearMaxima)

theorem exec_readRequest (hon : s.cis.on = true) (d : List Byte) :
    exec (.readRequest d) s = .next (s.withCis
      (if requestOk d = false then s.cis.reject
       else if 8 ≤ s.cis.queue.length then { s.cis with reqDropped := s.cis.reqDropped + 1 } else s.cis.enqueue d)) :=
  exec_onCis_acts (show execReadRequest d s = _ from rfl) ((if_neg (by simp [hon])).trans (if_congr (by simp) rfl rfl))

end Port

end Sys2Proof.Machine
end

section
/-! SUPPORT. The rows of the Cistern act (O44, O45), within the limits of the seal (O53). -/

namespace Sys2Proof.Machine

open Host

/-- Settles O44: each row by its equation without supply and with it; a period serves the oldest request, if any. -/
theorem cisternRunsOn : Obligations.CisternRunsOn := by
  unfold Obligations.CisternRunsOn
  intro s c
  refine ⟨fun hoff => ⟨exec_cisternPowerUp_off hoff, exec_cisternPeriodEnd_off hoff, exec_cisternStore_off hoff, exec_profileIntervalEnd_off hoff,
      exec_demandIntervalEnd_off hoff, exec_cisternSupplyLoss_off hoff, exec_cisternWatchdogRestart_off hoff, exec_spareCheck_off hoff⟩,
    fun hon => ⟨exec_cisternPowerUp_on hon, fun l freq delay => ?period, exec_cisternStore hon, exec_profileIntervalEnd hon,
      exec_demandIntervalEnd hon, exec_cisternSupplyLoss hon, exec_cisternWatchdogRestart hon, exec_spareCheck hon⟩⟩
  intro r c1 c2 mirror c3
  have hc3 : s.cis.afterTransfer l freq delay = c3 := by
    simp only [Cistern.afterTransfer, cis_afterPeriod_pos, cis_afterPeriod_seq]
    rfl
  have hqueue : c3.queue = c.queue := cis_afterPeriod_queue c l freq
  rw [exec_cisternPeriodEnd hon, hc3]
  exact ⟨fun h => by rw [serve_nil (hqueue.trans h)], fun q t h => by rw [serve_cons (hqueue.trans h)]⟩

/-- Settles O45: each row by its equation; the programming commands by supply and session first. -/
theorem cisternPortActs : Obligations.CisternPortActs := by
  unfold Obligations.CisternPortActs
  intro s c programs denied
  refine ⟨exec_programmingTimeout_no_session, fun t => exec_programmingTimeout_in_session, fun hoff =>
      ⟨exec_serviceSwitchHold_off hoff, exec_opticalReadout_off hoff, exec_programmingMode_off hoff,
        fun i hi => exec_programmingRow_off hi hoff, exec_readRequest_off hoff⟩,
    fun hon => ⟨exec_serviceSwitchHold hon, exec_opticalReadout hon, exec_programmingMode hon,
      fun hsession i hi => exec_programmingRow_no_session hi hon hsession, fun hsession => ?session, fun d => ?request⟩⟩
  case session =>
    have hin : s.cis.session.isSome = true := Option.isSome_iff_ne_none.mpr hsession
    refine ⟨exec_calibration hon hin, exec_legalSettingChange hon hin, exec_registerReset hon hin, exec_firmwareReplacement hon hin,
      fun x => ?_, exec_demandReset hon hin⟩
    exact ⟨fun hfree => exec_clockSetting_free hon hin hfree x, fun hsealed hgood => exec_clockSetting_within hon hin hsealed hgood,
      fun hsealed hgood => exec_clockSetting_past hon hin hsealed hgood⟩
  case request =>
    refine ⟨fun hbad => ?_, fun hok hfull => ?_, fun hok hroom => ?_⟩
    · rw [exec_readRequest hon, if_pos hbad]
    · rw [exec_readRequest hon, if_neg (by simp [hok]), if_pos hfull]
    · rw [exec_readRequest hon, if_neg (by simp [hok]), if_neg hroom.not_ge]
      rfl

/-- Settles O53: outside a session by `exec_programmingRow_no_session`, in one by each command's equation. -/
theorem sealProtects : Obligations.SealProtects := by
  unfold Obligations.SealProtects
  intro s c no noIn hon
  refine ⟨fun hsession => ?outside, fun hin hsealed => ?sealed, exec_opticalReadout hon, fun hin => ?demand⟩
  case outside =>
    have hno : ∀ i, programmingRow i → exec i s = .next no := fun i hi => exec_programmingRow_no_session hi hon hsession
    refine ⟨fun ch x y z => hno _ ?_, fun x => hno _ ?_, hno _ ?_, fun p v => hno _ ?_, fun x => hno _ ?_, hno _ ?_⟩ <;> simp [programmingRow]
  case sealed =>
    have hshut : s.cis.sealed ≠ false := Bool.ne_false_iff.mpr hsealed
    refine ⟨fun ch x y z => ?_, fun x => ?_, ?_, fun p v => ?_, fun x hgood => exec_clockSetting_past hon hin hsealed hgood⟩
    · rw [exec_calibration hon hin, if_pos hsealed]; rfl
    · rw [exec_legalSettingChange hon hin, if_neg fun h => hshut h.1]; rfl
    · rw [exec_registerReset hon hin, if_pos hsealed]; rfl
    · rw [exec_firmwareReplacement hon hin, if_neg fun h => hshut h.1]; rfl
  case demand => exact ⟨_, exec_demandReset hon hin, rfl, rfl, rfl, rfl, rfl, rfl⟩

end Sys2Proof.Machine
end

section
/-! SUPPORT. What any row, and any step, can do to the Cistern, said once (`exec_goes`, `step_goes`). -/

namespace Sys2Proof.Machine

open Host

/-! ### Rows by what they reach (R311) -/

/-- A row that is none of the Cistern's reaches the application partition alone. -/
theorem exec_withApp {i : Instr} (h : ¬ cisternRow i) : ∃ f : State → App, ∀ s, exec i s = .next (s.withApp (f s)) := by
  obtain ⟨-, -, f, hexec⟩ | ⟨-, -, f, hexec⟩ | ⟨hrow, -⟩ := exec_kinds i
  · exact ⟨_, fun s => (hexec s).trans (onApp_eq s f)⟩
  · exact ⟨_, fun s => (hexec s).trans (onIsland_eq s f)⟩
  · exact absurd hrow h

/-- A row of the Cistern reaches the Cistern alone, and only by what the Cistern holds. -/
theorem exec_withCis {i : Instr} (h : cisternRow i) : ∃ f : Cistern → Cistern, ∀ s, exec i s = .next (s.withCis (f s.cis)) := by
  obtain ⟨hnot, -⟩ | ⟨hnot, -⟩ | ⟨-, f, hexec⟩ := exec_kinds i
  · exact absurd h hnot
  · exact absurd h hnot
  · exact ⟨f, fun s => (hexec s).trans (onCis_eq s f)⟩

/-! ### What any row does to the Cistern -/

/-- The outcomes of a row `i` for the Cistern `c`: nothing, a refusal on the optical port, or one of the row's own. -/
inductive Cistern.Goes (c : Cistern) : Instr → Cistern → Prop
  | rests {i : Instr} : c.Goes i c
  | refuses {i : Instr} : c.Goes i c.refuse
  | denies {i : Instr} (hon : c.on = true) : c.Goes i c.deny
  | measures {l : List CisInput} {freq : W32} {delay : Fin 6291457} (hon : c.on = true) :
      c.Goes (.cisternPeriodEnd l freq delay) (c.afterTransfer l freq delay).serve
  | stores (hon : c.on = true) : c.Goes .cisternStore c.store
  | stops (hon : c.on = true) : c.Goes .cisternSupplyLoss c.stop
  | starts {p : Vector CalPoints 9} {n : W64} {k : Bool} (hoff : c.on = false) : c.Goes (.cisternPowerUp p n k) (c.start p n k)
  | restarts (hon : c.on = true) : c.Goes .cisternWatchdogRestart (({ c with session := none } : Cistern).note 0x70 0 false)
  | checks {x y : Int} {far : Bool} (hon : c.on = true) : c.Goes (.spareCheck x y) (c.checkSpare far)
  | endsDemand (hon : c.on = true) : c.Goes .demandIntervalEnd c.endDemand
  | endsProfile {ch : Fin 2} (hon : c.on = true) : c.Goes (.profileIntervalEnd ch) (c.endProfile ch)
  | toggles (hon : c.on = true) : c.Goes .serviceSwitchHold c.toggleSeal
  | reads (hon : c.on = true) : c.Goes .opticalReadout c.giveReadout
  | opens {x : W32} (hon : c.on = true) : c.Goes (.programmingMode x) c.accept
  | expires : c.Goes .programmingTimeout { c with session := none }
  | calibrates {ch : Fin 8} {g p o : W32} (hon : c.on = true) (hin : c.session.isSome = true) (hopen : c.sealed = false) :
      c.Goes (.calibration ch g p o) (c.calibrate ch ⟨g, p, o⟩).accept
  | changes {x : CisSetting} (hon : c.on = true) (hin : c.session.isSome = true) (hopen : c.sealed = false) (hok : c.settingOk x = true) :
      c.Goes (.legalSettingChange x) (c.changeSetting x).accept
  | clears (hon : c.on = true) (hin : c.session.isSome = true) (hopen : c.sealed = false) : c.Goes .registerReset c.clearRegisters.accept
  | replaces {part : List Byte} (hon : c.on = true) (hin : c.session.isSome = true) (hopen : c.sealed = false) :
      c.Goes (.firmwareReplacement part true) (c.replaceFirmware part).accept
  | setsClock {x : W32} {d : Int} {l : List (Nat × Int)} (hon : c.on = true) : c.Goes (.clockSetting x) (c.setClock x d l).accept
  | deniesClock {x : W32} {n : Nat} (hon : c.on = true) : c.Goes (.clockSetting x) (c.deny.note 0x31 n false)
  | clearsMaxima (hon : c.on = true) : c.Goes .demandReset c.clearMaxima.accept
  | rejects {d : List Byte} (hon : c.on = true) : c.Goes (.readRequest d) c.reject
  | drops {d : List Byte} (hon : c.on = true) : c.Goes (.readRequest d) { c with reqDropped := c.reqDropped + 1 }
  | queues {d : List Byte} (hon : c.on = true) (hok : requestOk d = true) (hroom : c.queue.length < 8) : c.Goes (.readRequest d) (c.enqueue d)

/-- A row answers the state with the Cistern changed to one of the row's outcomes. -/
def State.Goes (s : State) (i : Instr) : Prop := ∃ d, exec i s = .next (s.withCis d) ∧ s.cis.Goes i d

section Goes

variable {s : State} {i : Instr} {d : Cistern}

theorem goes_of_ite {p : Prop} [Decidable p] (hexec : exec i s = .next (if p then s.withCis d else s)) (hd : s.cis.Goes i d) : s.Goes i := by
  split at hexec
  · exact ⟨d, hexec, hd⟩
  · exact ⟨s.cis, hexec, .rests⟩

theorem goes_of_ite_outcomes {e : Cistern} {p : Prop} [Decidable p] (hexec : exec i s = .next (s.withCis (if p then d else e)))
    (hd : p → s.cis.Goes i d) (he : ¬ p → s.cis.Goes i e) : s.Goes i := by
  split at hexec
  · next hp => exact ⟨d, hexec, hd hp⟩
  · next hp => exact ⟨e, hexec, he hp⟩

/-- A row that does nothing without supply. -/
theorem goes_of_on (hoff : s.cis.on = false → exec i s = .next s) (hon : s.cis.on = true → s.Goes i) : s.Goes i := by
  cases h : s.cis.on with
  | false => exact ⟨s.cis, hoff h, .rests⟩
  | true => exact hon h

/-- A programming row, from its outcome in a session. -/
theorem goes_of_in_session (hi : programmingRow i) (hin : s.cis.on = true → s.cis.session.isSome = true → s.Goes i) : s.Goes i := by
  refine goes_of_on (exec_programmingRow_off hi) fun hon => ?_
  cases hsession : s.cis.session with
  | none => exact ⟨_, exec_programmingRow_no_session hi hon hsession, .refuses⟩
  | some t => exact hin hon (by rw [hsession]; rfl)

end Goes

theorem programmingTimeout_goes (s : State) : s.Goes .programmingTimeout := by
  cases h : s.cis.session with
  | none => exact ⟨s.cis, exec_programmingTimeout_no_session h, .rests⟩
  | some t => exact goes_of_ite (exec_programmingTimeout_in_session h) .expires

theorem readRequest_goes {s : State} (hon : s.cis.on = true) (d : List Byte) : s.Goes (.readRequest d) := by
  refine goes_of_ite_outcomes (exec_readRequest hon d) (fun _ => .rejects hon) fun hgood => ?_
  split
  · exact .drops hon
  · next hroom => exact .queues hon (by simpa using hgood) (Nat.not_le.mp hroom)

/-- A row of the Cistern answers, with one of its outcomes. -/
theorem cisternRow_goes {i : Instr} (hrow : cisternRow i) (s : State) : s.Goes i := by
  obtain ⟨l, f, d, rfl⟩ | rfl | rfl | ⟨p, n, k, rfl⟩ | rfl | ⟨x, y, rfl⟩ | rfl | ⟨ch, rfl⟩ | rfl | rfl | ⟨w, rfl⟩ | rfl |
    ⟨ch, x, y, z, rfl⟩ | ⟨x, rfl⟩ | rfl | ⟨p, v, rfl⟩ | ⟨w, rfl⟩ | rfl | ⟨d, rfl⟩ := hrow
  · exact goes_of_on (exec_cisternPeriodEnd_off · l f d) fun hon => ⟨_, exec_cisternPeriodEnd hon l f d, .measures hon⟩
  · exact goes_of_on exec_cisternStore_off fun hon => goes_of_ite (exec_cisternStore hon) (.stores hon)
  · exact goes_of_on exec_cisternSupplyLoss_off fun hon => ⟨_, exec_cisternSupplyLoss hon, .stops hon⟩
  · cases h : s.cis.on with
    | false => exact ⟨_, exec_cisternPowerUp_off h p n k, .starts h⟩
    | true => exact ⟨s.cis, exec_cisternPowerUp_on h p n k, .rests⟩
  · exact goes_of_on exec_cisternWatchdogRestart_off fun hon => ⟨_, exec_cisternWatchdogRestart hon, .restarts hon⟩
  · exact goes_of_on (exec_spareCheck_off · x y) fun hon => goes_of_ite (exec_spareCheck hon x y) (.checks hon)
  · exact goes_of_on exec_demandIntervalEnd_off fun hon => goes_of_ite (exec_demandIntervalEnd hon) (.endsDemand hon)
  · exact goes_of_on (exec_profileIntervalEnd_off · ch) fun hon => goes_of_ite (exec_profileIntervalEnd hon ch) (.endsProfile hon)
  · exact goes_of_on exec_serviceSwitchHold_off fun hon => ⟨_, exec_serviceSwitchHold hon, .toggles hon⟩
  · exact goes_of_on exec_opticalReadout_off fun hon => ⟨_, exec_opticalReadout hon, .reads hon⟩
  · exact goes_of_on (exec_programmingMode_off · w) fun hon =>
      goes_of_ite_outcomes (exec_programmingMode hon w) (fun _ => .opens hon) fun _ => .refuses
  · exact programmingTimeout_goes s
  · exact goes_of_in_session (by simp [programmingRow]) fun hon hin =>
      goes_of_ite_outcomes (exec_calibration hon hin ch x y z) (fun _ => .denies hon) fun hopen =>
        .calibrates hon hin (Bool.eq_false_iff.mpr hopen)
  · exact goes_of_in_session (by simp [programmingRow]) fun hon hin =>
      goes_of_ite_outcomes (exec_legalSettingChange hon hin x) (fun h => .changes hon hin h.1 h.2) fun _ => .denies hon
  · exact goes_of_in_session (by simp [programmingRow]) fun hon hin =>
      goes_of_ite_outcomes (exec_registerReset hon hin) (fun _ => .denies hon) fun hopen => .clears hon hin (Bool.eq_false_iff.mpr hopen)
  · exact goes_of_in_session (by simp [programmingRow]) fun hon hin =>
      goes_of_ite_outcomes (exec_firmwareReplacement hon hin p v) (fun h => h.2 ▸ .replaces hon hin h.1) fun _ => .denies hon
  · exact goes_of_in_session (by simp [programmingRow]) fun hon hin =>
      goes_of_ite_outcomes (exec_clockSetting hon hin w) (fun _ => .setsClock hon) fun _ => .deniesClock hon
  · exact goes_of_in_session (by simp [programmingRow]) fun hon hin => ⟨_, exec_demandReset hon hin, .clearsMaxima hon⟩
  · exact goes_of_on (exec_readRequest_off · d) fun hon => readRequest_goes hon d

/-- What any row does to the Cistern: a row that is none of its own leaves it. -/
theorem exec_goes {i : Instr} {s t : State} (h : exec i s = .next t) : s.cis.Goes i t.cis := by
  by_cases hrow : cisternRow i
  · obtain ⟨d, hexec, hd⟩ := cisternRow_goes hrow s
    cases h.symm.trans hexec
    exact hd
  · obtain ⟨f, hexec⟩ := exec_withApp hrow
    cases h.symm.trans (hexec s)
    exact .rests

/-- A step carries out the front of the queue, or leaves the Cistern. -/
theorem step_goes {s t : State} (h : step s = .next t) : t.cis = s.cis ∨ ∃ i r, s.pending = i :: r ∧ s.cis.Goes i t.cis := by
  unfold step at h
  split at h
  · next i r hpending => exact .inr ⟨i, r, hpending, exec_goes (s := { s with pending := r }) h⟩
  · cases h
    exact .inl rfl

end Sys2Proof.Machine
end

section
/-! SUPPORT. Every row answers, and the Cistern and the application partition stay apart (O48, O49). -/

namespace Sys2Proof.Machine

open Host

/-! ### Every row answers -/

theorem exec_next (i : Instr) (s : State) : ∃ t, exec i s = .next t ∧ t.pending = s.pending := by
  by_cases h : cisternRow i
  · obtain ⟨f, hexec⟩ := exec_withCis h
    exact ⟨_, hexec s, rfl⟩
  · obtain ⟨f, hexec⟩ := exec_withApp h
    exact ⟨_, hexec s, rfl⟩

theorem step_next (s : State) : ∃ t, step s = .next t := by
  cases h : s.pending with
  | nil => exact ⟨_, step_empty h⟩
  | cons i r =>
    obtain ⟨t, hexec, -⟩ := exec_next i { s with pending := r }
    exact ⟨t, by unfold step; rw [h]; exact hexec⟩

/-- A held module answers nothing but the rows of the islands and of the Cistern (R591). -/
theorem exec_held {i : Instr} {s : State} (hcis : ¬ cisternRow i) (hisland : ¬ islandRow i) (hheld : s.app.life.boot = .held) :
    exec i s = .next s := by
  obtain ⟨-, -, f, hexec⟩ | ⟨-, hrow, -⟩ | ⟨hrow, -⟩ := exec_kinds i
  · exact (hexec s).trans (State.onApp_held s f hheld)
  · exact absurd hrow hisland
  · exact absurd hrow hcis

/-- Settles O48: each row by its kind (`exec_kinds`), a step by the front of the queue. -/
theorem neverStops : Obligations.NeverStops := by
  unfold Obligations.NeverStops
  exact ⟨exec_next, step_next, fun i s => exec_held⟩

/-! ### What a session in the Open state alone can change (R311, R326, R327) -/

/-- Seal state, settings, calibration and firmware stay. -/
def Cistern.SealedPartKept (c d : Cistern) : Prop := d.sealed = c.sealed ∧ d.set = c.set ∧ d.cal = c.cal ∧ d.fwCrc = c.fwCrc

theorem Cistern.SealedPartKept.trans {c d e : Cistern} : c.SealedPartKept d → d.SealedPartKept e → c.SealedPartKept e
  | ⟨h1, h2, h3, h4⟩, ⟨k1, k2, k3, k4⟩ => ⟨k1.trans h1, k2.trans h2, k3.trans h3, k4.trans h4⟩

theorem serve_sealedPart (c : Cistern) : c.SealedPartKept c.serve := by
  unfold Cistern.serve
  split <;> exact ⟨rfl, rfl, rfl, rfl⟩

theorem afterTransfer_sealedPart (c : Cistern) (l : List CisInput) (freq : W32) (delay : Fin 6291457) :
    c.SealedPartKept (c.afterTransfer l freq delay) := by
  simp [Cistern.SealedPartKept, Cistern.afterTransfer, Cistern.afterPeriod]

theorem start_sealedPart (c : Cistern) (p : Vector CalPoints 9) (n : W64) (k : Bool) : c.SealedPartKept (c.start p n k) := by
  simp [Cistern.SealedPartKept, Cistern.start, Cistern.wake]

theorem setClock_sealedPart (c : Cistern) (x : W32) (d : Int) (l : List (Nat × Int)) : c.SealedPartKept (c.setClock x d l) := by
  simp [Cistern.SealedPartKept, Cistern.setClock]

theorem accept_sealedPart (c : Cistern) : c.SealedPartKept c.accept := ⟨rfl, rfl, rfl, rfl⟩

theorem checkSpare_sealedPart (c : Cistern) (far : Bool) : c.SealedPartKept (c.checkSpare far) := by
  unfold Cistern.checkSpare
  dsimp only
  split <;> exact ⟨rfl, rfl, rfl, rfl⟩

theorem reject_sealedPart (c : Cistern) : c.SealedPartKept c.reject := by simp [Cistern.SealedPartKept]

/-- In which rows, and in which states, the seal state, the settings, the calibration and the firmware may change (R326, R327). -/
structure Cistern.SealRespected (c : Cistern) (i : Instr) (d : Cistern) : Prop where
  sealed : d.sealed ≠ c.sealed → i = .serviceSwitchHold
  set : d.set ≠ c.set → (∃ x, i = .legalSettingChange x) ∧ c.sealed = false ∧ c.session.isSome = true
  cal : d.cal ≠ c.cal → (∃ ch x y z, i = .calibration ch x y z) ∧ c.sealed = false ∧ c.session.isSome = true
  fwCrc : d.fwCrc ≠ c.fwCrc → (∃ p, i = .firmwareReplacement p true) ∧ c.sealed = false ∧ c.session.isSome = true

theorem Cistern.SealedPartKept.respects {c d : Cistern} {i : Instr} : c.SealedPartKept d → c.SealRespected i d
  | ⟨hsealed, hset, hcal, hfw⟩ => ⟨(absurd hsealed ·), (absurd hset ·), (absurd hcal ·), (absurd hfw ·)⟩

theorem goes_respects {c d : Cistern} {i : Instr} (h : c.Goes i d) : c.SealRespected i d := by
  cases h with
  | measures hon => exact ((afterTransfer_sealedPart ..).trans (serve_sealedPart _)).respects
  | starts hoff => exact (start_sealedPart ..).respects
  | setsClock hon => exact ((setClock_sealedPart ..).trans (accept_sealedPart _)).respects
  | checks hon => exact (checkSpare_sealedPart ..).respects
  | rejects hon => exact (reject_sealedPart c).respects
  | toggles hon => exact ⟨fun _ => rfl, absurd rfl, absurd rfl, absurd rfl⟩
  | @changes x hon hin hopen hok =>
    obtain ⟨hsealed, hcal, hfw, -⟩ := putSetting_fr c x
    exact ⟨absurd hsealed, fun _ => ⟨⟨x, rfl⟩, hopen, hin⟩, absurd hcal, absurd hfw⟩
  | calibrates hon hin hopen => exact ⟨absurd rfl, absurd rfl, fun _ => ⟨⟨_, _, _, _, rfl⟩, hopen, hin⟩, absurd rfl⟩
  | replaces hon hin hopen => exact ⟨absurd rfl, absurd rfl, absurd rfl, fun _ => ⟨⟨_, rfl⟩, hopen, hin⟩⟩
  | _ => exact Cistern.SealedPartKept.respects ⟨rfl, rfl, rfl, rfl⟩

/-- Settles O49: the first and the third part by the kinds of rows, the last from the outcomes of a row (`exec_goes`). -/
theorem cisternIsolation : Obligations.CisternIsolation := by
  unfold Obligations.CisternIsolation
  refine ⟨fun i hi => exec_withApp hi, fun s hempty => ⟨_, step_empty hempty⟩, fun i hi => exec_withCis hi, fun i s t h => ?_⟩
  obtain ⟨hsealed, hset, hcal, hfw⟩ := goes_respects (exec_goes h)
  exact ⟨hsealed, hset, hcal, hfw⟩

end Sys2Proof.Machine
end

section
/-! SUPPORT. The energy registers over a step (O52). -/

namespace Sys2Proof.Machine

open Host

/-! ### What adds energy (R315, R317), and what leaves the registers -/

theorem regsKept_of_energy {c d : Cistern} (h : d.work.energy = c.work.energy) : c.regsKept d := fun i => by
  unfold CisData.reg; rw [h]

theorem regsKept_of_le {c d : Cistern} (h : ∀ i : Fin 24, vat c.work.energy i ≤ vat d.work.energy i) : c.regsKept d :=
  fun i => Nat.div_le_div_right (h i)

/-- Adding energy to a register lowers none. -/
theorem add_energy_le (d : CisData) (i e j : Nat) : vat d.energy j ≤ vat (d.add i e).energy j := by
  unfold CisData.add
  by_cases h : i = j
  · subst h
    by_cases hi : i < 24
    · rw [vat_vup_same _ _ hi]
      exact Nat.le_add_right _ _
    · simp [vup, hi]
  · rw [vat_vup_other _ _ h]

theorem register_energy_le (c : Cistern) (t : Nat) (p q : Int) (eP eQ eS j : Nat) :
    vat c.work.energy j ≤ vat (c.register t p q eP eQ eS).work.energy j :=
  (add_energy_le ..).trans <| (add_energy_le ..).trans <| (add_energy_le ..).trans <| (add_energy_le ..).trans <| add_energy_le ..

theorem measure_energy_le (c : Cistern) (l : List CisSample) (j : Nat) : vat c.work.energy j ≤ vat (c.measure l).work.energy j := by
  unfold Cistern.measure
  dsimp only
  split
  · exact Nat.le_refl _
  · split
    · exact Nat.le_refl _
    · exact register_energy_le ..

@[simp] theorem cis_profNote_energy (c : Cistern) (n : Nat) : (c.profNote n).work.energy = c.work.energy := rfl

@[simp] theorem cis_demShort_energy (c : Cistern) (b : Bool) : (c.demShort b).work.energy = c.work.energy := by
  unfold Cistern.demShort
  simp only [cis_onWork_work]
  split <;> rfl

theorem serve_work (c : Cistern) : c.serve.work = c.work := by
  unfold Cistern.serve
  split <;> rfl

theorem afterPeriod_energy (c : Cistern) (l : List CisInput) (freq : W32) :
    (c.afterPeriod l freq).work.energy = (({ c with tariff := c.tariffNow, volts := (shiftVolts c.volts (l.take 480)).2 } : Cistern).measure
      (shiftVolts c.volts (l.take 480)).1).work.energy := rfl

theorem afterPeriod_energy_le (c : Cistern) (l : List CisInput) (freq : W32) (j : Nat) :
    vat c.work.energy j ≤ vat (c.afterPeriod l freq).work.energy j := by
  rw [afterPeriod_energy]
  exact measure_energy_le { c with tariff := c.tariffNow, volts := (shiftVolts c.volts (l.take 480)).2 } _ j

theorem measures_regsKept (c : Cistern) (l : List CisInput) (freq : W32) (delay : Fin 6291457) :
    c.regsKept (c.afterTransfer l freq delay).serve := by
  refine regsKept_of_le fun i => ?_
  rw [serve_work]
  exact afterPeriod_energy_le c l freq i

theorem start_regsKept {c : Cistern} (hstored : c.stored = c.work) (p : Vector CalPoints 9) (n : W64) (k : Bool) :
    c.regsKept (c.start p n k) := by
  refine regsKept_of_energy ?_
  simp [Cistern.start, Cistern.wake, hstored]

theorem setClock_energy (c : Cistern) (x : W32) (d : Int) (l : List (Nat × Int)) : (c.setClock x d l).work.energy = c.work.energy := by
  rw [Cistern.setClock, cis_note_work, cis_profNote_energy, cis_demShort_energy]

theorem checkSpare_work (c : Cistern) (far : Bool) : (c.checkSpare far).work = c.work := by
  unfold Cistern.checkSpare
  dsimp only
  split <;> rfl

/-- A register reset in the Open state: what it clears, and its audited record (R318, R324). -/
structure Cistern.ResetsRegisters (c d : Cistern) : Prop where
  on : c.on = true
  opened : c.sealed = false
  session : c.session.isSome = true
  energy : d.work.energy = Vector.replicate 24 0
  audit : d.audit = c.audit + 1
  log : ∃ r l, d.log = r :: l ∧ r.code = 0x23 ∧ r.audit = d.audit

theorem clearRegisters_resets {c : Cistern} (hon : c.on = true) (hin : c.session.isSome = true) (hopen : c.sealed = false) :
    c.ResetsRegisters c.clearRegisters.accept :=
  ⟨hon, hopen, hin, rfl, rfl, _, _, rfl, rfl, rfl⟩

theorem goes_regsKept {c d : Cistern} {i : Instr} (hinv : c.Inv) (h : c.Goes i d) :
    c.regsKept d ∨ i = .registerReset ∧ c.ResetsRegisters d := by
  cases h with
  | measures hon => exact .inl (measures_regsKept c _ _ _)
  | starts hoff => exact .inl (start_regsKept (hinv.off hoff).1 _ _ _)
  | setsClock hon => exact .inl (regsKept_of_energy ((congrArg CisData.energy (cis_accept_work _)).trans (setClock_energy ..)))
  | checks hon => exact .inl (regsKept_of_energy (by rw [checkSpare_work]))
  | rejects hon => exact .inl (regsKept_of_energy (by rw [cis_reject_work]))
  | @changes x hon hin hopen hok =>
    obtain ⟨-, -, -, -, -, -, -, -, -, -, -, -, -, -, henergy⟩ := putSetting_fr c x
    exact .inl (regsKept_of_energy henergy)
  | clears hon hin hopen => exact .inr ⟨rfl, clearRegisters_resets hon hin hopen⟩
  | _ => exact .inl (regsKept_of_energy rfl)

/-- Settles O52: by the outcomes of a step (`step_goes`), of which the register reset alone lowers a register. -/
theorem registersNeverDecrease : Obligations.RegistersNeverDecrease := by
  unfold Obligations.RegistersNeverDecrease
  intro s t hinv h
  obtain heq | ⟨i, r, hpending, hgoes⟩ := step_goes h
  · exact .inl (regsKept_of_energy (by rw [heq]))
  · obtain hkept | ⟨rfl, hon, hopen, hin, henergy, haudit, hlog⟩ := goes_regsKept hinv hgoes
    · exact .inl hkept
    · exact .inr ⟨⟨r, hpending⟩, hon, hopen, hin, henergy, haudit, hlog⟩

end Sys2Proof.Machine
end

section
/-! SUPPORT. The Cistern's invariant (O50, O51): each operation keeps it, hence every outcome of a step. -/

namespace Sys2Proof.Machine

open Host

/-! ### Profiles -/

/-- A profile keeps to its length, with its six sums (R321). -/
def ProfSt.Wf (p : ProfSt) : Prop := p.entries.length ≤ 8192 ∧ p.sums.length = 6

/-- Both profiles keep to their lengths. -/
def ProfsWf (v : Vector ProfSt 2) : Prop := ∀ ch : Fin 2, (vat v ch).Wf

theorem ProfsWf.vup {v : Vector ProfSt 2} (h : ProfsWf v) {i : Nat} {f : ProfSt → ProfSt} (hf : ∀ p, p.Wf → (f p).Wf) :
    ProfsWf (vup v i f) := fun ch => by
  by_cases hi : i = ch
  · rw [hi, vat_vup_same _ _ ch.isLt]
    exact hf _ (h ch)
  · rw [vat_vup_other _ _ hi]
    exact h ch

theorem ProfsWf.map {v : Vector ProfSt 2} (h : ProfsWf v) {f : ProfSt → ProfSt} (hf : ∀ p, p.Wf → (f p).Wf) : ProfsWf (v.map f) := fun ch => by
  rw [vat_eq _ ch.isLt, Vector.getElem_map, ← vat_eq _ ch.isLt]
  exact hf _ (h ch)

theorem profsWf_replicate : ProfsWf (Vector.replicate 2 {}) := fun ch => by
  rw [vat_eq _ ch.isLt, Vector.getElem_replicate]
  exact ⟨Nat.zero_le _, rfl⟩

/-! ### The invariant over the shared operations -/

section Inv

variable {c : Cistern} (hc : c.Inv)

include hc

theorem Cistern.Inv.note (code param : Nat) (audit : Bool) : (c.note code param audit).Inv :=
  { hc with log := List.length_take_le _ _ }

theorem Cistern.Inv.refuse : c.refuse.Inv := { hc with }

/-- A command now renews the session. -/
theorem Cistern.Inv.renew (hon : c.on = true) : ({ c with session := some c.up } : Cistern).Inv :=
  { hc with session := fun t h => by cases h; exact Nat.le_refl _, off := fun h => nomatch hon.symm.trans h }

theorem Cistern.Inv.deny (hon : c.on = true) : c.deny.Inv := { hc.renew hon with }

theorem Cistern.Inv.accept (hon : c.on = true) : c.accept.Inv := { hc.renew hon with }

theorem Cistern.Inv.onWork (hon : c.on = true) {f : CisData → CisData} (hf : ProfsWf (f c.work).prof) : (c.onWork f).Inv :=
  { hc with prof := hf, off := fun h => nomatch hon.symm.trans h }

theorem Cistern.Inv.profNote (hon : c.on = true) (bits : Nat) : (c.profNote bits).Inv :=
  hc.onWork hon (ProfsWf.map hc.prof fun _ h => h)

theorem Cistern.Inv.demShort (hon : c.on = true) (restart : Bool) : (c.demShort restart).Inv := by
  unfold Cistern.demShort
  refine hc.onWork hon ?_
  split <;> exact hc.prof

theorem Cistern.Inv.changeSet {x : CisSettings} (hset : x.Wf) : ({ c with set := x } : Cistern).Inv := { hc with set := hset }

end Inv

/-! ### The tariff in force (R319) -/

/-- A fold that takes an element or keeps what it has ends with an element of the list or what it began with. -/
theorem foldl_pick_mem {α : Type} {f : Option α → α → Option α} (hf : ∀ b e, f b e = some e ∨ f b e = b) {x : α} (l : List α) {b : Option α}
    (h : l.foldl f b = some x) : x ∈ l ∨ b = some x := by
  induction l generalizing b with
  | nil => exact .inr h
  | cons e l ih =>
    obtain hmem | hb := ih h
    · exact .inl (List.mem_cons_of_mem e hmem)
    · obtain htake | hkeep := hf b e
      · cases htake.symm.trans hb
        exact .inl List.mem_cons_self
      · exact .inr (hkeep.symm.trans hb)

theorem lastSwitch_mem {min k : Nat} {l : List (Nat × Nat)} (h : lastSwitch min l = some k) : ∃ e ∈ l, e.2 = k := by
  obtain ⟨e, hfold, rfl⟩ := Option.map_eq_some_iff.mp h
  obtain hmem | hnone := foldl_pick_mem (fun b e => ite_eq_or_eq _ _ _) l hfold
  · exact ⟨e, hmem, rfl⟩
  · cases hnone

theorem tariffNow_range {c : Cistern} (hset : c.set.Wf) : 1 ≤ c.tariffNow ∧ c.tariffNow ≤ 4 := by
  have hday : ∀ {min k day : Nat}, lastSwitch min (c.dayTable day) = some k → 1 ≤ k ∧ k ≤ 4 := fun {min k day} h => by
    obtain ⟨e, hmem, rfl⟩ := lastSwitch_mem h
    unfold Cistern.dayTable at hmem
    split at hmem
    · exact (hset.weekend.2 e hmem).2
    · exact (hset.weekday.2 e hmem).2
  unfold Cistern.tariffNow
  dsimp only
  split
  · decide
  · split
    · next h => exact hday h
    · cases h : lastSwitch 1439 (c.dayTable (c.localTime / 86400 - 1)) with
      | none => decide
      | some k => exact hday h

/-! ### Replies (R335) -/

@[simp] theorem length_le (n v : Nat) : (le n v).length = n := by
  induction n generalizing v with
  | zero => rfl
  | succ n ih => exact congrArg (· + 1) (ih _)

@[simp] theorem length_padTo (n : Nat) (l : List Byte) : (padTo n l).length = n := by simp [padTo, bytesAt, upto]

theorem cisRec_bytes_length (r : CisRec) : r.bytes.length = 16 := by simp [CisRec.bytes]

theorem profEntry_bytes_length (e : ProfEntry) : e.bytes.length = 32 := by simp [ProfEntry.bytes]

/-- At most `n` records of at most `k` bytes. -/
theorem length_records_le {l : List (List Byte)} {n k m : Nat} (hk : ∀ x ∈ l, x.length ≤ k) :
    (((l.drop m).take n).flatMap id).length ≤ n * k := by
  rw [List.length_flatMap]
  refine (List.sum_le_card_nsmul _ k fun y hy => ?_).trans ?_
  · obtain ⟨x, hx, rfl⟩ := List.mem_map.mp hy
    exact hk x (List.mem_of_mem_drop (List.mem_of_mem_take hx))
  · rw [List.length_map, smul_eq_mul]
    exact Nat.mul_le_mul_right k (List.length_take_le _ _)

theorem answer_length {q : CisReq} (hq : q.Wf) (c : Cistern) : (c.answer q).length ≤ 4096 := by
  unfold Cistern.answer
  dsimp only
  obtain ⟨hreq, -, hcount⟩ | ⟨hreq, -, hcount⟩ | ⟨hreq, -⟩ := hq
  case inl =>
    have hlog := length_records_le (l := c.log.map CisRec.bytes) (n := q.count) (k := 16) (m := q.first) fun x hx => by
      obtain ⟨r, -, rfl⟩ := List.mem_map.mp hx
      exact (cisRec_bytes_length r).le
    rw [if_neg (by omega), if_pos hreq]
    simp only [List.length_append, length_le]
    omega
  case inr.inl =>
    have hprof := length_records_le (l := (vat c.work.prof (q.req - 2)).entries.map ProfEntry.bytes) (n := q.count) (k := 32) (m := q.first)
      fun x hx => by
        obtain ⟨e, -, rfl⟩ := List.mem_map.mp hx
        exact (profEntry_bytes_length e).le
    have h1 : q.req ≠ 1 := by omega
    have h4 : q.req ≠ 4 := by omega
    rw [if_neg h4, if_neg h1]
    simp only [List.length_append, length_le]
    omega
  case inr.inr =>
    have htext := List.length_take_le 4080 c.readout
    rw [if_pos hreq]
    simp only [List.length_append, length_le]
    omega

/-! ### Settings (R319 to R321, R329, R330) -/

theorem tableOk_wf {l : List (W16 × Byte)} (h : tableOk l = true) :
    (l.map fun e => (e.1.toNat, e.2.toNat)).length ≤ 16 ∧
      ∀ e ∈ l.map fun e => (e.1.toNat, e.2.toNat), e.1 < 1440 ∧ 1 ≤ e.2 ∧ e.2 ≤ 4 := by
  simp only [tableOk, Bool.and_eq_true, decide_eq_true_eq, List.all_eq_true] at h
  refine ⟨by simpa using h.1, fun e he => ?_⟩
  obtain ⟨x, hx, rfl⟩ := List.mem_map.mp he
  obtain ⟨⟨hmin, hlow⟩, hhigh⟩ := h.2 x hx
  exact ⟨hmin, hlow, hhigh⟩

theorem profIntOk_vput {v : Vector Nat 2} (h : ∀ k : Fin 2, profIntOk (vat v k) = true) (ch : Fin 2) {m : Nat} (hm : profIntOk m = true) :
    ∀ k : Fin 2, profIntOk (vat (vput v ch m) k) = true := fun k => by
  by_cases hk : ch.val = k.val
  · rw [hk, vat_vput_same _ _ k.isLt]
    exact hm
  · rw [vat_vput_other _ _ hk]
    exact h k

/-- A value that its rule allows keeps the invariant. -/
theorem Cistern.Inv.putSetting {c : Cistern} (hc : c.Inv) (hon : c.on = true) {x : CisSetting} (hok : c.settingOk x = true) :
    (c.putSetting x).Inv := by
  cases x with
  | ctRatio v => exact hc.changeSet { hc.set with ratios := ⟨by simpa [Cistern.settingOk, BitVec.toNat_eq] using hok, hc.set.ratios.2⟩ }
  | vtRatio v => exact hc.changeSet { hc.set with ratios := ⟨hc.set.ratios.1, by simpa [Cistern.settingOk, BitVec.toNat_eq] using hok⟩ }
  | kAct v =>
    simp only [Cistern.settingOk, Bool.and_eq_true, decide_eq_true_eq] at hok
    exact hc.changeSet { hc.set with kAct := hok.1 }
  | kReact v =>
    simp only [Cistern.settingOk, Bool.and_eq_true, decide_eq_true_eq] at hok
    exact hc.changeSet { hc.set with kReact := hok.1 }
  | tariffs w e m =>
    obtain ⟨hw, he⟩ := Bool.and_eq_true_iff.mp hok
    exact hc.changeSet { hc.set with weekday := tableOk_wf hw, weekend := tableOk_wf he }
  | demInt m => exact (hc.changeSet (x := { c.set with demInt := m.toNat }) { hc.set with demInt := hok }).demShort hon true
  | profInt ch m =>
    unfold Cistern.putSetting
    have hset : CisSettings.Wf { c.set with profInt := vput c.set.profInt ch m.toNat } :=
      { hc.set with profInt := profIntOk_vput hc.set.profInt ch hok }
    refine Cistern.Inv.onWork (hc.changeSet hset) hon ?_
    exact ProfsWf.vup hc.prof fun p hp => ⟨hp.1, rfl⟩
  | localTime o r => exact hc.changeSet { hc.set with }
  | accessCode v => exact hc.changeSet { hc.set with }

/-! ### The request queue (R334) -/

theorem requestOk_wf {d : List Byte} (h : requestOk d = true) : CisReq.Wf ⟨numAt d 1 1, numAt d 2 2, numAt d 4 4, numAt d 8 2⟩ := by
  simp only [requestOk, Bool.and_eq_true, decide_eq_true_eq] at h
  obtain ⟨⟨⟨⟨⟨-, hlow⟩, hhigh⟩, hsome⟩, hcount⟩, -⟩ := h.1
  unfold CisReq.Wf
  dsimp only
  split at hcount
  · exact .inl ⟨‹_›, hsome, hcount⟩
  · split at hcount
    · exact .inr (.inr ⟨‹_›, by omega⟩)
    · exact .inr (.inl ⟨by omega, hsome, hcount⟩)

theorem Cistern.Inv.enqueue {c : Cistern} (hc : c.Inv) (hon : c.on = true) {d : List Byte} (hok : requestOk d = true)
    (hroom : c.queue.length < 8) : (c.enqueue d).Inv :=
  { hc with
    queue := by
      refine ⟨by simpa [Cistern.enqueue] using hroom, fun q hq => ?_⟩
      obtain hold | hnew := List.mem_append.mp hq
      · exact hc.queue.2 q hold
      · exact List.mem_singleton.mp hnew ▸ requestOk_wf hok
    off := fun h => nomatch hon.symm.trans h }

theorem Cistern.Inv.serve {c : Cistern} (hc : c.Inv) (hon : c.on = true) : c.serve.Inv := by
  cases hqueue : c.queue with
  | nil => rwa [serve_nil hqueue]
  | cons q t =>
    obtain ⟨hlen, hwf⟩ := hc.queue
    rw [hqueue] at hlen hwf
    rw [serve_cons hqueue]
    exact { hc with
      queue := ⟨(Nat.le_succ _).trans hlen, fun r hr => hwf r (List.mem_cons_of_mem q hr)⟩
      reply := answer_length (hwf q List.mem_cons_self) c
      off := fun h => nomatch hon.symm.trans h }

/-! ### A period (R315 to R317) -/

theorem rmsOf_length (c : Cistern) (l : List CisSample) : (c.rmsOf l).length = 8 := by simp [Cistern.rmsOf, upto]

theorem Cistern.Inv.register {c : Cistern} (hc : c.Inv) (hon : c.on = true) (t : Nat) (p q : Int) (eP eQ eS : Nat) :
    (c.register t p q eP eQ eS).Inv :=
  { hc with off := fun h => nomatch hon.symm.trans h }

theorem Cistern.Inv.measure {c : Cistern} (hc : c.Inv) (hon : c.on = true) (l : List CisSample) : (c.measure l).Inv := by
  unfold Cistern.measure
  dsimp only
  split
  · exact hc
  · have hvalues : ∀ power : List Int, power.length = 6 → ({ c with rms := c.rmsOf l, power := power } : Cistern).Inv := fun power h =>
      { hc with rms := rmsOf_length c l, power := h }
    split
    · exact hvalues _ (by simp [upto])
    · exact (hvalues _ (by simp [upto])).register hon ..

theorem Cistern.Inv.later {c : Cistern} (hc : c.Inv) {clock up : Nat} (freq : Nat) (hup : c.up ≤ up) :
    ({ c with freq := freq, clock := clock, up := up } : Cistern).Inv :=
  { hc with session := fun t h => (hc.session t h).trans hup }

/-- The RMS values of the phases that the second profile sums are six (R321). -/
theorem addPhases_wf {rms : List Nat} (hrms : rms.length = 8) (p : ProfSt) (hp : p.Wf) :
    ProfSt.Wf { p with n := p.n + 1, sums := (p.sums.zip ((rms.take 3) ++ ((rms.drop 4).take 3))).map (fun x => x.1 + x.2) } :=
  ⟨hp.1, by simp [hp.2, hrms]⟩

theorem Cistern.Inv.afterPeriod {c : Cistern} (hc : c.Inv) (hon : c.on = true) (l : List CisInput) (freq : W32) :
    (c.afterPeriod l freq).Inv := by
  unfold Cistern.afterPeriod
  have htariff : ({ c with tariff := c.tariffNow, volts := (shiftVolts c.volts (l.take 480)).2 } : Cistern).Inv :=
    { hc with tariff := tariffNow_range hc.set }
  have hmeasure := htariff.measure hon (shiftVolts c.volts (l.take 480)).1
  have hlater := hmeasure.later (clock := c.clock + 100) (up := c.up + 100) freq.toNat (by simp)
  have hmore := hlater.profNote (by simp [hon])
  refine Cistern.Inv.onWork (hmore _) (by simp [hon]) ?_
  exact ProfsWf.vup (hmore _).prof (addPhases_wf hmeasure.rms)

theorem cis_afterPeriod_on (c : Cistern) (l : List CisInput) (freq : W32) : (c.afterPeriod l freq).on = c.on := by
  simp [Cistern.afterPeriod]

theorem cis_afterTransfer_on (c : Cistern) (l : List CisInput) (freq : W32) (delay : Fin 6291457) :
    (c.afterTransfer l freq delay).on = c.on := cis_afterPeriod_on c l freq

theorem Cistern.Inv.afterTransfer {c : Cistern} (hc : c.Inv) (hon : c.on = true) (l : List CisInput) (freq : W32) (delay : Fin 6291457) :
    (c.afterTransfer l freq delay).Inv :=
  { hc.afterPeriod hon l freq with
    reply := Nat.zero_le _
    off := fun h => nomatch ((cis_afterPeriod_on c l freq).trans hon).symm.trans h }

/-! ### Store, supply and the other rows -/

theorem Cistern.Inv.store {c : Cistern} (hc : c.Inv) (hon : c.on = true) : c.store.Inv :=
  { hc with profStored := hc.prof, off := fun h => nomatch hon.symm.trans h }

theorem Cistern.Inv.stop {c : Cistern} (hc : c.Inv) : c.stop.Inv :=
  { hc.note 2 0 false with
    profStored := hc.prof
    queue := ⟨Nat.zero_le _, fun _ h => nomatch h⟩
    reply := Nat.zero_le _
    session := fun _ h => nomatch h
    off := fun _ => ⟨rfl, rfl, rfl, rfl⟩ }

theorem Cistern.Inv.wake {c : Cistern} (hc : c.Inv) (hoff : c.on = false) (n : W64) (k : Bool) : (c.wake n k).Inv :=
  { hc with
    prof := hc.profStored
    session := fun _ h => by
      obtain ⟨-, hnone, -, -⟩ := hc.off hoff
      cases hnone.symm.trans h
    off := fun h => nomatch h }

theorem Cistern.Inv.takeSlices {c : Cistern} (hc : c.Inv) (points : Vector CalPoints 9) : (c.takeSlices points).Inv := by
  unfold Cistern.takeSlices
  dsimp only
  refine List.foldlRecOn _ _ ?_ fun d hd i _ => ?_
  · split
    · refine Cistern.Inv.note ?_ 0x60 8 false
      exact { hc with }
    · exact { hc with }
  · have hslice := hd.note 0x60 i false
    split
    · exact hd
    · split
      · exact { hslice with }
      · refine Cistern.Inv.note ?_ 0x62 i false
        exact { hslice with }

/-- The demand interval shortened and the profile intervals marked, as at power-up and at a clock setting. -/
theorem Cistern.Inv.shorten {c : Cistern} (hc : c.Inv) (hon : c.on = true) (bits : Nat) : ((c.demShort false).profNote bits).Inv :=
  (hc.demShort hon false).profNote hon bits

theorem Cistern.Inv.start {c : Cistern} (hc : c.Inv) (hoff : c.on = false) (points : Vector CalPoints 9) (n : W64) (k : Bool) :
    (c.start points n k).Inv := by
  have hslices := ((hc.wake hoff n k).note 1 (min 0xFFFFFFFF (n.toNat / 1000)) false).takeSlices points
  exact hslices.shorten (by simp [Cistern.wake]) 5

theorem Cistern.Inv.checkSpare {c : Cistern} (hc : c.Inv) (far : Bool) : (c.checkSpare far).Inv := by
  have hchecked : ({ c with spareAt := c.up, warn := far } : Cistern).Inv := { hc with }
  unfold Cistern.checkSpare
  dsimp only
  split
  · exact hchecked
  · exact hchecked.note ..

theorem Cistern.Inv.endSession {c : Cistern} (hc : c.Inv) : ({ c with session := none } : Cistern).Inv :=
  { hc with
    session := fun _ h => nomatch h
    off := fun h => let ⟨hstored, _, hqueue, hreply⟩ := hc.off h; ⟨hstored, rfl, hqueue, hreply⟩ }

theorem Cistern.Inv.endDemand {c : Cistern} (hc : c.Inv) (hon : c.on = true) : c.endDemand.Inv := by
  unfold Cistern.endDemand
  refine Cistern.Inv.onWork hc hon ?_
  exact hc.prof

theorem Cistern.Inv.endProfile {c : Cistern} (hc : c.Inv) (hon : c.on = true) (ch : Fin 2) : (c.endProfile ch).Inv := by
  unfold Cistern.endProfile
  refine Cistern.Inv.onWork hc hon ?_
  exact ProfsWf.vup hc.prof fun _ _ => ⟨List.length_take_le _ _, rfl⟩

theorem Cistern.Inv.clearRegisters {c : Cistern} (hc : c.Inv) (hon : c.on = true) : c.clearRegisters.Inv := by
  unfold Cistern.clearRegisters
  refine Cistern.Inv.note (Cistern.Inv.onWork hc hon ?_) ..
  exact ProfsWf.vup hc.prof fun _ hp => ⟨hp.1, hp.2⟩

theorem Cistern.Inv.clearMaxima {c : Cistern} (hc : c.Inv) (hon : c.on = true) : c.clearMaxima.Inv := by
  unfold Cistern.clearMaxima
  refine Cistern.Inv.note (Cistern.Inv.onWork hc hon ?_) ..
  exact hc.prof

theorem Cistern.Inv.setClock {c : Cistern} (hc : c.Inv) (hon : c.on = true) (x : W32) (d : Int) (l : List (Nat × Int)) :
    (c.setClock x d l).Inv := by
  unfold Cistern.setClock
  refine Cistern.Inv.note (Cistern.Inv.shorten ?_ ?_ 3) ..
  · exact { hc with }
  · exact hon

theorem Cistern.Inv.toggleSeal {c : Cistern} (hc : c.Inv) (hon : c.on = true) : c.toggleSeal.Inv := by
  have hended := (hc.profNote hon (64 * (!c.sealed).toNat)).endSession
  unfold Cistern.toggleSeal
  refine Cistern.Inv.note ?_ ..
  exact { hended with }

theorem Cistern.Inv.calibrate {c : Cistern} (hc : c.Inv) (ch : Fin 8) (x : CisCal) : (c.calibrate ch x).Inv := by
  unfold Cistern.calibrate
  refine Cistern.Inv.note ?_ ..
  exact { hc with }

theorem Cistern.Inv.replaceFirmware {c : Cistern} (hc : c.Inv) (part : List Byte) : (c.replaceFirmware part).Inv := by
  unfold Cistern.replaceFirmware
  refine Cistern.Inv.note ?_ ..
  exact { hc with }

theorem Cistern.Inv.changeSetting {c : Cistern} (hc : c.Inv) (hon : c.on = true) {x : CisSetting} (hok : c.settingOk x = true) :
    (c.changeSetting x).Inv := (hc.putSetting hon hok).note ..

theorem Cistern.Inv.reject {c : Cistern} (hc : c.Inv) : c.reject.Inv := by
  have hcount : ({ c with rejects := c.rejects + 1 } : Cistern).Inv := { hc with }
  unfold Cistern.reject
  dsimp only
  split
  · next r l hlog =>
    split
    · have hlen := hc.log
      rw [hlog] at hlen
      exact { hcount with log := hlen }
    · exact hcount.note ..
  · exact hcount.note ..

theorem cis_setClock_on (c : Cistern) (x : W32) (d : Int) (l : List (Nat × Int)) : (c.setClock x d l).on = c.on := by
  simp [Cistern.setClock]

theorem cis_changeSetting_on (c : Cistern) (x : CisSetting) : (c.changeSetting x).on = c.on := by
  obtain ⟨-, -, -, -, -, -, hon, -⟩ := putSetting_fr c x
  exact hon

theorem goes_inv {c d : Cistern} {i : Instr} (hc : c.Inv) (h : c.Goes i d) : d.Inv := by
  cases h with
  | rests => exact hc
  | refuses => exact hc.refuse
  | denies hon => exact hc.deny hon
  | measures hon => exact (hc.afterTransfer hon ..).serve ((cis_afterTransfer_on ..).trans hon)
  | stores hon => exact hc.store hon
  | stops hon => exact hc.stop
  | starts hoff => exact hc.start hoff ..
  | restarts hon => exact hc.endSession.note ..
  | checks hon => exact hc.checkSpare _
  | endsDemand hon => exact hc.endDemand hon
  | endsProfile hon => exact hc.endProfile hon _
  | toggles hon => exact hc.toggleSeal hon
  | reads hon => exact { hc with }
  | opens hon => exact hc.accept hon
  | expires => exact hc.endSession
  | calibrates hon => exact (hc.calibrate ..).accept hon
  | changes hon _ _ hok => exact (hc.changeSetting hon hok).accept ((cis_changeSetting_on ..).trans hon)
  | clears hon => exact (hc.clearRegisters hon).accept hon
  | replaces hon => exact (hc.replaceFirmware _).accept hon
  | setsClock hon => exact (hc.setClock hon ..).accept ((cis_setClock_on ..).trans hon)
  | deniesClock hon => exact (hc.deny hon).note ..
  | clearsMaxima hon => exact (hc.clearMaxima hon).accept hon
  | rejects hon => exact hc.reject
  | drops hon => exact { hc with }
  | queues hon hok hroom => exact hc.enqueue hon hok hroom

/-- Settles O50: every outcome of a step keeps the invariant (`goes_inv`). -/
theorem cisternInvKept : Obligations.CisternInvKept := by
  unfold Obligations.CisternInvKept
  intro s t hinv h
  obtain heq | ⟨i, r, -, hgoes⟩ := step_goes h
  · rwa [heq]
  · exact goes_inv hinv hgoes

/-- Settles O51: each part at the values of State.reset. -/
theorem cisternInvAtReset : Obligations.CisternInvAtReset where
  set := ⟨by decide, by decide, by decide, by decide, by decide, by decide, by decide⟩
  log := by decide
  prof := profsWf_replicate
  profStored := profsWf_replicate
  queue := ⟨Nat.zero_le _, fun _ h => nomatch h⟩
  reply := Nat.zero_le _
  rms := rfl
  power := rfl
  tariff := by decide
  session := fun _ h => nomatch h
  off := fun h => nomatch h

end Sys2Proof.Machine
end

section
/-! SUPPORT. Block code on the control cores: a row by the fields of its word (R375 to R377), and what each row computes (O10, O11). -/

namespace Sys2Proof.Machine

open Host

/-! ### Rows that an opcode names -/

theorem isOp_of_opOf {o w : Nat} (h : opOf w = o) : isOp o w = true := beq_iff_eq.mpr h

/-- The row of an opcode whose word does not fault gives its core's new state and nothing else. -/
theorem exec_opcode {i : Fin 8 → Instr} {o : Nat} {f : App → Fin 8 → Nat → CtlCore → CoreStep}
    (hexec : ∀ k s, exec (i k) s = s.onApp fun a => a.runInstr k (isOp o) (f a k)) {s : State} {k : Fin 8} {w : Nat}
    (hrun : Executing s.app k w) (hop : opOf w = o) (hknown : opKnown o = true ∧ o ≠ 0x90) {c : CtlCore}
    (hf : f s.app k w (s.app.core k).past = .ok c) : exec (i k) s = .next (s.withCore k c) :=
  core_runs hexec hrun o hop hknown.1 (absurd · hknown.2) (isOp_of_opOf hop) hf

/-- The row of an opcode whose word faults discards the scan with that fault. -/
theorem exec_opcode_faults {i : Fin 8 → Instr} {o sub : Nat} {f : App → Fin 8 → Nat → CtlCore → CoreStep}
    (hexec : ∀ k s, exec (i k) s = s.onApp fun a => a.runInstr k (isOp o) (f a k)) {s : State} {k : Fin 8} {w : Nat}
    (hrun : Executing s.app k w) (hop : opOf w = o) (hknown : opKnown o = true ∧ o ≠ 0x90)
    (hf : f s.app k w (s.app.core k).past = .error sub) : exec (i k) s = .next (s.withApp (s.app.scanFault k sub)) :=
  exec_onApp_acts hrun.up (hexec k s)
    (runInstr_fault hrun (by rw [hop]; exact hknown.1) (by rw [hop]; exact (absurd · hknown.2)) (isOp_of_opOf hop) hf)

/-! ### The parts of an instruction -/

theorem orFault_ok {b : Bool} (h : b = true) (sub : Nat) : orFault b sub = .ok () := if_pos h

theorem orFault_error {b : Bool} (h : b = false) (sub : Nat) : orFault b sub = .error sub := if_neg (Bool.eq_false_iff.mp h)

/-- A register whose tag is not accepted faults (R373). -/
theorem need_error {c : CtlCore} {i : Nat} {tags : List Nat} (h : (c.reg i).tag ∉ tags) : c.need i tags = .error 17 := by
  simp [CtlCore.need, h]

theorem rForm_wordR (o d a b : Nat) : rForm (wordR o d a b) = .ok () :=
  orFault_ok (by rw [low_wordR]; rfl) 16

theorem rForm1_wordR (o d a : Nat) : rForm1 (wordR o d a 0) = .ok () :=
  orFault_ok (by simp only [wordR, bitsOf, beq_iff_eq]; omega) 16

/-! ### Operands of one tag -/

section Forms

variable {o d a b : Nat} {tags : List Nat} {c : CtlCore}

theorem binary_ok {f : Nat → W64 → W64 → W64} (hd : d < 64) (ha : a < 64) (hb : b < 64)
    (htag : (c.reg a).tag ∈ tags) (hsame : (c.reg b).tag = (c.reg a).tag) :
    binary tags f (wordR o d a b) c = .ok (c.put d (f (c.reg a).tag (c.reg a).v (c.reg b).v) (c.reg a).tag) := by
  unfold binary
  rw [rForm_wordR, fd_wordR hd ha hb, fa_wordR ha hb, fb_wordR hb, need2_ok htag hsame]
  rfl

theorem unary_ok {f : Nat → W64 → W64} (hd : d < 64) (ha : a < 64) (htag : (c.reg a).tag ∈ tags) :
    unary tags f (wordR o d a 0) c = .ok (c.put d (f (c.reg a).tag (c.reg a).v) (c.reg a).tag) := by
  unfold unary
  rw [rForm1_wordR, fd_wordR hd ha (by decide), fa_wordR ha (by decide), need_ok htag]
  rfl

theorem compare2_ok {f : Nat → W64 → W64 → Bool} (hd : d < 64) (ha : a < 64) (hb : b < 64)
    (htag : (c.reg a).tag ∈ tags) (hsame : (c.reg b).tag = (c.reg a).tag) :
    compare2 tags f (wordR o d a b) c = .ok (c.put d (if f (c.reg a).tag (c.reg a).v (c.reg b).v then 1 else 0) Tag.bool) := by
  unfold compare2
  rw [rForm_wordR, fd_wordR hd ha hb, fa_wordR ha hb, fb_wordR hb, need2_ok htag hsame]
  rfl

theorem shift_ok {tag : Nat} {f : W64 → Nat → W64} (hd : d < 64) (ha : a < 64) (hb : b < 64)
    (htag : (c.reg a).tag = tag) (hcount : (c.reg b).tag ∈ [Tag.int, Tag.uint]) :
    shift tag f (wordR o d a b) c = .ok (c.put d (f (c.reg a).v ((c.reg b).v.toNat % 64)) tag) := by
  subst htag
  unfold shift
  rw [rForm_wordR, fd_wordR hd ha hb, fa_wordR ha hb, fb_wordR hb, need_ok (List.mem_singleton_self _), need_ok hcount]
  rfl

end Forms

section Rows

variable {i : Fin 8 → Instr} {o : Nat} {tags : List Nat}

/-- A row of two operands of one accepted tag gives its result with that tag (R374, R377). -/
theorem exec_binary {f g : Nat → W64 → W64 → W64}
    (hexec : ∀ k s, exec (i k) s = s.onApp fun a => a.runInstr k (isOp o) (binary tags f))
    (ho : o < 256 ∧ opKnown o = true ∧ o ≠ 0x90) (hf : ∀ t ∈ tags, f t = g t)
    (s : State) (k : Fin 8) (d a b : Nat) (hd : d < 64) (ha : a < 64) (hb : b < 64) (hrun : Executing s.app k (wordR o d a b))
    (htag : ((s.app.core k).reg a).tag ∈ tags) (hsame : ((s.app.core k).reg b).tag = ((s.app.core k).reg a).tag) :
    exec (i k) s = .next (s.withCore k ((s.app.core k).past.put d
      (g ((s.app.core k).reg a).tag ((s.app.core k).reg a).v ((s.app.core k).reg b).v) ((s.app.core k).reg a).tag)) := by
  rw [← hf _ htag]
  exact exec_opcode hexec hrun (opOf_wordR ho.1 hd ha hb) ho.2 (binary_ok hd ha hb htag hsame)

/-- A row of one operand gives its result with the operand's tag (R374, R377). -/
theorem exec_unary {f : Nat → W64 → W64}
    (hexec : ∀ k s, exec (i k) s = s.onApp fun a => a.runInstr k (isOp o) (unary tags f)) (ho : o < 256 ∧ opKnown o = true ∧ o ≠ 0x90)
    (s : State) (k : Fin 8) (d a : Nat) (hd : d < 64) (ha : a < 64) (hrun : Executing s.app k (wordR o d a 0))
    (htag : ((s.app.core k).reg a).tag ∈ tags) :
    exec (i k) s = .next (s.withCore k ((s.app.core k).past.put d
      (f ((s.app.core k).reg a).tag ((s.app.core k).reg a).v) ((s.app.core k).reg a).tag)) :=
  exec_opcode hexec hrun (opOf_wordR ho.1 hd ha (by decide)) ho.2 (unary_ok hd ha htag)

/-- A comparison of two operands of one accepted tag gives a BOOL (R374, R377). -/
theorem exec_compare {f g : Nat → W64 → W64 → Bool}
    (hexec : ∀ k s, exec (i k) s = s.onApp fun a => a.runInstr k (isOp o) (compare2 tags f))
    (ho : o < 256 ∧ opKnown o = true ∧ o ≠ 0x90) (hf : ∀ t ∈ tags, f t = g t)
    (s : State) (k : Fin 8) (d a b : Nat) (hd : d < 64) (ha : a < 64) (hb : b < 64) (hrun : Executing s.app k (wordR o d a b))
    (htag : ((s.app.core k).reg a).tag ∈ tags) (hsame : ((s.app.core k).reg b).tag = ((s.app.core k).reg a).tag) :
    exec (i k) s = .next (s.withCore k ((s.app.core k).past.put d
      (if g ((s.app.core k).reg a).tag ((s.app.core k).reg a).v ((s.app.core k).reg b).v then 1#64 else 0#64) Tag.bool)) := by
  rw [← hf _ htag]
  exact exec_opcode hexec hrun (opOf_wordR ho.1 hd ha hb) ho.2 (compare2_ok hd ha hb htag hsame)

/-- A shift by a count of tag INT or UINT modulo 64 (R377). -/
theorem exec_shift {tag : Nat} {f : W64 → Nat → W64}
    (hexec : ∀ k s, exec (i k) s = s.onApp fun a => a.runInstr k (isOp o) (shift tag f)) (ho : o < 256 ∧ opKnown o = true ∧ o ≠ 0x90)
    (s : State) (k : Fin 8) (d a b : Nat) (hd : d < 64) (ha : a < 64) (hb : b < 64) (hrun : Executing s.app k (wordR o d a b))
    (htag : ((s.app.core k).reg a).tag = tag) (hcount : ((s.app.core k).reg b).tag ∈ [Tag.int, Tag.uint]) :
    exec (i k) s = .next (s.withCore k ((s.app.core k).past.put d
      (f ((s.app.core k).reg a).v (((s.app.core k).reg b).v.toNat % 64)) tag)) :=
  exec_opcode hexec hrun (opOf_wordR ho.1 hd ha hb) ho.2 (shift_ok hd ha hb htag hcount)

end Rows

/-! ### Values (R374) -/

/-- A value of an integer tag as a number: unsigned for UINT alone. -/
theorem numOf_of_integer {t : Nat} (ht : t ∈ [Tag.int, Tag.uint, Tag.time]) (x : W64) :
    numOf t x = if t = Tag.uint then (x.toNat : Int) else x.toInt := by
  simp only [List.mem_cons, List.not_mem_nil, or_false] at ht
  obtain rfl | rfl | rfl := ht <;> rfl

theorem divOf_of_integer {t : Nat} (ht : t ∈ [Tag.int, Tag.uint, Tag.time]) :
    divOf t = fun x y => if y = 0#64 then 0#64 else BitVec.ofInt 64
      ((if t = Tag.uint then (x.toNat : Int) else x.toInt).tdiv (if t = Tag.uint then (y.toNat : Int) else y.toInt)) := by
  funext x y
  rw [divOf, numOf_of_integer ht, numOf_of_integer ht]
  rfl

theorem modOf_of_integer {t : Nat} (ht : t ∈ [Tag.int, Tag.uint, Tag.time]) :
    modOf t = fun x y => if y = 0#64 then x else BitVec.ofInt 64
      ((if t = Tag.uint then (x.toNat : Int) else x.toInt).tmod (if t = Tag.uint then (y.toNat : Int) else y.toInt)) := by
  funext x y
  rw [modOf, numOf_of_integer ht, numOf_of_integer ht]

/-- The order of two values of an integer tag. -/
theorem ltOf_of_integer {t : Nat} (ht : t ∈ [Tag.int, Tag.uint, Tag.time]) (x y : W64) :
    ltOf t x y = decide ((if t = Tag.uint then (x.toNat : Int) else x.toInt) < if t = Tag.uint then (y.toNat : Int) else y.toInt) := by
  have hint : isFlt t = false := by
    simp only [List.mem_cons, List.not_mem_nil, or_false] at ht
    obtain rfl | rfl | rfl := ht <;> rfl
  rw [ltOf, hint, numOf_of_integer ht, numOf_of_integer ht, if_neg Bool.false_ne_true]

theorem minOf_of_integer {t : Nat} (ht : t ∈ [Tag.int, Tag.uint, Tag.time]) :
    (fun x y : W64 => if ltOf t y x then y else x) = fun x y =>
      if (if t = Tag.uint then (y.toNat : Int) else y.toInt) < (if t = Tag.uint then (x.toNat : Int) else x.toInt) then y else x := by
  funext x y
  simp only [ltOf_of_integer ht, decide_eq_true_eq]

theorem maxOf_of_integer {t : Nat} (ht : t ∈ [Tag.int, Tag.uint, Tag.time]) :
    (fun x y : W64 => if ltOf t x y then y else x) = fun x y =>
      if (if t = Tag.uint then (x.toNat : Int) else x.toInt) < (if t = Tag.uint then (y.toNat : Int) else y.toInt) then y else x := by
  funext x y
  simp only [ltOf_of_integer ht, decide_eq_true_eq]

/-- Settles O10: each row is `exec_binary` with its opcode, its tags and its result. -/
theorem coreArithmetic : Obligations.CoreArithmetic := by
  unfold Obligations.CoreArithmetic
  intro row num
  have hrow {i : Fin 8 → Instr} {o : Nat} {tags : List Nat} {f g : Nat → W64 → W64 → W64}
      (hexec : ∀ k s, exec (i k) s = s.onApp fun a => a.runInstr k (isOp o) (binary tags f))
      (ho : o < 256 ∧ opKnown o = true ∧ o ≠ 0x90) (hf : ∀ t ∈ tags, f t = g t) : row i o tags g := exec_binary hexec ho hf
  clear_value row
  exact ⟨hrow (fun k s => show execAdd k s = _ from rfl) (by decide) fun _ _ => rfl,
    hrow (fun k s => show execSub k s = _ from rfl) (by decide) fun _ _ => rfl,
    hrow (fun k s => show execMul k s = _ from rfl) (by decide) fun _ _ => rfl,
    hrow (fun k s => show execDiv k s = _ from rfl) (by decide) fun _ => divOf_of_integer,
    hrow (fun k s => show execMod k s = _ from rfl) (by decide) fun _ => modOf_of_integer,
    hrow (fun k s => show execMin k s = _ from rfl) (by decide) fun _ => minOf_of_integer,
    hrow (fun k s => show execMax k s = _ from rfl) (by decide) fun _ => maxOf_of_integer,
    hrow (fun k s => show execAnd k s = _ from rfl) (by decide) fun _ _ => rfl,
    hrow (fun k s => show execOr k s = _ from rfl) (by decide) fun _ _ => rfl,
    hrow (fun k s => show execXor k s = _ from rfl) (by decide) fun _ _ => rfl,
    hrow (fun k s => show execFadd k s = _ from rfl) (by decide) fun _ _ => rfl,
    hrow (fun k s => show execFsub k s = _ from rfl) (by decide) fun _ _ => rfl,
    hrow (fun k s => show execFmul k s = _ from rfl) (by decide) fun _ _ => rfl,
    hrow (fun k s => show execFdiv k s = _ from rfl) (by decide) fun _ _ => rfl,
    hrow (fun k s => show execFmin k s = _ from rfl) (by decide) fun _ _ => rfl,
    hrow (fun k s => show execFmax k s = _ from rfl) (by decide) fun _ _ => rfl⟩

/-- The order of two values of a tag that CLT and CLE accept. -/
theorem ltOf_of_ordered {t : Nat} (ht : t ∈ [Tag.int, Tag.uint, Tag.real, Tag.lreal, Tag.time]) (x y : W64) :
    ltOf t x y = if isFlt t then fLt (fltOf t x) (fltOf t y)
      else if t = Tag.uint then decide (x.toNat < y.toNat) else decide (x.toInt < y.toInt) := by
  simp only [List.mem_cons, List.not_mem_nil, or_false] at ht
  obtain rfl | rfl | rfl | rfl | rfl := ht
  case inr.inl => exact decide_eq_decide.mpr Int.ofNat_lt
  all_goals rfl

theorem eqOf_eq (t : Nat) (x y : W64) : eqOf t x y = if isFlt t then fEq (fltOf t x) (fltOf t y) else decide (x = y) := by
  rw [eqOf, Bool.beq_eq_decide_eq]

/-- Settles O11: each row is `exec_unary`, `exec_shift` or `exec_compare` with its opcode, its tags and its result. -/
theorem coreUnaryShiftCompare : Obligations.CoreUnaryShiftCompare := by
  unfold Obligations.CoreUnaryShiftCompare
  intro one shifts cmp eq lt
  have hone {i : Fin 8 → Instr} {o : Nat} {tags : List Nat} {f : Nat → W64 → W64}
      (hexec : ∀ k s, exec (i k) s = s.onApp fun a => a.runInstr k (isOp o) (unary tags f))
      (ho : o < 256 ∧ opKnown o = true ∧ o ≠ 0x90) : one i o tags f := exec_unary hexec ho
  have hshift {i : Fin 8 → Instr} {o tag : Nat} {f : W64 → Nat → W64}
      (hexec : ∀ k s, exec (i k) s = s.onApp fun a => a.runInstr k (isOp o) (shift tag f))
      (ho : o < 256 ∧ opKnown o = true ∧ o ≠ 0x90) : shifts i o tag f := exec_shift hexec ho
  have hcmp {i : Fin 8 → Instr} {o : Nat} {tags : List Nat} {f g : Nat → W64 → W64 → Bool}
      (hexec : ∀ k s, exec (i k) s = s.onApp fun a => a.runInstr k (isOp o) (compare2 tags f))
      (ho : o < 256 ∧ opKnown o = true ∧ o ≠ 0x90) (hf : ∀ t ∈ tags, f t = g t) : cmp i o tags g := exec_compare hexec ho hf
  clear_value one shifts cmp
  refine ⟨hone (fun k s => show execNeg k s = _ from rfl) (by decide), hone (fun k s => show execAbs k s = _ from rfl) (by decide),
    hone (fun k s => show execNot k s = _ from rfl) (by decide), hone (fun k s => show execFsqrt k s = _ from rfl) (by decide),
    hone (fun k s => show execFabs k s = _ from rfl) (by decide), hone (fun k s => show execFneg k s = _ from rfl) (by decide),
    hshift (fun k s => show execShl k s = _ from rfl) (by decide), hshift (fun k s => show execShr k s = _ from rfl) (by decide),
    hshift (fun k s => show execSar k s = _ from rfl) (by decide), hshift (fun k s => show execRol k s = _ from rfl) (by decide),
    hshift (fun k s => show execRor k s = _ from rfl) (by decide),
    hcmp (fun k s => show execCeq k s = _ from rfl) (by decide) fun t ht => ?ceq,
    hcmp (fun k s => show execCne k s = _ from rfl) (by decide) fun t ht => ?cne,
    hcmp (fun k s => show execClt k s = _ from rfl) (by decide) fun t ht => ?clt,
    hcmp (fun k s => show execCle k s = _ from rfl) (by decide) fun t ht => ?cle⟩
  all_goals funext x y
  case ceq => exact eqOf_eq t x y
  case cne => rw [eqOf_eq]
  case clt => exact ltOf_of_ordered ht x y
  case cle => rw [ltOf_of_ordered ht, eqOf_eq]

end Sys2Proof.Machine
end

section
/-! SUPPORT. Moves, constants, conversions, instance data, flow, service calls and traps of the control cores (O12 to O15, O17). -/

namespace Sys2Proof.Machine

open Host

/-! ### Signed fields (R375) -/

theorem asSigned_eq_toInt {w v : Nat} (hw : 0 < w) (hv : v < 2 ^ w) : asSigned w v = (BitVec.ofNat w v).toInt := by
  have hpow : 2 ^ w = 2 * 2 ^ (w - 1) := by rw [← Nat.pow_succ', Nat.succ_eq_add_one, Nat.sub_add_cancel hw]
  have hcond : v < 2 ^ (w - 1) ↔ 2 * v < 2 ^ w := by omega
  simp only [asSigned, BitVec.toInt_eq_toNat_cond, BitVec.toNat_ofNat, Nat.mod_eq_of_lt hv, hcond]
  norm_cast

theorem ofInt_asSigned {w v : Nat} (hw : 0 < w) (hv : v < 2 ^ w) : BitVec.ofInt 64 (asSigned w v) = (BitVec.ofNat w v).signExtend 64 := by
  rw [asSigned_eq_toInt hw hv]
  rfl

theorem fdisp_wordX {o d i : Nat} (hi : i < 2 ^ 18) : fdisp (wordX o d i) = (BitVec.ofNat 18 i).toInt := by
  rw [fdisp, fidx_wordX hi, asSigned_eq_toInt (by decide) hi]

/-! ### Moves, constants and conversions (R374, R375, R377) -/

theorem mem_tags_of_bounds {t : Nat} (hlow : 1 ≤ t) (hhigh : t ≤ 8) : t ∈ [1, 2, 3, 4, 5, 6, 7, 8] := by
  simp only [List.mem_cons, List.not_mem_nil, or_false]
  omega

theorem instrMov_ok {o d a : Nat} {c : CtlCore} (hd : d < 64) (ha : a < 64) (hlow : 1 ≤ (c.reg a).tag) (hhigh : (c.reg a).tag ≤ 8) :
    instrMov (wordR o d a 0) c = .ok (c.put d (c.reg a).v (c.reg a).tag) := by
  unfold instrMov
  rw [rForm1_wordR, fd_wordR hd ha (by decide), fa_wordR ha (by decide), need_ok (mem_tags_of_bounds hlow hhigh)]
  rfl

theorem instrLdc_ok {o d ty i : Nat} {p : Int} {code : List Byte} {c : CtlCore} (hd : d < 64) (hlow : 1 ≤ ty) (hhigh : ty ≤ 7)
    (hi : i < 2 ^ 14) (hp : (c.pc : Int) + 4 * (BitVec.ofNat 14 i).toInt = p) (hstart : 0 ≤ p) (hend : p + 8 ≤ code.length) :
    instrLdc code (wordX o d (ty * 2 ^ 14 + i)) c = .ok (c.put d (BitVec.ofNat 64 (numAt code p.toNat 8)) ty) := by
  have hty : bitsOf (wordX o d (ty * 2 ^ 14 + i)) 14 4 = ty := by simp only [wordX, bitsOf]; omega
  have hdisp : bitsOf (wordX o d (ty * 2 ^ 14 + i)) 0 14 = i := by simp only [wordX, bitsOf]; omega
  unfold instrLdc
  rw [hty, hdisp, asSigned_eq_toInt (by decide) hi, fd_wordX hd (by omega)]
  dsimp only
  rw [hp, orFault_ok (by simp [hlow, hhigh]) 16, orFault_ok (by simp [hstart, hend]) 27]
  rfl

/-- The type field of TAG and CVT (R375). -/
theorem typeField_wordI {o d a ty : Nat} (hty : ty < 16) :
    bitsOf (wordI o d a (ty * 2 ^ 8)) 0 8 = 0 ∧ fty (wordI o d a (ty * 2 ^ 8)) = ty := by
  simp only [wordI, fty, bitsOf]
  omega

/-- The type codes that TAG and CVT name are those of the tags 1 to 7. -/
theorem typeCode_bounds {ty : Nat} (h : ty ∈ [Tag.bool, Tag.int, Tag.uint, Tag.real, Tag.lreal, Tag.bits, Tag.time]) : 1 ≤ ty ∧ ty < 8 := by
  simp only [List.mem_cons, List.not_mem_nil, or_false] at h
  obtain rfl | rfl | rfl | rfl | rfl | rfl | rfl := h <;> decide

theorem instrTag_ok {o d a ty : Nat} {c : CtlCore} (hd : d < 64) (ha : a < 64) (hlow : 1 ≤ ty) (hhigh : ty < 8)
    (htag : (c.reg a).tag ∈ [2, 3, 6, 7])
    (hty : ty ∈ [2, 3, 6, 7] ∨ ty = Tag.bool ∧ (c.reg a).v.toNat ≤ 1) :
    instrTag (wordI o d a (ty * 2 ^ 8)) c = .ok (c.put d (c.reg a).v ty) := by
  have hto : ([2, 3, 6, 7].contains ty || (ty == 1 && decide ((c.reg a).v.toNat ≤ 1))) = true := by
    obtain hty | ⟨rfl, hbool⟩ := hty
    · rw [List.contains_iff_mem.mpr hty]; rfl
    · rw [decide_eq_true hbool]; rfl
  obtain ⟨hzero, hfield⟩ := typeField_wordI (o := o) (d := d) (a := a) (ty := ty) (by omega)
  unfold instrTag
  rw [hzero, hfield, fd_wordI hd ha (by omega), fa_wordI ha (by omega), need_ok htag, orFault_ok (by simp [hlow, hhigh.le]) 16]
  dsimp only [bind, Except.bind]
  rw [orFault_ok hto 17]

theorem instrCvt_ok {o d a ty : Nat} {c : CtlCore} (hd : d < 64) (ha : a < 64) (hlow : 1 ≤ ty) (hhigh : ty < 8)
    (htag : (c.reg a).tag ∈ [1, 2, 3, 4, 5, 7])
    (hty : ty ∈ [1, 2, 3, 4, 5, 7]) :
    instrCvt (wordI o d a (ty * 2 ^ 8)) c = .ok (c.put d (cvtOf (c.reg a).tag ty (c.reg a).v) ty) := by
  obtain ⟨hzero, hfield⟩ := typeField_wordI (o := o) (d := d) (a := a) (ty := ty) (by omega)
  unfold instrCvt
  rw [hzero, hfield, fd_wordI hd ha (by omega), fa_wordI ha (by omega), need_ok htag, orFault_ok (by simp [hlow, hhigh.le]) 16]
  dsimp only [bind, Except.bind]
  rw [orFault_ok (List.contains_iff_mem.mpr hty) 17]

theorem instrSel_ok {o d a b : Nat} {c : CtlCore} (hd : d < 64) (ha : a < 64) (hb : b < 64) (hbool : (c.reg d).tag = Tag.bool)
    (hlow : 1 ≤ (c.reg a).tag) (hhigh : (c.reg a).tag ≤ 8) (hsame : (c.reg b).tag = (c.reg a).tag) :
    instrSel (wordR o d a b) c = .ok (c.put d (if (c.reg d).v = 0#64 then (c.reg b).v else (c.reg a).v) (c.reg a).tag) := by
  unfold instrSel
  rw [rForm_wordR, fd_wordR hd ha hb, fa_wordR ha hb, fb_wordR hb, need_ok (by rw [hbool]; exact List.mem_singleton_self _),
    need2_ok (mem_tags_of_bounds hlow hhigh) hsame]
  dsimp only [bind, Except.bind]
  split
  · rw [hsame]
  · rfl

theorem instrAddi_ok {o d a i : Nat} {c : CtlCore} (hd : d < 64) (ha : a < 64) (hi : i < 2 ^ 12)
    (htag : (c.reg a).tag ∈ [2, 3, 7]) :
    instrAddi (wordI o d a i) c = .ok (c.put d ((c.reg a).v + (BitVec.ofNat 12 i).signExtend 64) (c.reg a).tag) := by
  unfold instrAddi
  rw [fd_wordI hd ha hi, fa_wordI ha hi, fimm_wordI hi, need_ok htag, ofInt_asSigned (by decide) hi]
  rfl

/-- Settles O12: each row is `exec_opcode` with what its instruction gives. -/
theorem coreMoves : Obligations.CoreMoves := by
  unfold Obligations.CoreMoves
  refine ⟨fun s k hrun => ?nop, fun s k d a hd ha hrun hlow hhigh => ?mov, fun s k d i hd hi hrun => ?ldi,
    fun s k d ty i hd hlow hhigh hi hrun hp hend => ?ldc, fun s k d a ty hd ha hrun htag hty => ?tag,
    fun s k d a ty hd ha hrun htag hty => ?cvt, fun s k d a b hd ha hb hrun hbool hlow hhigh hsame => ?sel,
    fun s k d a i hd ha hi hrun htag => ?addi⟩
  case nop => exact exec_opcode (i := .nopInstruction) (fun k s => show execNopInstruction k s = _ from rfl) hrun rfl (by decide) rfl
  case mov =>
    exact exec_opcode (i := .mov) (fun k s => show execMov k s = _ from rfl) hrun (opOf_wordR (by decide) hd ha (by decide)) (by decide)
      (instrMov_ok hd ha hlow hhigh)
  case ldi =>
    refine exec_opcode (i := .ldi) (fun k s => show execLdi k s = _ from rfl) hrun (opOf_wordX (by decide) hd hi) (by decide) ?_
    rw [instrLdi, fd_wordX hd hi, fidx_wordX hi, ofInt_asSigned (by decide) hi]
  case ldc =>
    exact exec_opcode (i := .ldc) (fun k s => show execLdc k s = _ from rfl) hrun (opOf_wordX (by decide) hd (by omega)) (by decide)
      (instrLdc_ok hd hlow hhigh hi (by push_cast [CtlCore.past]; rfl) hp hend)
  case tag =>
    obtain ⟨hlow, hhigh⟩ : 1 ≤ ty ∧ ty < 8 := typeCode_bounds (by
      simp only [List.mem_cons, List.not_mem_nil, or_false] at hty ⊢
      tauto)
    exact exec_opcode (i := .tag) (fun k s => show execTag k s = _ from rfl) hrun (opOf_wordI (by decide) hd ha (by omega)) (by decide)
      (instrTag_ok hd ha hlow hhigh htag hty)
  case cvt =>
    obtain ⟨hlow, hhigh⟩ : 1 ≤ ty ∧ ty < 8 := typeCode_bounds (by
      simp only [List.mem_cons, List.not_mem_nil, or_false] at hty ⊢
      tauto)
    exact exec_opcode (i := .cvt) (fun k s => show execCvt k s = _ from rfl) hrun (opOf_wordI (by decide) hd ha (by omega)) (by decide)
      (instrCvt_ok hd ha hlow hhigh htag hty)
  case sel =>
    exact exec_opcode (i := .sel) (fun k s => show execSel k s = _ from rfl) hrun (opOf_wordR (by decide) hd ha hb) (by decide)
      (instrSel_ok hd ha hb hbool hlow hhigh hsame)
  case addi =>
    exact exec_opcode (i := .addi) (fun k s => show execAddi k s = _ from rfl) hrun (opOf_wordI (by decide) hd ha hi) (by decide)
      (instrAddi_ok hd ha hi htag)

end Sys2Proof.Machine
end

section
/-! SUPPORT. Instance data, points, branches, calls and frames of the control cores (O13, O14). -/

namespace Sys2Proof.Machine

open Host

/-! ### Instance data (R378 to R381) -/

/-- The index of an instance access: none for register 63, else an INT or UINT (R379). -/
theorem instAddr_ok {o d a imm n p : Nat} {c : CtlCore} (ha : a < 64) (himm : imm < 4096)
    (hindex : a = 63 ∨ (c.reg a).tag = Tag.int ∨ (c.reg a).tag = Tag.uint)
    (hp : c.ib + (if a = 63 then 0 else (c.reg a).v.toNat) + imm * n = p) (halign : p % n = 0) (hend : p + n ≤ c.il) :
    instAddr n (wordI o d a imm) c = .ok p := by
  have hbounds : orFault (p % n == 0 && decide (p + n ≤ c.il)) 18 = .ok () := orFault_ok (by simp [halign, hend]) 18
  unfold instAddr
  rw [fa_wordI ha himm, fimm_wordI himm]
  by_cases hnone : a = 63
  · rw [if_pos hnone] at hp ⊢
    simp only [bind, Except.bind, pure, Except.pure, hp, hbounds]
  · have htag : (c.reg a).tag ∈ [Tag.int, Tag.uint] := by simpa using hindex.resolve_left hnone
    rw [if_neg hnone] at hp ⊢
    simp only [bind, Except.bind, need_ok htag, Except.map, hp, hbounds]

theorem opKnown_load : ∀ kind < 16, opKnown (0x50 + kind) = true ∧ (0x50 + kind) / 16 = 5 ∧ (0x50 + kind) % 16 = kind := by decide

theorem opKnown_store : ∀ kind < 16, opKnown (0x60 + kind) = true ∧ (0x60 + kind) / 16 = 6 ∧ (0x60 + kind) % 16 = kind := by decide

/-- A log within its limit is taken (R381). -/
theorem withLog_ok {c : CtlCore} {limit : Nat} {l : WriteLog} (h : l.size ≤ limit) : c.withLog limit l = .ok { c with log := l } := if_pos h

/-! ### Frames (R383) -/

theorem instrLdf_ok {o d i : Nat} {c : CtlCore} (hd : d < 64) (hi : i < 4096) (hslot : i < c.slots.length) :
    instrLdf (wordI o d 0 i) c = .ok (c.put d (c.slots.getD i {}).v (c.slots.getD i {}).tag) := by
  unfold instrLdf
  rw [fa_wordI (by decide) hi, fd_wordI hd (by decide) hi, fimm_wordI hi, orFault_ok (decide_eq_true hslot) 22]
  rfl

theorem instrStf_ok {o d i : Nat} {c : CtlCore} (hd : d < 64) (hi : i < 4096) (hlow : 1 ≤ (c.reg d).tag) (hhigh : (c.reg d).tag ≤ 8)
    (hslot : i < c.slots.length) : instrStf (wordI o d 0 i) c = .ok { c with slots := c.slots.set i (c.reg d) } := by
  unfold instrStf
  rw [fa_wordI (by decide) hi, fd_wordI hd (by decide) hi, fimm_wordI hi, orFault_ok (decide_eq_true hslot) 22,
    need_ok (mem_tags_of_bounds hlow hhigh)]
  rfl

/-! ### Points (R382) -/

section Points

variable {a : App} {k o d i : Nat} {c : CtlCore}

theorem inputAt_ok (hin : i < tkInCount (a.entryOf k)) :
    a.inputAt k i = .ok ((a.code.inList (a.entryOf k)).getD i 0, (a.scanOf k).snap.getD i {}) := if_pos hin

theorem outputAt_ok (hout : i < tkOutCount (a.entryOf k)) : a.outputAt k i = .ok ((a.code.outList (a.entryOf k)).getD i 0) := if_pos hout

theorem instrStp_ok {ty : Nat} {l : WriteLog} (hd : d < 64) (hi : i < 2 ^ 18) (hout : i < tkOutCount (a.entryOf k))
    (hty : ptType (a.code.point ((a.code.outList (a.entryOf k)).getD i 0)) = ty) (htag : (c.reg d).tag = typeTag ty)
    (hl : { c.log with outs := outMerge c.log.outs i (some (typeValue ty (c.reg d).v)) none } = l) (hroom : l.size ≤ a.logLimit k) :
    instrStp a k (wordX o d i) c = .ok { c with log := l } := by
  subst hl hty
  unfold instrStp
  rw [fidx_wordX hi, outputAt_ok hout, fd_wordX hd hi]
  dsimp only [bind, Except.bind]
  rw [need_ok (List.mem_singleton.mpr htag)]
  exact withLog_ok hroom

theorem instrStpq_ok (hd : d < 64) (hi : i < 2 ^ 18) (hout : i < tkOutCount (a.entryOf k)) (htag : (c.reg d).tag = Tag.bits)
    {l : WriteLog} (hl : { c.log with outs := outMerge c.log.outs i none (some (BitVec.ofNat 16 ((c.reg d).v.toNat % 2 ^ 13))) } = l)
    (hroom : l.size ≤ a.logLimit k) : instrStpq a k (wordX o d i) c = .ok { c with log := l } := by
  subst hl
  unfold instrStpq
  rw [fidx_wordX hi, outputAt_ok hout, fd_wordX hd hi, need_ok (List.mem_singleton.mpr htag)]
  exact withLog_ok hroom

end Points

/-- Settles O13: each row by what its instruction gives; a load and a store are the row of all sixteen kinds. -/
theorem coreData : Obligations.CoreData := by
  unfold Obligations.CoreData
  intro index indexOk logged
  refine ⟨fun s k kind d a imm hkind hd ha himm hrun hindex halign hend => ?ldk,
    fun s k kind d a imm hkind hd ha himm hrun hindex htag halign hend hroom => ?stk, fun s k d i hd hi hrun hslot => ?ldf,
    fun s k d i hd hi hrun hlow hhigh hslot => ?stf,
    fun s k d i hd hi hin => ⟨fun hrun => ?ldp, fun hrun => ?ldpq, fun hrun => ?ldps⟩,
    fun s k d i hd hi hout hrun hknown htag hroom => ?stp, fun s k d i hd hi hout hrun htag hroom => ?stpq⟩
  case ldk =>
    obtain ⟨hknown, hload, hof⟩ := opKnown_load kind hkind
    have hop : opOf (wordI (0x50 + kind) d a imm) = 0x50 + kind := opOf_wordI (by omega) hd ha himm
    have hok := instrLdk_ok (mem := s.app.instMem) (c := (s.app.core k).past) (by rw [hop, hof])
      (instAddr_ok (o := 0x50 + kind) (d := d) ha himm hindex rfl halign hend)
    rw [fd_wordI hd ha himm] at hok
    exact core_runs (i := .ldk) (fun k s => show execLdk k s = _ from rfl) hrun _ hop hknown (by omega) (by rw [hop, hload]; rfl) hok
  case stk =>
    obtain ⟨hknown, hstore, hof⟩ := opKnown_store kind hkind
    have hop : opOf (wordI (0x60 + kind) d a imm) = 0x60 + kind := opOf_wordI (by omega) hd ha himm
    refine core_runs (i := .stk) (fun k s => show execStk k s = _ from rfl) hrun _ hop hknown (by omega) (by rw [hop, hstore]; rfl) ?_
    exact instrStk_ok (by rw [hop, hof]) (instAddr_ok ha himm hindex rfl halign hend) (by rw [fd_wordI hd ha himm]; exact htag)
      (by rw [fd_wordI hd ha himm]; rfl) hroom
  case ldf =>
    exact exec_opcode (i := .ldf) (fun k s => show execLdf k s = _ from rfl) hrun (opOf_wordI (by decide) hd (by decide) hi) (by decide)
      (instrLdf_ok hd hi hslot)
  case stf =>
    exact exec_opcode (i := .stf) (fun k s => show execStf k s = _ from rfl) hrun (opOf_wordI (by decide) hd (by decide) hi) (by decide)
      (instrStf_ok hd hi hlow hhigh hslot)
  case ldp =>
    refine exec_opcode (i := .ldp) (fun k s => show execLdp k s = _ from rfl) hrun (opOf_wordX (by decide) hd hi) (by decide) ?_
    rw [instrLdp, fidx_wordX hi, inputAt_ok hin, fd_wordX hd hi]
    rfl
  case ldpq =>
    refine exec_opcode (i := .ldpq) (fun k s => show execLdpq k s = _ from rfl) hrun (opOf_wordX (by decide) hd hi) (by decide) ?_
    rw [instrLdpq, fidx_wordX hi, inputAt_ok hin, fd_wordX hd hi]
    rfl
  case ldps =>
    refine exec_opcode (i := .ldps) (fun k s => show execLdps k s = _ from rfl) hrun (opOf_wordX (by decide) hd hi) (by decide) ?_
    rw [instrLdps, fidx_wordX hi, inputAt_ok hin, fd_wordX hd hi]
    rfl
  case stp =>
    exact exec_opcode (i := .stp) (fun k s => show execStp k s = _ from rfl) hrun (opOf_wordX (by decide) hd hi) (by decide)
      (instrStp_ok (c := (s.app.core k).past) hd hi hout rfl htag rfl hroom)
  case stpq =>
    exact exec_opcode (i := .stpq) (fun k s => show execStpq k s = _ from rfl) hrun (opOf_wordX (by decide) hd hi) (by decide)
      (instrStpq_ok (c := (s.app.core k).past) hd hi hout htag rfl hroom)

end Sys2Proof.Machine
end

section
/-! SUPPORT. Branches, loops, calls and frames of the control cores (O14). -/

namespace Sys2Proof.Machine

open Host

/-! ### Branches (R383) -/

theorem jump_ok {n : Nat} {p : Int} {c : CtlCore} (h : 0 ≤ p ∧ p + 4 ≤ n) : jump n p c = .ok { c with pc := p.toNat } := if_pos h

/-- A displacement below half its range leads forward. -/
theorem fdisp_forward {o d i : Nat} (hi : i < 2 ^ 17) : ¬ fdisp (wordX o d i) < 0 := by
  rw [fdisp_wordX (by omega), BitVec.toInt_eq_toNat_cond, BitVec.toNat_ofNat]
  omega

theorem fdisp_backward {o d i : Nat} (hlow : 2 ^ 17 ≤ i) (hi : i < 2 ^ 18) : fdisp (wordX o d i) < 0 := by
  rw [fdisp_wordX hi, BitVec.toInt_eq_toNat_cond, BitVec.toNat_ofNat]
  omega

/-- The target of a displacement, from the word after the branch (R383). -/
theorem target_past {o d i : Nat} {p : Int} {c : CtlCore} (hi : i < 2 ^ 18) (hp : (c.pc : Int) + 4 + 4 * (BitVec.ofNat 18 i).toInt = p) :
    (c.past.pc : Int) + 4 * fdisp (wordX o d i) = p := by
  rw [fdisp_wordX hi, ← hp]
  rfl

section Flow

variable {o d a i n : Nat} {p : Int} {c : CtlCore}

/-- A forward branch goes to its target or past itself. -/
theorem branch_ok {take : Bool} (hi : i < 2 ^ 17) (hp : (c.pc : Int) + 4 + 4 * (BitVec.ofNat 18 i).toInt = p) (hcode : 0 ≤ p ∧ p + 4 ≤ n) :
    branch n take (wordX o d i) c.past = .ok (if take = true then { c with pc := p.toNat } else c.past) := by
  unfold branch
  rw [if_neg (fdisp_forward hi), target_past (lt_trans hi (by decide)) hp, jump_ok hcode]
  cases take with
  | true => rfl
  | false => rfl

/-- A conditional branch is taken by its BOOL (R383). -/
theorem instrBcond_eq {w : Nat} {on : Bool} (htag : (c.reg (fd w)).tag ∈ [1]) :
    instrBcond n on w c = branch n (((c.reg (fd w)).v != 0#64) == on) w c := by
  unfold instrBcond
  rw [need_ok htag]
  rfl

theorem instrBr_eq {w : Nat} (h : fd w = 0) : instrBr n w c = branch n true w c := by
  unfold instrBr
  rw [h]
  rfl

theorem instrBcond_ok {on : Bool} (hd : d < 64) (hi : i < 2 ^ 17) (hp : (c.pc : Int) + 4 + 4 * (BitVec.ofNat 18 i).toInt = p)
    (hcode : 0 ≤ p ∧ p + 4 ≤ n) (htag : (c.reg d).tag = Tag.bool) :
    instrBcond n on (wordX o d i) c.past = .ok (if (((c.reg d).v != 0#64) == on) = true then { c with pc := p.toNat } else c.past) := by
  have hfd : fd (wordX o d i) = d := fd_wordX hd (lt_trans hi (by decide))
  rw [instrBcond_eq (by rw [hfd]; exact List.mem_singleton.mpr htag), hfd, branch_ok hi hp hcode]
  rfl

theorem instrLpc_ok (hd : d < 64) (ha : a < 64) (hpos : 1 ≤ n) (hn : n < 4096) (htag : (c.reg a).tag ∈ [Tag.int, Tag.uint]) :
    instrLpc (wordI o d a n) c = .ok (c.put d (BitVec.ofInt 64 (min (max (numOf (c.reg a).tag (c.reg a).v) 0) n)) Tag.lcnt) := by
  unfold instrLpc
  rw [fimm_wordI hn, orFault_ok (bne_iff_ne.mpr (by omega)) 16, fa_wordI ha hn, fd_wordI hd ha hn]
  dsimp only [bind, Except.bind]
  rw [need_ok htag]

theorem instrLoop_ok (hd : d < 64) (hlow : 2 ^ 17 ≤ i) (hi : i < 2 ^ 18) (hp : (c.pc : Int) + 4 + 4 * (BitVec.ofNat 18 i).toInt = p)
    (hcode : 0 ≤ p ∧ p + 4 ≤ n) (htag : (c.reg d).tag = Tag.lcnt) :
    instrLoop n (wordX o d i) c.past = .ok (if (c.reg d).v.toNat - 1 = 0 then c.past.put d 0 Tag.lcnt
      else { c.put d (BitVec.ofNat 64 ((c.reg d).v.toNat - 1)) Tag.lcnt with pc := p.toNat }) := by
  unfold instrLoop
  rw [fd_wordX hd hi, reg_past, orFault_ok (by rw [htag, decide_eq_true (fdisp_backward hlow hi)]; rfl) 21]
  dsimp only [bind, Except.bind]
  by_cases hzero : (c.reg d).v.toNat - 1 = 0
  · rw [if_pos hzero, if_pos hzero, hzero]
    rfl
  · rw [if_neg hzero, if_neg hzero]
    exact (congrArg (jump n · _) (target_past hi hp)).trans (jump_ok hcode)

end Flow

/-! ### Calls (R380, R383) -/

theorem instrCall_ok {o i n : Nat} {p : Int} {c : CtlCore} (hi : i < 2 ^ 18) (hp : (c.pc : Int) + 4 + 4 * (BitVec.ofNat 18 i).toInt = p)
    (hcode : 0 ≤ p ∧ p + 4 ≤ n) (hdepth : c.calls.length < 64) :
    instrCall n (wordX o 0 i) c.past = .ok { c.past.push c.ib c.il with pc := p.toNat } := by
  have hdeep : orFault (decide (c.past.calls.length < 64)) 21 = .ok () := orFault_ok (decide_eq_true hdepth) 21
  unfold instrCall
  rw [fd_wordX (by decide) hi, hdeep, target_past hi hp]
  exact jump_ok hcode

theorem instrCallb_ok {o a t : Nat} {m : Image} {c : CtlCore} (ha : a < 64) (htag : (c.reg a).tag = Tag.uint)
    (hinst : (c.reg a).v.toNat < m.ninst) (howner : (m.inst (c.reg a).v.toNat).owner = t) (hdepth : c.calls.length < 64)
    (hcode : 0 ≤ ((m.typ (m.inst (c.reg a).v.toNat).typ).1 : Int) ∧ ((m.typ (m.inst (c.reg a).v.toNat).typ).1 : Int) + 4 ≤ (m.sect 3).length) :
    instrCallb m (some t) (wordR o 0 a 0) c =
      .ok { c.push (m.inst (c.reg a).v.toNat).off ((m.inst (c.reg a).v.toNat).off + (m.inst (c.reg a).v.toNat).size) with
        pc := (m.typ (m.inst (c.reg a).v.toNat).typ).1 } := by
  have hform : orFault (fd (wordR o 0 a 0) == 0 && bitsOf (wordR o 0 a 0) 0 12 == 0) 16 = .ok () :=
    orFault_ok (by simp only [fd, wordR, bitsOf, Bool.and_eq_true, beq_iff_eq]; omega) 16
  unfold instrCallb
  rw [hform, fa_wordR ha (by decide), need_ok (List.mem_singleton.mpr htag)]
  dsimp only [bind, Except.bind]
  rw [orFault_ok (by simp [hinst, howner]) 19, orFault_ok (decide_eq_true hdepth) 21]
  exact jump_ok hcode

theorem instrFrame_ok {o n : Nat} {c : CtlCore} (hn : n < 4096)
    (hroom : c.calls.foldl (fun u f => u + 32 + 16 * f.slots.length) (16 * n) ≤ 65536) :
    instrFrame (wordI o 0 0 n) c = .ok { c with slots := (c.slots ++ List.replicate n default).take n } := by
  unfold instrFrame
  rw [fd_wordI (by decide) (by decide) hn, fa_wordI (by decide) hn, fimm_wordI hn]
  dsimp only
  rw [orFault_ok (decide_eq_true hroom) 22]
  rfl

/-- Settles O14: each row by what its instruction gives. -/
theorem coreFlow : Obligations.CoreFlow := by
  unfold Obligations.CoreFlow
  intro dest inCode goes pushed
  refine ⟨fun s k i hi hrun hcode => ?br, fun s k d i hd hi hrun hcode htag => ?bt, fun s k d i hd hi hrun hcode htag => ?bf,
    fun s k d a n hd ha hpos hn hrun => ⟨fun htag => ?lpcInt, fun htag => ?lpcUint⟩, fun s k d i hd hlow hi hrun hcode htag => ?loop,
    fun s k i hi hrun hcode hdepth => ?call, fun s k a t ha hrun htag hinst htask howner hdepth hcode => ?callb,
    fun s k f t hrun hcalls => ?ret, fun s k n hn hrun hroom => ?frame, fun s k hrun hcalls => ?endScan,
    fun s k hlive hidle hitem => ?waitWork⟩
  case br =>
    exact exec_opcode (i := .br) (fun k s => show execBr k s = _ from rfl) hrun (opOf_wordX (by decide) (by decide) (by omega)) (by decide)
      ((instrBr_eq (fd_wordX (by decide) (by omega))).trans (branch_ok hi rfl hcode))
  case bt =>
    refine exec_opcode (i := .bt) (fun k s => show execBt k s = _ from rfl) hrun (opOf_wordX (by decide) hd (by omega)) (by decide)
      ((instrBcond_ok hd hi rfl hcode htag).trans ?_)
    exact congrArg Except.ok (if_congr (by simp) rfl rfl)
  case bf =>
    refine exec_opcode (i := .bf) (fun k s => show execBf k s = _ from rfl) hrun (opOf_wordX (by decide) hd (by omega)) (by decide)
      ((instrBcond_ok hd hi rfl hcode htag).trans ?_)
    exact congrArg Except.ok (if_congr (by simp) rfl rfl)
  case lpcInt =>
    refine exec_opcode (i := .lpc) (fun k s => show execLpc k s = _ from rfl) hrun (opOf_wordI (by decide) hd ha hn) (by decide)
      ((instrLpc_ok hd ha hpos hn (by simp [htag])).trans ?_)
    rw [reg_past, htag]
    rfl
  case lpcUint =>
    refine exec_opcode (i := .lpc) (fun k s => show execLpc k s = _ from rfl) hrun (opOf_wordI (by decide) hd ha hn) (by decide)
      ((instrLpc_ok hd ha hpos hn (by simp [htag])).trans ?_)
    rw [reg_past, htag, numOf_of_integer (by decide), if_pos rfl, max_eq_left (Int.natCast_nonneg _), ← Nat.cast_min, BitVec.ofInt_natCast]
  case loop =>
    exact exec_opcode (i := .loop) (fun k s => show execLoop k s = _ from rfl) hrun (opOf_wordX (by decide) hd hi) (by decide)
      (instrLoop_ok hd hlow hi rfl hcode htag)
  case call =>
    exact exec_opcode (i := .call) (fun k s => show execCall k s = _ from rfl) hrun (opOf_wordX (by decide) (by decide) hi) (by decide)
      (instrCall_ok hi rfl hcode hdepth)
  case callb =>
    refine exec_opcode (i := .callb) (fun k s => show execCallb k s = _ from rfl) hrun (opOf_wordR (by decide) (by decide) ha (by decide))
      (by decide) ?_
    rw [htask]
    exact instrCallb_ok (c := (s.app.core k).past) ha htag hinst howner hdepth hcode
  case ret =>
    refine exec_opcode (i := .ret) (fun k s => show execRet k s = _ from rfl) hrun rfl (by decide) ?_
    have hpop : (s.app.core k).past.calls = f :: t := hcalls
    unfold instrRet
    rw [hpop]
    rfl
  case frame =>
    exact exec_opcode (i := .frame) (fun k s => show execFrame k s = _ from rfl) hrun (opOf_wordI (by decide) (by decide) (by decide) hn)
      (by decide) (instrFrame_ok hn hroom)
  case endScan =>
    refine exec_opcode (i := .endScan) (fun k s => show execEndScan k s = _ from rfl) hrun rfl (by decide) ?_
    have hclosed : orFault (s.app.core k).past.calls.isEmpty 25 = .ok () := orFault_ok (List.isEmpty_iff.mpr hcalls) 25
    unfold instrEnd
    rw [hclosed]
    rfl
  case waitWork =>
    exact exec_onApp_acts hlive (show execWaitWork k s = _ from rfl) ((if_pos hidle).trans (if_pos hitem))

end Sys2Proof.Machine
end

section
/-! SUPPORT. Service calls and faults of the control cores (O15, O17). -/

namespace Sys2Proof.Machine

open Host

/-! ### Service calls (R386, R387) -/

section Services

variable {i : Fin 8 → Instr} {v d a n : Nat}

/-- The row of a service call whose word does not fault gives its core's new state and nothing else. -/
theorem exec_service {f : App → Fin 8 → Nat → CtlCore → CoreStep}
    (hexec : ∀ k s, exec (i k) s = s.onApp fun a => a.runInstr k (isSvc v) (f a k)) (hv : v < 4096 ∧ svcKnown v = true)
    {s : State} {k : Fin 8} (hd : d < 64) (ha : a < 64) (hrun : Executing s.app k (wordS v d a)) {c : CtlCore}
    (hf : f s.app k (wordS v d a) (s.app.core k).past = .ok c) : exec (i k) s = .next (s.withCore k c) := by
  have hop : opOf (wordS v d a) = 0x90 := opOf_wordS hv.1 hd ha
  have hsvc : fsvc (wordS v d a) = v := fsvc_wordS hv.1 hd ha
  exact core_runs hexec hrun _ hop rfl (fun _ => by rw [hsvc]; exact hv.2) (by rw [isSvc, hop, hsvc, beq_self_eq_true, beq_self_eq_true]; rfl) hf

/-- An immediate call writes its value of the snapshot header. -/
theorem exec_now {value : App → Fin 8 → W64} {tag : Nat}
    (hexec : ∀ k s, exec (i k) s = s.onApp fun a => a.runInstr k (isSvc v) (instrNow (value a k) tag)) (hv : v < 4096 ∧ svcKnown v = true)
    (s : State) (k : Fin 8) (d : Nat) (hd : d < 64) (hrun : Executing s.app k (wordS v d 0)) :
    exec (i k) s = .next (s.withCore k ((s.app.core k).past.put d (value s.app k) tag)) := by
  refine exec_service hexec hv hd (by decide) hrun ?_
  rw [instrNow, sa_wordS (by decide), sd_wordS hd (by decide)]
  rfl

/-- Arguments of accepted tags are read in order (R386). -/
theorem svcArgs_ok {w : Nat} {c : CtlCore} (n j : Nat)
    (h : ∀ m, m < n → (c.reg (sa w + (j + m))).tag ∈ [Tag.bool, Tag.int, Tag.uint, Tag.bits]) :
    svcArgs w c n j = .ok ((upto n).map fun m => (c.reg (sa w + (j + m))).v.toNat) := by
  induction n generalizing j with
  | zero => rfl
  | succ n ih =>
    have hhere : c.need (sa w + j) [Tag.bool, Tag.int, Tag.uint, Tag.bits] = .ok (c.reg (sa w + j)) := need_ok (h 0 n.succ_pos)
    have hrest := ih (j + 1) fun m hm => by
      rw [Nat.add_right_comm, Nat.add_assoc]
      exact h (m + 1) (Nat.succ_lt_succ hm)
    unfold svcArgs
    rw [hhere, hrest]
    simp only [bind, Except.bind, upto, List.range_succ_eq_map, List.map_cons, List.map_map, Function.comp_def, Nat.add_zero,
      Nat.succ_eq_add_one, Nat.add_assoc, Nat.add_comm 1]

/-- The arguments of a deferred call, as the statements write them. -/
def CtlCore.args (c : CtlCore) (a n : Nat) : List Nat := (upto n).map fun j => (c.reg (a + j)).v.toNat

theorem svcArgs_wordS {c : CtlCore} (ha : a < 64) (htags : ∀ j, j < n → (c.reg (a + j)).tag ∈ [Tag.bool, Tag.int, Tag.uint, Tag.bits]) :
    svcArgs (wordS v d a) c n 0 = .ok (c.args a n) := by
  have hsa : sa (wordS v d a) = a := sa_wordS ha
  rw [svcArgs_ok n 0 (by simpa only [hsa, Nat.zero_add] using htags)]
  simp only [hsa, Nat.zero_add]
  rfl

/-- A deferred call with its arguments in range and room in the log queues its action (R387). -/
theorem instrDefer_queued {app : App} {k t : Nat} {ok : List Nat → Bool} {c : CtlCore} {l : WriteLog} (hd : d < 64) (ha : a < 64)
    (hregs : a + n ≤ 64) (htask : app.taskOf k = some t)
    (htags : ∀ j, j < n → (c.reg (a + j)).tag ∈ [Tag.bool, Tag.int, Tag.uint, Tag.bits]) (hok : ok (c.args a n) = true)
    (hcount : c.log.acts.length < 64) (hl : { c.log with acts := c.log.acts ++ [⟨v, t, c.args a n⟩] } = l)
    (hroom : l.size ≤ app.logLimit k) :
    instrDefer app k v n ok (wordS v d a) c = .ok ({ c with log := l }.put d 1 Tag.bool) := by
  have hfit : orFault (decide (sa (wordS v d a) + n ≤ 64)) 16 = .ok () := orFault_ok (by rw [sa_wordS ha]; exact decide_eq_true hregs) 16
  have hfree : orFault (decide (c.log.acts.length < 64)) 23 = .ok () := orFault_ok (decide_eq_true hcount) 23
  simp only [instrDefer, hfit, htask, svcArgs_wordS ha htags, hok, hfree, hl, withLog_ok hroom, sd_wordS hd ha, bind, Except.bind, pure,
    Except.pure, if_true]

/-- A deferred call with an argument out of range queues nothing (R387). -/
theorem instrDefer_refused {app : App} {k t : Nat} {ok : List Nat → Bool} {c : CtlCore} (hd : d < 64) (ha : a < 64)
    (hregs : a + n ≤ 64) (htask : app.taskOf k = some t)
    (htags : ∀ j, j < n → (c.reg (a + j)).tag ∈ [Tag.bool, Tag.int, Tag.uint, Tag.bits]) (hok : ¬ ok (c.args a n) = true) :
    instrDefer app k v n ok (wordS v d a) c = .ok (c.put d 0 Tag.bool) := by
  have hfit : orFault (decide (sa (wordS v d a) + n ≤ 64)) 16 = .ok () := orFault_ok (by rw [sa_wordS ha]; exact decide_eq_true hregs) 16
  simp only [instrDefer, hfit, htask, svcArgs_wordS ha htags, hok, sd_wordS hd ha, bind, Except.bind, pure, Except.pure]
  rfl

/-- A deferred call in range queues its action and gives TRUE; out of range it gives FALSE (R387). -/
theorem exec_deferred {ok : List Nat → Bool} {allowed : List Nat → Prop}
    (hexec : ∀ k s, exec (i k) s = s.onApp fun a => a.runInstr k (isSvc v) (instrDefer a k v n ok)) (hv : v < 4096 ∧ svcKnown v = true)
    (hn : 0 < n) (hok : ∀ l, ok l = true ↔ allowed l)
    (s : State) (k : Fin 8) (d a t : Nat) (hd : d < 64) (ha : a + n ≤ 64) (hrun : Executing s.app k (wordS v d a))
    (htask : s.app.taskOf k = some t)
    (htags : ∀ j, j < n → ((s.app.core k).reg (a + j)).tag ∈ [Tag.bool, Tag.int, Tag.uint, Tag.bits]) :
    let c := s.app.core k
    let l := { c.log with acts := c.log.acts ++ [⟨v, t, c.args a n⟩] }
    (allowed (c.args a n) → c.log.acts.length < 64 → l.size ≤ s.app.logLimit k →
      exec (i k) s = .next (s.withCore k ({ c.past with log := l }.put d 1 Tag.bool))) ∧
    (¬ allowed (c.args a n) → exec (i k) s = .next (s.withCore k (c.past.put d 0 Tag.bool))) := by
  have ha' : a < 64 := by omega
  exact ⟨fun hallowed hcount hroom => exec_service hexec hv hd ha' hrun
      (instrDefer_queued (c := (s.app.core k).past) hd ha' ha htask htags ((hok _).mpr hallowed) hcount rfl hroom),
    fun hrefused => exec_service hexec hv hd ha' hrun
      (instrDefer_refused (c := (s.app.core k).past) hd ha' ha htask htags fun h => hrefused ((hok _).mp h))⟩

end Services

/-- Settles O15: the immediate calls are `exec_now`, the others `exec_deferred` with the range of their arguments. -/
theorem coreServices : Obligations.CoreServices := by
  unfold Obligations.CoreServices
  intro now deferred
  have hnow {i : Fin 8 → Instr} {v tag : Nat} {f : Release → Nat}
      (hexec : ∀ k s, exec (i k) s = s.onApp fun a => a.runInstr k (isSvc v) (instrNow (BitVec.ofNat 64 (f (a.scanOf k).rel)) tag))
      (hv : v < 4096 ∧ svcKnown v = true) : now i v tag f := exec_now (value := fun a k => BitVec.ofNat 64 (f (a.scanOf k).rel)) hexec hv
  have hdeferred {i : Fin 8 → Instr} {v n : Nat} {ok : List Nat → Bool} {allowed : List Nat → Prop}
      (hexec : ∀ k s, exec (i k) s = s.onApp fun a => a.runInstr k (isSvc v) (instrDefer a k v n ok))
      (hv : v < 4096 ∧ svcKnown v = true) (hn : 0 < n) (hok : ∀ l, ok l = true ↔ allowed l) : deferred i v n allowed :=
    exec_deferred hexec hv hn hok
  clear_value now deferred
  refine ⟨hnow (fun k s => show execScanTime k s = _ from rfl) (by decide), hnow (fun k s => show execScanQual k s = _ from rfl) (by decide),
    hnow (fun k s => show execScanAngle k s = _ from rfl) (by decide), hnow (fun k s => show execScanCycle k s = _ from rfl) (by decide),
    hdeferred (fun k s => show execBreaker k s = _ from rfl) (by decide) (by decide) fun l => ?breaker,
    hdeferred (fun k s => show execGroup k s = _ from rfl) (by decide) (by decide) fun l => ?group,
    hdeferred (fun k s => show execCaptureArm k s = _ from rfl) (by decide) (by decide) fun l => ?arm,
    hdeferred (fun k s => show execCaptureFire k s = _ from rfl) (by decide) (by decide) fun l => ?fire,
    hdeferred (fun k s => show execAuxSeq k s = _ from rfl) (by decide) (by decide) fun l => ?aux,
    hdeferred (fun k s => show execSvcFlagSet k s = _ from rfl) (by decide) (by decide) fun l => ?flagSet,
    hdeferred (fun k s => show execSvcFlagCancel k s = _ from rfl) (by decide) (by decide) fun l => ?flagCancel⟩
  case breaker =>
    simp only [argMax, bitOf, Bool.and_eq_true, Bool.or_eq_true, decide_eq_true_eq, beq_iff_eq]
    omega
  all_goals simp only [argMax, Bool.and_eq_true, Bool.or_eq_true, decide_eq_true_eq, beq_iff_eq]

/-! ### Faults (R373, R376, R383, R389 to R391) -/

section Faults

variable {c : CtlCore} {i j : Nat} {tags : List Nat}

theorem need2_error_tag (h : (c.reg i).tag ∉ tags) : c.need2 i j tags = .error 17 := by
  unfold CtlCore.need2
  rw [need_error h]

theorem need2_error_mixed (h : (c.reg i).tag ∈ tags) (hmixed : (c.reg j).tag ≠ (c.reg i).tag) : c.need2 i j tags = .error 17 := by
  unfold CtlCore.need2
  rw [need_ok h]
  by_cases hj : (c.reg j).tag ∈ tags
  · rw [need_ok hj]
    exact if_neg hmixed.symm
  · rw [need_error hj]

end Faults

/-- A row of two operands faults with subcode 17 by the tag of the first and by tags that differ (R373, R391). -/
theorem exec_binary_faults {i : Fin 8 → Instr} {o : Nat} {tags : List Nat} {f : Nat → W64 → W64 → W64}
    (hexec : ∀ k s, exec (i k) s = s.onApp fun a => a.runInstr k (isOp o) (binary tags f)) (ho : o < 256 ∧ opKnown o = true ∧ o ≠ 0x90)
    {s : State} {k : Fin 8} {d a b : Nat} (hd : d < 64) (ha : a < 64) (hb : b < 64) (hrun : Executing s.app k (wordR o d a b)) :
    (((s.app.core k).reg a).tag ∉ tags → exec (i k) s = .next (s.withApp (s.app.scanFault k 17))) ∧
    (((s.app.core k).reg a).tag ∈ tags → ((s.app.core k).reg b).tag ≠ ((s.app.core k).reg a).tag →
      exec (i k) s = .next (s.withApp (s.app.scanFault k 17))) := by
  have hfault (hneed : (s.app.core k).past.need2 a b tags = .error 17) : exec (i k) s = .next (s.withApp (s.app.scanFault k 17)) := by
    refine exec_opcode_faults hexec hrun (opOf_wordR ho.1 hd ha hb) ho.2 ?_
    unfold binary
    rw [rForm_wordR, fa_wordR ha hb, fb_wordR hb, hneed]
    rfl
  exact ⟨fun htag => hfault (need2_error_tag htag), fun htag hmixed => hfault (need2_error_mixed htag hmixed)⟩

/-- A reserved opcode faults whatever row asks for the word (R376). -/
theorem runInstr_reserved {a : App} {k w : Nat} {mine : Nat → Bool} {f : Nat → CtlCore → CoreStep} (h : Executing a k w)
    (hreserved : opKnown (opOf w) = false) : a.runInstr k mine f = a.scanFault k 16 := by
  have hactive : ¬ (a.coreState k ≠ 1 ∨ (a.core k).ended = true ∨ (a.core k).item.isNone = true) := by
    simp [h.busy, h.going, Option.isSome_iff_ne_none.mp h.item]
  unfold App.runInstr
  dsimp only
  rw [if_neg hactive, h.word]
  simp [hreserved]

/-- Settles O17: the rows of two operands by `exec_binary_faults`, each other row by the fault of its instruction. -/
theorem coreTraps : Obligations.CoreTraps := by
  unfold Obligations.CoreTraps
  intro binaries
  refine ⟨fun s k d a b hd ha hb => ?tags, fun s k w hrun hreserved => ?reserved, fun s k hrun hcalls => ?ret,
    fun s k hrun hcalls => ?endScan, fun s k hrun => ?waitWork⟩
  case tags =>
    simp only [binaries, List.forall_mem_cons, List.not_mem_nil, false_imp_iff, implies_true, and_true]
    exact ⟨exec_binary_faults (i := .add) (fun k s => show execAdd k s = _ from rfl) (by decide) hd ha hb,
      exec_binary_faults (i := .sub) (fun k s => show execSub k s = _ from rfl) (by decide) hd ha hb,
      exec_binary_faults (i := .mul) (fun k s => show execMul k s = _ from rfl) (by decide) hd ha hb,
      exec_binary_faults (i := .div) (fun k s => show execDiv k s = _ from rfl) (by decide) hd ha hb,
      exec_binary_faults (i := .mod) (fun k s => show execMod k s = _ from rfl) (by decide) hd ha hb,
      exec_binary_faults (i := .min) (fun k s => show execMin k s = _ from rfl) (by decide) hd ha hb,
      exec_binary_faults (i := .max) (fun k s => show execMax k s = _ from rfl) (by decide) hd ha hb,
      exec_binary_faults (i := .and) (fun k s => show execAnd k s = _ from rfl) (by decide) hd ha hb,
      exec_binary_faults (i := .or) (fun k s => show execOr k s = _ from rfl) (by decide) hd ha hb,
      exec_binary_faults (i := .xor) (fun k s => show execXor k s = _ from rfl) (by decide) hd ha hb⟩
  case reserved => exact exec_onApp_acts hrun.up (show execNopInstruction k s = _ from rfl) (runInstr_reserved hrun hreserved)
  case ret =>
    refine exec_opcode_faults (i := .ret) (fun k s => show execRet k s = _ from rfl) hrun rfl (by decide) ?_
    have hnone : (s.app.core k).past.calls = [] := hcalls
    unfold instrRet
    rw [hnone]
    rfl
  case endScan =>
    refine exec_opcode_faults (i := .endScan) (fun k s => show execEndScan k s = _ from rfl) hrun rfl (by decide) ?_
    have hopen : orFault (s.app.core k).past.calls.isEmpty 25 = .error 25 := orFault_error (List.isEmpty_eq_false_iff.mpr hcalls) 25
    unfold instrEnd
    rw [hopen]
    rfl
  case waitWork =>
    have hbusy : ¬ s.app.coreState k = 0 := by rw [hrun.busy]; decide
    exact exec_onApp_acts hrun.up (show execWaitWork k s = _ from rfl)
      ((if_neg hbusy).trans (runInstr_fault hrun rfl (fun h => absurd h (by decide)) rfl rfl))

end Sys2Proof.Machine
end

section
/-! SUPPORT. What happens to the control cores from outside their code (O16), and the front of the queue (O46). -/

namespace Sys2Proof.Machine

open Host

/-! ### Commits (R355, R361) -/

theorem finOfNat_val (k : Fin 8) : Fin.ofNat 8 k.val = k := Fin.ext (Nat.mod_eq_of_lt k.isLt)

/-- An access to a memory leaves the tasks and the cores as they are. -/
theorem access_task (a : App) (m : Master) (p : Memory) (n t : Nat) : (a.access m p n).task t = a.task t := rfl

/-- The commit of an ended scan (R355). -/
theorem commitCore_scan {a : App} {k : Fin 8} {t : Nat} {sc : Scan} (hended : (a.core k).ended = true) (hitem : (a.core k).item = some (.task t))
    (hscan : (a.task t).scan = some sc) :
    a.commitCore k = (a.access (.core k) .sharedSram (32 * (a.core k).log.outs.length)).commitScan k t sc := by
  simp only [App.commitCore, hended, Bool.not_true, Bool.false_eq_true, if_false, hitem, finOfNat_val, access_task, hscan]

/-- The commit of an ended initialisation routine (R351). -/
theorem commitCore_init {a : App} {k : Fin 8} {j : Nat} {i : InitSt} (hended : (a.core k).ended = true) (hitem : (a.core k).item = some (.init j))
    (hinit : a.ctl.init = some i) :
    a.commitCore k = (a.access (.core k) .sharedSram (32 * (a.core k).log.outs.length)).commitInit k j i := by
  simp only [App.commitCore, hended, Bool.not_true, Bool.false_eq_true, if_false, hitem, finOfNat_val, access_ctl, hinit]

/-! ### Lockstep and budgets (R369, R370, R385) -/

/-- A mismatch takes effect on a core whose scan has not ended and that is neither Testing nor Offline. -/
theorem exec_lockstepMismatch {s : State} (hlive : s.app.life.boot ≠ .held) {k : Fin 8} (hgoing : (s.app.core k).ended = false)
    (hup : s.app.coreState k < 2) :
    ((s.app.core k).item.isSome = true → exec (.lockstepMismatch k none) s = .next (s.withApp (s.app.scanFault k 1))) ∧
    ((s.app.core k).item = none → exec (.lockstepMismatch k none) s = .next (s.withApp (s.app.clearCore k 2))) ∧
    (∀ p : W32, (s.app.core k).item.isSome = true →
      exec (.lockstepMismatch k (some p)) s = .next (s.withApp ((s.app.record 0x0040 0 p.toNat 0 0).scanFault k 2))) := by
  have hacts : ¬ ((s.app.core k).ended || decide (2 ≤ s.app.coreState k)) = true := by simp [hgoing, hup]
  refine ⟨fun hitem => ?scan, fun hidle => ?idle, fun p hitem => ?sram⟩
  case scan => exact exec_onApp_acts hlive (show execLockstepMismatch k none s = _ from rfl) ((if_neg hacts).trans (if_pos hitem))
  case idle =>
    exact exec_onApp_acts hlive (show execLockstepMismatch k none s = _ from rfl) ((if_neg hacts).trans (if_neg (by simp [hidle])))
  case sram =>
    have hkept : ((s.app.record 0x0040 0 p.toNat 0 0).core k).item.isSome = true := by rw [App.core, record_ctl]; exact hitem
    exact exec_onApp_acts hlive (show execLockstepMismatch k (some p) s = _ from rfl) ((if_neg hacts).trans (if_pos hkept))

/-- Settles O16: each row by the branch that its condition chooses. -/
theorem coreEventsAct : Obligations.CoreEventsAct := by
  unfold Obligations.CoreEventsAct
  intro s hlive
  refine ⟨fun k t sc hended hitem hscan => ?commit, fun k j i hended hitem hinit => ?init, fun x l hnext => ?action,
    fun k hgoing hup => exec_lockstepMismatch hlive hgoing hup, fun k htest hsince => ⟨?passed, ?failed⟩,
    fun k t hitem hbusy hgoing hover => ?budget, fun k j hitem hbusy hgoing hover => ?initBudget,
    exec_onApp_acts hlive (show execDispatcherCycle s = _ from rfl) rfl, fun hrun hfail hdue => ?copy⟩
  case commit => exact exec_onApp_acts hlive (show execCommit k s = _ from rfl) (commitCore_scan hended hitem hscan)
  case init => exact exec_onApp_acts hlive (show execCommit k s = _ from rfl) (commitCore_init hended hitem hinit)
  case action => exact exec_onApp_acts hlive (show execDeferredAction s = _ from rfl) (by simp only [hnext])
  case passed => exact exec_onApp_acts hlive (show execSelfTestEnd k true s = _ from rfl) (if_pos ⟨htest, hsince⟩)
  case failed => exact exec_onApp_acts hlive (show execSelfTestEnd k false s = _ from rfl) (if_pos ⟨htest, hsince⟩)
  case budget =>
    refine exec_onApp_acts hlive (show execScanBudgetExpiry k s = _ from rfl) ?_
    simp only [hitem]
    exact if_pos ⟨hbusy, by simp [hgoing], hover⟩
  case initBudget =>
    refine exec_onApp_acts hlive (show execInitBudgetExpiry k s = _ from rfl) ?_
    simp only [hitem]
    exact if_pos ⟨hbusy, by simp [hgoing], hover⟩
  case copy =>
    refine exec_onApp_acts hlive (show execRetainedCopy s = _ from rfl) (if_pos ?_)
    rw [hrun, hfail, Bool.or_eq_true_iff.mpr (hdue.imp_right decide_eq_true)]
    rfl

/-- Settles O46: a step takes the front of the queue and leaves its rest. -/
theorem stepRunsFront : Obligations.StepRunsFront := by
  unfold Obligations.StepRunsFront step
  intro c s
  rfl

end Sys2Proof.Machine
end

section
/-! SUPPORT. Host commands of sessions, of the program and of its change (O2, O7, O8, O9): each row by what its effect does to the state
that has taken the command in. -/

namespace Sys2Proof.Machine

open Host

/-! ### Ownership, long operations and the status block (R494 to R501) -/

/-- SELECT of an object that is free or the context's own grants it (R494). -/
theorem opSelect_granted {k obj hold i : Nat} {a : App} (hobj : objIndex obj = some i) (hfree : ∀ o, a.ownerOf i = some o → o.ctx = k) :
    opSelect k obj hold a = opSelect.grant k hold a i := by
  cases hown : a.ownerOf i with
  | none => simp only [opSelect, hobj, hown]
  | some o => simp only [opSelect, hobj, hown, if_pos (hfree o hown)]

theorem opDeselect_owner {k obj i : Nat} {o : Owner} {a : App} (hobj : objIndex obj = some i) (hown : a.ownerOf i = some o) (hctx : o.ctx = k) :
    opDeselect k obj a = (a.release i 0, .final Status.ok []) := by
  unfold opDeselect
  rw [hobj]
  dsimp only
  rw [hown]
  exact if_pos hctx

theorem opCancel_running {k : Nat} {target : W64} {l : LongOp} {a : App} (hrun : vat a.cmd.long k = some l) (htag : l.hdr.tag = target) :
    opCancel k target a =
      ({ a with cmd := { a.cmd with long := vput a.cmd.long k (some { l with cancel := true }) } }, .final Status.ok []) := by
  unfold opCancel
  rw [hrun]
  exact if_pos htag

/-- A long operation starts where its context runs none (R497). -/
theorem startLong_idle {a : App} {h : CmdHdr} {op : HostOp} {n : Nat} (hidle : vat a.cmd.long h.ctx = none) :
    a.startLong h op n = ({ a with cmd := { a.cmd with long := vput a.cmd.long h.ctx (some { hdr := h, op := op, total := n }) } }, .later) := by
  unfold App.startLong
  rw [hidle]
  rfl

/-- Settles O2: each row is `exec_ended` with its effect. -/
theorem sessionCommandsAct : Obligations.SessionCommandsAct := by
  unfold Obligations.SessionCommandsAct
  refine ⟨fun s h hadm => ?nop, fun s h obj hold i hadm hobj hlow hhigh hfree => ?select, fun s h obj i o hadm hobj hown hctx => ?deselect,
    fun s h target l hadm hrun htag => ?cancel, fun s h hadm => ?status⟩
  case nop => exact exec_ended (show execNop h s = _ from rfl) hadm rfl rfl
  case select =>
    refine exec_ended (show execSelect h obj hold s = _ from rfl) hadm (by simp [hobj, hlow, hhigh]) ?_
    rw [opSelect_granted hobj (by rwa [takeIn_ownerOf_nil])]
    simp only [opSelect.grant, takeIn_now]
  case deselect =>
    exact exec_ended (show execDeselect h obj s = _ from rfl) hadm (by simp [hobj])
      (opDeselect_owner hobj (by rwa [takeIn_ownerOf_nil]) hctx)
  case cancel =>
    exact exec_ended (show execCancel h target s = _ from rfl) hadm rfl (opCancel_running (by rwa [takeIn_cmd_long]) htag)
  case status =>
    refine exec_ended (show execModuleStatus h s = _ from rfl) hadm rfl ?_
    rw [takeIn_query s.app h rfl]
    rfl

/-! ### The running program (R339, R359, R364, R421, R422, R450) -/

@[simp] theorem takeIn_cstate (a : App) (h : CmdHdr) (op : HostOp) (l : List Nat) : (a.takeIn h op l).cstate = a.cstate := by
  simp [App.cstate]

@[simp] theorem takeIn_forceOf (a : App) (h : CmdHdr) (op : HostOp) (l : List Nat) (i : Nat) : (a.takeIn h op l).forceOf i = a.forceOf i := by
  simp [App.forceOf]

theorem opStartProgram_accepted {a : App} {slot warm : Byte} (h : CmdHdr) (hskim : a.cstate ≠ 3) (hwindow : a.ctl.window = none)
    (hchange : a.ctl.skim = none) (hinit : a.ctl.init = none)
    (hslot : a.get (Reg.slotState slot.toNat) = Slot.verified ∨ a.get (Reg.slotState slot.toNat) = Slot.running) :
    opStartProgram h slot warm a = (a.startProgram slot.toNat (warm == 1#8) (some h), .later) := by
  exact if_neg (by simp [hskim, hwindow, hchange, hinit, hslot])

theorem opStopProgram_running {a : App} (hinit : a.ctl.init = none) (hrun : a.ctl.running.isSome = true) :
    opStopProgram a = (a.stopProgram, .final Status.ok []) :=
  (if_neg (by simp [hinit])).trans (if_neg (by simp [Option.isSome_iff_ne_none.mp hrun]))

theorem opForceSet_room {a : App} {p : W32} (k : Nat) (q : W16) (v : W64) (tag : W32)
    (hroom : (a.forceOf p.toNat).isSome = true ∨ a.ctl.forces.length < 4096) :
    opForceSet k q p v tag a = (a.forcePut p.toNat q v tag (k % 4 + 8 * (k / 4)), .final Status.ok []) := by
  refine if_neg fun hfull => hroom.elim (fun hforced => ?_) (fun hfree => Nat.not_le.mpr hfree hfull.2)
  rw [Option.isNone_iff_eq_none.mp hfull.1] at hforced
  exact Bool.false_ne_true hforced

theorem opForceClear_forced {p : W32} {a : App} (hforced : (a.forceOf p.toNat).isSome = true) :
    opForceClear 0 p a = (a.forceDrop p.toNat, .final Status.ok []) := by
  have hkind : ¬ (0 : Byte) = 1#8 := by decide
  simp only [opForceClear, if_neg hkind, if_pos hforced]

theorem opForceClear_orphan {p : W32} {a : App} (horphan : a.ctl.forces.any (fun f => f.orphan && f.point == p.toNat) = true) :
    opForceClear 1 p a =
      ((a.onCtl fun c => { c with forces := c.forces.filter (fun f => !(f.orphan && f.point == p.toNat)) }).showForces, .final Status.ok []) := by
  have hkind : (1 : Byte) = 1#8 := rfl
  simp only [opForceClear, if_pos hkind, if_pos horphan]

theorem opFieldRearm_latched {a : App} {n : Byte} (hclear : a.on (Reg.fsLatched n.toNat) = false) (hnone : (vat a.fio.sup n.toNat).enableAt = none) :
    opFieldRearm n a = (a.onSup n.toNat fun x => { x with enableAt := some (a.tick, true) }, .final Status.ok []) :=
  (if_neg (Bool.eq_false_iff.mp hclear)).trans (if_neg (by simp [hnone]))

/-- Settles O7: each row is `exec_ended`, START_PROGRAM `exec_begun`, with its effect. -/
theorem programCommandsAct : Obligations.ProgramCommandsAct := by
  unfold Obligations.ProgramCommandsAct
  refine ⟨fun s h slot warm hadm hslot hwarm hskim hwindow hchange hinit hstate => ?start, fun s h hadm hinit hrun => ?stop,
    fun s h hold hadm hhold hstate => ?hold, fun s h q p v hadm hq hp hkind => ?write, fun s h t f hadm ht hf => ?flagSet,
    fun s h t m hadm ht => ?flagCancel, fun s h q p v tag hadm hq hp hroom => ?forceSet, fun s h p hadm hforced => ?forceClear,
    fun s h p hadm horphan => ?orphanClear, fun s h n hadm hn hclear hnone => ?rearm⟩
  case start =>
    exact exec_begun (show execStartProgram h slot warm s = _ from rfl) hadm (by simp [hslot, hwarm])
      (opStartProgram_accepted h (by rwa [takeIn_cstate]) (by rwa [takeIn_ctl]) (by rwa [takeIn_ctl]) (by rwa [takeIn_ctl])
        (by rwa [takeIn_get]))
  case stop =>
    exact exec_ended (show execStopProgram h s = _ from rfl) hadm rfl (opStopProgram_running (by rwa [takeIn_ctl]) (by rwa [takeIn_ctl]))
  case hold =>
    exact exec_ended (show execHoldProgram h hold s = _ from rfl) hadm (by simp [hhold]) (if_pos (by rwa [takeIn_cstate]))
  case write => exact exec_ended (show execWritePoint h q p v s = _ from rfl) hadm (by simp [-Nat.reducePow, hq, hp, hkind]) rfl
  case flagSet => exact exec_ended (show execFlagSet h t f s = _ from rfl) hadm (by simp [ht, hf]) rfl
  case flagCancel => exact exec_ended (show execFlagCancel h t m s = _ from rfl) hadm (by simp [ht]) rfl
  case forceSet =>
    exact exec_ended (show execForceSet h q p v tag s = _ from rfl) hadm (by simp [-Nat.reducePow, hq, hp])
      (opForceSet_room h.ctx q v tag (by rwa [takeIn_forceOf, takeIn_ctl]))
  case forceClear =>
    exact exec_ended (show execForceClear h 0 p s = _ from rfl) hadm rfl (opForceClear_forced (by rwa [takeIn_forceOf]))
  case orphanClear =>
    exact exec_ended (show execForceClear h 1 p s = _ from rfl) hadm rfl (opForceClear_orphan (by rwa [takeIn_ctl]))
  case rearm =>
    exact exec_ended (show execFieldRearm h n s = _ from rfl) hadm (by simp [hn])
      (opFieldRearm_latched (by rwa [takeIn_on]) (by rwa [takeIn_fio]))

/-! ### The long operations (R339, R341, R406, R419, R594) -/

@[simp] theorem takeIn_slotInUse (a : App) (h : CmdHdr) (op : HostOp) (l : List Nat) (n : Nat) : (a.takeIn h op l).slotInUse n = a.slotInUse n := by
  simp [App.slotInUse]

@[simp] theorem takeIn_img (a : App) (h : CmdHdr) (op : HostOp) (l : List Nat) (n : Nat) : (a.takeIn h op l).img n = a.img n := by
  simp [App.img]

@[simp] theorem takeIn_freeSlot (a : App) (h : CmdHdr) (op : HostOp) (l : List Nat) : (a.takeIn h op l).freeSlot = a.freeSlot := by
  simp [App.freeSlot]

@[simp] theorem takeIn_inRollback (a : App) (h : CmdHdr) (op : HostOp) (l : List Nat) : (a.takeIn h op l).inRollback = a.inRollback := by
  simp [App.inRollback]

/-- Settles O8: each row is `exec_begun` with the long operation that its effect starts. -/
theorem longCommandsStart : Obligations.LongCommandsStart := by
  unfold Obligations.LongCommandsStart
  intro begun emptied
  refine ⟨fun s h slot size src hadm hslot hlow hhigh hskim hfree hidle => ?load, fun s h slot hadm hslot hskim hfull hstopped hidle => ?verify,
    fun s h slot hadm hslot hskim hfree hidle => ?erase, fun s h slot size src hadm hslot hlow hhigh hidle => ?firmware,
    fun s h len map hadm hlow hhigh hrun hsome hwindow hslot hidle => ?prepare, fun s h w hadm hwindow hroll hskim hidle => ?rollback⟩
  case load =>
    refine exec_begun (show execLoadImage h slot size src s = _ from rfl) hadm (by simp [-Nat.reducePow, hslot, hlow, hhigh]) ?_
    unfold opLoadImage
    rw [if_neg (by simp [hskim, hfree]), startLong_idle (by rwa [takeIn_cmd_long])]
  case verify =>
    refine exec_begun (show execVerifyImage h slot s = _ from rfl) hadm (by simp [hslot]) ?_
    unfold opVerifyImage
    dsimp only
    rw [if_neg (by simp [hskim, hfull, hstopped]), startLong_idle (by rwa [takeIn_cmd_long]), takeIn_img]
  case erase =>
    refine exec_begun (show execEraseSlot h slot s = _ from rfl) hadm (by simp [hslot]) ?_
    unfold opEraseSlot
    rw [if_neg (by simp [hskim, hfree]), startLong_idle (by rwa [takeIn_cmd_long])]
  case firmware =>
    refine exec_begun (show execLoadFirmware h slot size src s = _ from rfl) hadm (by simp [-Nat.reducePow, hslot, hlow, hhigh]) ?_
    unfold opLoadFirmware
    rw [startLong_idle (by rwa [takeIn_cmd_long])]
  case prepare =>
    refine exec_begun (show execSkimPrepare h len map s = _ from rfl) hadm (by simp [hlow, hhigh]) ?_
    unfold opSkimPrepare
    rw [if_neg (by simp [hrun, Option.isSome_iff_ne_none.mp hsome, hwindow, hslot]), startLong_idle (by rwa [takeIn_cmd_long])]
  case rollback =>
    refine exec_begun (show execSkimRollback h s = _ from rfl) hadm rfl ?_
    unfold opSkimRollback
    rw [takeIn_ctl, hwindow]
    dsimp only
    rw [if_pos (by simp [hroll, hskim]), startLong_idle (by rwa [takeIn_cmd_long])]

/-! ### Changes of the program, of the life-cycle state and of the module's presence (R408, R416, R419, R581, R586 to R591) -/

@[simp] theorem takeIn_findSwitch (a : App) (h : CmdHdr) (op : HostOp) (l : List Nat) (k : SkimSt) (t : Nat) :
    (a.takeIn h op l).findSwitch k t = a.findSwitch k t := by
  simp [App.findSwitch, App.runImage]

@[simp] theorem takeIn_role (a : App) (h : CmdHdr) (op : HostOp) (l : List Nat) : (a.takeIn h op l).role = a.role := by
  simp [App.role]

@[simp] theorem takeIn_lcy (a : App) (h : CmdHdr) (op : HostOp) (l : List Nat) : (a.takeIn h op l).lcy = a.lcy := by
  simp [App.lcy]

@[simp] theorem takeIn_prot (a : App) (h : CmdHdr) (op : HostOp) (l : List Nat) (b : Nat) : (a.takeIn h op l).prot b = a.prot b := by
  simp [App.prot]

@[simp] theorem takeIn_anyLong (a : App) (h : CmdHdr) (op : HostOp) (l : List Nat) : (a.takeIn h op l).anyLong = a.anyLong := by
  simp [App.anyLong]

theorem opSkimSwitch_at {a : App} {k : SkimSt} {t : Nat} (h : CmdHdr) (e : W64) (hskim : a.ctl.skim = some k)
    (hphase : a.get Reg.CSC_SKSTAT_phase = 2) (hnew : k.switchCmd = none) (hforward : a.on Reg.CSC_SKSTAT_reverse = false)
    (hat : a.findSwitch k (max (a.now + 10000000) e.toNat) = some t) :
    opSkimSwitch h e a = (((a.onCtl fun c => { c with skim := some { k with switchCmd := some h, putOff := none } }).set
      Reg.CSC_SKTSW_t_sw t).switchNotice h t, .later) := by
  unfold opSkimSwitch
  rw [hskim]
  dsimp only
  rw [if_neg (by simp [hphase, hnew, hforward]), hat]

/-- A transition that its row, the roles, the bays and the commands under way allow wipes at once, or marks a full wipe (R586 to R590). -/
theorem opLifecycleSet_accepted {a : App} {target : Byte} {full : Bool} {roles : List Nat} (h : CmdHdr) (hnew : target.toNat ≠ a.lcy)
    (hrow : lcyRow a.lcy target.toNat = some (full, roles)) (hrole : a.get (Reg.HCX_ROLE_active_role h.ctx) ∈ roles)
    (hprot : target.toNat = 2 → ∀ b, b < 4 → a.prot b < 2) (hsolo : full = true → a.role = Role.solo) (hidle : a.lcyBusy h = false) :
    opLifecycleSet h target a =
      (if full then (a.onLife fun l => { l with wipePending := some target.toNat, resetReq := some (4, 0) }).record 0x0004 a.lcy target.toNat 1 h.ctx
       else a.sessionWipe target.toNat h.ctx, .final Status.ok []) := by
  have hlive : ¬ (target.toNat = Lcy.operational ∧ (upto 4).any (fun b => decide (2 ≤ a.prot b)) = true) := by
    rintro ⟨htarget, htest⟩
    obtain ⟨b, hb, hbad⟩ := List.any_eq_true.mp htest
    exact absurd (of_decide_eq_true hbad) (Nat.not_le.mpr (hprot htarget b (List.mem_range.mp hb)))
  unfold opLifecycleSet
  dsimp only
  rw [if_neg hnew, hrow]
  dsimp only
  rw [if_neg (by simp [hrole]), if_neg hlive, if_neg (fun hfull => hfull.2 (hsolo hfull.1)), if_neg (Bool.eq_false_iff.mp hidle)]
  cases full <;> rfl

theorem opRequestRemoval_leaves {a : App} (h : CmdHdr) (hout : a.role = Role.standby ∨ (a.role = Role.solo ∧ a.lcy = Lcy.maintenance)) :
    opRequestRemoval h a = (a.leave, .final Status.ok []) := if_pos hout

theorem any_isSome_of_none {α : Type} {n : Nat} (v : Vector (Option α) n) (hnone : ∀ b, b < n → vat v b = none) : v.toList.any (·.isSome) = false := by
  refine List.any_eq_false.mpr fun x hx => ?_
  obtain ⟨b, hb, rfl⟩ := List.mem_iff_getElem.mp hx
  have hlt : b < n := by simpa using hb
  have hval := hnone b hlt
  rw [vat_eq v hlt] at hval
  simp [hval]

theorem opRequestRemoval_handover {a : App} (h : CmdHdr) (hprimary : a.role = Role.primary) (hpartner : a.get Reg.PAR_STAT_partner_role = Role.standby)
    (hlong : a.anyLong = false) (hops : ∀ b, b < 4 → vat a.trp.ops b = none) (hnone : a.par.removal = none) :
    opRequestRemoval h a = ((a.onPar fun p => { p with removal := some h }).onCtl fun c => { c with stopSel := true }, .later) := by
  unfold opRequestRemoval
  rw [if_neg (by simp [hprimary, Role.primary, Role.standby, Role.solo]), if_pos ⟨hprimary, hpartner⟩, if_neg (by simp [hlong, any_isSome_of_none _ hops, hnone])]

/-- Settles O9: each row with its effect; a reset that the command asks for follows once it is final. -/
theorem changeCommandsAct : Obligations.ChangeCommandsAct := by
  unfold Obligations.ChangeCommandsAct
  refine ⟨fun s h e k t hadm hskim hphase hnew hforward hat => ?switch, fun s h hadm hskim => ?abort, fun s h hadm hroll hskim => ?confirm,
    fun s h target full roles hadm hnew hrow hmax hrole hprot hsolo hidle => ?lifecycle, fun s h kind hadm hkind => ?reset,
    fun s h hadm hout => ?leave, fun s h hadm hprimary hpartner hlong hops hnone => ?handover⟩
  case switch =>
    have heff := opSkimSwitch_at (a := s.app.takeIn h (.skimSwitch e) [8]) h e (by rwa [takeIn_ctl]) (by rwa [takeIn_get]) hnew
      (by rwa [takeIn_on]) (by rwa [takeIn_findSwitch, takeIn_now])
    exact exec_begun (show execSkimSwitch h e s = _ from rfl) hadm rfl heff
  case abort => exact exec_ended (show execSkimAbort h s = _ from rfl) hadm rfl (if_pos (by rwa [takeIn_ctl]))
  case confirm =>
    exact exec_ended (show execSkimConfirm h s = _ from rfl) hadm rfl (if_pos (by rw [takeIn_inRollback, takeIn_ctl, hroll, hskim]; rfl))
  case lifecycle =>
    have heff := opLifecycleSet_accepted (a := s.app.takeIn h (.lifecycleSet target s.app.bkp.pc) []) h (by rwa [takeIn_lcy])
      (by rwa [takeIn_lcy]) (by rwa [takeIn_get]) (by simpa only [takeIn_prot] using hprot) (by rwa [takeIn_role]) hidle
    refine exec_onApp_acts hadm.up (show execLifecycleSet h target s.app.bkp.pc s = _ from rfl) (congrArg App.resetIfAsked ?_)
    rw [show firstFail [(0, decide (target.toNat ≤ 4)), (1, decide (s.app.bkp.pc = s.app.bkp.pc))] = none by simp [hmax]]
    exact process_ended _ _ _ _ _ _ _ _ hadm heff
  case reset =>
    refine exec_onApp_acts hadm.up (show execResetModule h kind s = _ from rfl) (congrArg App.resetIfAsked ?_)
    rw [show firstFail [(0, decide (kind.toNat ≤ 2))] = none by simp [hkind]]
    exact process_ended _ _ _ _ _ _ _ _ hadm rfl
  case leave =>
    exact exec_ended (show execRequestRemoval h s = _ from rfl) hadm rfl (opRequestRemoval_leaves h (by rwa [takeIn_role, takeIn_lcy]))
  case handover =>
    exact exec_begun (show execRequestRemoval h s = _ from rfl) hadm rfl
      (opRequestRemoval_handover h (by rwa [takeIn_role]) (by rwa [takeIn_get]) (by rwa [takeIn_anyLong]) (by rwa [takeIn_trp])
        (by rwa [takeIn_par]))

end Sys2Proof.Machine
end

section
/-! SUPPORT. The steps of long operations and the events of an online change (O32, O33). -/

namespace Sys2Proof.Machine

open Host

/-! ### A step of a long operation (R407, R497, R498) -/

theorem exec_longOperationStep (k : Fin 8) (d : Option (List Byte)) (more : Bool) (s : State) :
    exec (.longOperationStep k d more) s = execLongOperationStep k d more s := rfl

/-- Settles O32: each kind of operation by its arm of the step. -/
theorem longOperationsStep : Obligations.LongOperationsStep := by
  unfold Obligations.LongOperationsStep
  intro s k l d more hlive hlong
  refine ⟨fun hcancel => ?cancel, fun hgoing => ?steps⟩
  case cancel =>
    refine exec_onApp_acts hlive (show execLongOperationStep k d more s = _ from rfl) ?_
    rw [hlong]
    exact if_pos hcancel
  case steps =>
    obtain ⟨hdr, op, steps, total, phase, cancel, buf⟩ := l
    have hgo : ¬ cancel = true := Bool.eq_false_iff.mp hgoing
    refine ⟨fun x hop => ?verify, fun x hop => ?erase, fun x n src hop hshort => ⟨fun b => ?firmware, ?firmwareFails⟩,
      fun x n src hop hshort hfree => ⟨fun b => ?image, ?imageFails⟩, fun n src hop hshort => ⟨fun b => ?map, ?mapFails⟩,
      fun w hop hskim hbuilt => ?rollback⟩
    all_goals
      subst hop
      refine exec_onApp_acts hlive ((exec_longOperationStep k _ more s).trans rfl) ?_
      rw [hlong]
      refine (if_neg hgo).trans ?_
    case verify => rfl
    case erase => rfl
    case firmware => exact (if_neg Bool.false_ne_true).trans (if_neg (Nat.not_le.mpr hshort))
    case firmwareFails => exact (if_neg Bool.false_ne_true).trans (if_neg (Nat.not_le.mpr hshort))
    case image => exact (if_neg (by rw [hfree]; exact Bool.false_ne_true)).trans (if_neg (Nat.not_le.mpr hshort))
    case imageFails => exact (if_neg (by rw [hfree]; exact Bool.false_ne_true)).trans (if_neg (Nat.not_le.mpr hshort))
    case map => exact (if_neg Bool.false_ne_true).trans (if_neg (Nat.not_le.mpr hshort))
    case mapFails => exact (if_neg Bool.false_ne_true).trans (if_neg (Nat.not_le.mpr hshort))
    case rollback =>
      dsimp only
      rw [hskim]
      exact if_neg (Bool.eq_false_iff.mp hbuilt)

/-! ### The events of an online change (R411, R416 to R419) -/

/-- A switch that is asked for is due from its instant on (R416). -/
theorem switchDue_of_asked {a : App} {k : SkimSt} (hskim : a.ctl.skim = some k) (hphase : a.get Reg.CSC_SKSTAT_phase = 2)
    (hasked : k.switchCmd.isSome = true ∨ a.on Reg.CSC_SKSTAT_reverse = true) (hat : a.get Reg.CSC_SKTSW_t_sw ≤ a.now) :
    a.switchDue = true := by
  unfold App.switchDue
  rw [hskim]
  simp [hphase, hasked, hat]

/-- A pass of a built change that is not in its pause ends with `App.passEnd`. -/
theorem exec_migrationPass {s : State} {k : SkimSt} {b : App} (hlive : s.app.life.boot ≠ .held) (hskim : s.app.ctl.skim = some k)
    (hbuilt : k.built = true) (hphase : s.app.get Reg.CSC_SKSTAT_phase ≠ 3)
    (h : (if 64 < k.dirty.length then s.app.passEnd k
      else if (s.app.passEnd k).on Reg.CSC_SKSTAT_reverse then
        (if (s.app.passEnd k).get Reg.CSC_SKSTAT_phase = 5 then (s.app.passEnd k).armReverse else s.app.passEnd k)
      else match (s.app.passEnd k).skimLong with
        | some l => ((s.app.passEnd k).set Reg.CSC_SKSTAT_phase 2).endLong l Status.ok []
        | none => s.app.passEnd k) = b) :
    exec .migrationPass s = .next (s.withApp b) := by
  refine exec_onApp_acts hlive (show execMigrationPass s = _ from rfl) ?_
  rw [hskim]
  exact (if_neg (by simp [hbuilt, hphase])).trans h

/-- Settles O33: each event by the row's condition. -/
theorem skimEventsAct : Obligations.SkimEventsAct := by
  unfold Obligations.SkimEventsAct
  intro s hlive
  refine ⟨fun hwindow hroll hskim => ?windowEnd, fun k hskim => ⟨fun hbuilt hphase => ⟨fun hdirty => ?more, fun hfew hrev => ?reverse,
    fun l hfew hrev hlong => ?prepared, fun hfew hrev hlong => ?follows⟩, fun hphase hasked hat => ⟨fun hfew => ?pause, fun hmany => ?putOff⟩,
    fun h t hcmd hput hsince hphase => ?timeout, fun from_ hrun hphase hdrained => ⟨fun h hrev hcmd => ?forward, fun l hrev hlong => ?back⟩⟩⟩
  case windowEnd =>
    exact exec_onApp_acts hlive (show execRollbackWindowEnd s = _ from rfl) (if_pos (by simp [hwindow, hroll, hskim]))
  case more => exact exec_migrationPass hlive hskim hbuilt hphase (if_pos hdirty)
  case reverse => exact exec_migrationPass hlive hskim hbuilt hphase ((if_neg (Nat.not_lt.mpr hfew)).trans (if_pos hrev))
  case prepared =>
    refine exec_migrationPass hlive hskim hbuilt hphase
      ((if_neg (Nat.not_lt.mpr hfew)).trans ((if_neg (Bool.eq_false_iff.mp hrev)).trans ?_))
    rw [show (s.app.passEnd k).skimLong = some l from hlong]
    rfl
  case follows =>
    refine exec_migrationPass hlive hskim hbuilt hphase
      ((if_neg (Nat.not_lt.mpr hfew)).trans ((if_neg (Bool.eq_false_iff.mp hrev)).trans ?_))
    rw [show (s.app.passEnd k).skimLong = none from hlong]
    rfl
  case pause =>
    refine exec_onApp_acts hlive (show execSwitchInstant s = _ from rfl) ?_
    rw [hskim]
    exact (if_neg (by simp [switchDue_of_asked hskim hphase hasked hat])).trans (if_neg (Nat.not_lt.mpr hfew))
  case putOff =>
    refine exec_onApp_acts hlive (show execSwitchInstant s = _ from rfl) ?_
    rw [hskim]
    exact (if_neg (by simp [switchDue_of_asked hskim hphase hasked hat])).trans (if_pos hmany)
  case timeout =>
    refine exec_onApp_acts hlive (show execDirtyTimeout s = _ from rfl) ?_
    rw [hskim]
    dsimp only
    rw [hcmd, hput]
    exact if_pos ⟨hsince, hphase⟩
  case forward =>
    refine exec_onApp_acts hlive (show execSwitchDrainEnd s = _ from rfl) ?_
    rw [hskim, hrun]
    refine (if_neg (by simp [hphase, hdrained])).trans ((if_neg (Bool.eq_false_iff.mp hrev)).trans ?_)
    rw [hcmd]
  case back =>
    refine exec_onApp_acts hlive (show execSwitchDrainEnd s = _ from rfl) ?_
    rw [hskim, hrun]
    refine (if_neg (by simp [hphase, hdrained])).trans ((if_pos hrev).trans ?_)
    dsimp only at hlong ⊢
    rw [hlong]

end Sys2Proof.Machine
end

section
/-! SUPPORT. Setup reads (O31). -/

namespace Sys2Proof.Machine

open Host

/-- The table address moves on with an access of a table's data register alone (R528, R563). -/
def App.tableStep (a : App) (o : Nat) : App := if o = ethDataAt then a.ethNext else if o = canDataAt then a.canNext else a

/-- The value that a setup read returns to context `k` (R459). -/
def App.putRead (a : App) (k x : Nat) : App := a.onCtx k fun c => { c with readData := BitVec.ofNat 64 x }

theorem tableStep_plain {o : Nat} (a : App) (heth : o ≠ ethDataAt) (hcan : o ≠ canDataAt) : a.tableStep o = a :=
  (if_neg heth).trans (if_neg hcan)

theorem tableStep_eth (a : App) : a.tableStep ethDataAt = a.ethNext := if_pos rfl

theorem tableStep_can (a : App) : a.tableStep canDataAt = a.canNext := (if_neg (by decide)).trans (if_pos rfl)

theorem setupRead_double {k o : Nat} (a : App) (hal : o % 8 = 0) :
    a.setupRead k o 8 = ((a.putRead k (a.doubleword o + 2 ^ 32 * a.doubleword (o + 4))).tableStep o).tableStep (o + 4) :=
  if_pos ⟨rfl, hal⟩

theorem setupRead_word {k o : Nat} (a : App) (hal : o % 4 = 0) :
    a.setupRead k o 4 = match regAt o with
      | some r =>
        ((if r.wide then a.onCtx k fun c => { c with latch := some (o, BitVec.ofNat 32 (a.regValue o r / 2 ^ 32)) } else a).putRead k
          (a.regValue o r % 2 ^ 32)).tableStep o
      | none =>
        match (vat a.ctxs k).latch with
        | some (l, hi) => if l + 4 = o then a.putRead k hi.toNat else a.putRead k (a.doubleword o)
        | none => a.putRead k (a.doubleword o) := if_pos ⟨rfl, hal⟩

theorem setupRead_narrow {k o : Nat} {r : RegDef} (a : App) (hal : o % 4 = 0) (hreg : regAt o = some r) (hwide : r.wide = false) :
    a.setupRead k o 4 = (a.putRead k (a.regValue o r % 2 ^ 32)).tableStep o := by
  refine (setupRead_word a hal).trans ?_
  rw [hreg]
  simp only [hwide, Bool.false_eq_true, if_false]

theorem setupRead_low {k o : Nat} {r : RegDef} (a : App) (hal : o % 4 = 0) (hreg : regAt o = some r) (hwide : r.wide = true) :
    a.setupRead k o 4 =
      ((a.onCtx k fun c => { c with latch := some (o, BitVec.ofNat 32 (a.regValue o r / 2 ^ 32)) }).putRead k (a.regValue o r % 2 ^ 32)).tableStep o := by
  refine (setupRead_word a hal).trans ?_
  rw [hreg]
  simp only [hwide, if_true]

theorem setupRead_high {k o : Nat} {hi : BitVec 32} (a : App) (hal : o % 4 = 0) (hlow : 4 ≤ o) (hreg : regAt o = none)
    (hlatch : (vat a.ctxs k).latch = some (o - 4, hi)) : a.setupRead k o 4 = a.putRead k hi.toNat := by
  refine (setupRead_word a hal).trans ?_
  rw [hreg, hlatch]
  exact if_pos (Nat.sub_add_cancel hlow)

/-- Settles O31: each form of read by its lemma. -/
theorem setupReadsAct : Obligations.SetupReadsAct := by
  unfold Obligations.SetupReadsAct
  intro s k hlive
  refine ⟨fun o hal hlow hhigh => ?double, fun o r hal hplain hreg hwide => ?narrow, fun o r hal hplain hreg hwide => ?low,
    fun o hi hal hmin hreg hlatch => ?high, fun r hreg hwide => ?eth, fun r hreg hwide => ?can⟩
  case double =>
    refine exec_onApp_acts hlive (show execLatchedRead k o 8 s = _ from rfl) ((setupRead_double s.app hal).trans ?_)
    rw [tableStep_plain _ hlow.1 hlow.2, tableStep_plain _ hhigh.1 hhigh.2]
    rfl
  case narrow =>
    exact exec_onApp_acts hlive (show execLatchedRead k o 4 s = _ from rfl)
      ((setupRead_narrow s.app hal hreg hwide).trans (tableStep_plain _ hplain.1 hplain.2))
  case low =>
    exact exec_onApp_acts hlive (show execLatchedRead k o 4 s = _ from rfl)
      ((setupRead_low s.app hal hreg hwide).trans (tableStep_plain _ hplain.1 hplain.2))
  case high =>
    exact exec_onApp_acts hlive (show execLatchedRead k o 4 s = _ from rfl) (setupRead_high s.app hal hmin hreg hlatch)
  case eth =>
    exact exec_onApp_acts hlive (show execEthTbldataRead k s = _ from rfl)
      ((setupRead_narrow s.app (by decide) hreg hwide).trans (tableStep_eth _))
  case can =>
    exact exec_onApp_acts hlive (show execCanTbldataRead k s = _ from rfl)
      ((setupRead_narrow s.app (by decide) hreg hwide).trans (tableStep_can _))

end Sys2Proof.Machine
end

section
/-! SUPPORT. The events of host contexts and of the DMA channels (O34, O38). -/

namespace Sys2Proof.Machine

open Host

/-! ### Host contexts (R466 to R469, R474, R484, R591) -/

/-- Settles O34: each event by the row's condition. -/
theorem hostContextEventsAct : Obligations.HostContextEventsAct := by
  unfold Obligations.HostContextEventsAct
  intro s hlive
  refine ⟨fun k slots hdue => ⟨?fetchFails, fun p => ?fetch⟩, fun k => ?functionReset, fun p => ?hotReset, fun p hup => ?linkDown,
    fun p speed width => ?linkUp, fun k v t hlast hwaiting hsince => ?holdoff⟩
  case fetchFails => exact exec_onApp_acts hlive (show execDoorbellFetch k none slots s = _ from rfl) (if_neg (by simp [hdue]))
  case fetch => exact exec_onApp_acts hlive (show execDoorbellFetch k (some p) slots s = _ from rfl) (if_neg (by simp [hdue]))
  case functionReset => exact exec_onApp_acts hlive (show execFunctionLevelReset k s = _ from rfl) rfl
  case hotReset => exact exec_onApp_acts hlive (show execHotReset p s = _ from rfl) rfl
  case linkDown => exact exec_onApp_acts hlive (show execLinkDown p s = _ from rfl) (if_pos hup)
  case linkUp => exact exec_onApp_acts hlive (show execLinkUp p speed width s = _ from rfl) rfl
  case holdoff =>
    refine exec_onApp_acts hlive (show execInterruptHoldoffEnd k v s = _ from rfl) ?_
    dsimp only
    rw [hlast]
    exact if_pos (by rw [hwaiting, hsince]; rfl)

/-! ### DMA channels (R504 to R506, R514 to R516) -/

/-- Settles O38: each event by the row's condition. -/
theorem dmaEventsAct : Obligations.DmaEventsAct := by
  unfold Obligations.DmaEventsAct
  intro s hlive
  refine ⟨fun c slots k => ?tail, fun io c hpick => ⟨fun hrest => ?skipped, fun hwork => ?burst⟩,
    fun c ok hconfirm => ⟨fun hgoing => ?confirmed, fun habort => ?confirmedHalts⟩,
    fun c hrun => ⟨fun hconfirm => ?abortWaits, fun hconfirm hpos => ?abortIdle, fun hconfirm hpos => ?abortBusy⟩, fun c hhalted => ?restart⟩
  case tail => exact exec_onApp_acts hlive (show execDmaTailAdvance c slots k s = _ from rfl) rfl
  case skipped =>
    refine exec_onApp_acts hlive (show execDmaBurst io s = _ from rfl) ?_
    rw [hpick]
    exact if_neg (Bool.eq_false_iff.mp hrest)
  case burst =>
    refine exec_onApp_acts hlive (show execDmaBurst io s = _ from rfl) ?_
    rw [hpick]
    exact if_pos hwork
  case confirmed =>
    exact exec_onApp_acts hlive (show execDmaConfirmationRead c ok s = _ from rfl)
      ((if_pos hconfirm).trans (if_neg (Bool.eq_false_iff.mp hgoing)))
  case confirmedHalts =>
    exact exec_onApp_acts hlive (show execDmaConfirmationRead c ok s = _ from rfl) ((if_pos hconfirm).trans (if_pos habort))
  case abortWaits =>
    exact exec_onApp_acts hlive (show execDmaAbort c s = _ from rfl) ((if_neg (Bool.eq_false_iff.mp hrun)).trans (if_pos hconfirm))
  case abortIdle =>
    exact exec_onApp_acts hlive (show execDmaAbort c s = _ from rfl)
      ((if_neg (Bool.eq_false_iff.mp hrun)).trans ((if_neg (Bool.eq_false_iff.mp hconfirm)).trans (if_pos hpos)))
  case abortBusy =>
    exact exec_onApp_acts hlive (show execDmaAbort c s = _ from rfl)
      ((if_neg (Bool.eq_false_iff.mp hrun)).trans ((if_neg (Bool.eq_false_iff.mp hconfirm)).trans (if_neg hpos)))
  case restart => exact exec_onApp_acts hlive (show execDmaRestart c s = _ from rfl) (if_pos hhalted)

end Sys2Proof.Machine
end

section
/-! SUPPORT. The events of the CAN buses (O39, O40). -/

namespace Sys2Proof.Machine

open Host

/-! ### Schedule, correlation, stream blocks and bus-off (R546, R550, R551, R553, R559, R561) -/

/-- Settles O39: each event by the row's condition. -/
theorem canScheduleEventsAct : Obligations.CanScheduleEventsAct := by
  unfold Obligations.CanScheduleEventsAct
  intro s hlive
  refine ⟨fun b idle t j o more hstart hcols hen hsched hsince => ?opens, fun b w e hwin hend hat => ?closes, ?pairs,
    fun n descs => ⟨fun hready => ?noBlock, fun p recs more hready => ⟨fun htaken => ?written, fun hlost => ?dropped⟩⟩, fun b hoff => ?recovers⟩
  case opens =>
    refine exec_onApp_acts hlive (show execCanWindowStart b idle s = _ from rfl) ?_
    rw [hstart, hcols]
    exact if_pos (by rw [hen, hsched, hsince]; rfl)
  case closes =>
    refine exec_onApp_acts hlive (show execCanWindowEnd b s = _ from rfl) ?_
    rw [hwin]
    dsimp only
    rw [hend]
    exact if_pos hat
  case pairs => exact exec_onApp_acts hlive (show execCanCorrelation s = _ from rfl) rfl
  case noBlock =>
    refine exec_onApp_acts hlive (show execCanBlockFlush n descs s = _ from rfl) ?_
    dsimp only at hready ⊢
    rw [hready]
  case written =>
    refine exec_onApp_acts hlive (show execCanBlockFlush n descs s = _ from rfl) ?_
    dsimp only at hready htaken ⊢
    rw [hready]
    exact if_pos htaken
  case dropped =>
    refine exec_onApp_acts hlive (show execCanBlockFlush n descs s = _ from rfl) ?_
    dsimp only at hready hlost ⊢
    rw [hready]
    exact if_neg (Bool.eq_false_iff.mp hlost)
  case recovers => exact exec_onApp_acts hlive (show execBusOffRecovery b s = _ from rfl) (if_pos hoff)

/-! ### Traffic (R546 to R548, R554 to R556, R558) -/

/-- A search for the least key ends at the element whose key lies below all others. -/
theorem foldl_least {α : Type} (key : α → Nat) {t : α} {f : Option α → α → Option α} (hnone : ∀ x, f none x = some x)
    (hsome : ∀ u x, f (some u) x = if key x < key u then some x else some u) (l : List α) (best : Option α)
    (hmin : ∀ u ∈ l, u ≠ t → key t < key u) (hbest : ∀ u, best = some u → u ≠ t → key t < key u) (hmem : t ∈ l ∨ best = some t) :
    l.foldl f best = some t := by
  induction l generalizing best with
  | nil => exact hmem.resolve_left List.not_mem_nil
  | cons x l ih =>
    have hrest : ∀ u ∈ l, u ≠ t → key t < key u := fun u hu => hmin u (List.mem_cons_of_mem x hu)
    have hx : x ≠ t → key t < key x := hmin x List.mem_cons_self
    rw [List.foldl_cons]
    cases best with
    | none =>
      rw [hnone]
      refine ih (some x) hrest (fun u hu => by cases hu; exact hx) ?_
      exact (List.mem_cons.mp (hmem.resolve_right nofun)).elim (fun h => .inr (congrArg some h.symm)) .inl
    | some b =>
      have hb : b ≠ t → key t < key b := hbest b rfl
      by_cases hless : key x < key b
      · rw [hsome, if_pos hless]
        refine ih (some x) hrest (fun u hu => by cases hu; exact hx) ?_
        by_cases hxt : x = t
        · exact .inr (congrArg some hxt)
        · refine .inl (hmem.elim (fun h => List.mem_of_ne_of_mem (Ne.symm hxt) h) fun h => ?_)
          cases h
          exact absurd (hx hxt) (Nat.lt_asymm hless)
      · rw [hsome, if_neg hless]
        refine ih (some b) hrest (fun u hu => by cases hu; exact hb) ?_
        by_cases hbt : b = t
        · exact .inr (congrArg some hbt)
        · refine .inl (hmem.elim (fun h => List.mem_of_ne_of_mem (fun hxt => ?_) h) fun h => absurd (Option.some.inj h) hbt)
          exact hless (hxt ▸ hb hbt)

/-- The pending object of the lowest identifier is the one that a message bus picks (R554). -/
theorem exec_canMessageTransmit {s : State} {b : Fin 2} {t : CanTx} {c : App} (hlive : s.app.life.boot ≠ .held)
    (hmem : t ∈ (s.app.bus (10 + b.val)).pend)
    (hmin : ∀ u ∈ (s.app.bus (10 + b.val)).pend, u ≠ t → s.app.canKey (10 + b.val) t < s.app.canKey (10 + b.val) u)
    (hen : s.app.on (Reg.CAN_CFG_en (10 + b.val)) = true) (hcur : (s.app.bus (10 + b.val)).cur = none)
    (h : (let drop := s.app.onBus (10 + b.val) fun x => { x with pend := x.pend.filter (fun y => y.obj != t.obj) }
      if s.app.canLimited (10 + b.val) then drop.satAdd (Reg.CAN_STAT_blocked (10 + b.val)) 1
      else if !s.app.canUp (10 + b.val) then s.app
      else (drop.onBus (10 + b.val) fun x => { x with due := some t }).canGo (10 + b.val)) = c) :
    exec (.canMessageTransmit b true) s = .next (s.withApp c) := by
  refine exec_onApp_acts hlive (show execCanMessageTransmit b true s = _ from rfl) ?_
  dsimp only
  generalize hfold : List.foldl _ none (s.app.bus (10 + b.val)).pend = best
  obtain rfl : best = some t := hfold.symm.trans
    (foldl_least (s.app.canKey (10 + b.val)) (fun _ => rfl) (fun _ _ => rfl) _ none hmin nofun (.inl hmem))
  exact (if_neg (by simp [hen, hcur])).trans h

/-- Settles O40: each event by the row's condition. -/
theorem canTrafficEventsAct : Obligations.CanTrafficEventsAct := by
  unfold Obligations.CanTrafficEventsAct
  intro s hlive
  refine ⟨fun b t hmem hmin hen hcur => ⟨fun hlimited => ?blocked, fun hfree hup => ?starts⟩, fun b o hon hrx hto hvalid hsince => ?timeout,
    fun b ts t hcur => ⟨?sent, ?lost, fun code data => ?failed⟩, fun b ts code data heavy hup hlow hhigh => ?detected,
    fun b f hup hfd => ⟨fun hrtr => ?remote, fun hdata => ?received⟩⟩
  case blocked => exact exec_canMessageTransmit hlive hmem hmin hen hcur (if_pos hlimited)
  case starts =>
    exact exec_canMessageTransmit hlive hmem hmin hen hcur ((if_neg (Bool.eq_false_iff.mp hfree)).trans (if_neg (by simp [hup])))
  case timeout =>
    exact exec_onApp_acts hlive (show execCanRxTimeout b o s = _ from rfl) (if_pos (by simp [hon, hrx, hto, hvalid, hsince]))
  case sent =>
    refine exec_onApp_acts hlive (show execCanFrameSent b ts .sent s = _ from rfl) ?_
    rw [hcur]
  case lost =>
    refine exec_onApp_acts hlive (show execCanFrameSent b ts .lost s = _ from rfl) ?_
    rw [hcur]
  case failed =>
    refine exec_onApp_acts hlive (show execCanFrameSent b ts (.error code data) s = _ from rfl) ?_
    rw [hcur]
  case detected =>
    exact exec_onApp_acts hlive (show execCanErrorDetected b ts code data heavy s = _ from rfl) (if_pos (by simp [hup, inR, hlow, hhigh]))
  case remote =>
    refine exec_onApp_acts hlive (show execCanFrameReceived b f s = _ from rfl) ?_
    refine (if_neg (by simpa [hup] using hfd)).trans ?_
    simp only [hrtr, if_true]
  case received =>
    refine exec_onApp_acts hlive (show execCanFrameReceived b f s = _ from rfl) ?_
    refine (if_neg (by simpa [hup] using hfd)).trans ?_
    simp only [hdata, Bool.false_eq_true, if_false] <;> rfl

end Sys2Proof.Machine
end

section
/-! SUPPORT. The timed events of the redundant pair (O42). -/

namespace Sys2Proof.Machine

open Host

/-- A block whose reason has no condition of its own, or whose condition holds, is retried (R570). -/
theorem exec_joiningRetry {s : State} (hlive : s.app.life.boot ≠ .held) (hrole : s.app.role = Role.joining)
    (hphase : s.app.get Reg.PAR_STAT_phase = 4)
    (hreason : s.app.get Reg.PAR_STAT_reason < 7 ∨ (s.app.get Reg.PAR_STAT_reason = 7 ∧ s.app.passed s.app.par.offOkAt tS = true) ∨
      (s.app.get Reg.PAR_STAT_reason = 9 ∧ s.app.passed s.app.par.upAt tS = true) ∨
      (s.app.get Reg.PAR_STAT_reason = 8 ∧ s.app.since s.app.par.roleAt (600 * tS) = true)) :
    exec .joiningRetry s = .next (s.withApp (s.app.setRole Role.joining 1 0)) := by
  refine exec_onApp_acts hlive (show execJoiningRetry s = _ from rfl) ?_
  refine if_pos ⟨hrole, hphase, ?_⟩
  obtain hlow | ⟨hseven, hok⟩ | ⟨hnine, hok⟩ | ⟨height, hok⟩ := hreason
  · split
    case h_4 => rfl
    all_goals omega
  · simp only [hseven, hok]
  · simp only [hnine, hok]
  · simp only [height, hok]

/-- A partner that is off for 500 us is lost: what follows is the row of the module's role (R569, R578). -/
theorem partner_is_lost {a : App} (hpair : a.pairOn = true) (hpeer : a.par.peer.isSome = true) (hsilent : a.since a.par.rxAt (500 * tUs) = true) :
    ¬ (!a.pairOn || !((true && a.since a.par.rxAt (500 * tUs)) || (a.on Reg.PAR_STAT_alv_fault && a.since a.par.rxAt a.missTicks))
      || a.par.peer.isNone) = true := by
  simp [hpair, hsilent, Option.isSome_iff_ne_none.mp hpeer]

/-- Settles O42: each event by the row's condition. -/
theorem pairEventsAct : Obligations.PairEventsAct := by
  unfold Obligations.PairEventsAct
  intro s hlive
  refine ⟨fun hpair hdue => ?beat, fun hrole hphase => ?applies, fun c hrole hcopy hleads => ?pass, fun c hcopy hdrain hpoint hleads hquiet => ?point,
    fun hrole hphase hsince hall => ?tracks, fun f hfind hstreams hsince => ?late,
    fun hpair hpeer hsilent => ⟨fun hrole hwas => ?standbyLost, fun hrole hlow hhigh => ?joiningLost, fun hrole => ?primaryLost⟩,
    fun hpair hup hsilent halive => ?linkLost, fun hpair halive hup hheard => ?aliveFault, fun hfault hsince => ?aliveClear,
    ?laneFails, ?laneBack, fun hrole hphase hsince => ?waited, fun hrole hphase hreason => exec_joiningRetry hlive hrole hphase hreason,
    fun hopen hend => ?windowEnds⟩
  case beat => exact exec_onApp_acts hlive (show execHeartbeatInterval s = _ from rfl) (if_pos (by rw [hpair, hdue]; rfl))
  case applies => exact exec_onApp_acts hlive (show execStateCopyPass s = _ from rfl) (if_pos ⟨hrole, hphase⟩)
  case pass =>
    refine exec_onApp_acts hlive (show execStateCopyPass s = _ from rfl) ((if_neg fun h => hrole h.1).trans ?_)
    rw [hcopy]
    exact if_pos hleads
  case point =>
    refine exec_onApp_acts hlive (show execCopyPoint s = _ from rfl) ?_
    rw [hcopy]
    exact if_pos (by rw [hdrain, hpoint, hleads, hquiet]; rfl)
  case tracks => exact exec_onApp_acts hlive (show execTrackingCriterion s = _ from rfl) (if_pos ⟨hrole, hphase, hsince, hall⟩)
  case late =>
    refine exec_onApp_acts hlive (show execAckTimeout s = _ from rfl) ?_
    rw [hfind]
    exact if_pos (by rw [hstreams, hsince]; rfl)
  case standbyLost =>
    exact exec_onApp_acts hlive (show execPartnerLost true s = _ from rfl)
      ((if_neg (partner_is_lost hpair hpeer hsilent)).trans ((if_pos hrole).trans (if_pos hwas)))
  case joiningLost =>
    exact exec_onApp_acts hlive (show execPartnerLost true s = _ from rfl)
      ((if_neg (partner_is_lost hpair hpeer hsilent)).trans ((if_neg (by rw [hrole]; decide)).trans (if_pos ⟨hrole, hlow, hhigh⟩)))
  case primaryLost =>
    exact exec_onApp_acts hlive (show execPartnerLost true s = _ from rfl)
      ((if_neg (partner_is_lost hpair hpeer hsilent)).trans ((if_neg (by rw [hrole]; decide)).trans
        ((if_neg (by rw [hrole]; exact fun h => absurd h.1 (by decide))).trans (if_pos hrole))))
  case linkLost => exact exec_onApp_acts hlive (show execLinkLost s = _ from rfl) (if_pos (by rw [hpair, hup, hsilent, halive]; rfl))
  case aliveFault => exact exec_onApp_acts hlive (show execAliveLineFault s = _ from rfl) (if_pos (by rw [hpair, halive, hup, hheard]; rfl))
  case aliveClear => exact exec_onApp_acts hlive (show execAlvFaultClear s = _ from rfl) (if_pos (by rw [hfault, hsince]; rfl))
  case laneFails => exact exec_onApp_acts hlive (show execLaneFailure s = _ from rfl) rfl
  case laneBack => exact exec_onApp_acts hlive (show execLaneRestored s = _ from rfl) rfl
  case waited => exact exec_onApp_acts hlive (show execPairWaitExpiry s = _ from rfl) (if_pos ⟨hrole, hphase, hsince⟩)
  case windowEnds =>
    exact exec_onApp_acts hlive (show execUpgradeWindowClose s = _ from rfl) (if_pos (by rw [hopen, decide_eq_true hend]; rfl))

end Sys2Proof.Machine
end

section
/-! SUPPORT. The frames of the redundant pair (O41). -/

namespace Sys2Proof.Machine

open Host

/-- Settles O41: each frame by the row's condition. -/
theorem pairFramesAct : Obligations.PairFramesAct := by
  unfold Obligations.PairFramesAct
  intro s hlive hpair
  have hon : ¬ (!s.app.pairOn) = true := by simp [hpair]
  refine ⟨fun x => ?beat, fun n => ⟨fun hnone => ?acked, fun x hcopy hpoint => ?copyAcked⟩, fun c => ?commit, fun hrole => ?handover,
    fun hrole hphase => ⟨fun i => ?page, fun seq pending units => ?copyPoint⟩, fun hfollows => ?follow⟩
  case beat => exact exec_onApp_acts hlive (show execHeartbeat x s = _ from rfl) (if_pos hpair)
  case acked =>
    refine exec_onApp_acts hlive (show execAcknowledgement n s = _ from rfl) ((if_neg hon).trans ?_)
    dsimp only at hnone ⊢
    rw [hnone]
  case copyAcked =>
    refine exec_onApp_acts hlive (show execAcknowledgement n s = _ from rfl) ((if_neg hon).trans ?_)
    dsimp only at hcopy ⊢
    rw [hcopy]
    exact congrArg App.resetIfAsked (if_pos hpoint)
  case commit => exact exec_onApp_acts hlive (show execCommitRecord c s = _ from rfl) (if_pos hpair)
  case handover => exact exec_onApp_acts hlive (show execHandover s = _ from rfl) ((if_neg hon).trans (if_pos hrole))
  case page => exact exec_onApp_acts hlive (show execStateCopyPage i s = _ from rfl) ((if_neg hon).trans (if_pos ⟨hrole, hphase⟩))
  case copyPoint =>
    exact exec_onApp_acts hlive (show execCopyPointReceived seq pending units s = _ from rfl) ((if_neg hon).trans (if_pos ⟨hrole, hphase⟩))
  case follow =>
    have hgo : ¬ (!s.app.accept.follows) = true := by simp [hfollows]
    refine ⟨fun t r l => ?snapshot, fun h op hop => ?command, fun k tag f => ?final, fun o t v r heth hcan hreg hcov => ?setup,
      fun t svc => ?action, fun k tag t e hfind => ?switch, fun d => ?image, fun d hmap hrun => ?map, ?backlog, ?lateAck⟩
    case snapshot => exact exec_onApp_acts hlive (show execTaskSnapshot t r l s = _ from rfl) ((if_neg hon).trans (if_neg hgo))
    case command =>
      exact exec_onApp_acts hlive (show execCommandJournalEntry h op s = _ from rfl)
        ((if_neg hon).trans (if_pos (by rw [hfollows]; simpa using hop)))
    case final => exact exec_onApp_acts hlive (show execFinalTagRecord k tag f s = _ from rfl) ((if_neg hon).trans (if_neg hgo))
    case setup =>
      refine exec_onApp_acts hlive (show execMirroredSetupWrite o t v s = _ from rfl) ((if_neg hon).trans ?_)
      refine (if_neg (by simp [hfollows])).trans ((if_neg heth).trans ((if_neg hcan).trans (if_pos ?_)))
      rw [hreg]
      exact Bool.or_eq_true_iff.mpr (.inr hcov)
    case action =>
      exact exec_onApp_acts hlive (show execEffectNotice (.action t svc) s = _ from rfl) ((if_neg hon).trans (if_neg hgo))
    case switch =>
      refine exec_onApp_acts hlive (show execEffectNotice (.command k tag (some t)) s = _ from rfl)
        ((if_neg hon).trans ((if_neg hgo).trans ?_))
      dsimp only
      rw [hfind]
    case image => exact exec_onApp_acts hlive (show execImageTransfer (.image d) s = _ from rfl) ((if_neg hon).trans (if_neg hgo))
    case map =>
      exact exec_onApp_acts hlive (show execImageTransfer (.map d) s = _ from rfl)
        ((if_neg hon).trans ((if_neg hgo).trans (if_pos ⟨hmap, hrun⟩)))
    case backlog =>
      exact exec_onApp_acts hlive (show execDrop true s = _ from rfl) ((if_neg hon).trans ((if_neg hgo).trans (if_pos rfl)))
    case lateAck =>
      exact exec_onApp_acts hlive (show execDrop false s = _ from rfl)
        ((if_neg hon).trans ((if_neg hgo).trans (if_neg Bool.false_ne_true)))

end Sys2Proof.Machine
end

section
/-! SUPPORT. The events of field inputs (O35). -/

namespace Sys2Proof.Machine

open Host

/-! ### Rows that act under a condition -/

/-- A row of the application partition that acts where `p` holds, and rests elsewhere. -/
theorem exec_onApp_ite {i : Instr} {s : State} {f : App → App} {b : App} {p : Prop} [Decidable p] (hlive : s.app.life.boot ≠ .held)
    (hexec : exec i s = s.onApp f) (hacts : p → f s.app = b) (hrests : ¬ p → f s.app = s.app) :
    exec i s = .next (if p then s.withApp b else s) := by
  split
  case isTrue hp => exact exec_onApp_acts hlive hexec (hacts hp)
  case isFalse hp => exact exec_onApp_rests hexec (hrests hp)

/-- A row of the application partition rests in a held module. -/
theorem exec_onApp_held {i : Instr} {s : State} {f : App → App} (hheld : s.app.life.boot = .held) (hexec : exec i s = s.onApp f) :
    exec i s = .next s := hexec.trans (onApp_held s f hheld)

theorem ite_not_ite {α : Type} (p q : Bool) (x y : α) : (if !p then x else if q then x else y) = if p = true ∧ q = false then y else x := by
  cases p <;> cases q <;> rfl

/-! ### The loop current (R434, R435) -/

/-- The region of the current, with the tick since which it holds. -/
def App.inRegion (a : App) (f r : Nat) : App := a.onFio f fun x => if x.region = r then x else { x with region := r, regionAt := a.tick }

/-- A current inside the window releases a held-back change. -/
def App.releaseHeld (a : App) (f r : Nat) : App :=
  if r = 1 ∧ (vat a.fio.ch f).held.isSome then ((a.onFio f fun c => { c with held := none, shown := false }).fioShow f true).fioRoute f else a

/-- The wire break that a current inside the window ends. -/
def App.endBreak (a : App) (f n : Nat) : App :=
  if (vat a.fio.ch f).wireBreak then
    ((a.onFio f fun c => { c with wireBreak := false, shown := false }).fioShow f (vat a.fio.ch f).shown).fioRecord f 4 n a.edgeNow
  else a

/-- What a region means once it has lasted diag_time. -/
def App.judgeRegion (a : App) (f n r : Nat) : App :=
  if !a.since (vat a.fio.ch f).regionAt (a.fioDiagTime f) then a
  else if r = 0 then
    if (vat a.fio.ch f).wireBreak then a
    else ((a.onFio f fun c => { c with wireBreak := true, held := none }).fioShow f false).fioRecord f 3 n a.edgeNow
  else if r = 2 then
    if (vat a.fio.ch f).loopHigh then a else ((a.onFio f fun c => { c with loopHigh := true }).fioShow f false).fioRecord f 5 n a.edgeNow
  else if (vat a.fio.ch f).loopHigh then
    (((a.endBreak f n).onFio f fun c => { c with loopHigh := false }).fioShow f false).fioRecord f 6 n (a.endBreak f n).edgeNow
  else a.endBreak f n

theorem releaseHeld_outside (a : App) {f r : Nat} (hr : r ≠ 1) : a.releaseHeld f r = a := if_neg fun h => hr h.1

theorem releaseHeld_inside (a : App) (f : Nat) : a.releaseHeld f 1 =
    if (vat a.fio.ch f).held ≠ none then ((a.onFio f fun c => { c with held := none, shown := false }).fioShow f true).fioRoute f else a :=
  if_congr (by simp [Option.isSome_iff_ne_none]) rfl rfl

theorem judgeRegion_below (a : App) (f n : Nat) : a.judgeRegion f n 0 =
    if a.since (vat a.fio.ch f).regionAt (a.fioDiagTime f) = true ∧ (vat a.fio.ch f).wireBreak = false then
      ((a.onFio f fun c => { c with wireBreak := true, held := none }).fioShow f false).fioRecord f 3 n a.edgeNow else a := ite_not_ite _ _ _ _

theorem judgeRegion_above (a : App) (f n : Nat) : a.judgeRegion f n 2 =
    if a.since (vat a.fio.ch f).regionAt (a.fioDiagTime f) = true ∧ (vat a.fio.ch f).loopHigh = false then
      ((a.onFio f fun c => { c with loopHigh := true }).fioShow f false).fioRecord f 5 n a.edgeNow else a := ite_not_ite _ _ _ _

theorem judgeRegion_inside (a : App) (f n : Nat) : a.judgeRegion f n 1 =
    if a.since (vat a.fio.ch f).regionAt (a.fioDiagTime f) = false then a
    else if (vat a.fio.ch f).loopHigh = true then
      (((a.endBreak f n).onFio f fun c => { c with loopHigh := false }).fioShow f false).fioRecord f 6 n (a.endBreak f n).edgeNow
    else a.endBreak f n := if_congr (by simp) rfl rfl

/-- A measurement of the loop current of a supervised input whose island is heard. -/
theorem exec_supervisionDiagnosis {s : State} {f : Fin 32} {n : Nat} {b : App} (hlive : s.app.life.boot ≠ .held) (hin : s.app.fioIn f = true)
    (hclass : s.app.on (Reg.FIO_CFG_class f) = true) (hheard : (vat s.app.fio.ch f).islandOff = false)
    (h : (if (s.app.set (Reg.FIO_MEAS_i_loop f) (min 255 n)).on (Reg.FIO_STAT_level f) then
        (s.app.set (Reg.FIO_MEAS_i_loop f) (min 255 n)).onFio f fun c =>
          { c with region := 3, regionAt := (s.app.set (Reg.FIO_MEAS_i_loop f) (min 255 n)).tick }
      else
        let a := (s.app.set (Reg.FIO_MEAS_i_loop f) (min 255 n)).heldOut f n
        let r := if n < a.get (Reg.FIO_SUP_win_lo f) then 0 else if n < a.get (Reg.FIO_SUP_win_hi f) then 1 else 2
        ((a.inRegion f r).releaseHeld f r).judgeRegion f n r) = b) :
    exec (.supervisionDiagnosis f n) s = .next (s.withApp b) :=
  exec_onApp_acts hlive (show execSupervisionDiagnosis f n s = _ from rfl) ((if_neg (by simp [hin, hclass, hheard])).trans h)

/-! ### The debounced level (R430) -/

/-- Where a debounced level is not taken: the channel disabled, its island silent, or its configuration settling. -/
theorem debounceIdle_iff (a : App) (f : Nat) :
    (!a.on (Reg.FIO_CFG_en f) || (vat a.fio.ch f).islandOff
      || ((vat a.fio.ch f).settleAt.isSome && !a.passed (vat a.fio.ch f).settleAt (a.fioDeb f))) = true ↔
    a.on (Reg.FIO_CFG_en f) = false ∨ (vat a.fio.ch f).islandOff = true ∨
      ((vat a.fio.ch f).settleAt ≠ none ∧ a.passed (vat a.fio.ch f).settleAt (a.fioDeb f) = false) := by
  simp [Option.isSome_iff_ne_none, or_assoc]

/-- An unchanged level that ends neither a settling nor a dead supply's invalidity. -/
theorem debounceSame_iff (a : App) (f : Nat) (level : Bool) :
    (a.on (Reg.FIO_STAT_level f) == level
      && !((vat a.fio.ch f).settleAt.isSome || a.passed (vat a.fio.ch f).deadWait (a.fioDeb f))) = true ↔
    a.on (Reg.FIO_STAT_level f) = level ∧
      ¬ ((vat a.fio.ch f).settleAt ≠ none ∨ a.passed (vat a.fio.ch f).deadWait (a.fioDeb f) = true) := by
  simp [← Option.isSome_iff_ne_none]

/-- Settles O35: each row by its condition. -/
theorem fieldInputEventsAct : Obligations.FieldInputEventsAct := by
  unfold Obligations.FieldInputEventsAct
  refine ⟨fun s f hheld => ⟨fun level t => ?_, fun n => ?_, ?_, ?_, ?_, ?_, ?_⟩, fun s f hlive => ⟨fun level t =>
      ⟨fun hrest => ?debounceRests, fun hgo hmoved hout => ?outputMoves, fun hgo hmoved hin => ?inputMoves,
        fun hgo hsame hends hout => ?outputEnds, fun hgo hsame hends hin => ?inputEnds⟩,
    fun n hrest => ?diagnosisRests, fun n hin hclass hheard => ⟨fun hhigh => ?high, fun hlow hbelow => ?below, fun hlow hwin habove => ?above,
      fun hlow hwin hinside => ?inside⟩, ?heldChange, ?chatter, ?stuck, ?silent, ?resumed⟩⟩
  · exact exec_onApp_held hheld (show execDebounceComplete f level t s = _ from rfl)
  · exact exec_onApp_held hheld (show execSupervisionDiagnosis f n s = _ from rfl)
  · exact exec_onApp_held hheld (show execHeldChangeTimeout f s = _ from rfl)
  · exact exec_onApp_held hheld (show execChatterSettled f s = _ from rfl)
  · exact exec_onApp_held hheld (show execStuckTime f s = _ from rfl)
  · exact exec_onApp_held hheld (show execIslandSilent f s = _ from rfl)
  · exact exec_onApp_held hheld (show execIslandFramesResumed f s = _ from rfl)
  case debounceRests =>
    refine exec_onApp_rests (show execDebounceComplete f level t s = _ from rfl) ?_
    by_cases hidle : s.app.on (Reg.FIO_CFG_en f) = false ∨ (vat s.app.fio.ch f).islandOff = true ∨
        ((vat s.app.fio.ch f).settleAt ≠ none ∧ s.app.passed (vat s.app.fio.ch f).settleAt (s.app.fioDeb f) = false)
    · exact if_pos ((debounceIdle_iff s.app f).mpr hidle)
    · exact (if_neg (mt (debounceIdle_iff s.app f).mp hidle)).trans
        (if_pos ((debounceSame_iff s.app f level).mpr (hrest.resolve_left hidle)))
  case outputMoves =>
    refine exec_onApp_acts hlive (show execDebounceComplete f level t s = _ from rfl) ((if_neg (mt (debounceIdle_iff s.app f).mp hgo)).trans ?_)
    refine (if_neg (mt (debounceSame_iff s.app f level).mp fun h => hmoved h.1)).trans ((if_pos hout).trans ?_)
    exact congrArg (App.fioShow · f true) (if_neg (by simpa using hmoved))
  case inputMoves =>
    refine exec_onApp_acts hlive (show execDebounceComplete f level t s = _ from rfl) ((if_neg (mt (debounceIdle_iff s.app f).mp hgo)).trans ?_)
    refine (if_neg (mt (debounceSame_iff s.app f level).mp fun h => hmoved h.1)).trans ((if_neg (Bool.eq_false_iff.mp hin)).trans ?_)
    exact if_neg (by simpa using hmoved)
  case outputEnds =>
    refine exec_onApp_acts hlive (show execDebounceComplete f level t s = _ from rfl) ((if_neg (mt (debounceIdle_iff s.app f).mp hgo)).trans ?_)
    refine (if_neg (mt (debounceSame_iff s.app f level).mp fun h => h.2 hends)).trans ((if_pos hout).trans ?_)
    exact congrArg (App.fioShow · f true) (if_pos (by simpa using hsame))
  case inputEnds =>
    refine exec_onApp_acts hlive (show execDebounceComplete f level t s = _ from rfl) ((if_neg (mt (debounceIdle_iff s.app f).mp hgo)).trans ?_)
    refine (if_neg (mt (debounceSame_iff s.app f level).mp fun h => h.2 hends)).trans ((if_neg (Bool.eq_false_iff.mp hin)).trans ?_)
    exact if_pos (by simpa using hsame)
  case diagnosisRests =>
    exact exec_onApp_rests (show execSupervisionDiagnosis f n s = _ from rfl) (if_pos (by simpa [or_assoc] using hrest))
  case high => exact exec_supervisionDiagnosis hlive hin hclass hheard (if_pos hhigh)
  case below =>
    refine exec_supervisionDiagnosis hlive hin hclass hheard ((if_neg (Bool.eq_false_iff.mp hlow)).trans ?_)
    dsimp only
    rw [if_pos hbelow, releaseHeld_outside _ (by decide), judgeRegion_below]
    rfl
  case above =>
    refine exec_supervisionDiagnosis hlive hin hclass hheard ((if_neg (Bool.eq_false_iff.mp hlow)).trans ?_)
    dsimp only
    rw [if_neg (Nat.not_lt.mpr hwin), if_neg (Nat.not_lt.mpr habove), releaseHeld_outside _ (by decide), judgeRegion_above]
    rfl
  case inside =>
    refine exec_supervisionDiagnosis hlive hin hclass hheard ((if_neg (Bool.eq_false_iff.mp hlow)).trans ?_)
    dsimp only
    rw [if_neg (Nat.not_lt.mpr hwin), if_pos hinside, releaseHeld_inside, judgeRegion_inside]
    rfl
  case heldChange =>
    exact exec_onApp_ite hlive (show execHeldChangeTimeout f s = _ from rfl) (fun h => if_neg (by simp [h])) (fun h => if_pos (by simpa using h))
  case chatter =>
    exact exec_onApp_ite hlive (show execChatterSettled f s = _ from rfl)
      (fun h => (if_pos (by simp [h.1, h.2])).trans (if_congr (by simp) rfl rfl)) (fun h => if_neg (by simpa using h))
  case stuck =>
    exact exec_onApp_ite hlive (show execStuckTime f s = _ from rfl)
      (fun h => if_pos (by simpa [and_assoc] using h)) (fun h => if_neg (by simpa [and_assoc] using h))
  case silent => exact exec_onApp_acts hlive (show execIslandSilent f s = _ from rfl) rfl
  case resumed => exact exec_onApp_acts hlive (show execIslandFramesResumed f s = _ from rfl) rfl

end Sys2Proof.Machine
end

section
/-! SUPPORT. The events of field outputs and field supplies (O36). -/

namespace Sys2Proof.Machine

open Host

/-! ### Rows of the islands, which act in a held module too -/

/-- A row of the islands whose condition does not hold. -/
theorem exec_onIsland_rests {i : Instr} {s : State} {f : App → App} (hexec : exec i s = s.onIsland f) (h : f s.app = s.app) :
    exec i s = .next s := by
  rw [hexec, onIsland_eq, h]; rfl

/-- A row of the islands that acts where `p` holds, and rests elsewhere. -/
theorem exec_onIsland_ite {i : Instr} {s : State} {f : App → App} {b : App} {p : Prop} [Decidable p] (hexec : exec i s = s.onIsland f)
    (hacts : p → f s.app = b) (hrests : ¬ p → f s.app = s.app) : exec i s = .next (if p then s.withApp b else s) := by
  split
  case isTrue hp => exact exec_onIsland_acts hexec (hacts hp)
  case isFalse hp => exact exec_onIsland_rests hexec (hrests hp)

/-! ### The diagnoses of an output (R444, R445) -/

theorem fioOverload_eq (x : App) (f : Nat) (thermal : Bool) (c : FioCh) : x.fioOverload f thermal c =
    if x.on (Reg.FIO_STAT_on f) = true ∧ (thermal = true ∨ (c.limit.on = true ∧ x.since c.limit.at_ (2 * tMs) = true)) then
      ((x.onFio f fun c => { c with overload := true }).fioTrip f).fioRecord f 10 c.retries x.edgeNow
    else if c.overload = true ∧ x.on (Reg.FIO_STAT_on f) = true ∧ c.limit.on = false ∧ x.since c.limit.at_ (x.fioDiagTime f) = true then
      (x.onFio f fun c => { c with overload := false, retries := 0 }).fioRecord f 11 c.retries x.edgeNow
    else x := if_congr (by simp) rfl (if_congr (by simp [and_assoc]) rfl rfl)

theorem fioExt_eq (x : App) (f v : Nat) (c : FioCh) : x.fioExt f v c =
    if c.ext.on ≠ c.extDrive ∧ x.since c.ext.at_ (x.fioDiagTime f) = true then
      (x.onFio f fun y => { y with extDrive := c.ext.on }).fioRecord f (if c.ext.on then 8 else 9) v x.edgeNow
    else x := if_congr (by simp) rfl rfl

theorem fioOpen_eq (x : App) (f i : Nat) (c : FioCh) : x.fioOpen f i c =
    if c.openW.on ≠ c.openLoad ∧ x.since c.openW.at_ (x.fioDiagTime f) = true then
      (x.onFio f fun y => { y with openLoad := c.openW.on }).fioRecord f (if c.openW.on then 12 else 13) i x.edgeNow
    else x := if_congr (by simp) rfl rfl

/-! ### The field supplies (R449, R450) -/

/-- Where a latched supply is released: neither low nor dead, and not low for recover. -/
theorem latchFree_iff (a : App) (p : Nat) :
    (a.on (Reg.fsLatched p) && !a.on (Reg.fsLow p) && !a.on (Reg.fsDead p)
      && a.since (vat a.fio.sup p).lowClearAt (a.get Reg.FIO_CTL_recover * 10 * tMs)) = true ↔
    a.on (Reg.fsLatched p) = true ∧ a.on (Reg.fsLow p) = false ∧ a.on (Reg.fsDead p) = false ∧
      a.since (vat a.fio.sup p).lowClearAt (a.get Reg.FIO_CTL_recover * 10 * tMs) = true := by
  simp [and_assoc]

/-- Settles O36: each row by its condition. -/
theorem fieldOutputEventsAct : Obligations.FieldOutputEventsAct := by
  unfold Obligations.FieldOutputEventsAct
  refine ⟨fun s f => ⟨fun m hrest => ?diagnosisRests, fun m hout hheard => ⟨?diagnosis, rfl⟩,
      fun x c thermal v i => ⟨fioOverload_eq x f thermal c, fioExt_eq x f v c, fioOpen_eq x f i c⟩, ?retry, ?silence, ?rise, ?shutdown⟩,
    fun s hheld => ⟨fun f => ⟨?silenceEndHeld, ?reenableHeld⟩, fun p => ⟨fun low => ?lowHeld, ?deadHeld, ?clearHeld, ?releaseHeld⟩⟩,
    fun s hlive => ⟨fun f => ?silenceEnd, fun f hnone => ?noEnable, fun f t manual hsome => ?reenable, fun p =>
      ⟨fun low hsame => ?lowSame, fun hgood => ?lowSets, fun hlow => ?lowClears, ?dead, ?deadClear, ?release⟩⟩⟩
  case diagnosisRests =>
    exact exec_onIsland_rests (show execOutputDiagnosis f m s = _ from rfl) (if_pos (by simpa using hrest))
  case diagnosis =>
    exact exec_onIsland_acts (show execOutputDiagnosis f m s = _ from rfl) (if_neg (by simp [hout, hheard]))
  case retry => exact exec_onIsland_ite (show execOverloadRetry f s = _ from rfl) (fun h => if_pos h) (fun h => if_neg h)
  case silence => exact exec_onIsland_ite (show execFieldSilence f s = _ from rfl) (fun h => if_pos h) (fun h => if_neg h)
  case rise => exact exec_onIsland_acts (show execFieldSupplyRise f s = _ from rfl) rfl
  case shutdown => exact exec_onIsland_acts (show execOutputShutdownSlot f s = _ from rfl) rfl
  case silenceEndHeld => exact exec_onApp_held hheld (show execFieldSilenceEnd f s = _ from rfl)
  case reenableHeld => exact exec_onApp_held hheld (show execChannelReenable f s = _ from rfl)
  case lowHeld => exact exec_onApp_held hheld (show execFsLow p low s = _ from rfl)
  case deadHeld => exact exec_onApp_held hheld (show execFsDead p s = _ from rfl)
  case clearHeld => exact exec_onApp_held hheld (show execFsDeadClear p s = _ from rfl)
  case releaseHeld => exact exec_onApp_held hheld (show execLatchRelease p s = _ from rfl)
  case silenceEnd => exact exec_onApp_ite hlive (show execFieldSilenceEnd f s = _ from rfl) (fun h => if_pos h) (fun h => if_neg h)
  case noEnable =>
    refine exec_onApp_rests (show execChannelReenable f s = _ from rfl) ?_
    dsimp only
    rw [hnone]
  case reenable =>
    refine exec_onApp_ite hlive (show execChannelReenable f s = _ from rfl) (fun h => ?_) (fun h => ?_)
    · dsimp only
      rw [hsome]
      exact if_pos (by simpa [and_assoc] using h)
    · dsimp only
      rw [hsome]
      exact if_neg (by simpa [and_assoc] using h)
  case lowSame => exact exec_onApp_rests (show execFsLow p low s = _ from rfl) (if_pos (by simpa using hsame))
  case lowSets => exact exec_onApp_acts hlive (show execFsLow p true s = _ from rfl) (if_neg (by simp [hgood]))
  case lowClears => exact exec_onApp_acts hlive (show execFsLow p false s = _ from rfl) (if_neg (by simp [hlow]))
  case dead =>
    dsimp only
    by_cases hdead : s.app.on (Reg.fsDead p) = true
    · rw [if_pos hdead]
      exact exec_onApp_rests (show execFsDead p s = _ from rfl) (if_pos hdead)
    · rw [if_neg hdead]
      exact exec_onApp_acts hlive (show execFsDead p s = _ from rfl) (if_neg hdead)
  case deadClear => exact exec_onApp_ite hlive (show execFsDeadClear p s = _ from rfl) (fun h => if_pos h) (fun h => if_neg h)
  case release =>
    exact exec_onApp_ite hlive (show execLatchRelease p s = _ from rfl) (fun h => if_pos ((latchFree_iff s.app p).mpr h))
      (fun h => if_neg (mt (latchFree_iff s.app p).mp h))

end Sys2Proof.Machine
end
